-- ==== Sys2Proof/Word.lean ====
section
/-! DEFINITION. The word types of the Casrarno architecture (R4, R30, R34) and nothing else. -/

namespace Sys2Proof

/-- A byte. -/
abbrev Byte := BitVec 8
/-- A 32-bit word: an instruction, a scalar, one lane's element of a vector register, a mask. -/
abbrev Word := BitVec 32
/-- A 64-bit value: an address, a pair. -/
abbrev DWord := BitVec 64
/-- A 7-bit operand code (R34, R35, R38). -/
abbrev Code := BitVec 7

end Sys2Proof
end

