-- ==== Sys2Proof/Config.lean ====
section
/-! DEFINITION. What is fixed for the package (R2, R13 to R27), and the free values: constants without a body, for
what the spec leaves to the device. Nothing in Lean can evaluate a free value; a statement holds whatever it is. -/

namespace Sys2Proof.Config

/-- Compute dies, clusters per die, cores per cluster (R2, R14). -/
def numDies : Nat := 4
def clustersPerDie : Nat := 36
def coresPerCluster : Nat := 4
def numClusters : Nat := 144
def numCores : Nat := 576
def coresPerDie : Nat := 144
/-- Group slots and landing slots of a core (R16). -/
def groupSlots : Nat := 128
def landingSlots : Nat := 8
/-- Vector registers the distributor allocates on a core: 6,144 less the 256 of the landing (R16, R197). -/
def coreVregs : Nat := 5888
/-- Accumulator tiles of a core (R16). -/
def coreTiles : Nat := 48
/-- Outstanding memory requests of a core (R16). -/
def requests : Nat := 4096
/-- Scratchpad of a cluster (R17). -/
def spadBytes : Nat := 2097152
/-- Queue entries of a matrix engine, a channel and a copy engine (R248, R269, R305). -/
def matrixQueue : Nat := 64
def channelQueue : Nat := 32
def copyQueue : Nat := 64
/-- Records that the outbound buffer of a core holds (R193). -/
def outbound : Nat := 64
/-- Copy engines of a die (R13). -/
def enginesPerDie : Nat := 24
/-- The residency-request queue (R321). -/
def residencyQueue : Nat := 4096

/-- FREE VALUES (log 7). A byte the device writes in a layout of its own (R238), by a counter. -/
opaque freeByte : Nat → Byte
/-- The bytes of a lossless compressed block (R160), by its raw bytes; the model keeps the raw bytes beside it. -/
opaque compressed : List Byte → Nat → Byte
/-- The units of 16 bytes, less one, of a lossless compressed block (R160), before the bound of its raw size. -/
opaque compressedUnits : List Byte → Nat
/-- The fused Miranien root digest, 64 bytes (R334). -/
opaque rootDigest : Nat → Byte
/-- The secure assignment as the bytes that a quote digests (R335), by its regions, engines and channels. -/
opaque assignmentBytes : List (Nat × Nat) → List Nat → List Nat → List Byte
/-- The private key of 32 bytes that the package derives from its fused secret at boot (R335). -/
opaque attestationSeed : Nat → Byte
/-- The sensor readings in a pit-log entry of kind 4 or 7 (R336), by a counter and the half of DETAIL. -/
opaque sensorReading : Nat → Nat → DWord
/-- The attribute of `vinterp` where the weights of its pixel centre sum to zero (R296 divides by them): by the words of
the primitive record, x, y and the attribute. -/
opaque interpFree : List Word → Nat → Nat → Nat → Word

/-- The four counters of CLK in a record (R196), by a counter and the lane. -/
opaque clkCounters : Nat → Nat → BitVec 64

/-- The owner's core number of a remote physical address that no rule maps to one (R188), by node and address. -/
opaque strayOwner : Nat → Nat → Nat

end Sys2Proof.Config
end

