-- ==== Sys2Proof/Machine/Assoc.lean ====
section
/-! DEFINITION. Sparse stores by number, as sorted lists of entries. A *defaulted* store lists no entry equal to its
default, so that equal stores are equal lists; an *option* store tells an absent entry from a present one. -/

namespace Sys2Proof.Machine.Assoc

/-- A store: entries by increasing key. -/
abbrev Map (α : Type) := List (Nat × α)

/-- The entry at a key, or the default. -/
def get {α : Type} (dflt : α) : Map α → Nat → α
  | [], _ => dflt
  | (k', v) :: m, k => if k' = k then v else get dflt m k

/-- The entry at a key, if there is one. -/
def find {α : Type} : Map α → Nat → Option α
  | [], _ => none
  | (k', v) :: m, k => if k' = k then some v else find m k

/-- A store without the entries of a key. -/
def erase {α : Type} : Map α → Nat → Map α
  | [], _ => []
  | (k', v) :: m, k => if k' = k then erase m k else (k', v) :: erase m k

/-- An entry put before the first larger key. -/
def insert {α : Type} : Map α → Nat → α → Map α
  | [], k, v => [(k, v)]
  | (k', v') :: m, k, v => if k < k' then (k, v) :: (k', v') :: m else (k', v') :: insert m k v

/-- Write of a defaulted store: writing the default removes the entry. -/
def put {α : Type} [DecidableEq α] (dflt : α) (m : Map α) (k : Nat) (v : α) : Map α :=
  if v = dflt then erase m k else insert (erase m k) k v

/-- Write of an option store. -/
def set {α : Type} (m : Map α) (k : Nat) (v : α) : Map α := insert (erase m k) k v

/-- Every key of a store lies above a bound. -/
def above {α : Type} (k : Nat) (m : Map α) : Bool := m.all fun e => decide (k < e.1)

/-- Keys strictly increase. -/
def sorted {α : Type} : Map α → Bool
  | [] => true
  | (k, _) :: m => above k m && sorted m

/-- The canonical form of a defaulted store: keys strictly increase and no entry is the default. -/
def canon {α : Type} [DecidableEq α] (dflt : α) (m : Map α) : Bool :=
  sorted m && m.all fun e => decide (e.2 ≠ dflt)

/-- The keys present. -/
def keys {α : Type} (m : Map α) : List Nat := m.map (·.1)

/-- A defaulted store written at several keys, in the order of the list. -/
def puts {α : Type} [DecidableEq α] (dflt : α) (m : Map α) : List (Nat × α) → Map α
  | [] => m
  | (k, v) :: es => puts dflt (put dflt m k v) es

/-- One entry of an option store changed, if it is present. -/
def upd {α : Type} (m : Map α) (k : Nat) (f : α → α) : Map α := m.map fun e => if e.1 = k then (k, f e.2) else e

end Sys2Proof.Machine.Assoc
end

