-- ==== Sys2Proof/Machine/Bits.lean ====
section
/-! DEFINITION. Bit fields, sign extension, byte order and counting bits (R4, R10, R33). -/

namespace Sys2Proof.Machine.Bits

/-- Bits [lo + n - 1 : lo] of a value, as a number (R4). -/
def fieldNat {k : Nat} (w : BitVec k) (lo n : Nat) : Nat := w.toNat / 2 ^ lo % 2 ^ n

/-- Bits [lo + n - 1 : lo] of a value (R4). -/
def field {k : Nat} (w : BitVec k) (lo n : Nat) : BitVec n := BitVec.ofNat n (w.toNat / 2 ^ lo)

/-- Bit i of a value. -/
def bit {k : Nat} (w : BitVec k) (i : Nat) : Bool := w.toNat / 2 ^ i % 2 == 1

/-- The low n bits of an operand field. -/
def lowBits (c : Code) (n : Nat) : BitVec n := BitVec.ofNat n c.toNat

/-- A narrow field in an operand field, zeros above. -/
def widen {n : Nat} (b : BitVec n) : Code := BitVec.ofNat 7 b.toNat

/-- `vcvt`'s field B: rounding above the source type (R54). -/
def joinBits (hi : BitVec 3) (lo : BitVec 4) : Code := BitVec.ofNat 7 (hi.toNat * 16 + lo.toNat)

/-- A word from its bytes in memory order (R4). -/
def wordOfBytes (b0 b1 b2 b3 : Byte) : Word :=
  BitVec.ofNat 32 (b0.toNat + b1.toNat * 2 ^ 8 + b2.toNat * 2 ^ 16 + b3.toNat * 2 ^ 24)

/-- A number from bytes, the first the least significant (R4). -/
def natOfBytes : List Byte → Nat
  | [] => 0
  | b :: bs => b.toNat + 256 * natOfBytes bs

/-- The n bytes of a number, least significant first (R4). -/
def bytesOfNat : Nat → Nat → List Byte
  | 0, _ => []
  | n + 1, v => BitVec.ofNat 8 v :: bytesOfNat n (v / 256)

/-- `sext(x)` to 64 bits (R10). -/
def sext64 {k : Nat} (x : BitVec k) : DWord := x.signExtend 64

/-- `sext(x)` to 32 bits (R10). -/
def sext32 {k : Nat} (x : BitVec k) : Word := x.signExtend 32

/-- The low and high halves of a pair (R37). -/
def lo32 (x : DWord) : Word := x.setWidth 32
def hi32 (x : DWord) : Word := (x >>> 32).setWidth 32
def join32 (hi lo : Word) : DWord := hi ++ lo

/-- Set bits of the low n bits. -/
def popcount : Nat → Nat → Nat
  | 0, _ => 0
  | n + 1, v => v % 2 + popcount n (v / 2)

/-- The lane numbers set in a mask, in increasing order (R10). -/
def lanesOf (m : Word) : List Nat := (List.range 32).filter fun j => m.getLsbD j

/-- The mask whose bit j is set for each j of a list. -/
def maskOf (js : List Nat) : Word := js.foldl (fun m j => m ||| BitVec.ofNat 32 (2 ^ j)) 0

/-- Bit j of a mask set or cleared. -/
def setBit (m : Word) (j : Nat) (v : Bool) : Word :=
  if v then m ||| BitVec.ofNat 32 (2 ^ j) else m &&& ~~~(BitVec.ofNat 32 (2 ^ j))

/-- `sat(x, T)` for T of n bits, signed or not (R124). -/
def satS (n : Nat) (x : Int) : Int := max (-(2 ^ (n - 1) : Int)) (min x (2 ^ (n - 1) - 1))
def satU (n : Nat) (x : Int) : Int := max 0 (min x (2 ^ n - 1))

end Sys2Proof.Machine.Bits
end

