-- ==== Sys2Proof/Syntax.lean ====
section
/-! DEFINITION. The instructions: one constructor for each row of spec/opcode_table.json. The first 213 are the
instruction words of R52 and R53, with the fields of their formats (R32); a field that names an operand is its
7-bit code, which R34, R35 and R38 decode in the context that R39 gives. The other 95 are the steps of the device
that have no word (the commands of R99, the control node's writes, the events of 95_what_each_step_holds.md). Their
arguments say which queue, group, core or operation the step is about, and carry what the device or its environment
chooses where the spec leaves the choice open. -/

namespace Sys2Proof

/-- A register that the control node, or the group that executes, writes (REGISTER_WRITE). -/
inductive RegTarget where
  /-- the word at an offset of a command processor's control block (R94); block 0 is the primary's -/
  | ctl (block off : Nat)
  /-- a system register of a group, by number (R58), as the debugger reaches it (R243) -/
  | group (gid num : Nat)
  /-- a system register of a core -/
  | core (core num : Nat)
  deriving DecidableEq, Repr

/-- An image as the boot ROM finds it (R334). -/
structure Image where
  bytes : List Byte
  version : Nat
  /-- public key of 32 bytes, signature of 64 -/
  key : List Byte
  signature : List Byte
  deriving DecidableEq, Repr

/-- What a boot after package reset meets (R333, R334): the three images, and the secure assignment; a region is its first
64 KiB frame and how many it has. -/
structure BootChoice where
  processor : Image
  power : Image
  assay : Image
  secRegions : List (Nat × Nat)
  secEngines : List Nat
  secChannels : List Nat
  deriving DecidableEq, Repr

/-- A contribution, or a partial that switches formed (R318), as it reaches the destination package. -/
structure CombinePart where
  podid : Nat
  gid : Nat
  dst : DWord
  donew : DWord
  op : Nat
  bf16 : Bool
  nsrc : Nat
  count : Nat
  vals : List Word
  /-- the elements made from uncorrectable data, by place (R306) -/
  bad : List Nat
  /-- the sender's partition key (R315) -/
  pkey : BitVec 20
  deriving DecidableEq, Repr

/-- What another package asks of a physical address of this one (R314). -/
inductive RemoteAccess where
  | load (pa size : Nat)
  | store (pa : Nat) (bytes : List Byte)
  /-- `op` is the row of R165 in its order (0 iadd to 7 cas); `cmp` is the comparand of cas -/
  | atomic (pa op : Nat) (x cmp : Word)
  deriving DecidableEq, Repr

/-- The instructions and steps, in the order of spec/opcode_table.json. -/
inductive Instr where
  /-- VADD (R427) -/
  | vadd (d a b : Code) (nw : Bool)
  /-- VSUB (R427) -/
  | vsub (d a b : Code) (nw : Bool)
  /-- VMUL (R427) -/
  | vmul (d a b : Code) (nw : Bool)
  /-- VMULH (R427) -/
  | vmulh (d a b : Code) (nw : Bool)
  /-- VMULHU (R427) -/
  | vmulhu (d a b : Code) (nw : Bool)
  /-- VAND (R427) -/
  | vand (d a b : Code) (nw : Bool)
  /-- VOR (R427) -/
  | vor (d a b : Code) (nw : Bool)
  /-- VXOR (R427) -/
  | vxor (d a b : Code) (nw : Bool)
  /-- VANDN (R427) -/
  | vandn (d a b : Code) (nw : Bool)
  /-- VSHL (R427) -/
  | vshl (d a b : Code) (nw : Bool)
  /-- VSHR (R427) -/
  | vshr (d a b : Code) (nw : Bool)
  /-- VSRA (R427) -/
  | vsra (d a b : Code) (nw : Bool)
  /-- VMIN (R427) -/
  | vmin (d a b : Code) (nw : Bool)
  /-- VMAX (R427) -/
  | vmax (d a b : Code) (nw : Bool)
  /-- VMINU (R427) -/
  | vminu (d a b : Code) (nw : Bool)
  /-- VMAXU (R427) -/
  | vmaxu (d a b : Code) (nw : Bool)
  /-- VADDS (R428) -/
  | vadds (d a b : Code) (nw : Bool)
  /-- VADDUS (R428) -/
  | vaddus (d a b : Code) (nw : Bool)
  /-- VSUBS (R428) -/
  | vsubs (d a b : Code) (nw : Bool)
  /-- VSUBUS (R428) -/
  | vsubus (d a b : Code) (nw : Bool)
  /-- VABSD (R428) -/
  | vabsd (d a b : Code) (nw : Bool)
  /-- VPOPC (R428) -/
  | vpopc (d a : Code) (nw : Bool)
  /-- VCLZ (R428) -/
  | vclz (d a : Code) (nw : Bool)
  /-- VBREV (R428) -/
  | vbrev (d a : Code) (nw : Bool)
  /-- VBFX (R429) -/
  | vbfx (d a b : Code) (nw : Bool)
  /-- VBFI (R429) -/
  | vbfi (d a b : Code)
  /-- VMULW (R428) -/
  | vmulw (d a b : Code) (nw : Bool)
  /-- VADD64 (R428) -/
  | vadd64 (d a b : Code) (nw : Bool)
  /-- VSUB64 (R428) -/
  | vsub64 (d a b : Code) (nw : Bool)
  /-- VSHL64 (R428) -/
  | vshl64 (d a b : Code) (nw : Bool)
  /-- VFADD (R442) -/
  | vfadd (d a b : Code) (nw : Bool)
  /-- VFSUB (R442) -/
  | vfsub (d a b : Code) (nw : Bool)
  /-- VFMUL (R442) -/
  | vfmul (d a b : Code) (nw : Bool)
  /-- VFMIN (R442) -/
  | vfmin (d a b : Code) (nw : Bool)
  /-- VFMAX (R442) -/
  | vfmax (d a b : Code) (nw : Bool)
  /-- VFABS (R442) -/
  | vfabs (d a : Code) (nw : Bool)
  /-- VFNEG (R442) -/
  | vfneg (d a : Code) (nw : Bool)
  /-- VFDIV (R442) -/
  | vfdiv (d a b : Code) (nw : Bool)
  /-- VFSQRT (R442) -/
  | vfsqrt (d a : Code) (nw : Bool)
  /-- VFRCP (R442) -/
  | vfrcp (d a : Code) (nw : Bool)
  /-- VFRSQ (R442) -/
  | vfrsq (d a : Code) (nw : Bool)
  /-- VFEX2 (R442) -/
  | vfex2 (d a : Code) (nw : Bool)
  /-- VFLG2 (R442) -/
  | vflg2 (d a : Code) (nw : Bool)
  /-- VFSIN (R442) -/
  | vfsin (d a : Code) (nw : Bool)
  /-- VFCOS (R442) -/
  | vfcos (d a : Code) (nw : Bool)
  /-- VFDOT2 (R132) -/
  | vfdot2 (d a b : Code) (nw : Bool)
  /-- VCMP_EQ (R437) -/
  | vcmp_eq (d a b : Code)
  /-- VCMP_NE (R437) -/
  | vcmp_ne (d a b : Code)
  /-- VCMP_LT (R437) -/
  | vcmp_lt (d a b : Code)
  /-- VCMP_LE (R437) -/
  | vcmp_le (d a b : Code)
  /-- VCMP_LTU (R437) -/
  | vcmp_ltu (d a b : Code)
  /-- VCMP_LEU (R437) -/
  | vcmp_leu (d a b : Code)
  /-- VFCMP_EQ (R437) -/
  | vfcmp_eq (d a b : Code)
  /-- VFCMP_NE (R437) -/
  | vfcmp_ne (d a b : Code)
  /-- VFCMP_LT (R437) -/
  | vfcmp_lt (d a b : Code)
  /-- VFCMP_LE (R437) -/
  | vfcmp_le (d a b : Code)
  /-- VFCMP_UN (R437) -/
  | vfcmp_un (d a b : Code)
  /-- VFCLASS (R437) -/
  | vfclass (d a : Code) (imm : BitVec 7)
  /-- VCVT (R439) -/
  | vcvt (d a : Code) (rnd : BitVec 3) (src : BitVec 4) (nw : Bool) (dst : BitVec 4)
  /-- VCVTEF (R131) -/
  | vcvtef (d a b : Code)
  /-- VPLANE (R434) -/
  | vplane (d a : Code) (nw : Bool)
  /-- VUNPL (R434) -/
  | vunpl (d a : Code) (nw : Bool)
  /-- VSHFL (R434) -/
  | vshfl (d a b : Code) (nw : Bool)
  /-- VSHFX (R434) -/
  | vshfx (d a b : Code) (nw : Bool)
  /-- VBCL (R434) -/
  | vbcl (d a b : Code) (nw : Bool)
  /-- VFIRST (R435) -/
  | vfirst (d a : Code) (nw : Bool)
  /-- VREDADD_I (R435) -/
  | vredadd_i (d a : Code) (nw : Bool)
  /-- VREDADD_F (R132) -/
  | vredadd_f (d a : Code) (nw : Bool)
  /-- VREDMIN_S (R435) -/
  | vredmin_s (d a : Code) (nw : Bool)
  /-- VREDMIN_U (R435) -/
  | vredmin_u (d a : Code) (nw : Bool)
  /-- VREDMIN_F (R435) -/
  | vredmin_f (d a : Code) (nw : Bool)
  /-- VREDMAX_S (R435) -/
  | vredmax_s (d a : Code) (nw : Bool)
  /-- VREDMAX_U (R435) -/
  | vredmax_u (d a : Code) (nw : Bool)
  /-- VREDMAX_F (R435) -/
  | vredmax_f (d a : Code) (nw : Bool)
  /-- VSCAN_I (R435) -/
  | vscan_i (d a : Code) (nw : Bool)
  /-- VSCAN_F (R132) -/
  | vscan_f (d a : Code) (nw : Bool)
  /-- VBALLOT (R435) -/
  | vballot (d a : Code) (nw : Bool)
  /-- VMOV (R434) -/
  | vmov (d a : Code) (nw : Bool)
  /-- VSEL (R449) -/
  | vsel (d a b : Code) (nw : Bool) (m : BitVec 3)
  /-- MAND (R394) -/
  | mand (d a b : Code)
  /-- MOR (R394) -/
  | mor (d a b : Code)
  /-- MXOR (R394) -/
  | mxor (d a b : Code)
  /-- MANDN (R394) -/
  | mandn (d a b : Code)
  /-- MNOT (R394) -/
  | mnot (d a : Code)
  /-- MSET (R394) -/
  | mset (d a : Code)
  /-- MGET (R394) -/
  | mget (d a : Code) (nw : Bool)
  /-- MCLR (R394) -/
  | mclr (d : Code)
  /-- MCNT (R394) -/
  | mcnt (d a : Code) (nw : Bool)
  /-- SADD (R408) -/
  | sadd (d a b : Code) (nw : Bool)
  /-- SSUB (R408) -/
  | ssub (d a b : Code) (nw : Bool)
  /-- SMUL (R408) -/
  | smul (d a b : Code) (nw : Bool)
  /-- SMULH (R408) -/
  | smulh (d a b : Code) (nw : Bool)
  /-- SAND (R408) -/
  | sand (d a b : Code) (nw : Bool)
  /-- SOR (R408) -/
  | sor (d a b : Code) (nw : Bool)
  /-- SXOR (R408) -/
  | sxor (d a b : Code) (nw : Bool)
  /-- SSHL (R408) -/
  | sshl (d a b : Code) (nw : Bool)
  /-- SSHR (R408) -/
  | sshr (d a b : Code) (nw : Bool)
  /-- SSRA (R408) -/
  | ssra (d a b : Code) (nw : Bool)
  /-- SMIN (R408) -/
  | smin (d a b : Code) (nw : Bool)
  /-- SMAX (R408) -/
  | smax (d a b : Code) (nw : Bool)
  /-- SSLT (R408) -/
  | sslt (d a b : Code) (nw : Bool)
  /-- SSLTU (R408) -/
  | ssltu (d a b : Code) (nw : Bool)
  /-- SADDX (R409) -/
  | saddx (d a b : Code) (nw : Bool)
  /-- SADDI (R410) -/
  | saddi (d a : Code) (imm : BitVec 12)
  /-- SANDI (R410) -/
  | sandi (d a : Code) (imm : BitVec 12)
  /-- SORI (R410) -/
  | sori (d a : Code) (imm : BitVec 12)
  /-- SXORI (R410) -/
  | sxori (d a : Code) (imm : BitVec 12)
  /-- SSHLI (R410) -/
  | sshli (d a : Code) (imm : BitVec 5)
  /-- SSHRI (R410) -/
  | sshri (d a : Code) (imm : BitVec 5)
  /-- SSRAI (R410) -/
  | ssrai (d a : Code) (imm : BitVec 5)
  /-- SSLTI (R410) -/
  | sslti (d a : Code) (imm : BitVec 12)
  /-- SLI (R418) -/
  | sli (d : Code) (imm : BitVec 19)
  /-- SLUI (R418) -/
  | slui (d : Code) (imm : BitVec 19)
  /-- VADDI (R430) -/
  | vaddi (d a : Code) (imm : BitVec 12)
  /-- B_EQ (R358) -/
  | b_eq (a : Code) (off : BitVec 16)
  /-- B_NE (R358) -/
  | b_ne (a : Code) (off : BitVec 16)
  /-- B_LT (R358) -/
  | b_lt (a : Code) (off : BitVec 16)
  /-- B_GE (R358) -/
  | b_ge (a : Code) (off : BitVec 16)
  /-- B_GT (R358) -/
  | b_gt (a : Code) (off : BitVec 16)
  /-- B_LE (R358) -/
  | b_le (a : Code) (off : BitVec 16)
  /-- BM_ANY (R360) -/
  | bm_any (a : Code) (off : BitVec 16)
  /-- BM_NONE (R360) -/
  | bm_none (a : Code) (off : BitVec 16)
  /-- BM_ALL (R360) -/
  | bm_all (a : Code) (off : BitVec 16)
  /-- J (R390) -/
  | j (off : BitVec 26)
  /-- CALL (R364) -/
  | call (off : BitVec 26)
  /-- JR (R391) -/
  | jr (a : Code)
  /-- RET (R391) -/
  | ret
  /-- EXIT (R86) -/
  | exit
  /-- VIF (R73) -/
  | vif (a : Code)
  /-- VELSE (R73) -/
  | velse
  /-- VENDIF (R73) -/
  | vendif
  /-- VKILL (R74) -/
  | vkill (a : Code)
  /-- FMT (R76) -/
  | fmt (a : Code)
  /-- WINB (R42) -/
  | winb (a : Code)
  /-- TRAP (R228) -/
  | trap (imm : BitVec 7)
  /-- RETT (R229) -/
  | rett
  /-- BRK (R363) -/
  | brk (imm : BitVec 7)
  /-- NOP (R399) -/
  | nop
  /-- LOOP (R77) -/
  | loop (a : Code) (end12 : BitVec 12)
  /-- PPT (R401) -/
  | ppt (imm : BitVec 19)
  /-- VLD_S8 (R162) -/
  | vld_s8 (d a b : Code) (st : BitVec 4) (x : Bool)
  /-- VLD_Z8 (R162) -/
  | vld_z8 (d a b : Code) (st : BitVec 4) (x : Bool)
  /-- VLD_S16 (R162) -/
  | vld_s16 (d a b : Code) (st : BitVec 4) (x : Bool)
  /-- VLD_Z16 (R162) -/
  | vld_z16 (d a b : Code) (st : BitVec 4) (x : Bool)
  /-- VLD_W (R162) -/
  | vld_w (d a b : Code) (st : BitVec 4) (x : Bool)
  /-- VLD_D (R162) -/
  | vld_d (d a b : Code) (st : BitVec 4) (x : Bool)
  /-- VST_B (R162) -/
  | vst_b (d a b : Code) (st : BitVec 4) (x : Bool)
  /-- VST_H (R162) -/
  | vst_h (d a b : Code) (st : BitVec 4) (x : Bool)
  /-- VST_W (R162) -/
  | vst_w (d a b : Code) (st : BitVec 4) (x : Bool)
  /-- VST_D (R162) -/
  | vst_d (d a b : Code) (st : BitVec 4) (x : Bool)
  /-- VLDC (R163) -/
  | vldc (d a b : Code) (st : BitVec 4) (x : Bool)
  /-- VSTC (R163) -/
  | vstc (d a b : Code) (st : BitVec 4) (x : Bool)
  /-- SLD_W (R416) -/
  | sld_w (d a b : Code) (st : BitVec 4) (x : Bool)
  /-- SLD_D (R416) -/
  | sld_d (d a b : Code) (st : BitVec 4) (x : Bool)
  /-- SST_W (R416) -/
  | sst_w (d a b : Code) (st : BitVec 4) (x : Bool)
  /-- SST_D (R416) -/
  | sst_d (d a b : Code) (st : BitVec 4) (x : Bool)
  /-- VATOM_IADD (R432) -/
  | vatom_iadd (d a b : Code) (st : BitVec 4)
  /-- VATOM_FADD (R432) -/
  | vatom_fadd (d a b : Code) (st : BitVec 4)
  /-- VATOM_AND (R432) -/
  | vatom_and (d a b : Code) (st : BitVec 4)
  /-- VATOM_OR (R432) -/
  | vatom_or (d a b : Code) (st : BitVec 4)
  /-- VATOM_SMIN (R432) -/
  | vatom_smin (d a b : Code) (st : BitVec 4)
  /-- VATOM_SMAX (R432) -/
  | vatom_smax (d a b : Code) (st : BitVec 4)
  /-- VATOM_XCHG (R432) -/
  | vatom_xchg (d a b : Code) (st : BitVec 4)
  /-- VATOM_CAS (R432) -/
  | vatom_cas (d a b : Code) (st : BitVec 4)
  /-- FENCE (R178) -/
  | fence (st : BitVec 4) (scope : BitVec 3)
  /-- XFENCE (R179) -/
  | xfence (scope : BitVec 3) (a : Code)
  /-- SATTR (R168) -/
  | sattr (st : BitVec 4) (a : Code)
  /-- BAR (R219) -/
  | bar (a : Code)
  /-- CFLUSH (R146) -/
  | cflush (st : BitVec 4) (a b : Code)
  /-- CINV (R146) -/
  | cinv (st : BitVec 4) (a b : Code)
  /-- CZERO (R146) -/
  | czero (st : BitVec 4) (a b : Code)
  /-- VPREQ (R154) -/
  | vpreq (d a b : Code)
  /-- CBGET (R141) -/
  | cbget (d a : Code)
  /-- CBPUT (R141) -/
  | cbput (a : Code)
  /-- EVBIND (R215) -/
  | evbind (d a b : Code)
  /-- EVMASK (R216) -/
  | evmask (a : Code)
  /-- EVCLR (R216) -/
  | evclr (a : Code)
  /-- EVPEND (R216) -/
  | evpend (d : Code)
  /-- WAITANY (R217) -/
  | waitany (a : Code)
  /-- FETCHW (R89) -/
  | fetchw (a : Code)
  /-- SPAWN (R88) -/
  | spawn (d a b : Code)
  /-- HOP (R193) -/
  | hop (a : Code)
  /-- HOPBACK (R202) -/
  | hopback
  /-- REJOIN (R205) -/
  | rejoin
  /-- OWNER (R190) -/
  | owner (d a : Code) (nw : Bool)
  /-- HOPCFG (R192) -/
  | hopcfg (a : Code)
  /-- HOPX (R386) -/
  | hopx (a : Code)
  /-- TSHAPE (R249) -/
  | tshape (d a : Code)
  /-- MMA (R258) -/
  | mma (d a b : Code)
  /-- MMAB (R259) -/
  | mmab (d a b : Code)
  /-- MZERO (R261) -/
  | mzero (d : Code)
  /-- MRD (R261) -/
  | mrd (d a b : Code)
  /-- MWR (R261) -/
  | mwr (d a b : Code)
  /-- MFENCE (R262) -/
  | mfence (d : Code)
  /-- MWAIT (R263) -/
  | mwait (a : Code)
  /-- MSURF (R256) -/
  | msurf (d a b : Code)
  /-- IVSLD (R274) -/
  | ivsld (d a : Code) (st : BitVec 4)
  /-- BMAC (R276) -/
  | bmac (d a : Code) (st : BitVec 4)
  /-- EMBW (R278) -/
  | embw (d a : Code) (st : BitVec 4)
  /-- CPA (R308) -/
  | cpa (d a : Code) (st : BitVec 4)
  /-- CPA_RING (R312) -/
  | cpa_ring (d a : Code) (st : BitVec 4)
  /-- CPRED (R318) -/
  | cpred (d a : Code) (st : BitVec 4)
  /-- SFLD (R302) -/
  | sfld (d a b : Code)
  /-- SFST (R302) -/
  | sfst (d a b : Code)
  /-- ZT (R297) -/
  | zt (d : Code)
  /-- PXOUT (R298) -/
  | pxout (a b : Code)
  /-- VTXOUT (R291) -/
  | vtxout (d a b : Code)
  /-- VINTERP (R296) -/
  | vinterp (d a : Code) (nw : Bool)
  /-- TSMP (R303) -/
  | tsmp (d a b : Code)
  /-- CSRR (R370) -/
  | csrr (d b : Code) (nw : Bool)
  /-- CSRW (R370) -/
  | csrw (a b : Code)
  /-- VFMA (R443) -/
  | vfma (d a b c : Code)
  /-- VFNMA (R443) -/
  | vfnma (d a b c : Code)
  /-- LAUNCH (R101): Command that checks a launch header and starts, restores or refuses the launch. -/
  | launch (q : Nat)
  /-- LAUNCHI (R99): Launch command whose counts are read from memory at start. -/
  | launchi (q : Nat)
  /-- LOOP_COUNTED (R99): Command that runs its body IMM times. -/
  | loop_counted (q : Nat)
  /-- LOOP_CONDITIONAL (R99): Command that runs its body while the memory condition holds. -/
  | loop_conditional (q : Nat)
  /-- ENDLOOP (R99): Command that ends the innermost command loop. -/
  | endloop (q : Nat)
  /-- IF (R99): Command that branches on the memory condition. -/
  | cmd_if (q : Nat)
  /-- ELSE (R99): Command that begins the other arm of IF. -/
  | cmd_else (q : Nat)
  /-- ENDIF (R99): Command that ends an IF. -/
  | cmd_endif (q : Nat)
  /-- WAITMEM (R99): Command that holds its queue until the condition holds. -/
  | waitmem (q : Nat)
  /-- SIGNAL (R99): Command that waits for earlier launches and copies and writes IMM with a system-scope release. -/
  | signal (q : Nat)
  /-- SIGNAL_CONFIRMED (R325): SIGNAL with FLAGS[0] set that also waits for confirmation of the launches. -/
  | signal_confirmed (q : Nat)
  /-- SFALLOC (R159): Privileged command that allocates a surface handle, spilling victims if needed. -/
  | sfalloc (q base : Nat)
  /-- SFFREE (R457): Privileged command that frees a handle in any state. -/
  | sffree (q : Nat)
  /-- COPY (R308): Command that runs a copy descriptor on a copy engine. -/
  | copy (q : Nat)
  /-- PREEMPT (R234): Command that pre-empts a running launch. -/
  | preempt (q : Nat)
  /-- VFSET (R111): Privileged command that changes the frequency of the dies in a mask. -/
  | vfset (q : Nat)
  /-- CPGATE_GATE (R112): Privileged command requesting that a core be power-gated. -/
  | cpgate_gate (q : Nat)
  /-- CPGATE_UNGATE (R112): Privileged command ungating a core. -/
  | cpgate_ungate (q : Nat)
  /-- FENCE_CMD (R99): Command that holds its queue until every earlier command has completed. -/
  | fence_cmd (q : Nat)
  /-- LLCSZ_WRITE (R25): Control-node write of SMCFG.LLCSZ that starts an LLC resize or sets REFUSED. -/
  | llcsz_write (stack : Nat) (v : Word)
  /-- TLBINV_WRITE (R156): Write of the upper TLBINV word that starts a TLB invalidation or refuses it. -/
  | tlbinv_write (v : DWord)
  /-- FROZEN_CLEAR (R338): Writing 1 to PITHEAD.FROZEN resumes pit logging. -/
  | frozen_clear (die : Nat) (v : Word)
  /-- QUEUE_TAIL_WRITE (R97): Control-node write of a stopped queue's TAIL or descriptor, which restarts it from HEAD. -/
  | queue_tail_write (q : Nat) (tail : Word)
  /-- CB_DESCRIPTOR_WRITE (R140): Store to a circular-buffer descriptor that enables, disables or refuses it. -/
  | cb_descriptor_write (n off size : Nat) (v : DWord)
  /-- MTCAP_WRITE (R109): Write of MTCAP that lowers MTBAL to the new capacity. -/
  | mtcap_write (v : Word)
  /-- EVPEND_WRITE (R371): csrw of EVPEND clearing the pending bits written 1. -/
  | evpend_write (v : Word)
  /-- LDTMO_WRITE (R372): Write of LDTMO that may make waiting pools due at once. -/
  | ldtmo_write (v : Word)
  /-- TSTAT_WRITE (R226): Write of TSTAT.INTRAP that re-enables trap delivery. -/
  | tstat_write (v : Word)
  /-- FSTR_WRITE (R127): Write of FSTR that replaces the sticky flags. -/
  | fstr_write (v : Word)
  /-- REGISTER_WRITE (R7): Write to any register without a row of its own, applied field by field by access code. -/
  | register_write (r : RegTarget) (v : DWord)
  /-- ATTESTATION_QUOTE (R335): A nonce from the control node returns a signed 352-byte quote. -/
  | attestation_quote (nonce : BitVec 256)
  /-- PACKAGE_RESET (R9): Package reset sets every register to its reset value. -/
  | package_reset (boot : BootChoice)
  /-- LLC_RESIZE_COMPLETE (R25): After spills and write-back the new LLC size is applied and BUSY clears. -/
  | llc_resize_complete (stack : Nat)
  /-- TLBINV_DONE (R156): Invalidation completes and DONE reads 1. -/
  | tlbinv_done
  /-- BLOCK_PLACEMENT (R104): The distributor places the next block that fits on the best-ranked cluster. -/
  | block_placement (die : Nat)
  /-- FETCHW_DELIVERY (R90): The distributor withdraws a block and writes the mailbox with a release. -/
  | fetchw_delivery (gid : Nat)
  /-- LAUNCH_COMPLETE (R87): The launch's last group, engine operation and block finish and completion is signalled. -/
  | launch_complete (lid : Nat)
  /-- DEADLINE_PASSED (R102): A running launch passes its DEADLINE and status 5 is written. -/
  | deadline_passed (lid : Nat)
  /-- WAITMEM_TIMEOUT (R99): TMO expires before the condition holds and the queue stops with error 0x04. -/
  | waitmem_timeout (q : Nat)
  /-- TOKEN_REFILL (R109): Once per core cycle MTBAL is raised by MTFILL up to MTCAP. -/
  | token_refill (cluster : Nat)
  /-- FREQUENCY_CHANGE (R111): Once every block is at a transition point the die changes frequency and parked groups resume. -/
  | frequency_change (die : Nat)
  /-- VFSET_TIMEOUT (R111): A die not ready within 1 ms abandons the change and reports timeout. -/
  | vfset_timeout (die : Nat)
  /-- CORE_GATE (R112): A core with a gate request gates once it holds no group and no filled shaft entry. -/
  | core_gate (core : Nat)
  /-- FORCED_SAVE (R234): PRETMO expiry forces a full save of groups not at a pre-emption point. -/
  | forced_save (gid : Nat)
  /-- GROUP_SAVE (R237): After its waits the save engine writes a group's context and frees its resources. -/
  | group_save (gid : Nat)
  /-- CONTINUATION_ARRIVAL (R198): A continuation record arrives at a landing and joins or opens a pool. -/
  | continuation_arrival (k : Nat)
  /-- POOL_DUE (R198): LDTMO cycles after its oldest arrival a pool becomes due. -/
  | pool_due (core k : Nat)
  /-- MIGRANT_LAUNCH (R200): A due pool is launched as a migrant group in a free landing slot. -/
  | migrant_launch (core : Nat)
  /-- RETURN_ARRIVAL (R204): A return reaches the home core's return store or is discarded by GEN. -/
  | return_arrival (k : Nat)
  /-- REJOIN_APPLY (R205): Once every away lane has an entry, rejoin applies the entries and may trap. -/
  | rejoin_apply (gid : Nat)
  /-- EXIT_AWAY_RETIRE (R206): An exit parked with lanes away retires once every entry has arrived. -/
  | exit_away_retire (gid : Nat)
  /-- SITE_NOTICE (R208): A forwarding migrant's notice tells the home core where a lane lies. -/
  | site_notice (k : Nat)
  /-- PACKAGE_FENCED (R315): The fabric manager reports a package fenced; lanes there get KIND 4 entries. -/
  | package_fenced (pkg : Nat)
  /-- WAITANY_WAKE (R217): A parked group resumes at the handler of a newly pending slot. -/
  | waitany_wake (gid : Nat)
  /-- BARRIER_STALL (R221): A phase open 100 ms without DBGBLK sets STALL and is reported. -/
  | barrier_stall (cluster b : Nat)
  /-- MATRIX_BATCH_COMPLETE (R262): A batch completes, MBDONE advances, flags merge and the kind-6 event fires. -/
  | matrix_batch_complete (gid : Nat)
  /-- NEARBANK_COMPLETE (R272): A near-bank or Prospector command writes its final status. -/
  | nearbank_complete (oid : Nat)
  /-- COPY_COMPLETE (R306): A copy finishes and writes its final status word. -/
  | copy_complete (oid : Nat)
  /-- RING_NOTIFY_READ (R312): The engine reads a changed NOTIFY and starts published entries. -/
  | ring_notify_read (oid : Nat)
  /-- RING_ENTRY_COMPLETE (R312): A ring entry completes and DONE advances in index order. -/
  | ring_entry_complete (oid idx : Nat)
  /-- CPRED_SEND_COMPLETE (R318): The contribution has been read and left the package; status is written. -/
  | cpred_send_complete (oid : Nat)
  /-- COMBINE_ARRIVAL (R318): A partial reaches the destination engine and is accumulated; at NSRC it is written. -/
  | combine_arrival (p : CombinePart)
  /-- COMBINE_TIMEOUT (R318): 10 ms after the first arrival an incomplete combine writes its partial. -/
  | combine_timeout (k : Nat)
  /-- SPILL_FLIP (R160): When no tile is marked the handle flips to spilled. -/
  | spill_flip (ctx h : Nat)
  /-- RESTORE_FLIP (R161): A restoring handle flips to resident once copied. -/
  | restore_flip (ctx h : Nat)
  /-- FRAME_MIGRATION (R157): The control node starts moving a GDDR 7 frame through a controller's indirection table. -/
  | frame_migration (src dst : Nat)
  /-- FRAME_MIGRATION_FLIP (R157): After the copy the controller flips the indirection entry in one step. -/
  | frame_migration_flip (src : Nat)
  /-- DRAW_START (R290): The front end picks the next startable draw and gives it a DSEQ. -/
  | draw_start
  /-- PRIMITIVE_RASTERISE (R294): A primitive record with matching LNUM is read, culled or split into pixel groups. -/
  | primitive_rasterise
  /-- FRAGMENT_APPLY (R300): A bank applies a fragment's depth or colour once earlier keys are done. -/
  | fragment_apply (k : Nat)
  /-- ASSAY_SLOT_OPEN (R322): Every 200 us the sequencer opens a slot and drains the next core. -/
  | assay_slot_open (die : Nat)
  /-- ASSAY_SCAN_START (R322): Once drained, the core's state is retained and scanned for 20 us. -/
  | assay_scan_start (die : Nat)
  /-- ASSAY_SCAN_END (R324): The scan result is recorded; a failure takes the core out of service. -/
  | assay_scan_end (die : Nat) (pass : Bool)
  /-- ASSAY_SKIP (R323): A drain not complete after 50 us skips the slot. -/
  | assay_skip (die : Nat)
  /-- CANARY_WARNING (R328): A canary warning raises the domain voltage one step. -/
  | canary_warning (dom : Nat)
  /-- VOLTAGE_STEP_DOWN (R328): After 10 ms without warning the voltage falls one step. -/
  | voltage_step_down (dom : Nat)
  /-- CANARY_FATAL (R328): A warning persisting at step 16 for 1 ms is fatal. -/
  | canary_fatal (dom : Nat)
  /-- FATAL_ERROR (R338): A fatal error freezes the pit logs, stops issue and notifies the control node. -/
  | fatal_error
  /-- DROOP_TRIP (R329): A droop detector trips and stretches the cluster clock. -/
  | droop_trip (cluster : Nat)
  /-- TALLOW_UPDATE (R330): Every 100 us each die's TALLOW is recomputed from temperature, given in
  thousandths of a °C (log 24). -/
  | tallow_update (die : Nat) (temp : Int)
  /-- GDDR_OVERHEAT (R331): A GDDR 7 device crossing a temperature threshold changes refresh or bandwidth;
  its temperature in thousandths of a °C (log 24). -/
  | gddr_overheat (ctrl : Nat) (temp : Int)
  /-- TRAP_TIMER (R246): The group timer reaching TTCMP with TTEN set traps TIMER. -/
  | trap_timer (gid : Nat)
  /-- BREAKPOINT_HALT (R244): A group halts before an instruction at an enabled breakpoint address. -/
  | breakpoint_halt (gid : Nat)
  /-- DEBUG_RELEASE (R244): The debugger releases a Halted group to resume at TNEXT. -/
  | debug_release (gid : Nat)
  /-- RESIDENCY_REQUEST_FORWARD (R321): The primary command processor forwards residency requests in post order. -/
  | residency_request_forward
  /-- UNDEFINED_WORD (R56): A fetched word with a reserved major, FN, CND, type or rounding value, or END12 = 0, raises UNDEF and has no effect. -/
  | undefined_word (w : Word)
  /-- FETCH_FAULT (R224): An instruction fetch fails translation, residency, permission or aperture checks, or returns uncorrectable data, and the group traps or is killed at the fetched address. -/
  | fetch_fault
  /-- UNDEFINED_COMMAND (R97): A command record with an undefined OP stops its queue with error 0x01. -/
  | undefined_command (q : Nat)
  /-- LOAD_RETURN (R417): An outstanding load's value returns, is written to its pending destination, may set m7, and releases the scoreboard. -/
  | load_return (gid k : Nat)
  /-- WRITE_REACHES_HOME (R182): A write issued earlier is applied at its home and becomes visible, entering the coherence order and T. -/
  | write_reaches_home (gid k : Nat)
  /-- GROUP_TIMER_MATCH (R213): A group's gtim reaches GTCMP, and a slot of event kind 4 becomes pending. -/
  | group_timer_match (gid : Nat)
  /-- DROOP_END (R329): The supply droop ends, and the cluster clock stops being stretched. -/
  | droop_end (cluster : Nat)
  /-- REMOTE_ACCESS_ARRIVAL (R314): An access or atomic from another package arrives on a fabric plane and is applied at the home of its remote physical address. -/
  | remote_access_arrival (a : RemoteAccess)
  /-- FABRIC_BRING_UP (R15): The fabric manager assigns the package its pkgid and its partition key. -/
  | fabric_bring_up (pkg key : Nat)
  /-- DEBUGGER_ATTACH (R225): The control node attaches a debugger to a launch, or detaches it, and so changes whether brk and undeliverable traps halt the group or kill it. -/
  | debugger_attach (lid : Nat) (on : Bool)
  deriving DecidableEq, Repr

end Sys2Proof
end

