-- ==== Sys2Proof/Machine/State.lean ====
section
/-! DEFINITION. The state of one package, its reset value, and the reasons a step can stop. Everything is plain data.
Register files, tiles and the numbered units of the package are sparse stores (Machine/Assoc.lean): an entry not
listed holds its reset value. -/

namespace Sys2Proof.Machine

open Sys2Proof.Machine.Assoc

/-! ### Memory -/

/-- Bytes by location number, by increasing location; an unlisted byte reads 0 (log 1). Machine/Place.lean numbers the
locations: physical addresses stand for themselves, the other stores lie above them. -/
abbrev Memory := List Host.Cell

/-- The canonical form of memory: locations strictly increase and no zero byte is listed. -/
abbrev Memory.wf (m : Memory) : Bool := canon (0 : Byte) m

/-! ### The causal order and the caches (R144, R172 to R174) -/

/-- Agents towards which an edge of the causal order counts, by where they run (R169, R174). -/
inductive Aud where
  | all | die (d : Nat) | cluster (c : Nat) | group (gid core : Nat)
  deriving DecidableEq, Repr

/-- Writes that precede an access in the causal order, each with the agents towards which that counts. A write is named
while some copy in an L1 misses it: no other can be missed by a read (R173). -/
abbrev Seen := List (Aud × Nat)

/-- What precedes the next access of a stream (R172, R185). -/
structure View where
  /-- its next load or store: what its loads have read and followed -/
  seen : Seen
  /-- its next store: its own stores and what they followed, since stream order does not place a write before a read of
  other bytes -/
  wrote : Seen
  /-- any access, a `vatom` too: through fences, acquires and synchronisation -/
  fenced : Seen
  /-- what its `vatom`s have met, for the next fence or release -/
  heard : Seen
  /-- any access: what those of the lanes at other sites were and followed, each towards the agents in the scope of its
  stream; and the same towards the groups that carry the lanes, whatever those scopes (R185) -/
  came : Seen
  mine : Seen
  /-- what the accesses of the stream here, and at the earlier sites of a migrant, were and followed, in the same two ways:
  the lanes that leave take it along -/
  along : Seen
  did : Seen
  deriving DecidableEq, Repr

def View.none : View := { seen := [], wrote := [], fenced := [], heard := [], came := [], mine := [], along := [], did := [] }

/-- A byte that a copy of a line still holds in an older value, and the writes to it that the copy misses. -/
structure OldByte where
  off : Nat
  byte : Byte
  missed : List Nat
  deriving DecidableEq, Repr

/-- A line in the L1 of a core (R144): what a read of its old bytes follows, and those bytes. -/
structure L1Copy where
  core : Nat
  carries : Seen
  olds : List OldByte
  deriving DecidableEq, Repr

/-- A line of GDDR 7 in the LLC (R144, R145). -/
structure LlcLine where
  dirty : Bool
  zero : Bool
  deriving DecidableEq, Repr

/-- A TLB entry (R155): context, the first 64 KiB page, whether it maps 256 MiB, where the leaf lies, the leaf. -/
structure TlbEntry where
  ctx : Nat
  page : Nat
  big : Bool
  entry : Nat
  leaf : DWord
  deriving DecidableEq, Repr

/-! ### Groups -/

/-- A register that the hazard check of R46 counts. -/
inductive RegId where
  | v (code : Nat) | s (n : Nat) | m (n : Nat) | t (n : Nat)
  deriving DecidableEq, Repr

/-- A bypass latch (R44, R45): what an instruction of the chain left. -/
inductive Latch where
  /-- no result, or a mask result: never readable -/
  | none
  | sca (w : Word)
  | sca64 (w : DWord)
  /-- elements by lane; a lane inactive at the producer is 0 -/
  | vec (ws : List Word)
  | vec64 (ws : List DWord)
  deriving DecidableEq, Repr

/-- The chain in progress (R43 to R51). -/
structure Chain where
  /-- no instruction may join: nothing has issued, or the last chain ended (R43) -/
  ended : Bool
  /-- the instruction at `last` has issued and waits; it keeps the values it read from latches (R48) -/
  kept : Bool
  /-- the address of the head, and of the last instruction that has issued -/
  head : DWord
  last : DWord
  /-- results, newest first; their number is the position of the next instruction -/
  latches : List Latch
  reads : List RegId
  writes : List RegId
  /-- vector, scalar and mask registers as they stood when the head issued (R49) -/
  savedV : Map Word
  savedS : Map Word
  savedM : Map Word
  /-- the uncorrectable elements and scalars of that moment -/
  savedBadV : List Nat
  savedBadS : List Nat
  /-- uncorrectable latch elements: position * 32 + lane, lane 0 for a scalar latch (R230, R231) -/
  badL : List Nat
  /-- the window base at the head, under which `writes` are named -/
  wb : Nat
  /-- special scalars, by code, as the instruction that waits read them at its issue (R48) -/
  specials : Map Word
  /-- R50: the first word that raised an enabled exception, the lanes, and the flags (as `fst`) -/
  fpIns : Word
  fpLanes : Word
  fpFlags : BitVec 5
  deriving DecidableEq, Repr

structure MaskEntry where
  mask : Word
  fmt : Word
  deriving DecidableEq, Repr

structure LoopEntry where
  start : DWord
  last : DWord
  left : Nat
  deriving DecidableEq, Repr

/-- The trap state of R222. -/
structure TrapRegs where
  tvec : DWord
  inchain : Bool
  cause : BitVec 8
  lbase : BitVec 3
  intrap : Bool
  tpc : DWord
  tnext : DWord
  tlanes : Word
  taddr : DWord
  tins : Word
  deriving DecidableEq, Repr

/-- A return entry of a lane (R204, R205). -/
structure RetEntry where
  kind : Nat
  carry : BitVec 16
  /-- value i is that of `vi`; the numbers of those that are uncorrectable -/
  vals : List Word
  bad : List Nat
  /-- what the lane's accesses at its sites have seen (R185) -/
  clk : Map View
  deriving DecidableEq, Repr

/-- A return entry without values. -/
def RetEntry.bare (kind : Nat) : RetEntry := { kind := kind, carry := 0, vals := [], bad := [], clk := [] }

/-- The continuation registers of R191 and the return entries of R204. -/
structure ContRegs where
  hopcfg : BitVec 16
  hopmax : BitVec 8
  hopref : Word
  hopttl : Word
  rets : Map RetEntry
  /-- the package at which each away lane lies (R208) -/
  sites : Map Nat
  deriving DecidableEq, Repr

/-- A bound event slot (R211). -/
structure EvSlot where
  src : Word
  handler : DWord
  deriving DecidableEq, Repr

structure EventRegs where
  slots : Map EvSlot
  pend : BitVec 8
  mask : BitVec 8
  gtcmp : Word
  barsel : BitVec 6
  deriving DecidableEq, Repr

/-- A batch of matrix operations (R262): the tiles it names, the flags it will merge, the lanes it will kill. -/
structure Batch where
  num : Word
  ops : Nat
  tiles : List Nat
  flags : BitVec 5
  kills : Word
  deriving DecidableEq, Repr

/-- What an operation reads as it stood at its issue (R258, R264): registers, masks, formats and the grant. -/
structure MatrixSnap where
  fmt : Word
  mshape : Word
  amask : Word
  lmask : Word
  wb : Nat
  v : Map Word
  s : Map Word
  badV : List Nat
  deriving DecidableEq, Repr

/-- What an operation in a core's matrix queue does (R248, R261). -/
inductive MatrixAct where
  /-- `mma`, or `mmab` with `many`: the tile, and the codes of its operands -/
  | product (many : Bool) (tile a b : Nat) (snap : MatrixSnap)
  /-- `mzero`: the rows of a tile that become 0 -/
  | zero (tile : Nat) (rows : List Nat)
  /-- `mwr`: elements by number in the tiles -/
  | write (cells : List (Nat × Word))
  deriving DecidableEq, Repr

/-- An entry of a core's matrix queue (R248): its group and batch, and the engine cycles it still takes. -/
structure MatrixOp where
  gid : Nat
  batch : Word
  left : Nat
  act : MatrixAct
  deriving DecidableEq, Repr

structure MatrixRegs where
  mshape : Word
  mstrm : BitVec 4
  mbopen : Word
  mbdone : Word
  /-- tile * 16384 + row * 128 + column -/
  tiles : Map Word
  /-- the open batch, then (`closed`) those closed and not complete, oldest first -/
  opening : Batch
  closed : List Batch
  deriving DecidableEq, Repr

structure DebugRegs where
  step : Bool
  ucelanes : Word
  ttcmp : Word
  tten : Bool
  /-- the breakpoint at this address does not match on the next fetch (R244) -/
  passed : Option DWord
  /-- a breakpoint matched inside the chain: halt at its end (R48) -/
  haltDue : Bool
  deriving DecidableEq, Repr

/-- A byte that a load of a stream has taken from a dirty line of its core's L1 (R144): the group whose store it is, and the
place. Until that store reaches its home, what the load orders waits. -/
structure Ahead where
  stream : Nat
  owner : Nat
  place : Nat
  /-- the agents in the scope of the stream at the load's issue (R185) -/
  aud : Aud
  /-- agents towards whom acquires of the stream that have returned since order later atomics (R177) -/
  acq : List Aud
  deriving DecidableEq, Repr

/-- The operations of `vatom`, in the order of R165. -/
inductive AtomOp where
  | iadd | fadd | and | or | smin | smax | xchg | cas
  deriving DecidableEq, Repr

/-- An atomic of one lane that has not acted: the operation, its operand, the comparand of `cas`, what it follows. -/
structure AtomPart where
  op : AtomOp
  x : Word
  cmp : Word
  carries : Seen
  deriving DecidableEq, Repr

/-- How the texels that a lane of `tsmp` reads become its four components (R303): their format, and the weight of each in
1/65536; none for the one texel of NEAREST. -/
structure TexelPart where
  fmt : Nat
  weights : Option (List Nat)
  deriving DecidableEq, Repr

/-- A circular-buffer slot held (R141). -/
structure HeldSlot where
  desc : Nat
  prod : Bool
  slot : Nat
  deriving DecidableEq, Repr

/-- Where the value of an outstanding load goes (R417). -/
structure LoadPart where
  /-- none: the scalar `reg`; some j: lane j of vector register `reg` (an absolute number) -/
  lane : Option Nat
  reg : Nat
  /-- bytes, by place (Machine/Place.lean), least significant first -/
  places : List Nat
  /-- the cache policy of the access (R144); none: no cache holds it -/
  cp : Option Nat
  /-- a value known at issue: the zero of a non-resident page (R153), a descriptor of a circular buffer -/
  known : Option DWord
  signed : Bool
  /-- the read of an atomic; the read of a texture sample -/
  atom : Option AtomPart
  texel : Option TexelPart
  deriving DecidableEq, Repr

/-- A load that has not returned (R417); one that is outstanding has one part (R186). -/
structure PendLoad where
  stream : Nat
  acquire : Bool
  /-- SCOPE of the stream at the issue (R177) -/
  scope : Nat
  pair : Bool
  /-- it takes old bytes from the L1 where the causal order lets it (R173) -/
  old : Bool
  parts : List LoadPart
  m7 : Word
  deriving DecidableEq, Repr

/-- Whose an outstanding write is: the group's own; that of a copy of the group, with its status scalar, and whether that has
been given to another operation since; or that of a copy that the group has joined, which every later access of the group
follows (R183). -/
inductive Maker where
  | group
  | copy (scalar : Nat) (past : Bool)
  | joined
  deriving DecidableEq, Repr

/-- A store of one lane, or a scalar one, that has not reached its home (R170, R182). -/
structure PendStore where
  stream : Nat
  /-- the agents in the scope of the stream at its issue -/
  aud : Aud
  /-- streams whose loads have taken its bytes or follow it otherwise, each with the agents in its scope at the load's issue:
  their later accesses follow it (R172) -/
  also : List (Nat × Aud)
  /-- such streams in which an acquire has returned since, with its audience (R177) -/
  acq : List (Nat × Aud)
  release : Bool
  lane : Option Nat
  maker : Maker
  /-- the policy keeps it out of the LLC -/
  uncached : Bool
  /-- it is dirty data of the L1, which writes back: loads of other groups of the core may take it (R144) -/
  dirty : Bool
  /-- what it follows -/
  carries : Seen
  /-- bytes by place -/
  bytes : List (Nat × Byte)
  deriving DecidableEq, Repr

/-- A `fence` or `xfence` that is not complete (R178, R179): its streams, and its scope code. -/
structure FenceMark where
  streams : Word
  scope : Nat
  deriving DecidableEq, Repr

/-- What brought a lane to a migrant group (R195, R196). -/
structure Origin where
  carry : BitVec 16
  hops : Nat
  hmax : Nat
  hwid : DWord
  hpkg : Nat
  hcore : Nat
  hslot : Nat
  hlane : Nat
  gen : Nat
  podid : Nat
  ltag : Nat
  /-- the mode of the home group (R31), and whether that is a pixel group, whose fields of the WID R295 gives -/
  priv : Bool
  pix : Bool
  /-- the four 16-bit counters of CLK by die, die 0 in the low one; free values (log 10) -/
  clock : BitVec 64
  deriving DecidableEq, Repr

/-- What a pixel group holds of its primitive (R294 to R298). -/
structure PixelInfo where
  dseq : Nat
  prim : Nat
  /-- the words of the primitive record -/
  record : List Word
  x0 : Nat
  y0 : Nat
  /-- SCOV of lane j, samples in bits 3:0 -/
  scov : Map Nat
  /-- the group has executed `zt`, which tested these lanes -/
  ztDone : Bool
  tested : Word
  /-- lane j sent to target k: entry 4 j + k -/
  sent : List Nat
  /-- lanes whose deferred depth has been written -/
  zwritten : Word
  deriving DecidableEq, Repr

/-- The kind of a group (R68, R200, R295). -/
inductive GroupKind where
  | home
  | migrant (slot : Nat) (origins : Map Origin)
  | pixel (info : PixelInfo)
  deriving DecidableEq, Repr

/-- Why a group is parked (R85), or stands still until the device acts on it. -/
inductive Park where
  | waitany (set : BitVec 8)
  | bar (b : Nat)
  | cbget (d : Nat) (desc : Nat) (prod : Bool)
  | rejoin
  | mwait (t : Word)
  | exit
  /-- Stalled after issue (R48): `bar` at another block's phase, or `mrd` before its batches; it executes again -/
  | stalled
  /-- in `hop` or `hopx`, for room in the outbound buffer of the core (R193, R383) -/
  | room
  /-- Stalled in `hop` until its records have left the outbound buffer (R193) -/
  | hop
  /-- at `ppt` until the frequency change (R111) -/
  | transition
  /-- at a pre-emption point: the save engine takes it (R234); the liveness number of `ppt`, or none -/
  | save (live : Option Nat)
  /-- on a core that is being scanned (R322): what it waited for has come, and it goes on, or raises CBBAD, when the core
  resumes -/
  | resume
  | cbbad
  deriving DecidableEq, Repr

/-- The states of R85 that a group holds between instructions; Stalled is an instruction that does not issue. -/
inductive Status where
  | ready
  | parked (p : Park)
  /-- a Halted group may have been parked (R218) -/
  | halted (was : Option Park)
  | saved (was : Option Park) (wasHalted : Bool)
  deriving DecidableEq, Repr

/-- A group (R68, R84). -/
structure Group where
  core : Nat
  /-- the group slot of the core, 0 to 127; a migrant has its landing slot in `kind` -/
  slot : Nat
  gen : Nat
  launch : Nat
  block : Nat
  ctx : Nat
  wid : DWord
  priv : Bool
  secure : Bool
  kind : GroupKind
  status : Status
  pc : DWord
  /-- the word that issued last: TINS of what a parked instruction raises -/
  ins : Word
  vregs : Nat
  accs : Nat
  wb : Nat
  /-- register * 32 + lane -/
  v : Map Word
  s : Map Word
  m : Map Word
  amask : Word
  lmask : Word
  away : Word
  /-- killed whole (R72): it waits for no lane -/
  killed : Bool
  mstack : List MaskEntry
  lstack : List LoopEntry
  fmt : Word
  fst : BitVec 5
  chain : Chain
  trap : TrapRegs
  cont : ContRegs
  /-- SATTR_n[3:0] -/
  sattr : Map (BitVec 4)
  ev : EventRegs
  mx : MatrixRegs
  dbg : DebugRegs
  gtim : Word
  held : List HeldSlot
  stackNo : Nat
  /-- scalars awaiting a status, once for each operation (R272) -/
  pending : List Nat
  /-- scalars that hold the status of an ended operation which the group has not read (R183) -/
  unread : List Nat
  loads : List PendLoad
  wbuf : List PendStore
  fences : List FenceMark
  /-- bytes taken from dirty lines of other groups of the core (R144) -/
  ahead : List Ahead
  /-- what the streams have seen -/
  view : Map View
  /-- mailbox offsets of `fetchw` requests, oldest first (R91) -/
  fetches : List Nat
  /-- uncorrectable vector elements (register * 32 + lane), scalars, accumulator rows (tile * 128 + row) -/
  badV : List Nat
  badS : List Nat
  badRow : List Nat
  /-- special scalars that are uncorrectable, by code (R231) -/
  badSp : List Nat
  deriving DecidableEq, Repr

/-! ### The units of the package -/

/-- A record in a pool (R195). -/
structure PoolRec where
  vals : List Word
  bad : List Nat
  clk : Map View
  org : Origin
  deriving DecidableEq, Repr

/-- A pool bay of a landing (R198). -/
structure Pool where
  launch : Nat
  /-- the mode of the records' home groups (R31) -/
  priv : Bool
  rpc : DWord
  key : List Word
  fmt : Word
  /-- in arrival order -/
  recs : List PoolRec
  /-- core cycle of the oldest arrival -/
  since : DWord
  due : Bool
  deriving DecidableEq, Repr

/-- The FIFO of the shaft towards a core (R19, R142). -/
structure ShaftFifo where
  free : Nat
  filled : Nat
  pidx : Nat
  cidx : Nat
  /-- parked `cbget`s, oldest first: group, producer -/
  waiters : List (Nat × Bool)
  deriving DecidableEq, Repr

/-- A word of memory that a status goes to: context and address, 0 for none. -/
structure StatusAddr where
  ctx : Nat
  va : DWord
  priv : Bool
  deriving DecidableEq, Repr

structure Core where
  cyc : DWord
  ldtmo : BitVec 16
  bpa0 : DWord
  bpa1 : DWord
  bpa2 : DWord
  bpa3 : DWord
  bpHit : BitVec 4
  bpEn : BitVec 4
  oos : Bool
  skip : BitVec 8
  passes : BitVec 16
  scanning : Bool
  gateReq : Option StatusAddr
  /-- the status word written last for the request -/
  gateStat : Nat
  gated : Bool
  pools : List Pool
  inbound : ShaftFifo
  /-- the L1 TLB, oldest first (R155) -/
  tlb : List TlbEntry
  /-- the matrix queue, in issue order (R248) -/
  mq : List MatrixOp
  /-- generation of each group slot -/
  gens : Map Nat
  deriving DecidableEq, Repr

/-- A barrier object (R219, R220). -/
structure Barrier where
  isOpen : Bool
  owner : Nat
  expected : List Nat
  arrived : List Nat
  /-- NTIME of the die from which the 100 ms count runs -/
  since : DWord
  stall : Bool
  deriving DecidableEq, Repr

/-- A circular-buffer descriptor (R139). -/
structure CbDesc where
  base : BitVec 21
  slotsz : BitVec 8
  nslot : BitVec 8
  en : Bool
  pidx : Nat
  cidx : Nat
  free : Nat
  filled : Nat
  owner : Nat
  /-- parked waiters, oldest first: group, producer -/
  waiters : List (Nat × Bool)
  deriving DecidableEq, Repr

structure Cluster where
  bars : Map Barrier
  cbs : Map CbDesc
  /-- the L2 TLB, oldest first (R155) -/
  tlb : List TlbEntry
  mtcap : BitVec 20
  mtfill : BitVec 8
  mtbal : BitVec 20
  /-- the last of the cluster's quarters that took tokens in this cycle, from 1; 0: none has (R109) -/
  served : Nat
  stretched : Bool
  /-- stretches since the last droop entry in the pit log, and NTIME of that entry -/
  stretches : Nat
  droopAt : Option DWord
  deriving DecidableEq, Repr

/-- An entry of the pit log (R336). -/
structure PitEntry where
  time : DWord
  kind : Nat
  code : Nat
  core : Nat
  slot : Nat
  detail0 : DWord
  detail1 : DWord
  /-- the entry concerns a secure group: DETAIL reads zero through the Fyol port -/
  secure : Bool
  deriving DecidableEq, Repr

structure PitLog where
  entries : Map PitEntry
  next : Nat
  wrapped : Bool
  frozen : Bool
  deriving DecidableEq, Repr

/-- A frequency change asked of a die (R111). -/
structure VfReq where
  id : Nat
  mhz : Nat
  /-- NTIME of the primary die from which the 1 ms counts -/
  since : DWord
  deriving DecidableEq, Repr

/-- The slot of the assay (R322). -/
structure AssaySlot where
  core : Nat
  opened : DWord
  scanFrom : Option DWord
  deriving DecidableEq, Repr

structure Die where
  ntime : DWord
  tallow : BitVec 8
  mhz : Nat
  vfs : List VfReq
  /-- index in the die of the core whose slot is next, and NTIME from which it opens -/
  nextAssay : Nat
  nextSlot : DWord
  assay : Option AssaySlot
  pit : PitLog
  /-- launches passed over at this distributor, with the number of steps (R105) -/
  passed : Map Nat
  deriving DecidableEq, Repr

/-- The voltage of a domain above its table value (R328). -/
structure Domain where
  steps : Nat
  /-- NTIME of the last warning or step -/
  lastWarn : DWord
  /-- NTIME of the first warning at step 16 since the last step down -/
  since16 : Option DWord
  deriving DecidableEq, Repr

/-- A GDDR 7 device (R331): its temperature in thousandths of a °C as last read, its refresh doubled, its bandwidth halved. -/
structure Gddr where
  temp : Int
  doubled : Bool
  halved : Bool
  deriving DecidableEq, Repr

structure Stack where
  llcsz : BitVec 3
  busy : Bool
  refused : Bool
  target : BitVec 3
  deriving DecidableEq, Repr

/-- TLBINV (R156) and the other registers of the primary control block (R94). -/
structure ControlBlock where
  qtbase : DWord
  ctxbase : DWord
  tlbinvLo : DWord
  tlbinvCount : Word
  tlbinvDone : Bool
  tlbinvErr : Bool
  pretmo : Word
  deriving DecidableEq, Repr

/-- The states of a handle (R158). -/
inductive HandleState where
  | resident | spilling | spilled | restoring
  deriving DecidableEq, Repr

/-- The device's copy of a surface table entry (R282). -/
structure Sfte where
  spill : Nat
  rmap : Nat
  base : Nat
  hm1 : Nat
  wm1 : Nat
  pri : Nat
  fmt : Nat
  ms4 : Bool
  layout : Nat
  comp : Nat
  state : HandleState
  /-- order of allocation, and the NTIME of the last access in µs -/
  serial : Nat
  lastUse : Nat
  deriving DecidableEq, Repr

/-- An SFALLOC in progress (R159): the entry to allocate, and whether a victim has been spilled for it. -/
structure AllocReq where
  ctx : Nat
  handle : Nat
  /-- address of the image that receives BASE -/
  image : DWord
  priv : Bool
  entry : Sfte
  status : StatusAddr
  spilled : Bool
  deriving DecidableEq, Repr

/-- A command of a queue that has started and not completed. -/
inductive CmdRef where
  | launch (lid : Nat)
  | op (oid : Nat)
  /-- a frequency change, and whether a die has timed out -/
  | vf (id : Nat) (status : StatusAddr) (late : Bool)
  | preempt (lid : Nat)
  | gate (core : Nat)
  | alloc (r : AllocReq)
  | free (ctx h : Nat) (status : StatusAddr)
  deriving DecidableEq, Repr

/-- A LOOP or IF that is open in a command stream (R99). -/
inductive CmdOpen where
  /-- an IF, in the arm that runs -/
  | arm (els : Bool)
  /-- a LOOP: the counter of its first body record, the passes left (none: conditional) -/
  | loop (body : Nat) (left : Option Nat)
  /-- an IF whose first arm is passed over, and whose ELSE runs -/
  | skipThen
  /-- an IF passed over up to its ENDIF; whether its ELSE has been met -/
  | skipIf (els : Bool)
  /-- a LOOP passed over -/
  | skipLoop
  deriving DecidableEq, Repr

/-- What a command processor holds of a queue beyond its descriptor (R95 to R99). -/
structure Queue where
  stopped : Bool
  /-- innermost first -/
  opens : List CmdOpen
  /-- the command at HEAD is held since this NTIME of the primary die -/
  heldSince : Option DWord
  /-- commands started and not complete -/
  running : List CmdRef
  deriving DecidableEq, Repr

/-- The launch header (R100). -/
structure Header where
  entry : DWord
  widths : List Nat
  plvl : Nat
  counts : List Nat
  blkg : Nat
  vregs : Nat
  accs : Nat
  spad : Nat
  pri : Nat
  priv : Bool
  sec : Bool
  conf : Bool
  tvec : DWord
  live : DWord
  save : DWord
  dsattr : DWord
  deadline : DWord
  podid : Nat
  lsbase : DWord
  lslane : Nat
  dies : Nat
  deriving DecidableEq, Repr

/-- Where a launch stands. -/
inductive LaunchPhase where
  | running | preempting | saved | complete
  deriving DecidableEq, Repr

/-- A draw (R288 to R292): the descriptor as read at the first `vtxout`, the mode it was read in, and how far
rasterisation is. -/
structure Draw where
  ddAddr : DWord
  pixHdr : Header
  priv : Bool
  secure : Bool
  pbuf : DWord
  nprim : Nat
  next : Nat
  dseq : Option Nat
  zh : Nat
  zfunc : Nat
  zen : Bool
  zwr : Bool
  zdefer : Bool
  cull : Nat
  nattr : Nat
  nrt : Nat
  rts : List Nat
  blends : List Nat
  miss : Nat
  ended : Bool
  deriving DecidableEq, Repr

/-- A PREEMPT in progress (R234, R240): its status word, NTIME of its start, the groups whose save
failed. -/
structure PreemptRun where
  status : StatusAddr
  since : DWord
  failed : List Nat
  /-- groups whose save is forced (R234), and groups whose open batch has been closed for it (R267) -/
  forced : List Nat
  shut : List Nat
  deriving DecidableEq, Repr

structure Launch where
  lnum : Nat
  hdr : Header
  ctx : Nat
  /-- the translation root read from the context table at the start (R148) -/
  root : DWord
  queue : Nat
  /-- mode of the queue, for status writes -/
  privq : Bool
  addr0 : DWord
  status : StatusAddr
  phase : LaunchPhase
  /-- blocks placed or withdrawn, in cursor order -/
  cursor : Nat
  /-- the status word written last -/
  statusWas : Nat
  suspect : Bool
  confirmed : Bool
  /-- cores on which a group ran and has not been qualified by a later scan (R325) -/
  ranOn : List Nat
  debugger : Bool
  /-- the pre-emption in progress -/
  preempt : Option PreemptRun
  draw : Option Draw
  /-- blocks saved and not yet placed again -/
  savedBlocks : List Nat
  pastDeadline : Bool
  /-- the pit log has an entry for a LIVE that is not a multiple of 128 (R402) -/
  liveLogged : Bool
  deriving DecidableEq, Repr

structure Block where
  launch : Nat
  wid : DWord
  cluster : Nat
  spadBase : Nat
  spad : Nat
  /-- descriptors owned, kept across a save -/
  savedCbs : Map CbDesc
  savedBars : Map Barrier
  savedSpad : List (Nat × Byte)
  savedBad : List Nat
  /-- ranges of the slice that saves have named, and whether one was full (R237) -/
  ranges : List (Nat × Nat)
  fullSave : Bool
  saved : Bool
  pixel : Bool
  deriving DecidableEq, Repr

/-- A copy ring attached (R310). -/
structure RingInfo where
  header : Nat
  base : Nat
  log2n : Nat
  notify : Nat
  done : Nat
  /-- DONE at the attachment -/
  start : Nat
  /-- entries completed at or above DONE -/
  finished : List Nat
  detaching : Bool
  deriving DecidableEq, Repr

/-- What an engine does with an operation in flight. -/
inductive OpKind where
  | copy (desc : List Byte)
  | ring (r : RingInfo)
  | cpred (desc : List Byte)
  | ivsld (rec : List Byte)
  | bmac (rec : List Byte)
  | embw (rec : List Byte)
  deriving DecidableEq, Repr

/-- An operation of an engine: who issued it, and what its addresses go through (R273, R305). -/
structure EngineOp where
  kind : OpKind
  launch : Nat
  /-- the group for the status write, none for COPY -/
  group : Option Nat
  scalar : Nat
  block : Option Nat
  core : Nat
  ctx : Nat
  root : DWord
  priv : Bool
  secure : Bool
  stream : Nat
  /-- the cache policy of the stream at the issue (R144) -/
  cp : Nat
  engine : Nat
  /-- channels of the command, the handles it pins (context * 4096 + handle) -/
  channels : List Nat
  pins : List Nat
  status : StatusAddr
  /-- rows of a copy or channels of an `ivsld` completed, and whether uncorrectable data went into them -/
  rows : Nat
  poisoned : Bool
  /-- the buffer that a copy waits for has been disabled meanwhile (R309) -/
  bufferGone : Bool
  deriving DecidableEq, Repr

/-- A combine at this package (R318). -/
structure Combine where
  part : CombinePart
  since : DWord
  deriving DecidableEq, Repr

/-- A continuation on its way (R195): destination; sender, by package, core and landing slot (none for a home group);
launch in this package; what it carries, and its origin. -/
structure Cont where
  pkg : Nat
  core : Nat
  fromPkg : Nat
  fromCore : Nat
  fromSlot : Option Nat
  launch : Nat
  rpc : DWord
  key : List Word
  fmt : Word
  vals : List Word
  bad : List Nat
  /-- what the lane's streams have seen: the order that CLK stands for (R185, R196, log 10) -/
  clk : Map View
  /-- the sender's partition key (R208, R315) -/
  pkey : BitVec 20
  org : Origin
  deriving DecidableEq, Repr

/-- A return on its way (R196, R204). -/
structure Return where
  kind : Nat
  vals : List Word
  bad : List Nat
  clk : Map View
  pkey : BitVec 20
  fromPkg : Nat
  org : Origin
  deriving DecidableEq, Repr

/-- A site notice on its way (R208): the home lane, and the package the lane goes to. -/
structure Notice where
  hpkg : Nat
  hcore : Nat
  hslot : Nat
  gen : Nat
  hlane : Nat
  pkg : Nat
  /-- the sender's partition key (R315) -/
  pkey : BitVec 20
  deriving DecidableEq, Repr

/-- An entry of the residency-request queue (R321). -/
structure ResReq where
  ctx : Nat
  vpage : Nat
  core : Nat
  seq : Word
  deriving DecidableEq, Repr

/-- What the package has told the control node (R320). -/
inductive Report where
  | queueStop (q code idx : Nat)
  | fault (cause core slot : Nat) (wid tpc taddr : DWord) (tlanes : Word)
  | halt (gid : Nat)
  | barStall (cluster b : Nat)
  | signal (q : Nat) (value : Word)
  | savef (gid : Nat)
  | suspect (lid : Nat)
  | fatal
  | residency (r : ResReq)
  deriving DecidableEq, Repr

/-- What a `pxout` asks of the depth fragment of a sample (R298): for which target, whether to test, and whether to write the
depth where it passes. -/
structure DepthReq where
  target : Nat
  test : Bool
  write : Bool
  deriving DecidableEq, Repr

/-- A fragment at the banks (R300): depth or colour of one sample, or its place in the order. -/
structure Frag where
  /-- the launch of its draw -/
  lid : Nat
  dseq : Nat
  prim : Nat
  gid : Nat
  lane : Nat
  /-- handle (context * 4096 + handle), pixel, sample -/
  handle : Nat
  x : Nat
  y : Nat
  sample : Nat
  /-- none: depth; some k: target k -/
  target : Option Nat
  /-- colour sent (R, G, B, A), none while it is awaited; and whether its depth test is still to be made -/
  colour : Option (List Word)
  waits : Bool
  /-- of a depth fragment: the depth as the surface would store it, and what has been asked of it, oldest first -/
  depth : Nat
  tests : List DepthReq
  deriving DecidableEq, Repr

/-- A primitive being split into pixel groups by a front end (R294). -/
structure RasterNow where
  lid : Nat
  prim : Nat
  record : List Word
  /-- regions left of its stack, as (x0, y0) -/
  regions : List (Nat × Nat)
  deriving DecidableEq, Repr

/-- What happens next: the agent that moves, or an act of the environment. -/
inductive Action where
  /-- the group issues; with `late` its accesses stay outstanding -/
  | issue (gid : Nat) (late : Bool)
  /-- the group issues, and its loads take old bytes from the L1 where they may (R173) -/
  | issueOld (gid : Nat)
  | device (i : Instr)
  /-- the same, its writes staying outstanding where the device may report before they are made (R183) -/
  | deviceLate (i : Instr)
  /-- a line leaves an L1 or the LLC; a TLB entry goes -/
  | evictL1 (core line : Nat)
  | evictLlc (line : Nat)
  | evictTlb (core k : Nat)
  | evictL2Tlb (cluster k : Nat)
  /-- the clock of a die advances by nanoseconds -/
  | time (die ns : Nat)
  /-- a continuation, a return or a notice from another package reaches the network -/
  | arriveCont (c : Cont)
  | arriveReturn (r : Return)
  | arriveNotice (n : Notice)
  /-- a location becomes uncorrectable -/
  | upsetMem (loc : Nat)
  | upsetV (gid idx : Nat)
  | upsetS (gid n : Nat)
  /-- a special scalar by code; an element of a latch of the chain by position and lane -/
  | upsetSpecial (gid code : Nat)
  | upsetLatch (gid pos lane : Nat)
  | upsetRow (gid idx : Nat)
  | upsetControl (gid : Nat)
  /-- a fuse of an image class is blown (R334) -/
  | blowFuse (cls : Nat)
  /-- the control node or another agent writes bytes of memory -/
  | hostWrite (loc : Nat) (bytes : List Byte)
  deriving DecidableEq, Repr

structure State where
  mem : Memory
  /-- uncorrectable locations -/
  badMem : List Nat
  /-- copies in the L1s, lines of the LLC, and what a reader of a line follows, by line of 128 bytes; the writes that
  copies have missed so far -/
  l1 : Map (List L1Copy)
  llc : Map LlcLine
  msgs : Map Seen
  writes : Nat
  groups : Map Group
  cores : Map Core
  clusters : Map Cluster
  dies : Map Die
  domains : Map Domain
  stk : Map Stack
  gddr : Map Gddr
  ctl : ControlBlock
  queues : Map Queue
  /-- by command processor * 4 + PRI: where the rotation among its queues of that PRI goes on (R96) -/
  rota : Map Nat
  launches : Map Launch
  blocks : Map Block
  /-- context * 4096 + handle -/
  handles : Map Sfte
  ops : Map EngineOp
  combines : List Combine
  /-- contributions on their way through the switches: destination package, contribution -/
  parts : List (Nat × CombinePart)
  conts : List Cont
  rets : List Return
  notices : List Notice
  resq : List ResReq
  resSeq : Word
  reports : List Report
  /-- what the front end of each stack has in hand, in order (R13, R294) -/
  raster : Map (List RasterNow)
  dseq : Nat
  frags : List Frag
  /-- GDDR 7 frames moved: frame to frame (R157), and moves in progress -/
  frames : Map Nat
  moves : List (Nat × Nat)
  lnum : Nat
  pkgid : Nat
  fabric : Bool
  key : BitVec 20
  fenced : List Nat
  /-- secure regions: first 64 KiB frame, and how many -/
  secRegions : List (Nat × Nat)
  secEngines : List Nat
  secChannels : List Nat
  /-- blown fuses of the image classes 0 to 2, and the bytes of the images that booted (R334, R335) -/
  fuses : Map Nat
  images : List (List Byte)
  fatal : Bool
  recovery : Bool
  quote : Option (List Byte)
  /-- the model's own fields: the group that executes, the place in the turn of the one that moved last, what happens
  next, the memory-timing choices of the step, the counter of free values, the next identifier -/
  cur : Nat
  turn : Nat × Nat
  agenda : List Action
  late : Bool
  stale : Bool
  ctr : Nat
  nextId : Nat
  deriving DecidableEq, Repr

/-! ### Reset -/

/-- A landing, gate and assay state at package reset; CYC is a choice of the model (log 2). -/
def ShaftFifo.reset : ShaftFifo := { free := 8, filled := 0, pidx := 0, cidx := 0, waiters := [] }

def Core.reset : Core :=
  { cyc := 0, ldtmo := 512, bpa0 := 0, bpa1 := 0, bpa2 := 0, bpa3 := 0, bpHit := 0, bpEn := 0, oos := false,
    skip := 0, passes := 0, scanning := false, gateReq := none, gateStat := 0, gated := false, pools := [],
    inbound := ShaftFifo.reset, tlb := [], mq := [], gens := [] }

def Barrier.idle : Barrier :=
  { isOpen := false, owner := 0, expected := [], arrived := [], since := 0, stall := false }

def CbDesc.reset : CbDesc :=
  { base := 0, slotsz := 0, nslot := 0, en := false, pidx := 0, cidx := 0, free := 0, filled := 0, owner := 0,
    waiters := [] }

def Cluster.reset : Cluster :=
  { bars := [], cbs := [], tlb := [], mtcap := 1024, mtfill := 4, mtbal := 1024, served := 0, stretched := false,
    stretches := 0, droopAt := none }

def PitLog.reset : PitLog := { entries := [], next := 0, wrapped := false, frozen := false }

def Die.reset : Die :=
  { ntime := 0, tallow := 255, mhz := 700, vfs := [], nextAssay := 0, nextSlot := 0, assay := none,
    pit := PitLog.reset, passed := [] }

def Domain.reset : Domain := { steps := 0, lastWarn := 0, since16 := none }

def Gddr.reset : Gddr := { temp := 0, doubled := false, halved := false }

def Stack.reset : Stack := { llcsz := 2, busy := false, refused := false, target := 2 }

def ControlBlock.reset : ControlBlock :=
  { qtbase := 0, ctxbase := 0, tlbinvLo := 0, tlbinvCount := 0, tlbinvDone := true, tlbinvErr := false,
    pretmo := 1000 }

def Queue.reset : Queue := { stopped := false, opens := [], heldSince := none, running := [] }

/-- The package right after reset: no group, no launch, every register at the reset value of its map (R9). -/
def State.reset : State :=
  { mem := [], badMem := [], l1 := [], llc := [], msgs := [], writes := 0, groups := [], cores := [], clusters := [], dies := [], domains := [], stk := [], gddr := [],
    ctl := ControlBlock.reset, queues := [], rota := [], launches := [], blocks := [], handles := [], ops := [], combines := [], parts := [],
    conts := [], rets := [], notices := [], resq := [], resSeq := 0, reports := [], raster := [], dseq := 0,
    frags := [], frames := [], moves := [], lnum := 0, pkgid := 0, fabric := false, key := 0, fenced := [],
    secRegions := [], secEngines := [], secChannels := [], fuses := [], images := [], fatal := false, recovery := false, quote := none,
    cur := 0, turn := (0, 0), agenda := [], late := false, stale := false, ctr := 0, nextId := 1 }

/-! ### Stops -/

/-- Why the machine stops. -/
inductive Fault where
  /-- A fatal error has stopped all issue (R338). Raised by `step` once the state says so. Safe: the device, too,
  executes nothing until package reset. -/
  | issueStopped
  /-- The package refused its images at boot and stays in recovery (R334). Raised by `step`. Safe, as above. -/
  | inRecovery
  deriving DecidableEq, Repr

/-- Why an instruction has no meaning here. -/
inductive Refusal where
  /-- The instruction of this mnemonic has not been given its meaning. Raised by the dispatcher only. Safe: nothing
  can be proved about a run through it. -/
  | notModelled (mnemonic : String)
  deriving DecidableEq, Repr

end Sys2Proof.Machine
end

