-- ==== Sys2Proof/Machine/Units.lean ====
section
/-! DEFINITION. The numbered units of the package: where each lies (R12 to R23), reading and replacing one, the pit log
(R336) and the reports to the control node (R320). -/

namespace Sys2Proof.Machine

open Assoc Bits

/-! ### Positions (R12 to R19) -/

def dieOfCore (core : Nat) : Nat := core / 144
/-- The package number of a core's cluster: die * 36 + cluster. -/
def clusterOfCore (core : Nat) : Nat := core / 4
def dieOfCluster (cl : Nat) : Nat := cl / 36
def stackOfDie (die : Nat) : Nat := die / 2
def isLowerDie (die : Nat) : Bool := die % 2 == 0
/-- The partner of a core (R18). -/
def partnerOf (core : Nat) : Nat := if isLowerDie (dieOfCore core) then core + 144 else core - 144
/-- The compute die whose clock, log and TALLOW a voltage domain uses: domains 0 to 3 are the compute dies, 4 to 7 the
surface dies SD0 to SD3, which use the lower compute die of their stack (log 15). -/
def dieOfDomain (dom : Nat) : Nat := if dom < 4 then dom else (dom - 4) / 2 * 2
def coresOfCluster (cl : Nat) : List Nat := (List.range 4).map fun k => cl * 4 + k

/-! ### Reading and replacing a unit -/

namespace State

def coreAt (s : State) (n : Nat) : Core := get Core.reset s.cores n
def setCore (s : State) (n : Nat) (c : Core) : State := { s with cores := put Core.reset s.cores n c }
def clusterAt (s : State) (n : Nat) : Cluster := get Cluster.reset s.clusters n
def setCluster (s : State) (n : Nat) (c : Cluster) : State := { s with clusters := put Cluster.reset s.clusters n c }
def dieAt (s : State) (n : Nat) : Die := get Die.reset s.dies n
def setDie (s : State) (n : Nat) (d : Die) : State := { s with dies := put Die.reset s.dies n d }
def domainAt (s : State) (n : Nat) : Domain := get Domain.reset s.domains n
def setDomain (s : State) (n : Nat) (d : Domain) : State := { s with domains := put Domain.reset s.domains n d }
def stackAt (s : State) (n : Nat) : Stack := get Stack.reset s.stk n
def setStack (s : State) (n : Nat) (x : Stack) : State := { s with stk := put Stack.reset s.stk n x }
def queueAt (s : State) (n : Nat) : Queue := get Queue.reset s.queues n
def setQueue (s : State) (n : Nat) (x : Queue) : State := { s with queues := put Queue.reset s.queues n x }
def group? (s : State) (gid : Nat) : Option Group := find s.groups gid
def setGroup (s : State) (gid : Nat) (g : Group) : State := { s with groups := set s.groups gid g }
def launch? (s : State) (lid : Nat) : Option Launch := find s.launches lid
def setLaunch (s : State) (lid : Nat) (l : Launch) : State := { s with launches := set s.launches lid l }
def block? (s : State) (bid : Nat) : Option Block := find s.blocks bid
def setBlock (s : State) (bid : Nat) (b : Block) : State := { s with blocks := set s.blocks bid b }
def op? (s : State) (oid : Nat) : Option EngineOp := find s.ops oid
def setOp (s : State) (oid : Nat) (o : EngineOp) : State := { s with ops := set s.ops oid o }
def handle? (s : State) (ctx h : Nat) : Option Sfte := find s.handles (ctx * 4096 + h)
def setHandle (s : State) (ctx h : Nat) (x : Sfte) : State := { s with handles := set s.handles (ctx * 4096 + h) x }

/-- One group changed, if it is there. -/
def updGroup (s : State) (gid : Nat) (f : Group → Group) : State := { s with groups := upd s.groups gid f }
def updLaunch (s : State) (lid : Nat) (f : Launch → Launch) : State := { s with launches := upd s.launches lid f }

def gddrAt (s : State) (n : Nat) : Gddr := get Gddr.reset s.gddr n
def setGddr (s : State) (n : Nat) (x : Gddr) : State := { s with gddr := put Gddr.reset s.gddr n x }

/-- TALLOW of a die: 0 from a warning at step 16 in a domain of the die to the next step down (R328, R330). -/
def tallowOf (s : State) (die : Nat) : BitVec 8 :=
  if (List.range 8).any fun d => dieOfDomain d == die && (s.domainAt d).since16.isSome then 0 else (s.dieAt die).tallow

/-- NTIME of a die (R245); deadlines and timeouts of a command processor use the primary die's. -/
def ntime (s : State) (die : Nat) : DWord := (s.dieAt die).ntime
def primaryTime (s : State) : DWord := s.ntime 0

/-- A fresh identifier of the model (log 3). -/
def freshId (s : State) : Nat × State := (s.nextId, { s with nextId := s.nextId + 1 })

/-- A free value's next index (log 7). -/
def freeIndex (s : State) : Nat × State := (s.ctr, { s with ctr := s.ctr + 1 })

end State

/-- Nanoseconds since an earlier NTIME. -/
def since (now t : DWord) : Nat := (now - t).toNat

/-! ### The pit log and reports -/

/-- An entry written to a die's ring; a frozen ring takes none (R336 to R338). -/
def pitWrite (s : State) (die : Nat) (kind code core slot : Nat) (d0 d1 : DWord) (secure : Bool) : State :=
  let d := s.dieAt die
  let p := d.pit
  if p.frozen then s else
    let e : PitEntry := ⟨d.ntime, kind, code, core, slot, d0, d1, secure⟩
    let nxt := (p.next + 1) % 4096
    s.setDie die { d with pit := { p with entries := set p.entries p.next e, next := nxt,
                                          wrapped := p.wrapped || nxt == 0 } }

def noCore : Nat := 0x3FF
def noSlot : Nat := 0x7F

def report (s : State) (r : Report) : State := { s with reports := s.reports ++ [r] }

/-- The groups resident on a core, migrants included, by identifier (R85). -/
def residentOn (s : State) (core : Nat) : List (Nat × Group) :=
  s.groups.filter fun e => e.2.core == core && (match e.2.status with | .saved .. => false | _ => true)

def isMigrant (g : Group) : Bool := match g.kind with | .migrant .. => true | .home | .pixel _ => false
def isPixel (g : Group) : Bool := match g.kind with | .pixel _ => true | .home | .migrant .. => false

/-- The quarter of a core that issues a group (R16, R197): 32 group slots each, and landing slots 2q and 2q + 1 (log 6). -/
def quarterIn (g : Group) : Nat := match g.kind with | .migrant k _ => k / 2 | .home | .pixel _ => g.slot / 32

/-- The groups of a block. -/
def groupsOfBlock (s : State) (bid : Nat) : List (Nat × Group) :=
  s.groups.filter fun e => e.2.block == bid && !isMigrant e.2

def groupsOfLaunch (s : State) (lid : Nat) : List (Nat × Group) := s.groups.filter fun e => e.2.launch == lid

/-- Whether a group is resident, that is, holds a slot. -/
def isSaved (g : Group) : Bool := match g.status with | .saved .. => true | .ready | .parked _ | .halted _ => false

/-- A landing slot is free once its migrant has retired and its records have left (R198). -/
def landingSlotFree (s : State) (core k : Nat) : Bool :=
  !(s.groups.any fun e => e.2.core == core && match e.2.kind with | .migrant n _ => n == k | .home | .pixel _ => false) &&
  !(s.conts.any fun c => c.fromPkg == s.pkgid && c.fromCore == core && c.fromSlot == some k)

end Sys2Proof.Machine
end

