-- ==== Sys2Proof/Machine/Place.lean ====
section
/-! DEFINITION. The locations of bytes (R22, R27, R137, R138, R143, R157, R161, R170, R269, R314) and the reading and
writing of bytes at locations, with the copy of a frame on the move (R157) and the mailbox events of scratchpad words
(R213). A *place* names a byte whatever its home is now: a physical address of this package, a byte of a handle, or a
location that never moves. -/

namespace Sys2Proof.Machine

open Assoc Bits

/-! ### Location numbers -/

def gddrEnd : Nat := 0x2000000000
def surfBase : Nat := 0x4000000000
def surfEnd : Nat := 0x4200000000
def spadLoc (cluster off : Nat) : Nat := 2 ^ 60 + cluster * 2 ^ 21 + off
def ivsLoc (channel off : Nat) : Nat := 2 ^ 61 + channel * 2 ^ 16 + off
/-- Byte of the FIFO towards a core (R142, R143). -/
def shaftLoc (core off : Nat) : Nat := 2 ^ 62 + core * 1024 + off
/-- Byte of a circular-buffer descriptor (R137). -/
def cbLoc (cluster n off : Nat) : Nat := 2 ^ 63 + cluster * 2 ^ 13 + 128 * n + off
def remoteLoc (pkg pa : Nat) : Nat := 2 ^ 70 + pkg * 2 ^ 46 + pa
/-- Byte of a handle whose home is its compressor (R170). -/
def shadowLoc (key stack off : Nat) : Nat := 2 ^ 90 + (key * 2 + stack) * 2 ^ 33 + off
/-- The place of a byte of a handle that an access names (R160). -/
def handlePlace (key stack off : Nat) : Nat := 2 ^ 91 + (key * 2 + stack) * 2 ^ 33 + off

/-! ### Surfaces (R22, R24, R26, R284, R285) -/

/-- Stack and offset in the stack of a surface physical address (R22). -/
def surfStack (pa : Nat) : Nat := (pa - surfBase) / 2 ^ 32 % 2
def surfOff (pa : Nat) : Nat := (pa - surfBase) % 2 ^ 32
def surfPa (stack off : Nat) : Nat := surfBase + stack * 2 ^ 32 + off
/-- Whether an offset lies in the LLC rows of a stack (R24). -/
def inLlc (s : State) (stack off : Nat) : Bool :=
  off / 2 ^ 18 ≥ 16384 - 2048 * (s.stackAt stack).llcsz.toNat

/-- Pixel bytes of a format (R283); 0 for RAW. -/
def pixelBytes (fmt : Nat) : Nat :=
  if fmt = 3 ∨ fmt = 6 then 8 else if fmt = 10 then 2 else if fmt = 11 then 0 else 4

/-- P of R284: pixel bytes times samples. -/
def samplesBytes (h : Sfte) : Nat := pixelBytes h.fmt * (if h.ms4 then 4 else 1)
def tilesHigh (h : Sfte) : Nat := (h.hm1 + 1 + 7) / 8
/-- TWP of R284. -/
def tilesWide (h : Sfte) : Nat := let tw := (h.wm1 + 1 + 7) / 8; tw + tw % 2
/-- Bytes that a handle takes in each stack (R284, R285). -/
def handleBytes (h : Sfte) : Nat :=
  if h.layout = 1 then (h.hm1 + 1) * 2 ^ 18
  else (32 * tilesHigh h * tilesWide h * samplesBytes h + 255) / 256 * 256

def coversOff (h : Sfte) (off : Nat) : Bool := h.base ≤ off && off < h.base + handleBytes h

def inBank (st : HandleState) : Bool :=
  match st with | .resident | .spilling => true | .spilled | .restoring => false

/-- A handle of bank rows (R285). -/
def isRaw (h : Sfte) : Bool := h.layout == 1

/-- The location of a GDDR 7 physical address: its frame under R157. -/
def gddrLoc (s : State) (pa : Nat) : Nat := get (pa / 65536) s.frames (pa / 65536) * 65536 + pa % 65536

/-! ### Compression blocks (R160, R284, R286, R287) -/

def tileIndex (x y : Nat) : Nat := 4 * (4 * (y % 8 / 2) + x % 8 / 2) + (x % 2 + 2 * (y % 2))

/-- Stack, and offset from BASE, of a sample of a pixel. -/
def pixelAt (h : Sfte) (x y m : Nat) : Nat × Nat :=
  let tx := x / 8
  let ty := y / 8
  let p := samplesBytes h
  ((tx + ty) % 2,
    64 * p * ((ty * tilesWide h + tx) / 2) + (if h.ms4 then (4 * tileIndex x y + m) * pixelBytes h.fmt else p * tileIndex x y))

/-- Tiles in each stack. -/
def tilesOfStack (h : Sfte) : Nat := tilesHigh h * tilesWide h / 2

/-- Bytes of a compression block at its raw size. -/
def blockBytes (h : Sfte) : Nat := if isRaw h then 64 else 16 * pixelBytes h.fmt

/-- The compression block that holds a byte of a handle, and the byte in it; none behind the last tile of a stack. -/
def blockAt (h : Sfte) (stack off : Nat) : Option (Nat × Nat) :=
  if isRaw h then some ((stack * handleBytes h + off) / 64, off % 64)
  else
    let p := samplesBytes h
    let b := pixelBytes h.fmt
    let u := off / (64 * p)
    if u ≥ tilesOfStack h then none
    else
      let i := off % (64 * p) / p
      let x := 2 * (i / 4 % 4) + i % 2
      let y := 2 * (i / 16) + i / 2 % 2
      let pix := 4 * (stack * tilesOfStack h + u) + x / 4 + 2 * (y / 4)
      some (if h.ms4 then 4 * pix + off % p / b else pix, (x % 4 + 4 * (y % 4)) * b + off % b)

/-- Where the compressor of a handle keeps a byte: with COMP = 1, when every block has its raw size, in its slot of the
spill area; with COMP = 0 in a store beside it (log 13). -/
def spilledHome (s : State) (key : Nat) (h : Sfte) (stack off : Nat) : Nat :=
  if h.comp = 1 then
    match blockAt h stack off with
    | some (b, i) =>
      let pa := h.spill + b * blockBytes h + i
      if pa < gddrEnd then gddrLoc s pa else pa
    | none => shadowLoc key stack off
  else shadowLoc key stack off

/-- The handle among several that was allocated earliest. -/
def earliest : List (Nat × Sfte) → Option (Nat × Sfte)
  | [] => none
  | e :: es => match earliest es with
    | none => some e
    | some b => if b.2.serial < e.2.serial then some b else some e

/-- The handle that an access of a surface address reaches (R161): one in its banks, else the earliest of those that are
spilled. -/
def handleAt (s : State) (pa : Nat) : Option (Nat × Sfte) :=
  let near := s.handles.filter fun e => coversOff e.2 (surfOff pa)
  match near.find? fun e => inBank e.2.state with
  | some e => some e
  | none => earliest near

/-- The home of a byte of a handle (R160, R170). -/
def homeIn (s : State) (key : Nat) (h : Sfte) (stack off : Nat) : Nat :=
  if inBank h.state then surfPa stack (h.base + off) else spilledHome s key h stack off

/-- The home of a surface address (R161): its bank, or the compressor of a handle. -/
def surfHome (s : State) (pa : Nat) : Nat :=
  match handleAt s pa with
  | some (key, h) => homeIn s key h (surfStack pa) (surfOff pa - h.base)
  | none => pa

/-- The location of a local physical address: its frame under R157, or its home under R161. -/
def physLoc (s : State) (pa : Nat) : Nat :=
  if pa < gddrEnd then gddrLoc s pa
  else if surfBase ≤ pa ∧ pa < surfEnd then surfHome s pa
  else pa

/-- The home of a place now (R157, R160, R170). -/
def homeOf (s : State) (p : Nat) : Nat :=
  if p < 2 ^ 91 then physLoc s p
  else
    let o := p - 2 ^ 91
    match find s.handles (o / 2 ^ 34) with
    | some h => homeIn s (o / 2 ^ 34) h (o / 2 ^ 33 % 2) (o % 2 ^ 33)
    | none => p

/-- A physical address that holds memory (R22, R27, R28). -/
def populated (pa : Nat) : Bool := pa < gddrEnd || surfBase ≤ pa && pa < surfEnd

/-- Distinct numbers, in order of first appearance. -/
def distinct (ns : List Nat) : List Nat := ns.foldl (fun l n => if l.contains n then l else l ++ [n]) []

/-! ### Bytes -/

def readByte (s : State) (loc : Nat) : Byte := get 0 s.mem loc
def readBytes (s : State) (loc n : Nat) : List Byte := (List.range n).map fun i => readByte s (loc + i)
/-- A little-endian value of n bytes (R4). -/
def readNat (s : State) (loc n : Nat) : Nat := natOfBytes (readBytes s loc n)
def isBad (s : State) (loc : Nat) : Bool := s.badMem.contains loc
def anyBad (s : State) (loc n : Nat) : Bool := s.badMem.any fun l => loc ≤ l && l < loc + n

/-- The copy of a location in a frame on the move (R157): writes apply to both copies. -/
def mirrorOf (s : State) (loc : Nat) : Option Nat :=
  if loc < gddrEnd then
    (s.moves.find? fun m => (get m.1 s.frames m.1) == loc / 65536).map fun m => m.2 * 65536 + loc % 65536
  else none

/-- One location written; a write replaces an uncorrectable byte. -/
def putByte (s : State) (loc : Nat) (b : Byte) : State :=
  { s with mem := put 0 s.mem loc b, badMem := s.badMem.filter (· != loc) }

def writeByte (s : State) (loc : Nat) (b : Byte) : State :=
  match mirrorOf s loc with
  | some l2 => putByte (putByte s loc b) l2 b
  | none => putByte s loc b

def writeCells (s : State) (bs : List (Nat × Byte)) : State := bs.foldl (fun s e => writeByte s e.1 e.2) s

/-- Consecutive locations with their bytes. -/
def cellsAt (loc : Nat) : List Byte → List (Nat × Byte)
  | [] => []
  | b :: bs => (loc, b) :: cellsAt (loc + 1) bs

/-- The homes of consecutive bytes from a physical address on: a compressor may part them (R160). -/
def homesFrom (s : State) (pa n : Nat) : List Nat := (List.range n).map fun i => physLoc s (pa + i)

/-- The little-endian value of the bytes at some locations. -/
def valueAt (s : State) (locs : List Nat) : Nat := natOfBytes (locs.map (readByte s))

/-- Locations that become uncorrectable. -/
def markBad (s : State) (locs : List Nat) : State :=
  { s with badMem := s.badMem.filter (fun l => !locs.contains l) ++ locs }

/-- Bytes written as uncorrectable ones: both copies of a frame on the move take the mark (R157). -/
def poison (s : State) (locs : List Nat) : State := markBad s (locs ++ locs.filterMap (mirrorOf s))

/-! ### Mailboxes (R213, R214) -/

/-- The slots whose descriptor satisfies a test get their pending bit set (R214). -/
def pendSlots (e : EventRegs) (p : Word → Bool) : EventRegs :=
  { e with pend := e.slots.foldl (fun w k => if p k.2.src then w ||| BitVec.ofNat 8 (2 ^ k.1) else w) e.pend }

def evKind (d : Word) : Nat := fieldNat d 0 4
def evArg (d : Word) : Nat := fieldNat d 4 28

/-- Whether a descriptor of kind 3 names, in a block's slice, a word that was touched and is not zero. -/
def mailboxHit (s : State) (b : Block) (locs : List Nat) (d : Word) : Bool :=
  let w := spadLoc b.cluster (b.spadBase + 4 * evArg d)
  evKind d == 3 && locs.any (fun l => w ≤ l && l < w + 4) && readNat s w 4 != 0

/-- Edges of kind 3 after bytes of a cluster's scratchpad were written: every bound mailbox word that holds one of
them and is not zero. A saved group looks at its restore (R218). -/
def mailboxEdges (s : State) (locs : List Nat) : State :=
  { s with groups := s.groups.map fun e =>
      match s.block? e.2.block with
      | some b =>
        if isSaved e.2 || isMigrant e.2 then e
        else (e.1, { e.2 with ev := pendSlots e.2.ev (mailboxHit s b locs) })
      | none => e }

end Sys2Proof.Machine
end

