-- ==== Sys2Proof/Machine/Compressor.lean ====
section
/-! DEFINITION. The compressor of a spilled handle (R160, R286, R287): its blocks, what it writes of each to the spill area
and to RMAP, and the moving of a handle's bytes between the banks and its home there. -/

namespace Sys2Proof.Machine

open Assoc Bits

/-- The compression blocks of a handle (R286, R287). -/
def blockCount (h : Sfte) : Nat :=
  if isRaw h then 2 * handleBytes h / 64 else 4 * (tilesHigh h * tilesWide h) * (if h.ms4 then 4 else 1)

/-- Stack and offset of the bytes of block b, in order (R284, R286, R287). -/
def blockPlaces (h : Sfte) (b : Nat) : List (Nat × Nat) :=
  if isRaw h then (List.range 64).map fun i => (64 * b / handleBytes h, 64 * b % handleBytes h + i)
  else
    let m := if h.ms4 then b % 4 else 0
    let pix := if h.ms4 then b / 4 else b
    let st := pix / 4 / tilesOfStack h
    let u := pix / 4 % tilesOfStack h
    let ty := 2 * u / tilesWide h
    let tx := 2 * u % tilesWide h + (ty + st) % 2
    (List.range 16).flatMap fun i =>
      let a := pixelAt h (8 * tx + 4 * (pix % 2) + i % 4) (8 * ty + 4 * (pix / 2 % 2) + i / 4) m
      (List.range (pixelBytes h.fmt)).map fun k => (a.1, a.2 + k)

/-- A byte at a physical address written by a unit of the device. -/
def putPhys (s : State) (pa : Nat) (b : Byte) : State := writeByte s (physLoc s pa) b

/-- Lines of the LLC that a unit of the device has written: their data storage is allocated and their zero flags cleared (R145);
it makes no new ones (log 5). -/
def llcWritten (s : State) (locs : List Nat) : State :=
  { s with llc := s.llc.map fun e => if locs.any fun l => l / 128 == e.1 then (e.1, { dirty := true, zero := false }) else e }

/-- One compression block of a spilled handle as the compressor writes it: with COMP = 0 its lossless bytes, which are free
values (log 7), with COMP = 1 the raw ones, which are there; and its nibble in RMAP (R160, R286). -/
def encodeBlock (key : Nat) (h : Sfte) (s : State) (b : Nat) : State :=
  let raw := (blockPlaces h b).map fun p => readByte s (spilledHome s key h p.1 p.2)
  let top := blockBytes h / 16 - 1
  let units := if h.comp = 1 then top else min top (Config.compressedUnits raw)
  let bytes := if h.comp = 1 then [] else (List.range (16 * (units + 1))).map (Config.compressed raw)
  let s := bytes.zipIdx.foldl (fun s e => putPhys s (h.spill + b * blockBytes h + e.2) e.1) s
  let nibble := h.rmap + b / 2
  let old := (readByte s (physLoc s nibble)).toNat
  let s := putPhys s nibble (BitVec.ofNat 8 (if b % 2 = 0 then old / 16 * 16 + units else units * 16 + old % 16))
  llcWritten s (physLoc s nibble :: (List.range (16 * (units + 1))).map fun i => physLoc s (h.spill + b * blockBytes h + i))

/-- The locations that the writing of a block touches: its nibble, and the bytes of its slot. -/
def blockCells (s : State) (h : Sfte) (b : Nat) : List Nat :=
  physLoc s (h.rmap + b / 2) ::
    (List.range (16 * (blockBytes h / 16 - 1 + 1))).map fun i => physLoc s (h.spill + b * blockBytes h + i)

/-- The block of a location beside the spill area, with its handle. -/
def blockOfShadow (s : State) (loc : Nat) : Option (Nat × Nat) :=
  let o := loc - 2 ^ 90
  match find s.handles (o / 2 ^ 34) with
  | some h => (blockAt h (o / 2 ^ 33 % 2) (o % 2 ^ 33)).map fun b => (o / 2 ^ 34, b.1)
  | none => none

/-- Blocks of spilled handles whose bytes have been written pass through the compressor again (R160, R286). -/
def recompress (s : State) (locs : List Nat) : State :=
  (((locs.filter fun l => 2 ^ 90 ≤ l && l < 2 ^ 91).filterMap (blockOfShadow s)).eraseDups).foldl (fun s e =>
    match find s.handles e.1 with
    | some h => encodeBlock e.1 h s e.2
    | none => s) s

/-! ### Moving the bytes of a handle (R160, R161) -/

/-- The parts of a range of locations that lie in frames on the move, at their new copies (R157): first location, length. -/
def mirrorParts (s : State) (loc n : Nat) : List (Nat × Nat) :=
  if gddrEnd ≤ loc then []
  else s.moves.map fun m =>
    let f := get m.1 s.frames m.1 * 65536
    (m.2 * 65536 + (max loc f - f), min (loc + n) (f + 65536) - max loc f)

/-- Consecutive locations set to zero, in both copies of a frame on the move (R146, R157, R333). -/
def zeroRange (s : State) (loc n : Nat) : State :=
  let ps := (loc, n) :: mirrorParts s loc n
  let inside := fun l => ps.any fun p => decide (p.1 ≤ l) && decide (l < p.1 + p.2)
  { s with mem := s.mem.filter fun c => !inside c.1, badMem := s.badMem.filter fun l => !inside l }

/-- n bytes copied to another place that does not overlap it, uncorrectable ones as such. -/
def copyRange (s : State) (src dst n : Nat) : State :=
  let inside := fun l => decide (src ≤ l) && decide (l < src + n)
  let cells := (s.mem.filter fun c => inside c.1).map fun c => (c.1 - src + dst, c.2)
  let bad := (s.badMem.filter inside).map (· - src + dst)
  poison (writeCells (zeroRange s dst n) cells) bad

/-- The parts of n bytes in pieces of 64 KiB: offset and length. -/
def pieces (n : Nat) : List (Nat × Nat) := (List.range ((n + 65535) / 65536)).map fun k => (65536 * k, min 65536 (n - 65536 * k))

/-- Every byte of a handle moved from one home to another, each home given by stack and offset: by pieces, or byte by byte
where the slots of the spill area part them. -/
def moveHandle (s : State) (h : Sfte) (src dst : Nat → Nat → Nat) : State :=
  [0, 1].foldl (fun s st =>
    if h.comp = 1 && !isRaw h then
      (List.range (handleBytes h)).foldl (fun s o =>
        let s' := writeByte s (dst st o) (readByte s (src st o))
        if isBad s (src st o) then poison s' [dst st o] else s') s
    else (pieces (handleBytes h)).foldl (fun s p => copyRange s (src st p.1) (dst st p.1) p.2) s) s

/-- Every byte of a handle, from its banks to its compressor, which writes every block. -/
def toCompressor (s : State) (key : Nat) (h : Sfte) : State :=
  let s := moveHandle s h (fun st o => surfPa st (h.base + o)) (spilledHome s key h)
  (List.range (blockCount h)).foldl (encodeBlock key h) s

/-- Every byte of a handle, from its compressor to its banks. -/
def toBanks (s : State) (key : Nat) (h : Sfte) : State :=
  moveHandle s h (spilledHome s key h) fun st o => surfPa st (h.base + o)

end Sys2Proof.Machine
end

