-- ==== Sys2Proof/Machine/Caches.lean ====
section
/-! DEFINITION. What readers know and what caches hold (R144, R145, R172 to R174): the copies of lines in the L1s, the
lines of the LLC, what an access follows in the causal order, and every write of bytes at their homes. A copy that has
missed a write keeps the old byte, with the write's number; a read may take it as long as no missed write precedes it. -/

namespace Sys2Proof.Machine

open Assoc Bits

/-! ### Knowledge (R172 to R174) -/

/-- The agents that two audiences share, if there may be any (R174). -/
def within (a b : Aud) : Option Aud :=
  match a, b with
  | .all, b => some b
  | a, .all => some a
  | .group g k, .group h _ => if g = h then some (.group g k) else none
  | .group g k, .cluster c => if clusterOfCore k = c then some (.group g k) else none
  | .cluster c, .group g k => if clusterOfCore k = c then some (.group g k) else none
  | .group g k, .die d => if dieOfCore k = d then some (.group g k) else none
  | .die d, .group g k => if dieOfCore k = d then some (.group g k) else none
  | .die d, .die e => if d = e then some (.die d) else none
  | .die d, .cluster c => if dieOfCluster c = d then some (.cluster c) else none
  | .cluster c, .die d => if dieOfCluster c = d then some (.cluster c) else none
  | .cluster c, .cluster e => if c = e then some (.cluster c) else none

/-- A group that runs on a core belongs to an audience. -/
def audHas (a : Aud) (gid core : Nat) : Bool :=
  match a with
  | .all => true
  | .die d => dieOfCore core == d
  | .cluster c => clusterOfCore core == c
  | .group g _ => g == gid

/-- The scope codes of R169, for a group on a core. -/
def audOf (gid core scope : Nat) : Aud :=
  match scope with
  | 0 => .group gid core
  | 1 => .cluster (clusterOfCore core)
  | 2 => .die (dieOfCore core)
  | _ => .all

def joinSeen (a b : Seen) : Seen := b.foldl (fun k e => if k.contains e then k else k ++ [e]) a

/-- What passes through an edge that counts for an audience. -/
def restrict (a : Aud) (k : Seen) : Seen := k.filterMap fun e => (within a e.1).map fun x => (x, e.2)

/-- The writes that some copy misses. -/
def missedWrites (s : State) : List Nat :=
  (s.l1.flatMap fun e => e.2.flatMap fun c => c.olds.flatMap (·.missed)).eraseDups

/-- Writes that no copy misses any longer are forgotten. -/
def prune (s : State) (k : Seen) : Seen :=
  if k.isEmpty then [] else
    let ms := missedWrites s
    k.filter fun e => ms.contains e.2

/-- Everything that could be known, towards an audience. -/
def everything (s : State) (a : Aud) : Seen := (missedWrites s).map fun n => (a, n)

def viewAt (g : Group) (st : Nat) : View := get View.none g.view st
def setView (g : Group) (st : Nat) (v : View) : Group := { g with view := put View.none g.view st v }

/-- A view without the writes that no copy misses any longer. -/
def View.prune (s : State) (v : View) : View :=
  { seen := Machine.prune s v.seen, wrote := Machine.prune s v.wrote, fenced := Machine.prune s v.fenced,
    heard := Machine.prune s v.heard, came := Machine.prune s v.came, mine := Machine.prune s v.mine,
    along := Machine.prune s v.along, did := Machine.prune s v.did }

/-- What precedes every access of the stream, a `vatom` too, towards any agent. -/
def View.held (v : View) : Seen := joinSeen v.fenced v.came

/-- An access of the stream, with what it is and follows, as the lanes that leave take it along (R185): towards the agents in
the scope of its stream, and towards those that carry the lanes. -/
def View.leave (v : View) (k : Seen) (a : Aud) : View :=
  { v with along := joinSeen v.along (restrict a k), did := joinSeen (joinSeen v.did k) v.mine }

/-- A load of the stream has read what some writes precede: its later loads and stores follow them, and what it followed. -/
def View.read (v : View) (k : Seen) (a : Aud) : View :=
  let n := joinSeen (joinSeen v.seen v.held) k
  { v with seen := n }.leave n a

/-- A write that a load of the stream has taken early is at its home. -/
def View.readLate (v : View) (k : Seen) (a : Aud) : View := { v with seen := joinSeen v.seen k }.leave k a

/-- A store of the stream, with what it followed: its later stores follow both. -/
def View.write (v : View) (k : Seen) (a : Aud) : View := { v with wrote := joinSeen v.wrote k }.leave k a

/-- A `vatom` of the stream has met some writes: its later fences and releases tell of them, and of what it followed. -/
def View.hear (v : View) (k : Seen) (a : Aud) : View :=
  let n := joinSeen v.held k
  { v with heard := joinSeen v.heard n }.leave n a

/-- A view changed, unless nothing is known and nothing new. -/
def onView (s : State) (k : Seen) (st : Nat) (f : View → Seen → View) (g : Group) : Group :=
  if k.isEmpty && viewAt g st == View.none then g else setView g st (f ((viewAt g st).prune s) k)

/-- What two accesses have seen, together. -/
def joinView (a b : View) : View :=
  { seen := joinSeen a.seen b.seen, wrote := joinSeen a.wrote b.wrote, fenced := joinSeen a.fenced b.fenced,
    heard := joinSeen a.heard b.heard, came := joinSeen a.came b.came, mine := joinSeen a.mine b.mine,
    along := joinSeen a.along b.along, did := joinSeen a.did b.did }

/-- The views of streams joined stream by stream, as a lane takes them from site to site (R185). -/
def joinViews (a b : Map View) : Map View :=
  b.foldl (fun m e => put View.none m e.1 (joinView (get View.none m e.1) e.2)) a

/-- The accesses at other sites, with what they followed, precede every later access of the group, in every stream
(R185). -/
def seeViews (g : Group) (clk : Map View) : Group :=
  let a := clk.foldl (fun k e => joinSeen k e.2.along) []
  let d := clk.foldl (fun k e => joinSeen k e.2.did) []
  if a.isEmpty && d.isEmpty then g
  else (List.range 16).foldl (fun g st =>
      let v := viewAt g st
      setView g st { v with came := joinSeen v.came a, mine := joinSeen v.mine d }) g

/-- Views that have seen all that has been done, in every stream: of lanes on their way to a site, or home. -/
def allKnown (s : State) : Map View :=
  match everything s .all with
  | [] => []
  | k => (List.range 16).map fun st => (st, { View.none with came := k, mine := k, along := k, did := k })

/-- A synchronisation of R183 to R185: all that has been done precedes every later access of the group, towards an
audience (log 4). -/
def seeAll (s : State) (a : Aud) (g : Group) : Group :=
  match everything s a with
  | [] => g
  | k => (List.range 16).foldl (fun g st => let v := viewAt g st; setView g st { v with fenced := joinSeen v.fenced k }) g

/-! ### The LLC (R24, R25, R144, R145) -/

/-- The stack whose controllers hold a line of GDDR 7 (R27). -/
def stackOfLine (line : Nat) : Nat := line / 512 % 32 / 16

def llcOn (s : State) (stack : Nat) : Bool := (s.stackAt stack).llcsz != 0 && !(s.stackAt stack).busy

/-- Lines that the LLC of a stack holds at most. -/
def llcLines (s : State) (stack : Nat) : Nat := (s.stackAt stack).llcsz.toNat * 2 ^ 22

/-- Room for one more line: at capacity the lowest line of the stack is written back and goes (log 5). -/
def llcRoom (s : State) (stack : Nat) : Map LlcLine :=
  let mine := s.llc.filter fun e => stackOfLine e.1 == stack
  if mine.length < llcLines s stack then s.llc
  else match mine with
    | e :: _ => erase s.llc e.1
    | [] => s.llc

/-- A line of GDDR 7 put into the LLC in some state; a new one only if its stack has an LLC now. -/
def llcPut (s : State) (line : Nat) (e : LlcLine) : State :=
  if gddrEnd ≤ 128 * line then s
  else match find s.llc line with
    | some _ => { s with llc := set s.llc line e }
    | none => if llcOn s (stackOfLine line) then { s with llc := set (llcRoom s (stackOfLine line)) line e } else s

/-- A line read: filled, if the policy lets it. -/
def llcRead (s : State) (line : Nat) : State :=
  match find s.llc line with
  | some _ => s
  | none => llcPut s line { dirty := false, zero := false }

/-- Lines of GDDR 7 among some locations read under a policy that lets the LLC hold them (R144). -/
def fillLlc (s : State) (cp : Option Nat) (locs : List Nat) : State :=
  match cp with
  | some 3 | none => s
  | some _ => (((locs.filter (· < gddrEnd)).map (· / 128)).eraseDups).foldl llcRead s

/-- A line written: its data storage is allocated and its zero flag cleared (R145). A write that the policy keeps out
changes a line that is there. -/
def llcWrite (s : State) (line : Nat) (uncached : Bool) : State :=
  match find s.llc line, uncached with
  | none, true => s
  | some _, _ | none, false => llcPut s line { dirty := true, zero := false }

/-! ### L1 copies (R144) -/

/-- Lines of an L1. -/
def l1Lines : Nat := 2048

/-- The copy of a line in the L1 of a core. -/
def copyAt (s : State) (core line : Nat) : Option L1Copy := (get [] s.l1 line).find? (·.core == core)

/-- The copy goes. -/
def dropCopy (s : State) (core line : Nat) : State :=
  { s with l1 := put [] s.l1 line ((get [] s.l1 line).filter (·.core != core)) }

/-- Every copy of every L1 goes: an eviction, as the move of a home makes one (log 5). -/
def forgetCopies (s : State) : State := { s with l1 := [], msgs := [] }

/-- Every copy of the L1 of a core goes. -/
def emptyL1 (s : State) (core : Nat) : State :=
  { s with l1 := (s.l1.map fun e => (e.1, e.2.filter (·.core != core))).filter fun e => !e.2.isEmpty }

/-- A full L1 loses its lowest line (log 5). -/
def l1Room (s : State) (core : Nat) : State :=
  let mine := s.l1.filter fun e => e.2.any (·.core == core)
  if mine.length < l1Lines then s
  else match mine with
    | e :: _ => dropCopy s core e.1
    | [] => s

/-- The line as its home has it now, in the L1 of a core. -/
def fillCopy (s : State) (core line : Nat) : State :=
  let s := if (copyAt s core line).isSome then dropCopy s core line else l1Room s core
  { s with l1 := put [] s.l1 line (get [] s.l1 line ++ [⟨core, prune s (get [] s.msgs line), []⟩]) }

/-! ### Writing -/

/-- Who writes: the core whose L1 takes the new bytes, what the write follows, what an atomic has read with it (R172),
whether its policy keeps it out of the LLC. -/
structure Writer where
  core : Option Nat
  carries : Seen
  met : Seen := []
  uncached : Bool

/-- An agent that is no group: its writes follow all that has been done (log 4). -/
def outside (s : State) : Writer := { core := none, carries := everything s .all, uncached := false }

/-- A byte of a line that a copy still has as it was before write n. -/
def missByte (olds : List OldByte) (off : Nat) (b : Byte) (n : Nat) : List OldByte :=
  if olds.any (·.off == off) then
    olds.map fun o => if o.off = off then { o with missed := o.missed ++ [n] } else o
  else olds ++ [⟨off, b, [n]⟩]

/-- A copy after write n of some bytes of its line: the writer's own has the new ones, so that its readers follow the write
and what it follows, an atomic's read included; any other misses them. -/
def copyAfter (s : State) (w : Writer) (own : Seen) (n line : Nat) (offs : List Nat) (c : L1Copy) : L1Copy :=
  if w.core = some c.core then
    { c with olds := c.olds.filter fun o => !offs.contains o.off, carries := joinSeen c.carries (joinSeen (joinSeen w.met w.carries) own) }
  else { c with olds := offs.foldl (fun os o => missByte os o (readByte s (128 * line + o)) n) c.olds }

/-- Write n of some bytes of a line, as copies and readers note it. -/
def noteLine (w : Writer) (n : Nat) (s : State) (line : Nat) (offs : List Nat) : State :=
  let cs := get [] s.l1 line
  if cs.isEmpty && w.carries.isEmpty && w.met.isEmpty then s
  else
    let own : Seen := if cs.any (fun c => w.core != some c.core) then [(.all, n)] else []
    let s := { s with l1 := put [] s.l1 line (cs.map (copyAfter s w own n line offs)) }
    { s with msgs := put [] s.msgs line (prune s (joinSeen (joinSeen (get [] s.msgs line) (joinSeen w.met w.carries)) own)) }

/-- The lines that hold some locations. -/
def linesOf (locs : List Nat) : List Nat := (locs.map (· / 128)).eraseDups

/-- One write noted at every line it touches; it takes the next number if some copy misses it. -/
def noteWrite (w : Writer) (s : State) (locs : List Nat) : State :=
  if s.l1.isEmpty then s
  else
    let ls := linesOf locs
    let missed := ls.any fun l => (get [] s.l1 l).any fun c => w.core != some c.core
    let s' := ls.foldl (fun s' l =>
      noteLine w s.writes s' l ((locs.filter fun x => x / 128 == l).map (· % 128))) s
    if missed then { s' with writes := s.writes + 1 } else s'

/-- Bytes written at their homes (R170): the caches, and the mailbox edges that follow. -/
def storeBy (w : Writer) (s : State) (bs : List (Nat × Byte)) : State :=
  let locs := bs.map (·.1)
  let s := writeCells (noteWrite w s locs) bs
  let s := (linesOf (locs.filter (· < gddrEnd))).foldl (fun s l => llcWrite s l w.uncached) s
  let s := if locs.any (2 ^ 90 ≤ ·) then recompress s locs else s
  let pad := locs.filter fun l => 2 ^ 60 ≤ l && l < 2 ^ 61
  if pad.isEmpty then s else mailboxEdges s pad

/-- Bytes written by an agent that is no group. -/
def store (s : State) (bs : List (Nat × Byte)) : State := storeBy (outside s) s bs

/-- A little-endian value of n bytes written (R4). -/
def storeNat (s : State) (loc n v : Nat) : State := store s (cellsAt loc (bytesOfNat n v))

/-- A line of locations set to zero by `czero` (R146): a zero line in the LLC, or zeros at the home. -/
def zeroLine (w : Writer) (s : State) (line : Nat) : State :=
  let locs := (List.range 128).map (128 * line + ·)
  let s := zeroRange (noteWrite w s locs) (128 * line) 128
  let s := if 2 ^ 90 ≤ 128 * line then recompress s locs else s
  match find s.llc line, w.uncached with
  | none, true => s
  | some _, _ | none, false => llcPut s line { dirty := true, zero := true }

/-- A line of places set to zero, wherever its bytes have their homes: the slots of a compressor may part them (R160). -/
def zeroPlaces (w : Writer) (s : State) (p : Nat) : State :=
  let locs := (List.range 128).map fun i => homeOf s (p + i)
  let l := homeOf s p
  if l % 128 == 0 && locs == (List.range 128).map (l + ·) then zeroLine w s (l / 128) else storeBy w s (locs.map (·, 0))

end Sys2Proof.Machine
end

