-- ==== Sys2Proof/Machine/Float.lean ====
section
/-! DEFINITION. Number formats and rounding (R114, R115, R123, R124, R129, R130): exact values as integers times powers
of two, or as quotients, rounded once. -/

namespace Sys2Proof.Machine.Float

open Bits

/-! ### Formats (R114, R115) -/

/-- What the top exponent code means. -/
inductive Top where
  /-- infinities and NaNs -/
  | ieee
  /-- NaN for a mantissa of all ones, else normal (e4m3) -/
  | nanOnly
  /-- normal (mx4) -/
  | normal
  deriving DecidableEq, Repr

structure Fmt where
  e : Nat
  m : Nat
  bias : Nat
  top : Top
  deriving DecidableEq, Repr

def f64 : Fmt := ⟨11, 52, 1023, .ieee⟩
def f32 : Fmt := ⟨8, 23, 127, .ieee⟩
def f16 : Fmt := ⟨5, 10, 15, .ieee⟩
def bf16 : Fmt := ⟨8, 7, 127, .ieee⟩
def e5m2 : Fmt := ⟨5, 2, 15, .ieee⟩
def e4m3 : Fmt := ⟨4, 3, 7, .nanOnly⟩
def mx4 : Fmt := ⟨2, 1, 1, .normal⟩

def Fmt.bits (f : Fmt) : Nat := 1 + f.e + f.m
/-- The weight of the sign bit. -/
def Fmt.signW (f : Fmt) : Nat := 2 ^ (f.e + f.m)
def Fmt.hasInf (f : Fmt) : Bool := f.top == .ieee
/-- Infinity's encoding, without its sign. -/
def Fmt.infBits (f : Fmt) : Nat := (2 ^ f.e - 1) * 2 ^ f.m
/-- The largest finite value's encoding, without its sign. -/
def Fmt.maxBits (f : Fmt) : Nat :=
  match f.top with
  | .ieee => f.infBits - 1
  | .nanOnly => 2 ^ (f.e + f.m) - 2
  | .normal => 2 ^ (f.e + f.m) - 1
/-- The canonical NaN (R115); mx4 has none. -/
def Fmt.nanBits (f : Fmt) : Nat :=
  match f.top with
  | .ieee => f.infBits + 2 ^ (f.m - 1)
  | .nanOnly => 2 ^ (f.e + f.m) - 1
  | .normal => 0
/-- The exponent of the smallest normal value. -/
def Fmt.emin (f : Fmt) : Int := 1 - (f.bias : Int)

/-- A value: a NaN with its sign and mantissa, an infinity, or (-1)^neg * mant * 2^exp. -/
inductive Val where
  | nan (neg : Bool) (mant : Nat)
  | inf (neg : Bool)
  | fin (neg : Bool) (mant : Nat) (exp : Int)
  deriving DecidableEq, Repr

/-- How bits are read (R114). -/
def unpack (f : Fmt) (w : Nat) : Val :=
  let neg := w / f.signW % 2 == 1
  let e := w / 2 ^ f.m % 2 ^ f.e
  let m := w % 2 ^ f.m
  if e = 2 ^ f.e - 1 ∧ f.top = .ieee then (if m = 0 then .inf neg else .nan neg m)
  else if e = 2 ^ f.e - 1 ∧ f.top = .nanOnly ∧ m = 2 ^ f.m - 1 then .nan neg m
  else if e = 0 then .fin neg m (f.emin - f.m)
  else .fin neg (2 ^ f.m + m) ((e : Int) - f.bias - f.m)

def Val.isNan : Val → Bool | .nan .. => true | .inf _ | .fin .. => false
def Val.neg : Val → Bool | .nan n _ => n | .inf n => n | .fin n _ _ => n
def Val.isZero : Val → Bool | .fin _ m _ => m == 0 | .nan .. | .inf _ => false

/-- A signalling NaN (R115); e4m3 has none. -/
def signalling (f : Fmt) (w : Nat) : Bool :=
  match unpack f w with
  | .nan _ m => f.top == .ieee && m < 2 ^ (f.m - 1)
  | .inf _ | .fin .. => false

def isSubnormal (f : Fmt) (w : Nat) : Bool := w / 2 ^ f.m % 2 ^ f.e == 0 && w % 2 ^ f.m != 0

/-- `quiet(x)` (R124). -/
def quiet (f : Fmt) (w : Nat) : Nat :=
  if f.top = .ieee ∧ w / 2 ^ (f.m - 1) % 2 = 0 then w + 2 ^ (f.m - 1) else w

def signed (f : Fmt) (neg : Bool) (w : Nat) : Nat := if neg then f.signW + w else w

/-! ### Flags (R126, R127) -/

abbrev Flags := BitVec 5
def fNV : Flags := 1
def fDZ : Flags := 2
def fOF : Flags := 4
def fUF : Flags := 8
def fNX : Flags := 16

/-- Bits and the exceptions raised for them. -/
structure Res where
  w : Nat
  fl : Flags
  deriving DecidableEq, Repr

def Res.add (r : Res) (fl : Flags) : Res := { r with fl := r.fl ||| fl }

/-! ### Rounding (R123) -/

/-- The modes of FMT.RM. -/
inductive Rm where
  | rne | rtz | rup | rdn
  deriving DecidableEq, Repr

def rmOf (n : Nat) : Rm := if n = 0 then .rne else if n = 1 then .rtz else if n = 2 then .rup else .rdn

/-- Whether a magnitude with the integer part `n` goes up: `half` compares its rest with one half, `inexact` says that
there is a rest. -/
def roundsUp (rm : Rm) (neg : Bool) (n : Nat) (half : Ordering) (inexact : Bool) : Bool :=
  match rm with
  | .rne => half == .gt || half == .eq && n % 2 == 1
  | .rtz => false
  | .rup => inexact && !neg
  | .rdn => inexact && neg

/-- num / den * 2^-q rounded to an integer; `sticky`: the exact value lies above num / den by less than any bit of it.
-/
def roundAt (rm : Rm) (neg : Bool) (num den : Nat) (sticky : Bool) (q : Int) : Nat × Bool :=
  let n' := if q ≥ 0 then num else num * 2 ^ (-q).toNat
  let d' := if q ≥ 0 then den * 2 ^ q.toNat else den
  let n := n' / d'
  let r := n' % d'
  let inexact := r != 0 || sticky
  let half := if 2 * r = d' then (if sticky then .gt else .eq) else compare (2 * r) d'
  (if roundsUp rm neg n half inexact then n + 1 else n, inexact)

/-- The exponent of the leading bit of num / den. -/
def leadExp (num den : Nat) : Int :=
  let e := (num.log2 : Int) - den.log2
  if (if e ≥ 0 then num < den * 2 ^ e.toNat else num * 2 ^ (-e).toNat < den) then e - 1 else e

/-- What stands for a magnitude beyond the largest finite value. -/
def overflowBits (f : Fmt) (rm : Rm) (neg : Bool) : Nat :=
  if !f.hasInf then f.maxBits
  else match rm with
    | .rne => f.infBits
    | .rtz => f.maxBits
    | .rup => if neg then f.maxBits else f.infBits
    | .rdn => if neg then f.infBits else f.maxBits

/-- The encoding of r * 2^q, where 2^m ≤ r unless q is the least exponent. -/
def packMag (f : Fmt) (r : Nat) (q : Int) : Nat :=
  if r < 2 ^ f.m then r else (q + f.m + f.bias).toNat * 2 ^ f.m + (r - 2 ^ f.m)

/-- `round(x, T, rm)` of a non-zero magnitude num / den (R123), with the exceptions of R126. Tininess is judged after
rounding. -/
def roundMag (f : Fmt) (rm : Rm) (neg : Bool) (num den : Nat) (sticky : Bool) : Res :=
  let e := leadExp num den
  let q := max e f.emin - f.m
  let (r, inexact) := roundAt rm neg num den sticky q
  let (r, q) := if r = 2 ^ (f.m + 1) then (2 ^ f.m, q + 1) else (r, q)
  let bits := packMag f r q
  let nx := if inexact then fNX else 0
  if bits > f.maxBits then ⟨signed f neg (overflowBits f rm neg), fOF ||| fNX⟩
  else
    let r' := (roundAt rm neg num den sticky (e - f.m)).1
    let tiny := e < f.emin && !(e + 1 == f.emin && r' == 2 ^ (f.m + 1))
    ⟨signed f neg bits, nx ||| (if tiny && inexact then fUF else 0)⟩

/-- An exact quotient rounded; zero takes the given sign. -/
def roundQuo (f : Fmt) (rm : Rm) (zeroNeg : Bool) (num : Int) (den : Nat) : Res :=
  if num = 0 then ⟨signed f zeroNeg 0, 0⟩ else roundMag f rm (num < 0) num.natAbs den false

/-- An exact integer times a power of two. -/
structure Dyad where
  v : Int
  e : Int
  deriving DecidableEq, Repr

def Dyad.add (a b : Dyad) : Dyad :=
  let e := min a.e b.e
  ⟨a.v * 2 ^ (a.e - e).toNat + b.v * 2 ^ (b.e - e).toNat, e⟩
def Dyad.mul (a b : Dyad) : Dyad := ⟨a.v * b.v, a.e + b.e⟩
def Dyad.negate (a : Dyad) : Dyad := ⟨-a.v, a.e⟩
def Dyad.ofInt (n : Int) : Dyad := ⟨n, 0⟩
def Dyad.scale (a : Dyad) (k : Int) : Dyad := ⟨a.v, a.e + k⟩
/-- As a quotient of integers. -/
def Dyad.num (a : Dyad) : Int := if a.e ≥ 0 then a.v * 2 ^ a.e.toNat else a.v
def Dyad.den (a : Dyad) : Nat := if a.e ≥ 0 then 1 else 2 ^ (-a.e).toNat
def Dyad.lt (a b : Dyad) : Bool := (a.add b.negate).v < 0
def Dyad.floor (a : Dyad) : Int := a.num / a.den

/-- The exact value of a finite value; 0 for the others. -/
def Val.dyad : Val → Dyad
  | .fin n m e => ⟨if n then -(m : Int) else m, e⟩
  | .nan .. | .inf _ => ⟨0, 0⟩

/-- `round(x, T, rm)` of an exact value (R123, R124). -/
def roundDyad (f : Fmt) (rm : Rm) (zeroNeg : Bool) (a : Dyad) : Res := roundQuo f rm zeroNeg a.num a.den

/-! ### Arithmetic on encodings (R125, R126, R442) -/

/-- The format, mode and flush of an operation (R121, R129). -/
structure Env where
  f : Fmt
  rm : Rm
  dz : Bool

/-- A subnormal operand read as zero of its sign (R129). -/
def Env.rd (v : Env) (w : Nat) : Nat := if v.dz && isSubnormal v.f w then w / v.f.signW % 2 * v.f.signW else w

/-- A subnormal result written as zero of its sign (R129). -/
def Env.wr (v : Env) (r : Res) : Res :=
  if v.dz && isSubnormal v.f r.w then ⟨r.w / v.f.signW % 2 * v.f.signW, r.fl ||| fUF ||| fNX⟩ else r

/-- R125: the first NaN, quiet, if an operand is one; NV for a signalling one. -/
def nanOf (f : Fmt) (ws : List Nat) : Option Res :=
  (ws.find? fun w => (unpack f w).isNan).map fun w =>
    ⟨quiet f w, if ws.any (signalling f) then fNV else 0⟩

/-- An invalid operation's canonical NaN (R115, R125). -/
def invalid (f : Fmt) : Res := ⟨f.nanBits, fNV⟩

/-- The sign of an exact zero sum (R123). -/
def zeroSign (rm : Rm) (n1 n2 : Bool) : Bool := if n1 == n2 then n1 else rm == .rdn

/-- a + b, one rounding. -/
def addVal (f : Fmt) (rm : Rm) (a b : Val) : Res :=
  match a, b with
  | .inf n1, .inf n2 => if n1 = n2 then ⟨signed f n1 f.infBits, 0⟩ else invalid f
  | .inf n, _ | _, .inf n => ⟨signed f n f.infBits, 0⟩
  | a, b => roundDyad f rm (zeroSign rm a.neg b.neg) (a.dyad.add b.dyad)

def fadd (v : Env) (a b : Nat) : Res :=
  let a := v.rd a
  let b := v.rd b
  match nanOf v.f [a, b] with
  | some r => r
  | none => v.wr (addVal v.f v.rm (unpack v.f a) (unpack v.f b))

/-- The sign bit flipped. -/
def flip (f : Fmt) (w : Nat) : Nat := if w / f.signW % 2 = 1 then w - f.signW else w + f.signW

def fsub (v : Env) (a b : Nat) : Res :=
  let a := v.rd a
  let b := v.rd b
  match nanOf v.f [a, b] with
  | some r => r
  | none => v.wr (addVal v.f v.rm (unpack v.f a) (unpack v.f (flip v.f b)))

def mulVal (f : Fmt) (rm : Rm) (a b : Val) : Res :=
  let n := a.neg != b.neg
  match a, b with
  | .inf _, x | x, .inf _ => if x.isZero then invalid f else ⟨signed f n f.infBits, 0⟩
  | a, b => roundDyad f rm n (a.dyad.mul b.dyad)

def fmul (v : Env) (a b : Nat) : Res :=
  let a := v.rd a
  let b := v.rd b
  match nanOf v.f [a, b] with
  | some r => r
  | none => v.wr (mulVal v.f v.rm (unpack v.f a) (unpack v.f b))

/-- a * b + c, or c - a * b (R443): one rounding. 0 × ∞ is invalid even beside a NaN c. -/
def ffma (v : Env) (neg : Bool) (a b c : Nat) : Res :=
  let a := v.rd a
  let b := v.rd b
  let c := v.rd c
  let x := unpack v.f a
  let y := unpack v.f b
  let z := unpack v.f c
  let badMul := match x, y with
    | .inf _, y => y.isZero
    | x, .inf _ => x.isZero
    | _, _ => false
  match nanOf v.f [a, b, c] with
  | some r => if badMul then r.add fNV else r
  | none =>
    if badMul then invalid v.f else
      let pn := (x.neg != y.neg) != neg
      match x, y, z with
      | .inf _, _, .inf n | _, .inf _, .inf n => if pn = n then ⟨signed v.f n v.f.infBits, 0⟩ else invalid v.f
      | .inf _, _, _ | _, .inf _, _ => ⟨signed v.f pn v.f.infBits, 0⟩
      | _, _, .inf n => ⟨signed v.f n v.f.infBits, 0⟩
      | x, y, z =>
        let p := x.dyad.mul y.dyad
        let p := if neg then p.negate else p
        v.wr (roundDyad v.f v.rm (zeroSign v.rm pn z.neg) (p.add z.dyad))

/-- a < b for values that are no NaN, with -0 below +0 when `zeros`. -/
def below (zeros : Bool) (a b : Val) : Bool :=
  match a, b with
  | .inf n1, .inf n2 => n1 && !n2
  | .inf n, _ => n
  | _, .inf n => !n
  | a, b => a.dyad.lt b.dyad || zeros && a.isZero && b.isZero && a.neg && !b.neg

/-- `vfmin`, `vfmax` (R442). -/
def fminmax (v : Env) (isMax : Bool) (a b : Nat) : Res :=
  let a := v.rd a
  let b := v.rd b
  let fl := if signalling v.f a || signalling v.f b then fNV else 0
  let x := unpack v.f a
  let y := unpack v.f b
  if x.isNan && y.isNan then ⟨quiet v.f a, fl⟩
  else if x.isNan then ⟨b, fl⟩
  else if y.isNan then ⟨a, fl⟩
  else if isMax then ⟨if below true x y then b else a, fl⟩ else ⟨if below true y x then b else a, fl⟩

def fabs (v : Env) (a : Nat) : Res := ⟨v.rd a % v.f.signW, 0⟩
def fneg (v : Env) (a : Nat) : Res := ⟨flip v.f (v.rd a), 0⟩

/-- The quotient of two finite values, the second not zero. -/
def quoVal (f : Fmt) (rm : Rm) (a b : Val) : Res :=
  let n := a.neg != b.neg
  let x := a.dyad
  let y := b.dyad
  let num := x.num.natAbs * y.den
  let den := x.den * y.num.natAbs
  if num = 0 then ⟨signed f n 0, 0⟩ else roundMag f rm n num den false

def fdiv (v : Env) (a b : Nat) : Res :=
  let a := v.rd a
  let b := v.rd b
  match nanOf v.f [a, b] with
  | some r => r
  | none =>
    let x := unpack v.f a
    let y := unpack v.f b
    let n := x.neg != y.neg
    match x, y with
    | .inf _, .inf _ => invalid v.f
    | .inf _, _ => ⟨signed v.f n v.f.infBits, 0⟩
    | _, .inf _ => ⟨signed v.f n 0, 0⟩
    | x, y =>
      if y.isZero then (if x.isZero then invalid v.f else ⟨signed v.f n v.f.infBits, fDZ⟩)
      else v.wr (quoVal v.f v.rm x y)

/-- `vfrcp` (R442): 1 / a; ±0 gives ±∞ with DZ. -/
def frcp (v : Env) (a : Nat) : Res := fdiv v (v.f.bias * 2 ^ v.f.m) a

/-- The integer square root, by halving from the top bit (k bits). -/
def isqrtGo (n : Nat) : Nat → Nat → Nat
  | 0, r => r
  | k + 1, r => if (r + 2 ^ k) * (r + 2 ^ k) ≤ n then isqrtGo n k (r + 2 ^ k) else isqrtGo n k r
def isqrt (n : Nat) : Nat := isqrtGo n (n.log2 / 2 + 1) 0

/-- A root or reciprocal root of a positive dyadic, on a grid of 2^-k: floor and whether it is inexact. -/
def sqrtGrid (x : Dyad) (k : Nat) : Nat × Bool :=
  let n := x.num.toNat * 2 ^ (2 * k)
  let t := n / x.den
  let r := isqrt t
  (r, r * r * x.den != n)
def rsqrtGrid (x : Dyad) (k : Nat) : Nat × Bool :=
  let n := x.den * 2 ^ (2 * k)
  let t := n / x.num.toNat
  let r := isqrt t
  (r, r * r * x.num.toNat != n)

/-- A grid fine enough for the format: beyond the least subnormal and the precision of the root. -/
def gridOf (f : Fmt) : Nat := f.bias + 2 * f.m + 8

def fsqrt (v : Env) (a : Nat) : Res :=
  let a := v.rd a
  match nanOf v.f [a] with
  | some r => r
  | none =>
    let x := unpack v.f a
    if x.isZero then ⟨a, 0⟩ else if x.neg then invalid v.f else
      match x with
      | .inf _ => ⟨a, 0⟩
      | x =>
        let (r, st) := sqrtGrid x.dyad (gridOf v.f)
        v.wr (roundMag v.f v.rm false r (2 ^ gridOf v.f) st)

def frsq (v : Env) (a : Nat) : Res :=
  let a := v.rd a
  match nanOf v.f [a] with
  | some r => r
  | none =>
    let x := unpack v.f a
    if x.isZero then ⟨signed v.f x.neg v.f.infBits, fDZ⟩ else if x.neg then invalid v.f else
      match x with
      | .inf _ => ⟨0, 0⟩
      | x =>
        let (r, st) := rsqrtGrid x.dyad (gridOf v.f)
        v.wr (roundMag v.f v.rm false r (2 ^ gridOf v.f) st)

/-! ### Conversions (R124, R130) -/

/-- A NaN of one IEEE format as a quiet NaN of another: the mantissa truncated or extended from its top (R130); the
canonical NaN with its sign for e4m3 and e5m2; +0 with NV for mx4. -/
def cvtNan (src dst : Fmt) (w : Nat) : Res :=
  let q := quiet src w
  let n := q / src.signW % 2 == 1
  let fl := if signalling src w then fNV else 0
  if dst.top = .normal then ⟨0, fNV⟩
  else if dst = e4m3 ∨ dst = e5m2 then ⟨signed dst n dst.nanBits, fl⟩
  else
    let m := q % 2 ^ src.m
    let m := if dst.m ≥ src.m then m * 2 ^ (dst.m - src.m) else m / 2 ^ (src.m - dst.m)
    ⟨signed dst n (dst.infBits + m), fl⟩

/-- Float to float (R130). -/
def cvtFF (src dst : Fmt) (rm : Rm) (w : Nat) : Res :=
  match unpack src w with
  | .nan .. => cvtNan src dst w
  | .inf n =>
    if dst.hasInf then ⟨signed dst n dst.infBits, 0⟩
    else if dst.top = .nanOnly then ⟨signed dst n dst.nanBits, fNV⟩
    else ⟨signed dst n dst.maxBits, fNV⟩
  | .fin n m e => roundDyad dst rm n (Val.fin n m e).dyad

/-- A real rounded to an integer by a mode, and whether that changed it. -/
def roundInt (rm : Rm) (a : Dyad) : Int × Bool :=
  let r := roundAt rm (a.v < 0) a.num.natAbs a.den false 0
  (if a.v < 0 then -(r.1 : Int) else r.1, r.2)

/-- Float to integer of n bits (R130). -/
def cvtFI (src : Fmt) (sg : Bool) (n : Nat) (rm : Rm) (w : Nat) : Int × Flags :=
  let sat := fun (x : Int) => if sg then satS n x else satU n x
  match unpack src w with
  | .nan .. => (0, fNV)
  | .inf neg => (sat (if neg then -(2 ^ 70) else 2 ^ 70), fNV)
  | .fin ng m e =>
    let (x, inexact) := roundInt rm (Val.fin ng m e).dyad
    if sat x ≠ x then (sat x, fNV) else (x, if inexact then fNX else 0)

/-- Integer to float (R130). -/
def cvtIF (dst : Fmt) (rm : Rm) (x : Int) : Res := roundDyad dst rm false (Dyad.ofInt x)

/-- The exact f32 encoding of a narrower float that is no NaN, or of a NaN as `vcvt` to f32 gives it. -/
def widenTo32 (src : Fmt) (w : Nat) : Nat := (cvtFF src f32 .rne w).w

/-- `narrow_rne(x)` of an f32 (R124). -/
def narrowRne (dst : Fmt) (w : Nat) : Res :=
  match unpack f32 w with
  | .nan .. => cvtNan f32 dst w
  | .inf n => if dst.hasInf then ⟨signed dst n dst.infBits, 0⟩ else ⟨signed dst n dst.maxBits, fOF⟩
  | .fin n m e =>
    let r := roundDyad dst .rne n (Val.fin n m e).dyad
    if r.fl &&& fOF ≠ 0 then ⟨signed dst n dst.maxBits, r.fl⟩ else r

def env32 : Env := ⟨f32, .rne, false⟩
/-- `fp32_add_rne`, `fp32_sub_rne` (R124). -/
def fp32Add (a b : Nat) : Res := fadd env32 a b
def fp32Sub (a b : Nat) : Res := fsub env32 a b

/-! ### Sums of products (R132, R133, R276) -/

/-- The exact sum of products of a K-group, or what makes it none. -/
inductive Sum where
  | nan
  | inf (neg : Bool)
  | fin (d : Dyad)
  deriving DecidableEq, Repr

def prodVal (a b : Val) : Sum :=
  let n := a.neg != b.neg
  match a, b with
  | .nan .., _ | _, .nan .. => .nan
  | .inf _, x | x, .inf _ => if x.isZero then .nan else .inf n
  | a, b => .fin (a.dyad.mul b.dyad)

def Sum.add (a b : Sum) : Sum :=
  match a, b with
  | .nan, _ | _, .nan => .nan
  | .inf m, .inf n => if m = n then .inf m else .nan
  | .inf m, .fin _ | .fin _, .inf m => .inf m
  | .fin x, .fin y => .fin (x.add y)

def sumProds (ps : List (Val × Val)) : Sum := ps.foldl (fun t p => t.add (prodVal p.1 p.2)) (.fin ⟨0, 0⟩)

/-- `acc := round(acc + s, f32, RNE)` (R133): an undefined sum gives the canonical NaN and NV; a NaN in the accumulator
stays, quiet, and a signalling one sets NV (DESIGN CHOICE, log 26: the rule names no flag for it). A zero sum of products
is +0, so that -0 plus it gives +0 (DEDUCED, log 12). -/
def accumulate (acc : Nat) (s : Sum) : Res :=
  let a := unpack f32 acc
  match s with
  | .nan => ⟨f32.nanBits, fNV⟩
  | .inf n => match a with
    | .nan .. => ⟨quiet f32 acc, if signalling f32 acc then fNV else 0⟩
    | .inf m => if m = n then ⟨acc, 0⟩ else invalid f32
    | .fin .. => ⟨signed f32 n f32.infBits, 0⟩
  | .fin d => match a with
    | .nan .. => ⟨quiet f32 acc, if signalling f32 acc then fNV else 0⟩
    | .inf _ => ⟨acc, 0⟩
    | .fin n m e => roundDyad f32 .rne false ((Val.fin n m e).dyad.add d)

/-- `vfdot2` (R132): round(a.lo * b.lo + a.hi * b.hi) in f32. -/
def dot2 (f : Fmt) (rm : Rm) (alo ahi blo bhi : Nat) : Res :=
  let ws := [alo, ahi, blo, bhi]
  match ws.find? fun w => (unpack f w).isNan with
  | some w => ⟨(cvtNan f f32 w).w, if ws.any (signalling f) then fNV else 0⟩
  | none =>
    let p := prodVal (unpack f alo) (unpack f blo)
    let q := prodVal (unpack f ahi) (unpack f bhi)
    let pn := (unpack f alo).neg != (unpack f blo).neg
    let qn := (unpack f ahi).neg != (unpack f bhi).neg
    match p.add q with
    | .nan => invalid f32
    | .inf n => ⟨signed f32 n f32.infBits, 0⟩
    | .fin d => roundDyad f32 rm (zeroSign rm pn qn) d

end Sys2Proof.Machine.Float
end

