-- ==== Sys2Proof/Machine/Atoms.lean ====
section
/-! DEFINITION. Atomics at their words (R165, R175, R176, R230): one lane's, and those of an instruction in lane order. -/

namespace Sys2Proof.Machine

open Assoc Bits

def minS (a b : Word) : Word := if a.slt b then a else b
def maxS (a b : Word) : Word := if a.slt b then b else a

/-- An outstanding `vatom`. -/
def isAtomic (l : PendLoad) : Bool := l.parts.any (·.atom.isSome)

/-- The new memory value and the flags; `x` is the operand, `cmp` the comparand of `cas` (R165). -/
def atomValue (op : AtomOp) (old x cmp : Word) : Word × BitVec 5 :=
  match op with
  | .iadd => (old + x, 0)
  | .fadd => let r := Float.fp32Add old.toNat x.toNat; (BitVec.ofNat 32 r.w, r.fl)
  | .and => (old &&& x, 0)
  | .or => (old ||| x, 0)
  | .smin => (minS old x, 0)
  | .smax => (maxS old x, 0)
  | .xchg => (x, 0)
  | .cas => (if old = cmp then x else old, 0)

/-- The word whose bytes have some homes, the least significant first: a compressor may part them (R160). -/
def wordAt (s : State) (locs : List Nat) : Word := BitVec.ofNat 32 (valueAt s locs)

/-- One atomic at the homes of its word's bytes: the state, the old value and the flags. -/
def atomAt (w : Writer) (s : State) (op : AtomOp) (locs : List Nat) (x cmp : Word) : State × Word × BitVec 5 :=
  let r := atomValue op (wordAt s locs) x cmp
  (storeBy w s (locs.zip (bytesOfNat 4 r.1.toNat)), wordAt s locs, r.2)

/-- What a reader of some lines at their homes follows. -/
def metAt (s : State) (lines : List Nat) : Seen := lines.foldl (fun k l => joinSeen k (get [] s.msgs l)) []

/-- What a `vatom` of a stream has met: what the lines of its word carry, and its own write (R172, R176). -/
def hear (s : State) (gid : Nat) (l : PendLoad) (lines : List Nat) (n : Nat) : State :=
  let k := prune s (joinSeen (metAt s lines) (if s.writes = n then [] else [(.all, n)]))
  s.updGroup gid fun g => onView s k l.stream (fun v k => v.hear k (audOf gid g.core l.scope)) g

/-- What the lanes have done so far: old values, flags, and the lanes that met an uncorrectable word, with the first. -/
structure AtomRun where
  s : State
  olds : List (LoadPart × Word)
  fl : BitVec 5
  dead : List Nat
  at_ : Nat

/-- The atomic of one lane acts at its home (R175): nothing, where the word is uncorrectable. -/
def atomStep (gid : Nat) (g : Group) (l : PendLoad) (r : AtomRun) (p : LoadPart) : AtomRun :=
  match p.atom with
  | some a =>
    let locs := p.places.map (homeOf r.s)
    if locs.any (isBad r.s) then
      { r with olds := r.olds ++ [(p, 0)], dead := r.dead ++ p.lane.toList,
               at_ := if r.dead.isEmpty then locs.headD 0 else r.at_ }
    else
      let w : Writer := { core := some g.core, carries := a.carries, met := metAt r.s (linesOf locs), uncached := p.cp == some 3 }
      let (s', old, fl) := atomAt w r.s a.op locs a.x a.cmp
      { r with s := hear s' gid l (linesOf locs) r.s.writes, olds := r.olds ++ [(p, old)], fl := r.fl ||| fl }
  | none => r

/-- The atomics of an instruction's lanes, in increasing order, each seeing the ones before. -/
def atomLanes (s : State) (gid : Nat) (g : Group) (l : PendLoad) : AtomRun :=
  l.parts.foldl (atomStep gid g l) ⟨s, [], 0, [], 0⟩

/-- The outstanding atomics of a group that a test chooses act, though nothing receives their values any more (R86). -/
def atomsAct (s : State) (gid : Nat) (p : PendLoad → Bool) : State :=
  match s.group? gid with
  | none => s
  | some g =>
    let mine := fun (l : PendLoad) => isAtomic l && p l
    if !g.loads.any mine then s
    else (g.loads.filter mine).foldl (fun s l => (atomLanes s gid g l).s)
      (s.setGroup gid { g with loads := g.loads.filter fun l => !mine l })

end Sys2Proof.Machine
end

