-- ==== Sys2Proof/Machine/Cause.lean ====
section
/-! DEFINITION. The cause codes (R227): which exist, whether a handler receives them, where `rett` resumes. -/

namespace Sys2Proof.Machine

/-- The causes of R227, in its order. -/
inductive Cause where
  | undef | rsvbit | opnd | latch | chain | priv | align | mstack | loopend | window
  | nomap | nrst | nrx | permr | permw | permx | perma | permp | secv | aper | fenced
  | fpinv | fpdz | fpovf | fpunf | fpinx | migref | migttl | evtbad | uce | assay | savef
  | swtrap | brk | timer | mtxshape | accalloc | spaddesc | surfbad | cbbad
  deriving DecidableEq, Repr

/-- TCAUSE[7:0] (R227). -/
def causeCode : Cause → BitVec 8
  | .undef => 0x01 | .rsvbit => 0x02 | .opnd => 0x03 | .latch => 0x04 | .chain => 0x05 | .priv => 0x06
  | .align => 0x07 | .mstack => 0x08 | .loopend => 0x09 | .window => 0x0A | .nomap => 0x10 | .nrst => 0x11
  | .nrx => 0x12 | .permr => 0x13 | .permw => 0x14 | .permx => 0x15 | .perma => 0x16 | .permp => 0x17
  | .secv => 0x18 | .aper => 0x19 | .fenced => 0x1A | .fpinv => 0x20 | .fpdz => 0x21 | .fpovf => 0x22
  | .fpunf => 0x23 | .fpinx => 0x24 | .migref => 0x30 | .migttl => 0x31 | .evtbad => 0x38 | .uce => 0x40
  | .assay => 0x41 | .savef => 0x48 | .swtrap => 0x50 | .brk => 0x51 | .timer => 0x52 | .mtxshape => 0x60
  | .accalloc => 0x61 | .spaddesc => 0x62 | .surfbad => 0x68 | .cbbad => 0x70

/-- The causes that never reach a handler (R227). -/
def causeToHandler : Cause → Bool
  | .uce | .assay | .savef => false
  | _ => true

/-- The causes after which TNEXT = TPC + 4 (R227). -/
def causeResumesAfter : Cause → Bool
  | .fpinv | .fpdz | .fpovf | .fpunf | .fpinx | .migref | .migttl | .swtrap | .brk => true
  | _ => false

end Sys2Proof.Machine
end

