-- ==== Sys2Proof/Machine/Translate.lean ====
section
/-! DEFINITION. Steering an address to an aperture (R135 to R138, R143), translating a global one (R148 to R153), and the
TLBs (R155, R156). -/

namespace Sys2Proof.Machine

open Assoc Bits

/-- What an access does at its address. -/
inductive Access where
  | load | store | atomic | fetch | czero
  /-- `cflush` and `cinv` (R147) -/
  | flush
  deriving DecidableEq, Repr

/-- Who makes an access, as far as its address is concerned. -/
structure Agent where
  priv : Bool
  secure : Bool
  migrant : Bool
  root : DWord
  core : Nat
  /-- the block whose slice the scratchpad aperture shows -/
  block : Option Nat
  held : List HeldSlot
  /-- the context under which TLBs hold its translations; none: it walks each time -/
  tlb : Option Nat
  /-- the lane's stack region, base and size; none for a scalar access -/
  lane : Option (Nat × Nat)

/-- Where an access goes. -/
structure Hit where
  /-- the place of its first byte -/
  place : Nat
  /-- RES = 0: a load reads zero and reports it (R153) -/
  nonres : Bool
  /-- the locations of the leaf to mark, and whether to set DRT (R150) -/
  leaf : Option (List Nat × Bool)
  /-- the translation that the TLBs of a core take up (R155) -/
  fill : Option (Nat × TlbEntry)
  /-- the CP field of the leaf; none: data that no cache holds (R144) -/
  cp : Option Nat
  /-- a circular-buffer descriptor and the byte in it (R137) -/
  cb : Option (Nat × Nat)

/-- An access at a place that no leaf and no cache has a part in. -/
def hitAt (place : Nat) : Hit :=
  { place := place, nonres := false, leaf := none, fill := none, cp := none, cb := none }

/-- The apertures of R135. -/
inductive Aperture where
  | spad (off : Nat) | lane (off : Nat) | shaft (off : Nat) | user | privileged | none
  deriving DecidableEq, Repr

def aperture (va : DWord) : Aperture :=
  let a := va.toNat
  if a ≥ 0xFFFFFF0000000000 then .spad (a - 0xFFFFFF0000000000)
  else if a ≥ 0xFFFFFE0000000000 then .lane (a - 0xFFFFFE0000000000)
  else if a ≥ 0xFFFFFD0000000000 then .shaft (a - 0xFFFFFD0000000000)
  else if a < 2 ^ 51 then .user
  else if a ≥ 2 ^ 64 - 2 ^ 51 then .privileged
  else .none

/-! ### The walk (R148 to R150) -/

def entV (e : DWord) : Bool := bit e 0
def entR (e : DWord) : Bool := bit e 1
def entW (e : DWord) : Bool := bit e 2
def entX (e : DWord) : Bool := bit e 3
def entA (e : DWord) : Bool := bit e 4
def entP (e : DWord) : Bool := bit e 5
def entSec (e : DWord) : Bool := bit e 6
def entRes (e : DWord) : Bool := bit e 9
def entFab (e : DWord) : Bool := bit e 10
def entNode (e : DWord) : Nat := fieldNat e 46 18

def isLeafEnt (e : DWord) : Bool := entR e || entW e || entX e || entA e
/-- A pointer entry without reserved bits (R149). -/
def pointerOk (e : DWord) : Bool :=
  entV e && fieldNat e 48 16 == 0 && fieldNat e 5 10 == 0 && fieldNat e 1 4 == 0
/-- A leaf without reserved bits (R150). In a 256 MiB leaf, bits [27:16] must be zero with FAB = 1 too (log 26; DESIGN
CHOICE: R150 names FRAME, which is the field of FAB = 0). -/
def leafOk (e : DWord) (big : Bool) : Bool :=
  entV e && fieldNat e 13 3 == 0 && (entFab e || fieldNat e 48 16 == 0) && (!big || fieldNat e 16 12 == 0)

/-- An entry as a walker reads it. Where a table pointer names an address that is not populated, or LLC rows, the walker
reads the byte listed there, 0 if none (log 26; DESIGN CHOICE: R28 and R26 speak only of accesses that translate there). -/
def readEntry (s : State) (pa : Nat) : DWord := BitVec.ofNat 64 (valueAt s (homesFrom s pa 8))
def tableOf (e : DWord) : Nat := fieldNat e 15 33 * 32768

/-- The leaf of an address: where it lies, the entry, and whether it maps 256 MiB; none for step 1 of R151. -/
def walk (s : State) (root : DWord) (va : DWord) : Option (Nat × DWord × Bool) :=
  if !pointerOk root then none else
    let e1 := readEntry s (tableOf root + 8 * fieldNat va 40 12)
    if !pointerOk e1 then none else
      let p2 := tableOf e1 + 8 * fieldNat va 28 12
      let e2 := readEntry s p2
      if isLeafEnt e2 then (if leafOk e2 true then some (p2, e2, true) else none)
      else if !pointerOk e2 then none else
        let p3 := tableOf e2 + 8 * fieldNat va 16 12
        let e3 := readEntry s p3
        if leafOk e3 false then some (p3, e3, false) else none

/-- The physical address under a leaf, in this package or in package NODE. -/
def leafPa (e : DWord) (big : Bool) (va : DWord) : Nat :=
  let frame := if entFab e then fieldNat e 16 30 else fieldNat e 16 32
  if big then frame / 4096 * 2 ^ 28 + fieldNat va 0 28 else frame * 65536 + fieldNat va 0 16

/-- Step 4 of R151: the first missing permission. -/
def permFault (e : DWord) : Access → Option Cause
  | .load | .flush => if entR e then none else some .permr
  | .store | .czero => if entW e then none else some .permw
  | .fetch => if entX e then none else some .permx
  | .atomic =>
    if !entR e then some .permr else if !entW e then some .permw else if !entA e then some .perma else none

/-- Step 5 of R151 where the access may not go on (R153, R147). -/
def nonResFault : Access → Option Cause
  | .load | .flush => none
  | .store | .atomic | .czero => some .nrst
  | .fetch => some .nrx

/-- A package that traffic cannot reach (R151 step 6, R315). -/
def unreachable (s : State) (pkg : Nat) : Bool :=
  !s.fabric || s.fenced.contains pkg || s.fenced.contains s.pkgid

/-- A physical address in a secure region (R333). -/
def inSecure (s : State) (pa : Nat) : Bool := s.secRegions.any fun r => r.1 ≤ pa / 65536 && pa / 65536 < r.1 + r.2

/-- Step 7 of R151, and the secure regions of R333. -/
def frameFault (s : State) (secure : Bool) (pa : Nat) : Option Cause :=
  if !populated pa then some .nomap
  else if surfBase ≤ pa && inLlc s (surfStack pa) (surfOff pa) then some .nomap
  else if inSecure s pa && !secure then some .secv
  else none

/-- The place of a physical address of a package, this one among them. -/
def pkgPlace (s : State) (pkg pa : Nat) : Nat := if pkg = s.pkgid then pa else remoteLoc pkg pa

def marksDirty : Access → Bool
  | .store | .atomic | .czero => true
  | .load | .fetch | .flush => false

/-! ### The TLBs (R155, R156) -/

/-- The first 64 KiB page of an entry that maps an address. -/
def pageOf (big : Bool) (va : DWord) : Nat :=
  let page := fieldNat va 16 48
  if big then page / 4096 * 4096 else page

/-- An entry serves an access: it maps the page, is resident (others are reread), and has DRT where the access sets it. -/
def tlbServes (ctx : Nat) (va : DWord) (acc : Access) (e : TlbEntry) : Bool :=
  e.ctx == ctx && e.page == pageOf e.big va && entRes e.leaf && (!marksDirty acc || bit e.leaf 12)

/-- The entry that serves an access: of the core, else of its cluster. -/
def tlbFind (s : State) (core ctx : Nat) (va : DWord) (acc : Access) : Option TlbEntry :=
  match (s.coreAt core).tlb.find? (tlbServes ctx va acc) with
  | some e => some e
  | none => (s.clusterAt (clusterOfCore core)).tlb.find? (tlbServes ctx va acc)

/-- Entries with a new one, of at most n: it replaces one for the same page, else the oldest of a full TLB goes. -/
def tlbPut (es : List TlbEntry) (n : Nat) (e : TlbEntry) : List TlbEntry :=
  let es := es.filter fun x => !(x.ctx == e.ctx && x.page == e.page && x.big == e.big)
  (if es.length < n then es else es.drop 1) ++ [e]

/-- A translation taken up by the TLBs of a core and its cluster. -/
def tlbFill (s : State) (core : Nat) (e : TlbEntry) : State :=
  let k := s.coreAt core
  if k.tlb.contains e then s
  else
    let s := s.setCore core { k with tlb := tlbPut k.tlb 64 e }
    let cl := clusterOfCore core
    let c := s.clusterAt cl
    if c.tlb.contains e then s else s.setCluster cl { c with tlb := tlbPut c.tlb 2048 e }

/-- The leaf under which an agent makes an access: where it lies, the leaf, whether it maps 256 MiB, and whether a TLB gave
it, so that no walk takes place. -/
def leafFor (s : State) (ag : Agent) (acc : Access) (va : DWord) : Option (Nat × DWord × Bool × Bool) :=
  match ag.tlb.bind fun ctx => tlbFind s ag.core ctx va acc with
  | some e => some (e.entry, e.leaf, e.big, true)
  | none => (walk s ag.root va).map fun w => (w.1, w.2.1, w.2.2, false)

/-- A leaf as a completed access leaves it (R150). -/
def marked (e : DWord) (acc : Access) : DWord := e ||| BitVec.ofNat 64 (2 ^ 11 + if marksDirty acc then 2 ^ 12 else 0)

/-- The hit of a resident leaf: what it marks, and what the TLBs take up. -/
def leafHit (s : State) (ag : Agent) (acc : Access) (va : DWord) (p : Nat) (e : DWord) (big known : Bool) (place : Nat) :
    Hit :=
  { hitAt place with
    leaf := if known then none else some (homesFrom s p 8, marksDirty acc),
    fill := ag.tlb.map fun ctx => (ag.core, ⟨ctx, pageOf big va, big, p, if known then e else marked e acc⟩),
    cp := if entFab e then none else some (fieldNat e 7 2) }

/-- R151 in order, for a global address. -/
def translate (s : State) (ag : Agent) (acc : Access) (va : DWord) : Except Cause Hit :=
  match leafFor s ag acc va with
  | none => .error .nomap
  | some (p, e, big, known) =>
    if entP e && !ag.priv then .error .permp
    else if entSec e && !ag.secure then .error .secv
    else match permFault e acc with
    | some c => .error c
    | none =>
      let pa := leafPa e big va
      if !entRes e then
        match nonResFault acc with
        | some c => .error c
        | none => .ok { hitAt 0 with nonres := true }
      else if entFab e then
        if unreachable s (entNode e) then .error .fenced
        else if entNode e = s.pkgid && inSecure s pa && !ag.secure then .error .secv
        else .ok (leafHit s ag acc va p e big known (pkgPlace s (entNode e) pa))
      else match frameFault s ag.secure pa with
      | some c => .error c
      | none => .ok (leafHit s ag acc va p e big known pa)

/-! ### Apertures -/

/-- The circular-buffer control window (R137): the descriptor and the byte in it. -/
def cbWindow (off : Nat) : Option (Nat × Nat) :=
  if 0x8000000000 ≤ off ∧ off < 0x8000000000 + 16 * 63 then
    some ((off - 0x8000000000) / 16, (off - 0x8000000000) % 16)
  else none

/-- A scratchpad access (R137). -/
def resolveSpad (s : State) (ag : Agent) (acc : Access) (off size : Nat) : Except Cause Hit :=
  if ag.migrant then .error .aper else
  match ag.block.bind s.block? with
  | none => .error .aper
  | some b =>
    if off + size ≤ b.spad then .ok (hitAt (spadLoc b.cluster (b.spadBase + off)))
    else match cbWindow off with
    | some c =>
      if (acc == .load || acc == .store) && (size == 4 || size == 8) then
        .ok { hitAt (cbLoc b.cluster c.1 c.2) with cb := some c }
      else .error .aper
    | none => .error .aper

/-- A lane-stack access (R138). It reaches the bank's byte where its physical address lies in the present LLC rows (log 26;
DESIGN CHOICE: R26 speaks of leaves, R138 of unpopulated ranges only). -/
def resolveLane (s : State) (ag : Agent) (off size : Nat) : Except Cause Hit :=
  match ag.lane with
  | none => .error .aper
  | some (base, n) =>
    if ag.migrant || off + size > n then .error .aper
    else
      let pa := (base + off) % 2 ^ 64
      if !populated pa then .error .nomap
      else if inSecure s pa && !ag.secure then .error .secv
      else .ok { hitAt pa with cp := some 0 }

/-- A shaft access (R142, R143). -/
def resolveShaft (ag : Agent) (acc : Access) (off : Nat) : Except Cause Hit :=
  if ag.lane.isNone || acc == .atomic then .error .aper
  else if off ≥ 1024 then .error .cbbad
  else
    let prod := acc == .store
    if ag.held.contains ⟨63, prod, off / 128⟩ then
      .ok (hitAt (shaftLoc (if prod then partnerOf ag.core else ag.core) off))
    else .error .cbbad

/-- An access steered and translated (R135, R136, R151). -/
def resolve (s : State) (ag : Agent) (acc : Access) (va : DWord) (size : Nat) : Except Cause Hit :=
  match aperture va with
  | .spad off => if acc == .fetch then .error .aper else resolveSpad s ag acc off size
  | .lane off => if acc == .fetch then .error .aper else resolveLane s ag off size
  | .shaft off => if acc == .fetch then .error .aper else resolveShaft ag acc off
  | .user => translate s ag acc va
  | .privileged => if ag.priv then translate s ag acc va else .error .aper
  | .none => .error .aper

/-! ### What an access leaves behind -/

/-- ACC and DRT set in a leaf (R150, R151). -/
def markLeaf (s : State) (locs : List Nat) (dirty : Bool) : State :=
  let e := valueAt s locs
  let acc := e / 2 ^ 11 % 2
  let drt := e / 2 ^ 12 % 2
  let e' := e + (if acc = 0 then 2 ^ 11 else 0) + (if dirty ∧ drt = 0 then 2 ^ 12 else 0)
  if e' = e then s else store s (locs.zip (bytesOfNat 8 e'))

/-- A handle used now (R159), in µs of the primary die. -/
def touchKey (s : State) (key : Nat) : State :=
  { s with handles := upd s.handles key fun h => { h with lastUse := s.primaryTime.toNat / 1000 } }

/-- The recency of the handle that an access at a place reaches (R159). -/
def touchPlace (s : State) (p : Nat) : State :=
  if 2 ^ 91 ≤ p then touchKey s ((p - 2 ^ 91) / 2 ^ 34)
  else if surfBase ≤ p ∧ p < surfEnd then
    match handleAt s p with
    | some (key, _) => touchKey s key
    | none => s
  else s

/-- The marks of one completed access: the leaf, the TLBs, the recency of the handle it reaches. -/
def markHit (s : State) (h : Hit) : State :=
  let s := match h.leaf with | some (locs, d) => markLeaf s locs d | none => s
  let s := match h.fill with | some (core, e) => tlbFill s core e | none => s
  touchPlace s h.place

/-! ### The bytes of an access -/

/-- The places of the bytes of an access; the bytes of a descriptor stand outside memory and order accesses all the same
(R137, R177). -/
def hitPlaces (h : Hit) (size : Nat) : List Nat :=
  if h.nonres then [] else (List.range size).map (h.place + ·)

/-- The bytes of an access at their homes now: a compressor may part them (R160). -/
def hitLocs (s : State) (h : Hit) (size : Nat) : List Nat := if h.cb.isSome then [] else (hitPlaces h size).map (homeOf s)

/-- A little-endian value of n bytes at a hit. -/
def hitNat (s : State) (h : Hit) (n : Nat) : Nat := valueAt s (hitLocs s h n)

/-- Whether a byte of an access is uncorrectable. -/
def hitBad (s : State) (h : Hit) (n : Nat) : Bool := (hitLocs s h n).any (isBad s)

/-- Bytes for a hit, each at its home. -/
def hitCells (s : State) (h : Hit) (bs : List Byte) : List (Nat × Byte) :=
  (cellsAt h.place bs).map fun e => (homeOf s e.1, e.2)

/-- What the completed read of n bytes at a hit leaves, by an agent that no L1 serves: its marks, and lines in the LLC under a
policy (R144). -/
def readMark (s : State) (cp : Option Nat) (h : Hit) (n : Nat) : State := fillLlc (markHit s h) cp (hitLocs s h n)

/-- Bytes written by an agent that is no group, under a policy. -/
def storeUnder (s : State) (cp : Option Nat) (bs : List (Nat × Byte)) : State :=
  storeBy { outside s with uncached := cp == some 3 } s bs

/-- A little-endian value of n bytes written at a hit by an agent that is no group. -/
def storeHit (s : State) (h : Hit) (n v : Nat) : State := storeUnder s h.cp (hitCells s h (bytesOfNat n v))

/-! ### Agents -/

/-- The context-table entry of a context (R148, R149). -/
def contextRoot (s : State) (ctx : Nat) : DWord := readEntry s (s.ctl.ctxbase.toNat + 8 * ctx)

/-- A lane's region of the lane stack (R138). -/
def laneRegion (l : Launch) (stackNo j : Nat) : Nat × Nat :=
  (l.hdr.lsbase.toNat + (stackNo * 32 + j) * l.hdr.lslane, l.hdr.lslane)

/-- The launch as a group sees it: a pixel group's header is that of the draw (R294). -/
def launchOf (l : Launch) (g : Group) : Launch :=
  match l.draw with
  | some d => if isPixel g then { l with hdr := d.pixHdr } else l
  | none => l

/-- A group as the agent of an access, in the mode of its launch (R31); with a lane for a vector access. -/
def agentOf (s : State) (g : Group) (lane : Option Nat) : Agent :=
  match s.launch? g.launch with
  | some l =>
    { priv := g.priv, secure := g.secure, migrant := isMigrant g, root := l.root, core := g.core, block := some g.block,
      held := g.held, tlb := some g.ctx, lane := lane.map (laneRegion (launchOf l g) g.stackNo) }
  | none =>
    { priv := g.priv, secure := g.secure, migrant := isMigrant g, root := 0, core := g.core, block := none,
      held := g.held, tlb := some g.ctx, lane := lane.map fun _ => (0, 0) }

/-- A command processor as the agent of an access: it knows a context, and no block (R97). -/
def ctxAgent (root : DWord) (priv secure : Bool) : Agent :=
  { priv := priv, secure := secure, migrant := true, root := root, core := 0, block := none, held := [], tlb := none,
    lane := none }

end Sys2Proof.Machine
end

