-- ==== Sys2Proof/Machine/Ops.lean ====
section
/-! DEFINITION. The named operations that instructions and steps share: registers and masks (R41, R70, R71), advancing
(R78, R79), taking a trap and returning from one (R223 to R229), killing lanes and groups (R225, R230, R231), circular
buffers (R141, R142), barriers (R219), and the retirement of a group (R86, R87, R377). -/

namespace Sys2Proof.Machine

open Assoc Bits

/-! ### Registers -/

/-- The number of an element of a register file: register * 32 + lane. -/
def elemOf (reg lane : Nat) : Nat := reg * 32 + lane

namespace Group

/-- Element of window code `c` in a lane (R41). -/
def vcode (g : Group) (c lane : Nat) : Word := get 0 g.v (elemOf (g.wb + c) lane)
def scalar (g : Group) (n : Nat) : Word := get 0 g.s n
def maskAt (g : Group) (n : Nat) : Word := get 0 g.m n
def scalarPair (g : Group) (n : Nat) : DWord := join32 (g.scalar (n + 1)) (g.scalar n)
def active (g : Group) (lane : Nat) : Bool := g.amask.getLsbD lane
def live (g : Group) (lane : Nat) : Bool := g.lmask.getLsbD lane
def activeLanes (g : Group) : List Nat := lanesOf g.amask

/-- A scalar written; the new value is correct, and no status that nothing has read. -/
def setS (g : Group) (n : Nat) (w : Word) : Group :=
  { g with s := put 0 g.s n w, badS := g.badS.filter (· != n), unread := g.unread.filter (· != n) }
/-- A scalar pair written (R37). -/
def setSPair (g : Group) (n : Nat) (w : DWord) : Group := (g.setS n (lo32 w)).setS (n + 1) (hi32 w)
def setM (g : Group) (n : Nat) (w : Word) : Group := { g with m := put 0 g.m n w }
/-- `m7` gains bits, as a load that found RES = 0 leaves them (R153). -/
def orM7 (g : Group) (w : Word) : Group := if w = 0 then g else g.setM 7 (g.maskAt 7 ||| w)

/-- One element of window code `c` written. -/
def setElem (g : Group) (c lane : Nat) (w : Word) : Group :=
  { g with v := put 0 g.v (elemOf (g.wb + c) lane) w, badV := g.badV.filter (· != elemOf (g.wb + c) lane) }

/-- Lanes of window code `c` written, each with its value; other lanes keep theirs (R70). -/
def setLanes (g : Group) (c : Nat) (lanes : List Nat) (f : Nat → Word) : Group :=
  lanes.foldl (fun g j => g.setElem c j (f j)) g

/-- Lanes of a pair written (R37). -/
def setLanes64 (g : Group) (c : Nat) (lanes : List Nat) (f : Nat → DWord) : Group :=
  (g.setLanes c lanes fun j => lo32 (f j)).setLanes (c + 1) lanes fun j => hi32 (f j)

/-- Bits of a mask at the given lanes; other bits stay (R70). -/
def setMaskLanes (g : Group) (n : Nat) (lanes : List Nat) (p : Nat → Bool) : Group :=
  g.setM n (lanes.foldl (fun w j => setBit w j (p j)) (g.maskAt n))

/-- The loop entries below this depth are not compared or popped (R77, R226). -/
def loopBase (g : Group) : Nat := if g.trap.intrap then g.trap.lbase.toNat else 0

end Group

/-- No chain that an instruction could join (R43, R51). A group, and a trap handler, starts with it: a latch read by its
first instruction raises CHAIN (log 25; DESIGN CHOICE: R44 could also give LATCH, position 0 having no predecessor). -/
def Chain.none : Chain :=
  { ended := true, kept := false, head := 0, last := 0, latches := [], reads := [], writes := [], savedV := [],
    savedS := [], savedM := [], savedBadV := [], savedBadS := [], badL := [], wb := 0, specials := [], fpIns := 0, fpLanes := 0,
    fpFlags := 0 }

/-- The chain once its last instruction has completed: an FP trap still due stays (R50). -/
def Chain.close (c : Chain) : Chain := if c.fpFlags = 0 then Chain.none else { c with ended := true, kept := false, specials := [] }

/-- The chain whose last instruction, at an address, has issued and waits (R48): it keeps what it read, special scalars
too. -/
def Chain.keep (c : Chain) (pc : DWord) (sp : Map Word) : Chain :=
  if c.latches = [] ∧ c.fpFlags = 0 then { Chain.none with specials := sp }
  else { c with ended := true, kept := true, last := pc, specials := sp }

/-- What a stop at a boundary leaves of the chain: the values of an instruction that waits (R48). -/
def Chain.stop (c : Chain) : Chain := if c.kept then c else { Chain.none with specials := c.specials }

/-- An element of a register file as it stood in a saved copy, with its mark. -/
def restoreElem (g : Group) (c : Chain) (n : Nat) : Group :=
  { g with v := put 0 g.v n (get 0 c.savedV n),
           badV := if c.savedBadV.contains n then g.badV.filter (· != n) ++ [n] else g.badV.filter (· != n) }

def restoreScalar (g : Group) (c : Chain) (n : Nat) : Group :=
  { g with s := put 0 g.s n (get 0 c.savedS n),
           badS := if c.savedBadS.contains n then g.badS.filter (· != n) ++ [n] else g.badS.filter (· != n) }

/-- The register writes of the chain undone (R49). -/
def undoChain (g : Group) : Group :=
  let c := g.chain
  c.writes.foldl (fun g r => match r with
    | .v n => (List.range 32).foldl (fun g j => restoreElem g c (elemOf (c.wb + n) j)) g
    | .s n => restoreScalar g c n
    | .m n => { g with m := put 0 g.m n (get 0 c.savedM n) }
    | .t _ => g) g

/-! ### Advancing (R77 to R80) -/

/-- Loop-end processing (R78) of the entries above `base`, from the end address `a`: the stack and the next PC. -/
def loopEnd (base : Nat) (a : DWord) : List LoopEntry → List LoopEntry × DWord
  | [] => ([], a + 4)
  | top :: rest =>
    if top.left > 1 then ({ top with left := top.left - 1 } :: rest, top.start)
    else match rest with
      | [] => ([], a + 4)
      | nxt :: rest' =>
        if (nxt :: rest').length ≤ base ∨ nxt.last ≠ a then (nxt :: rest', a + 4)
        else loopEnd base a (nxt :: rest')

/-- Whether an address is the end of the top loop entry that R78 compares. -/
def atLoopEnd (g : Group) (a : DWord) : Bool :=
  match g.lstack with
  | [] => false
  | top :: _ => g.lstack.length > g.loopBase && top.last == a

/-- Arrival after the instruction at `a`: sequential advance, with the loop-end processing due there (R78). -/
def resumeAfter (g : Group) (a : DWord) : Group :=
  if atLoopEnd g a then
    let r := loopEnd g.loopBase a g.lstack
    { g with lstack := r.1, pc := r.2 }
  else { g with pc := a + 4 }

/-- Sequential advance from the instruction at the PC. -/
def advance (g : Group) : Group := resumeAfter g g.pc

/-- A transfer to TNEXT as `rett` makes it (R78, R229). -/
def resumeAt (g : Group) (t : DWord) : Group :=
  if atLoopEnd g (t - 4) then resumeAfter g (t - 4) else { g with pc := t }

/-- Entries that do not contain a branch target popped (R79). -/
def popLoops (base : Nat) (t : DWord) : List LoopEntry → List LoopEntry
  | [] => []
  | top :: rest =>
    if (top :: rest).length ≤ base then top :: rest
    else if t.toNat < top.start.toNat ∨ t.toNat > top.last.toNat then popLoops base t rest
    else top :: rest

/-! ### Batches (R262) -/

def Batch.fresh (n : Word) : Batch := { num := n, ops := 0, tiles := [], flags := 0, kills := 0 }

/-- The next batch number: 0xFFFF_FFFF is followed by 1. -/
def nextBatch (n : Word) : Word := if n = 0xFFFFFFFF then 1 else n + 1

/-- The open batch closed (R262). -/
def closeBatch (m : MatrixRegs) : MatrixRegs :=
  { m with closed := m.closed ++ [m.opening], mbopen := nextBatch m.mbopen,
           opening := Batch.fresh (nextBatch m.mbopen) }

/-- The open batch closed if it holds an operation (R86, R266). -/
def closeIfUsed (m : MatrixRegs) : MatrixRegs := if m.opening.ops = 0 then m else closeBatch m

/-! ### Fences (R177 to R179) -/

/-- The write of a copy that the group has joined: every later access of the group follows it (R183). -/
def PendStore.joined (w : PendStore) : Bool := w.maker == .joined

/-- The write is the group's own, or one that it has joined: not that of a copy whose end it has not seen. -/
def PendStore.known (w : PendStore) : Bool := match w.maker with | .group | .joined => true | .copy .. => false

/-- A load of the stream has taken the store's bytes, or follows it otherwise. -/
def PendStore.takenBy (w : PendStore) (st : Nat) : Bool := w.also.any (·.1 == st)

/-- An access of the streams chosen is outstanding, or a store that one of their loads follows: a fence waits for it (R178),
and the fork of an engine operation (R183). -/
def streamBusy (g : Group) (p : Nat → Bool) : Bool :=
  g.loads.any (fun l => p l.stream) || g.wbuf.any (fun w => p w.stream || w.also.any fun e => p e.1) ||
  g.ahead.any fun a => p a.stream

/-- Every access that the group has issued has been made, and every store whose bytes it has taken (R170, R180). -/
def quiet (g : Group) : Bool := g.loads.isEmpty && g.wbuf.isEmpty && g.ahead.isEmpty

/-- The edges of a fence over the streams of a set, once their accesses are made. What a `vatom` of the streams has met
goes on to later releases and fences too, each at its own scope (R174). -/
def fenceEdges (gid : Nat) (g : Group) (f : FenceMark) : Group :=
  let a := audOf gid g.core f.scope
  let sts := (List.range 16).filter (bit f.streams)
  let k := restrict a (sts.foldl (fun k st =>
    let v := viewAt g st
    joinSeen (joinSeen (joinSeen k v.seen) v.wrote) v.heard) [])
  if k.isEmpty then g
  else sts.foldl (fun g st => let v := viewAt g st; setView g st { v with fenced := joinSeen v.fenced k }) g

/-- Fences whose streams have no access outstanding complete. -/
def settleFences (gid : Nat) (g : Group) : Group :=
  let fs := g.fences.filter fun f => streamBusy g (bit f.streams)
  if fs = g.fences then g
  else (g.fences.filter fun f => !streamBusy g (bit f.streams)).foldl (fenceEdges gid) { g with fences := fs }

/-! ### Writes of a group that reach their homes (R170, R182) -/

/-- A load of a stream, with the agents in its scope, has read what some writes precede. -/
def seeIn (s : State) (k : Seen) (st : Nat) (a : Aud) (g : Group) : Group := onView s k st (fun v k => v.read k a) g

/-- A write that a load of a stream had taken is home; acquires of the stream that have returned since order every later
access after it, towards their audiences (R177). -/
def seeLate (s : State) (k : Seen) (st : Nat) (a : Aud) (acq : List Aud) (g : Group) : Group :=
  if k.isEmpty then g
  else onView s k st (fun v k => { v with fenced := acq.foldl (fun f b => joinSeen f (restrict b k)) v.fenced }.readLate k a) g

/-- A store of a stream is made: with what it followed, and the number of the write. -/
def wroteIn (s : State) (k : Seen) (st : Nat) (a : Aud) (g : Group) : Group := onView s k st (fun v k => v.write k a) g

/-- A group after a store of another one has reached its home: the streams that had taken its bytes follow it (R172), and
fences that waited for it complete. -/
def landedFor (s : State) (gid : Nat) (w : PendStore) (k : Seen) (g : Group) : Group :=
  let mine := g.ahead.filter fun a => a.owner == gid && w.bytes.any fun e => e.1 == a.place
  if mine.isEmpty then g
  else mine.foldl (fun g a => seeLate s k a.stream a.aud a.acq g) { g with ahead := g.ahead.filter fun a => !mine.contains a }

/-- The group's streams once a write is at its home, k naming it: its own stream's next stores follow it, and what a release
has followed too (R172, R177); the write of a copy that the group has joined, every later access (R183). -/
def madeFor (s : State) (w : PendStore) (k : Seen) (g : Group) : Group :=
  match w.maker with
  | .group => wroteIn s (joinSeen (prune s w.carries) k) w.stream w.aud g
  | .copy .. => g
  | .joined => if k.isEmpty then g else
      (List.range 16).foldl (fun g st => let v := viewAt g st; setView g st { v with fenced := joinSeen v.fenced k }) g

/-- A store of a group applied at its homes. The next accesses of its stream follow it, and those of every stream whose
loads have taken its bytes (R172); a write that the group has joined, every later access (R183). -/
def applyWrite (s : State) (gid : Nat) (w : PendStore) : State :=
  match s.group? gid with
  | none => s
  | some g =>
    let by_ : Writer := if w.maker != .group then { outside s with uncached := w.uncached } else { core := some g.core, carries := w.carries, uncached := w.uncached }
    let s' := storeBy by_ s (w.bytes.map fun e => (homeOf s e.1, e.2))
    let k : Seen := if s'.writes = s.writes then [] else [(.all, s.writes)]
    let s' := s'.updGroup gid fun g =>
      w.also.foldl (fun g e => seeLate s' k e.1 e.2 ((w.acq.filter (·.1 == e.1)).map (·.2)) g) (madeFor s' w k g)
    if w.dirty && s'.groups.any fun e => !e.2.ahead.isEmpty then
      { s' with groups := s'.groups.map fun e => (e.1, settleFences e.1 (landedFor s' gid w k e.2)) }
    else s'

/-- Outstanding stores of a group, chosen by a test, reach their homes in order; fences that waited for them complete. -/
def reachHome (s : State) (gid : Nat) (p : PendStore → Bool) : State :=
  match s.group? gid with
  | none => s
  | some g =>
    ((g.wbuf.filter p).foldl (fun s w => applyWrite s gid w)
      (s.setGroup gid { g with wbuf := g.wbuf.filter fun w => !p w })).updGroup gid (settleFences gid)

/-- The dirty stores of other groups whose bytes a group has taken reach their homes, as they may at any moment (R182). -/
def landAhead (s : State) (gid : Nat) : State :=
  match s.group? gid with
  | none => s
  | some g => g.ahead.foldl (fun s a => reachHome s a.owner fun w => w.bytes.any (·.1 == a.place)) s

/-- The stores and atomics of a group are made, and the stores whose bytes it has taken (R86, R184). -/
def settleAccesses (s : State) (gid : Nat) : State :=
  landAhead (reachHome (atomsAct s gid fun _ => true) gid fun _ => true) gid

/-! ### Returns of migrant lanes (R202 to R204) -/

def originsOf (g : Group) : Map Origin := match g.kind with | .migrant _ os => os | .home | .pixel _ => []

/-- A return sent to a lane's home. -/
def sendReturn (s : State) (r : Return) : State := { s with rets := s.rets ++ [r] }

/-- A return without values. -/
def bareReturn (s : State) (kind : Nat) (clk : Map View) (o : Origin) : Return :=
  { kind := kind, vals := [], bad := [], clk := clk, pkey := s.key, fromPkg := s.pkgid, org := o }

/-- The given lanes of a migrant return with a KIND and no values. -/
def sendReturns (s : State) (g : Group) (kind : Nat) (lanes : List Nat) : State :=
  lanes.foldl (fun s j => match find (originsOf g) j with
    | some o => sendReturn s (bareReturn s kind g.view o)
    | none => s) s

/-- A fragment of which nothing has been sent (R300). -/
def unsent (f : Frag) : Bool := f.colour.isNone && f.tests.isEmpty

/-- Lanes killed (R74, R230): they leave LMASK and AMASK; in a migrant they go
home as dead (R203), their atomics and stores before them, and the stores whose bytes lanes have taken (R185); a pixel
lane's unsent fragments are abandoned (R300). -/
def killLanes (s : State) (gid : Nat) (lanes : Word) : State :=
  match s.group? gid with
  | none => s
  | some g =>
    let dead := lanesOf (lanes &&& g.lmask)
    let s := { s with frags := s.frags.filter fun f => !(f.gid == gid && unsent f && dead.contains f.lane) }
    let s := if isMigrant g then
        landAhead (reachHome (atomsAct s gid fun l => l.parts.any fun p => (p.lane.map dead.contains).getD false) gid
          fun w => (w.lane.map dead.contains).getD false || !w.also.isEmpty) gid
      else s
    let s := s.updGroup gid fun g => { g with lmask := g.lmask &&& ~~~lanes, amask := g.amask &&& ~~~lanes }
    match s.group? gid with
    | none => s
    | some g => sendReturns s g 3 dead

/-! ### A parked instruction that completes -/

/-- A launch remembers the cores on which its groups have run since the last passing scan (R325). -/
def ranHere (s : State) (g : Group) : State :=
  s.updLaunch g.launch fun l => if l.ranOn.contains g.core then l else { l with ranOn := l.ranOn ++ [g.core] }

/-- A parked group goes on after the instruction it stands at, to halt there when it is stepped (R244); a Halted or
Saved one only leaves its park. Where an FP trap is due at the end of its chain, that comes before the advance (R50, R78). -/
def unpark (g : Group) : Group :=
  let g := { g with chain := g.chain.close }
  let g := if g.chain.fpFlags = 0 then advance g else g
  match g.status with
  | .ready | .parked _ => { g with status := .ready, dbg := { g.dbg with haltDue := g.dbg.haltDue || g.dbg.step } }
  | .halted _ => { g with status := .halted none, trap := { g.trap with tpc := g.pc, tnext := g.pc } }
  | .saved _ h => { g with status := .saved none h }

/-- What a parked group waits for has come while its core is being scanned (R322): it stands there with what it will do. -/
def standBy (g : Group) (p : Park) : Group :=
  match g.status with
  | .parked _ => { g with status := .parked p }
  | .halted _ => { g with status := .halted (some p) }
  | .ready | .saved .. => g

/-- The group is resident on a core that is being scanned: it does nothing till that ends (R322). -/
def inScan (s : State) (g : Group) : Bool := (s.coreAt g.core).scanning && !isSaved g

/-- A parked instruction completes on its core. -/
def goOn (s : State) (gid : Nat) (g : Group) : State :=
  if inScan s g then s.setGroup gid (standBy g .resume) else ranHere (s.setGroup gid (unpark g)) g

/-- A launch that can run migrants and receive combines; one that is pre-empted and saved does not hold its PODID for them
(log 26; DESIGN CHOICE: R207 and R317 do not say). -/
def launchLives (l : Launch) : Bool :=
  match l.phase with
  | .running | .preempting => true
  | .saved | .complete => false

/-- Why a group is parked, Halted or Saved groups included. -/
def parkedIn (g : Group) : Option Park :=
  match g.status with
  | .ready => none
  | .parked p => some p
  | .halted p => p
  | .saved p _ => p

/-! ### Barriers (R219) -/

/-- A participant of a completed phase: a slot of kind 1 on the barrier pends, a wait at it ends, and what all did before
their arrival precedes what it does next (R184). -/
def barLeave (b : Nat) (s : State) (gid : Nat) : State :=
  match s.group? gid with
  | none => s
  | some g =>
    let g := seeAll s (.cluster (clusterOfCore g.core)) g
    let g := { g with ev := pendSlots g.ev fun d => evKind d == 1 && evArg d == b }
    if parkedIn g = some (.bar b) then goOn s gid g else s.setGroup gid g

/-- The phase completes once every expected group has arrived. -/
def barCheck (s : State) (cl b : Nat) : State :=
  let k := s.clusterAt cl
  let o := get Barrier.idle k.bars b
  if o.isOpen && o.expected.all o.arrived.contains then
    o.arrived.foldl (barLeave b)
      (s.setCluster cl { k with bars := put Barrier.idle k.bars b Barrier.idle })
  else s

/-- A group counted as arrived in every open phase that expects it (R219, R377). -/
def barRetire (s : State) (cl gid : Nat) : State :=
  (keys (s.clusterAt cl).bars).foldl (fun s b =>
    let k := s.clusterAt cl
    let o := get Barrier.idle k.bars b
    if o.isOpen && o.expected.contains gid && !o.arrived.contains gid then
      barCheck (s.setCluster cl { k with bars := put Barrier.idle k.bars b { o with arrived := o.arrived ++ [gid] } })
        cl b
    else s) s

/-- A group without live lanes counts as arrived wherever it is expected (R219, R233), its accesses being made (R184). -/
def countArrived (s : State) (gid : Nat) : State :=
  match s.group? gid with
  | none => s
  | some g => if g.lmask = 0 && !isMigrant g then barRetire (settleAccesses s gid) (clusterOfCore g.core) gid else s

/-! ### Taking a trap (R223 to R226) -/

def slotOf (g : Group) : Nat := match g.kind with | .home | .pixel _ => g.slot | .migrant .. => noSlot

/-- What R225 has the command processor do about a trap that no handler receives. -/
def faultReport (s : State) (g : Group) (c : Cause) (tpc : DWord) (tlanes : Word) (taddr : DWord) : State :=
  let s := pitWrite s (dieOfCore g.core) 1 (causeCode c).toNat g.core (slotOf g) tpc taddr g.secure
  report s (.fault (causeCode c).toNat g.core (slotOf g) g.wid tpc taddr tlanes)

/-- The group leaves every queue of waiters. -/
def leaveWaits (s : State) (gid : Nat) : State :=
  { s with
    clusters := s.clusters.map fun e => (e.1, { e.2 with cbs := e.2.cbs.map fun c =>
      (c.1, { c.2 with waiters := c.2.waiters.filter (·.1 != gid) }) }),
    cores := s.cores.map fun e => (e.1, { e.2 with inbound :=
      { e.2.inbound with waiters := e.2.inbound.waiters.filter (·.1 != gid) } }) }

/-- The 100 ms of a phase that a Halted group has held up count anew (R220, R221). -/
def barRecount (s : State) (gid : Nat) (g : Group) : State :=
  let cl := clusterOfCore g.core
  let k := s.clusterAt cl
  s.setCluster cl { k with bars := k.bars.map fun e =>
    if e.2.isOpen && e.2.expected.contains gid && !e.2.arrived.contains gid then
      (e.1, { e.2 with since := s.ntime (dieOfCluster cl), stall := false })
    else e }

/-- The group is Halted. -/
def isHalted (g : Group) : Bool := match g.status with | .halted _ => true | .ready | .parked _ | .saved .. => false

/-- Killed whole (R225, R231): no lane lives, its open batch is closed (R266), it counts as arrived at barriers (R219), and
it retires as soon as R86 lets it. -/
def killWhole (s : State) (gid : Nat) : State :=
  match s.group? gid with
  | none => s
  | some g =>
    let s := leaveWaits (killLanes s gid g.lmask) gid
    let s := if isHalted g then barRecount s gid g else s
    countArrived (s.updGroup gid fun g => { g with
      amask := 0, lmask := 0, killed := true, chain := Chain.none, mx := closeIfUsed g.mx, status := .parked .exit }) gid

/-- Whether a trap reaches the handler (R223). -/
def deliverable (g : Group) (c : Cause) : Bool :=
  causeToHandler c && g.trap.tvec != 0 && g.trap.tvec &&& 3 == 0 && !g.trap.intrap

def debuggerOn (s : State) (g : Group) : Bool := match s.launch? g.launch with | some l => l.debugger | none => false

/-- The trap registers of R224. -/
structure TrapInfo where
  cause : Cause
  inchain : Bool
  tpc : DWord
  tnext : DWord
  tlanes : Word
  taddr : DWord
  tins : Word

/-- TCAUSE, TPC, TNEXT, TLANES, TADDR and TINS filled. -/
def fillTrap (t : TrapRegs) (i : TrapInfo) : TrapRegs :=
  { t with cause := causeCode i.cause, inchain := i.inchain, tpc := i.tpc, tnext := i.tnext, tlanes := i.tlanes,
           taddr := i.taddr, tins := i.tins }

/-- Entry to the handler (R223): the trap registers filled, the loop depth kept, PC at TVEC; the chain is abandoned. -/
def enterHandler (g : Group) (i : TrapInfo) : Group :=
  { g with
    trap := { fillTrap g.trap i with lbase := BitVec.ofNat 3 g.lstack.length, intrap := true },
    pc := g.trap.tvec, chain := Chain.none, status := .ready }

/-- A trap taken by a group (R223), or its fate when it is not deliverable (R225): a migrant is killed, debugger or not
(R72, R201). -/
def takeTrap (s : State) (gid : Nat) (i : TrapInfo) : State :=
  match s.group? gid with
  | none => s
  | some g =>
    if deliverable g i.cause then s.setGroup gid (enterHandler g i)
    else
      let s := faultReport s g i.cause i.tpc i.tlanes i.taddr
      if debuggerOn s g && !isMigrant g then
        report (s.setGroup gid { g with trap := fillTrap g.trap i, chain := Chain.none, status := .halted none })
          (.halt gid)
      else killWhole s gid

/-- A fault of an instruction that has parked (R49): at position 1 or later it restarts its chain. -/
def parkedFault (s : State) (gid : Nat) (g : Group) (c : Cause) (addr : DWord) : State :=
  if g.chain.kept && g.chain.latches != [] then
    takeTrap (s.setGroup gid (undoChain g)) gid ⟨c, true, g.chain.head, g.chain.head, 0, addr, g.ins⟩
  else takeTrap (s.setGroup gid g) gid ⟨c, false, g.pc, g.pc, 0, addr, g.ins⟩

/-- A group parked in `cbget` wakes to raise CBBAD (R140, R141, R143). -/
def raiseCbbad (s : State) (gid : Nat) : State :=
  match s.group? gid with
  | some g => if inScan s g then s.setGroup gid (standBy g .cbbad) else parkedFault s gid g .cbbad 0
  | none => s

/-- A group goes to TNEXT as `rett` would (R78): a misaligned one raises ALIGN at the PC (R30, R229; log 26). -/
def goToNext (s : State) (gid : Nat) (g : Group) : State :=
  let g := { g with status := .ready, chain := { g.chain with specials := if g.trap.tnext = g.pc then g.chain.specials else [] } }
  if g.trap.tnext &&& 3 ≠ 0 then takeTrap (s.setGroup gid g) gid ⟨.align, false, g.pc, g.pc, 0, g.trap.tnext, 0⟩
  else s.setGroup gid (resumeAt g g.trap.tnext)

/-- Return from a trap (R229), TNEXT being aligned: the handler's loop entries popped, INTRAP cleared, then the
transfer to TNEXT with the loop-end processing due there. -/
def returnFromTrap (g : Group) : Group :=
  let ls := if g.trap.intrap then g.lstack.drop (g.lstack.length - g.trap.lbase.toNat) else g.lstack
  resumeAt { g with lstack := ls, trap := { g.trap with intrap := false } } g.trap.tnext

/-- The whole group killed by an uncorrectable scalar, control state or fetch (R231). -/
def uceKill (s : State) (gid : Nat) (tpc : DWord) : State :=
  match s.group? gid with
  | none => s
  | some g => killWhole (faultReport s g .uce tpc 0 0) gid

/-- Lanes that consumed an uncorrectable value (R230). -/
def uceLanes (s : State) (gid : Nat) (lanes : Word) (addr : DWord) : State :=
  match s.group? gid with
  | none => s
  | some g =>
    if lanes = 0 then s else
      let s := pitWrite s (dieOfCore g.core) 2 0 g.core (slotOf g) addr (lanes.setWidth 64) g.secure
      let s := killLanes s gid lanes
      s.updGroup gid fun g => { g with dbg := { g.dbg with ucelanes := g.dbg.ucelanes ||| lanes } }

/-! ### Circular buffers (R139 to R143, R366) -/

/-- Bits [lo + n - 1 : lo] of a record. -/
def recField (bs : List Byte) (lo n : Nat) : Nat := natOfBytes bs / 2 ^ lo % 2 ^ n

/-- CB and CBD of a copy descriptor (R307). -/
def cdCb (r : List Byte) : Bool := recField r 388 1 == 1
def cdCbd (r : List Byte) : Nat := recField r 392 6

/-- What a counter of a buffer shows a role. -/
def cbCount (c : CbDesc) (prod : Bool) : Nat := if prod then c.free else c.filled

/-- A slot acquired from a descriptor. -/
def cbAcquire (c : CbDesc) (prod : Bool) : CbDesc × Nat :=
  if prod then ({ c with free := c.free - 1, pidx := (c.pidx + 1) % c.nslot.toNat }, c.pidx)
  else ({ c with filled := c.filled - 1, cidx := (c.cidx + 1) % c.nslot.toNat }, c.cidx)

def shaftAcquire (f : ShaftFifo) (prod : Bool) : ShaftFifo × Nat :=
  if prod then ({ f with free := f.free - 1, pidx := (f.pidx + 1) % 8 }, f.pidx)
  else ({ f with filled := f.filled - 1, cidx := (f.cidx + 1) % 8 }, f.cidx)

def shaftCount (f : ShaftFifo) (prod : Bool) : Nat := if prod then f.free else f.filled

/-- The core towards which the FIFO of a role lies (R142). -/
def fifoOf (core : Nat) (prod : Bool) : Nat := if prod then partnerOf core else core

/-- A group receives a slot: sD, the slot held, and what precedes its acquisition (R141, R184). -/
def cbReceive (s : State) (g : Group) (d desc : Nat) (prod : Bool) (slot : Nat) : Group :=
  let g := g.setS d (BitVec.ofNat 32 slot)
  seeAll s (if desc = 63 then .all else .cluster (clusterOfCore g.core)) { g with held := g.held ++ [⟨desc, prod, slot⟩] }

/-- Where a parked `cbget` writes, if the group is in one. -/
def cbWait (g : Group) : Option (Nat × Nat × Bool) :=
  match parkedIn g with
  | some (.cbget d desc prod) => some (d, desc, prod)
  | _ => none

/-- A slot handed to a group that waits in `cbget`, which completes. -/
def cbHand (s : State) (gid slot : Nat) : State :=
  match s.group? gid with
  | none => s
  | some g => match cbWait g with
    | some (d, desc, prod) => goOn s gid (cbReceive s g d desc prod slot)
    | none => s

/-- The first waiter of a role, and the others. -/
def takeWaiter (ws : List (Nat × Bool)) (prod : Bool) : Option (Nat × List (Nat × Bool)) :=
  (ws.find? fun w => w.2 == prod).map fun w => (w.1, ws.filter (· != w))

/-- The waiter served when a slot of its role has come free (R141). -/
def cbServe (s : State) (cl n : Nat) (prod : Bool) : State :=
  let k := s.clusterAt cl
  let c := get CbDesc.reset k.cbs n
  if cbCount c prod = 0 then s else
    match takeWaiter c.waiters prod with
    | none => s
    | some (gid, ws) =>
      let r := cbAcquire { c with waiters := ws } prod
      cbHand (s.setCluster cl { k with cbs := put CbDesc.reset k.cbs n r.1 }) gid r.2

/-- The waiter served when a slot of the FIFO towards a core has come free. Producers that wait for a core out of service
raise CBBAD as they wake (R141, R143). -/
def shaftServe (s : State) (core : Nat) (prod : Bool) : State :=
  let k := s.coreAt core
  if shaftCount k.inbound prod = 0 then s
  else if prod && k.oos then
    (k.inbound.waiters.filter (·.2)).foldl (fun s w => raiseCbbad s w.1)
      (s.setCore core { k with inbound := { k.inbound with waiters := k.inbound.waiters.filter fun w => !w.2 } })
  else
    match takeWaiter k.inbound.waiters prod with
    | none => s
    | some (gid, ws) =>
      let r := shaftAcquire { k.inbound with waiters := ws } prod
      cbHand (s.setCore core { k with inbound := r.1 }) gid r.2

/-- A status word written by a command processor as a 32-bit store (R458). -/
def statusWord (s : State) (a : StatusAddr) (v : Nat) : State :=
  if a.va = 0 then s else
    match resolve s (ctxAgent (contextRoot s a.ctx) a.priv false) .store a.va 4 with
    | .ok h => markHit (storeHit s h 4 v) h
    | .error _ => s

/-- A command of a queue is complete. -/
def dropRef (s : State) (r : CmdRef) : State :=
  { s with queues := s.queues.map fun e => (e.1, { e.2 with running := e.2.running.filter (· != r) }) }

/-- A gate request withdrawn, and the core awake (R112). -/
def wakeCore (s : State) (core : Nat) : State :=
  dropRef (s.setCore core { s.coreAt core with gateReq := none, gateStat := 0, gated := false }) (.gate core)

/-- A gated core that a continuation or a shaft entry reaches wakes, and the status word of its gate request says so
(R112, R113): also one that is powered up for its assay slot (R323). -/
def wakeGated (s : State) (core : Nat) : State :=
  match (s.coreAt core).gateReq with
  | some a => if (s.coreAt core).gateStat = 3 then wakeCore (statusWord s a 5) core else s
  | none => s

/-! ### Level events (R213) -/

/-- Every away lane has a return entry (R204). -/
def allReturned (g : Group) : Bool := (lanesOf g.away).all fun j => (find g.cont.rets j).isSome

/-- Filled slots that kind 7 looks at: of a descriptor, or of the shaft towards the core. -/
def filledOf (s : State) (core n : Nat) : Nat :=
  if n = 63 then (s.coreAt core).inbound.filled else (get CbDesc.reset (s.clusterAt (clusterOfCore core)).cbs n).filled

/-- The condition of a level kind holds. -/
def levelHolds (s : State) (g : Group) (d : Word) : Bool :=
  match evKind d with
  | 4 => decide ((g.gtim - g.ev.gtcmp).toNat < 2 ^ 31)
  | 5 => g.away != 0 && allReturned g
  | 7 => decide (0 < filledOf s g.core (evArg d))
  | _ => false

/-- The slots whose level condition holds become pending. -/
def refreshLevels (s : State) (g : Group) : Group := { g with ev := pendSlots g.ev (levelHolds s g) }

/-- Resident groups chosen by a test sample their level conditions. -/
def refreshWhere (s : State) (p : Group → Bool) : State :=
  { s with groups := s.groups.map fun e => if !isSaved e.2 && p e.2 then (e.1, refreshLevels s e.2) else e }

/-- A slot released as `cbput` releases it (R141): the other role's counter rises and its first waiter is served. A
producer's release on the shaft delivers the entry to the partner and wakes it (R142, R112). -/
def cbRelease (s : State) (core : Nat) (h : HeldSlot) : State :=
  if h.desc = 63 then
    let fc := fifoOf core h.prod
    let k := s.coreAt fc
    let f := if h.prod then { k.inbound with filled := k.inbound.filled + 1 }
      else { k.inbound with free := k.inbound.free + 1 }
    let s := s.setCore fc { k with inbound := f }
    let s := if h.prod then wakeGated s fc else s
    let s := shaftServe s fc (!h.prod)
    if h.prod then refreshWhere s fun g => g.core == fc else s
  else
    let cl := clusterOfCore core
    let k := s.clusterAt cl
    let c := get CbDesc.reset k.cbs h.desc
    let c := if h.prod then { c with filled := c.filled + 1 } else { c with free := c.free + 1 }
    let s := cbServe (s.setCluster cl { k with cbs := put CbDesc.reset k.cbs h.desc c }) cl h.desc (!h.prod)
    if h.prod then refreshWhere s fun g => clusterOfCore g.core == cl else s

/-- A copy that waits for a slot of a descriptor, which its block owns (R309). -/
def copyWaits (cl n : Nat) (c : CbDesc) (o : EngineOp) : Bool :=
  clusterOfCore o.core == cl && o.block == some c.owner && c.free == 0 &&
  match o.kind with
  | .copy r => cdCb r && cdCbd r == n
  | .ring _ | .cpred _ | .ivsld _ | .bmac _ | .embw _ => false

/-- A descriptor disabled: its waiters leave `cbget` raising CBBAD (R140), and copies that wait for it will stop (R309). -/
def cbDisable (s : State) (cl n : Nat) : State :=
  let k := s.clusterAt cl
  let c := get CbDesc.reset k.cbs n
  let s := s.setCluster cl { k with cbs := put CbDesc.reset k.cbs n { c with en := false, waiters := [] } }
  let s := { s with ops := s.ops.map fun e => if copyWaits cl n c e.2 then (e.1, { e.2 with bufferGone := true }) else e }
  c.waiters.foldl (fun s w => raiseCbbad s w.1) s

/-! ### Retirement (R86, R87, R377) -/

/-- Descriptors of a cluster that a block owns, by number. -/
def cbsOwned (s : State) (cl bid : Nat) : List Nat :=
  ((s.clusterAt cl).cbs.filter fun e => e.2.en && e.2.owner == bid).map (·.1)

/-- Whether any group of a block is still resident. -/
def blockHasResident (s : State) (bid : Nat) : Bool := (groupsOfBlock s bid).any fun e => !isSaved e.2

/-- The copy rings of a block told to detach (R313). -/
def detachRings (s : State) (bid : Nat) : State :=
  { s with ops := s.ops.map fun e => match e.2.kind with
      | .ring r => if e.2.block == some bid then (e.1, { e.2 with kind := .ring { r with detaching := true } }) else e
      | _ => e }

/-- A copy ring of the block is attached. -/
def ringAttached (s : State) (bid : Nat) : Bool :=
  s.ops.any fun e => e.2.block == some bid && match e.2.kind with | .ring _ => true | _ => false

/-- The slice of a secure block zeroed once no group and no ring uses it (R313, R333). -/
def scrubSlice (s : State) (bid : Nat) : State :=
  match s.block? bid with
  | none => s
  | some b => match s.launch? b.launch with
    | some l =>
      if l.hdr.sec && (groupsOfBlock s bid).isEmpty && !ringAttached s bid then zeroRange s (spadLoc b.cluster b.spadBase) b.spad
      else s
    | none => s

/-- What ends with the last group of a block (R87, R140, R313). -/
def blockEnd (s : State) (bid : Nat) : State :=
  match s.block? bid with
  | none => s
  | some b =>
    if (groupsOfBlock s bid).isEmpty then
      let s := (cbsOwned s b.cluster bid).foldl (fun s n => cbDisable s b.cluster n) s
      scrubSlice (detachRings s bid) bid
    else s

/-- Fragments of a group that were never sent are abandoned (R300, R377). -/
def abandonFrags (s : State) (gid : Nat) : State :=
  { s with frags := s.frags.filter fun f => !(f.gid == gid && unsent f) }

/-- The group goes: its accesses complete (R86), its slots and its place at barriers are released, its slot is free under a
new generation. -/
def retire (s : State) (gid : Nat) : State :=
  match s.group? gid with
  | none => s
  | some g =>
    let s := settleAccesses s gid
    let s := g.held.foldl (fun s h => cbRelease s g.core h) s
    let s := leaveWaits s gid
    let s := abandonFrags s gid
    let s := { s with groups := erase s.groups gid }
    let s := if isMigrant g then s else barRetire s (clusterOfCore g.core) gid
    let k := s.coreAt g.core
    let s := if isMigrant g then s else s.setCore g.core { k with gens := put 0 k.gens g.slot ((get 0 k.gens g.slot + 1) % 256) }
    if isMigrant g then s else blockEnd s g.block

/-- Whether retirement may take place (R86, R91, R206, R266). A group killed whole waits for no lane. -/
def mayRetire (g : Group) : Bool :=
  g.fetches.isEmpty && g.mx.closed.isEmpty && g.mx.opening.ops == 0 && (g.killed || allReturned g)

/-- `exit`, or the loss of the last lane: the open batch is closed, and the group retires now or waits (R86). -/
def endGroup (s : State) (gid : Nat) : State :=
  match s.group? gid with
  | none => s
  | some g =>
    let s := if isHalted g then barRecount s gid g else s
    let g := { g with mx := closeIfUsed g.mx, status := .parked .exit, chain := Chain.none }
    let s := countArrived (s.setGroup gid g) gid
    if mayRetire g then retire s gid else s

end Sys2Proof.Machine
end

