-- ==== Sys2Proof/Machine/Groups.lean ====
section
/-! DEFINITION. A group as it starts (R84), the slots and resources of a core (R16, R104), and the quarters (R16). -/

namespace Sys2Proof.Machine

open Assoc Bits

/-! ### The initial state (R84) -/

def TrapRegs.initial (tvec : DWord) : TrapRegs :=
  { tvec := tvec, inchain := false, cause := 0, lbase := 0, intrap := false, tpc := 0, tnext := 0, tlanes := 0,
    taddr := 0, tins := 0 }

def ContRegs.initial : ContRegs :=
  { hopcfg := 0xFFFF, hopmax := 16, hopref := 0, hopttl := 0, rets := [], sites := [] }

def EventRegs.initial : EventRegs := { slots := [], pend := 0, mask := 0, gtcmp := 0, barsel := 0 }

def MatrixRegs.initial : MatrixRegs :=
  { mshape := 0, mstrm := 0, mbopen := 1, mbdone := 0, tiles := [], opening := Batch.fresh 1, closed := [] }

def DebugRegs.initial : DebugRegs :=
  { step := false, ucelanes := 0, ttcmp := 0, tten := false, passed := none, haltDue := false }

/-- SATTR_n[3:0] from the nibbles of DSATTR (R167). -/
def sattrOf (dsattr : DWord) : Map (BitVec 4) :=
  (List.range 16).filterMap fun n =>
    let v := field dsattr (4 * n) 4
    if v = 0 then none else some (n, v)

/-- A group of a launch at its start (R84). -/
def newGroup (l : Launch) (lid bid core slot gen : Nat) (wid entry : DWord) (stackNo : Nat) : Group :=
  { core := core, slot := slot, gen := gen, launch := lid, block := bid, ctx := l.ctx, wid := wid,
    priv := l.hdr.priv, secure := l.hdr.sec, kind := .home, status := .ready, pc := entry, ins := 0,
    vregs := l.hdr.vregs, accs := l.hdr.accs, wb := 0, v := [], s := [], m := [], amask := 0xFFFFFFFF,
    lmask := 0xFFFFFFFF, away := 0, mstack := [], lstack := [], fmt := 0, fst := 0, chain := Chain.none,
    trap := TrapRegs.initial l.hdr.tvec, cont := ContRegs.initial, sattr := sattrOf l.hdr.dsattr,
    ev := EventRegs.initial, mx := MatrixRegs.initial, dbg := DebugRegs.initial, gtim := 0, held := [],
    stackNo := stackNo, pending := [], unread := [], loads := [], wbuf := [], fences := [], ahead := [], killed := false, view := [], fetches := [], badV := [], badS := [], badRow := [], badSp := [] }

/-! ### Resources of a core -/

/-- The groups that hold a slot, registers and tiles of a core: home and pixel groups (R16, R197). -/
def slotGroups (s : State) (core : Nat) : List (Nat × Group) := (residentOn s core).filter fun e => !isMigrant e.2

def slotUsed (gs : List (Nat × Group)) (slot : Nat) : Bool := gs.any fun e => e.2.slot == slot

/-- The quarter of a slot (R16). -/
def quarterOf (slot : Nat) : Nat := slot / 32

def freeOfQuarter (gs : List (Nat × Group)) (q : Nat) : Nat :=
  ((List.range 32).filter fun k => !slotUsed gs (q * 32 + k)).length

/-- The quarter with most free slots, the lowest number on a tie (R88, R104). -/
def bestQuarter (gs : List (Nat × Group)) : Nat :=
  (List.range 4).foldl (fun b q => if freeOfQuarter gs q > freeOfQuarter gs b then q else b) 0

/-- The lowest free slot of a core's best quarter (log 6). -/
def pickSlot (gs : List (Nat × Group)) : Option Nat :=
  ((List.range 32).map fun k => bestQuarter gs * 32 + k).find? fun n => !slotUsed gs n

def freeSlots (gs : List (Nat × Group)) : Nat := Config.groupSlots - gs.length
def freeVregs (gs : List (Nat × Group)) : Nat := Config.coreVregs - (gs.map (·.2.vregs)).sum
def freeTiles (gs : List (Nat × Group)) : Nat := Config.coreTiles - (gs.map (·.2.accs)).sum

/-- How many more groups of a launch fit on a core. -/
def roomFor (gs : List (Nat × Group)) (h : Header) : Nat :=
  let n := min (freeSlots gs) (freeVregs gs / h.vregs)
  if h.accs = 0 then n else min n (freeTiles gs / h.accs)

/-- Stack numbers that the groups of a launch hold, Saved ones too (R138). -/
def stacksHeld (s : State) (lid : Nat) : List Nat :=
  (groupsOfLaunch s lid).filterMap fun e => if isMigrant e.2 then none else some e.2.stackNo

/-- The lowest stack number that no group of the launch holds (R138, log 6). -/
def freeStack (used : List Nat) : Nat := ((List.range (used.length + 1)).find? fun n => !used.contains n).getD 0

/-- A group added under a fresh identifier. -/
def addGroup (s : State) (g : Group) : State :=
  let (gid, s) := s.freshId
  { s with groups := set s.groups gid g }

end Sys2Proof.Machine
end

