-- ==== Sys2Proof/Decode.lean ====
section
/-! DEFINITION. The decoder and the encoder of instruction words (R30, R32, R33, R40, R47, R52 to R56). A word that is
no instruction is rejected by the fate R56 gives it: UNDEF before RSVBIT (R57). Operand codes are not judged here:
which codes a field admits follows from its context (R39) and from the group's state (Machine/OperandKinds.lean). -/

namespace Sys2Proof

/-- Why a word is no instruction (R56). -/
inductive Fate where
  /-- a reserved major, FN, CND, type, rounding or scope value, or END12 = 0 -/
  | undef
  /-- a reserved or unused field that is not zero, or an NW that R47 does not allow -/
  | rsvbit
  deriving DecidableEq, Repr

open Machine.Bits

/-- The fields of format F3 (R32). -/
structure F3 where
  d : Code
  a : Code
  b : Code
  nw : Bool
  fn : Nat

/-- The fields of format FM (R32). -/
structure FM where
  d : Code
  a : Code
  b : Code
  st : BitVec 4
  x : Bool

def f3 (w : Word) : F3 :=
  ⟨field w 19 7, field w 12 7, field w 5 7, bit w 4, fieldNat w 0 4⟩

def fm (w : Word) : FM :=
  ⟨field w 19 7, field w 12 7, field w 5 7, field w 1 4, bit w 0⟩

/-- An instruction whose reserved fields must be as `c` says (R8, R40). -/
def chk (c : Bool) (i : Instr) : Except Fate Instr := if c then .ok i else .error .rsvbit

/-- R47: NW = 1 needs D = 0. -/
def nwOk (x : F3) : Bool := !x.nw || x.d == 0

/-- Major 0x01 (R53). -/
def decode01 (x : F3) : Except Fate Instr :=
  match x.fn with
  | 0 => chk (nwOk x) (.vadd x.d x.a x.b x.nw)
  | 1 => chk (nwOk x) (.vsub x.d x.a x.b x.nw)
  | 2 => chk (nwOk x) (.vmul x.d x.a x.b x.nw)
  | 3 => chk (nwOk x) (.vmulh x.d x.a x.b x.nw)
  | 4 => chk (nwOk x) (.vmulhu x.d x.a x.b x.nw)
  | 5 => chk (nwOk x) (.vand x.d x.a x.b x.nw)
  | 6 => chk (nwOk x) (.vor x.d x.a x.b x.nw)
  | 7 => chk (nwOk x) (.vxor x.d x.a x.b x.nw)
  | 8 => chk (nwOk x) (.vandn x.d x.a x.b x.nw)
  | 9 => chk (nwOk x) (.vshl x.d x.a x.b x.nw)
  | 10 => chk (nwOk x) (.vshr x.d x.a x.b x.nw)
  | 11 => chk (nwOk x) (.vsra x.d x.a x.b x.nw)
  | 12 => chk (nwOk x) (.vmin x.d x.a x.b x.nw)
  | 13 => chk (nwOk x) (.vmax x.d x.a x.b x.nw)
  | 14 => chk (nwOk x) (.vminu x.d x.a x.b x.nw)
  | 15 => chk (nwOk x) (.vmaxu x.d x.a x.b x.nw)
  | _ => .error .undef

/-- Major 0x02 (R53). -/
def decode02 (x : F3) : Except Fate Instr :=
  match x.fn with
  | 0 => chk (nwOk x) (.vadds x.d x.a x.b x.nw)
  | 1 => chk (nwOk x) (.vaddus x.d x.a x.b x.nw)
  | 2 => chk (nwOk x) (.vsubs x.d x.a x.b x.nw)
  | 3 => chk (nwOk x) (.vsubus x.d x.a x.b x.nw)
  | 4 => chk (nwOk x) (.vabsd x.d x.a x.b x.nw)
  | 5 => chk (x.b == 0 && nwOk x) (.vpopc x.d x.a x.nw)
  | 6 => chk (x.b == 0 && nwOk x) (.vclz x.d x.a x.nw)
  | 7 => chk (x.b == 0 && nwOk x) (.vbrev x.d x.a x.nw)
  | 8 => chk (nwOk x) (.vbfx x.d x.a x.b x.nw)
  | 9 => chk (!x.nw) (.vbfi x.d x.a x.b)
  | 10 => chk (nwOk x) (.vmulw x.d x.a x.b x.nw)
  | 11 => chk (nwOk x) (.vadd64 x.d x.a x.b x.nw)
  | 12 => chk (nwOk x) (.vsub64 x.d x.a x.b x.nw)
  | 13 => chk (nwOk x) (.vshl64 x.d x.a x.b x.nw)
  | _ => .error .undef

/-- Major 0x03 (R53). -/
def decode03 (x : F3) : Except Fate Instr :=
  match x.fn with
  | 0 => chk (nwOk x) (.vfadd x.d x.a x.b x.nw)
  | 1 => chk (nwOk x) (.vfsub x.d x.a x.b x.nw)
  | 2 => chk (nwOk x) (.vfmul x.d x.a x.b x.nw)
  | 3 => chk (nwOk x) (.vfmin x.d x.a x.b x.nw)
  | 4 => chk (nwOk x) (.vfmax x.d x.a x.b x.nw)
  | 5 => chk (x.b == 0 && nwOk x) (.vfabs x.d x.a x.nw)
  | 6 => chk (x.b == 0 && nwOk x) (.vfneg x.d x.a x.nw)
  | 7 => chk (nwOk x) (.vfdiv x.d x.a x.b x.nw)
  | 8 => chk (x.b == 0 && nwOk x) (.vfsqrt x.d x.a x.nw)
  | 9 => chk (x.b == 0 && nwOk x) (.vfrcp x.d x.a x.nw)
  | 10 => chk (x.b == 0 && nwOk x) (.vfrsq x.d x.a x.nw)
  | 11 => chk (x.b == 0 && nwOk x) (.vfex2 x.d x.a x.nw)
  | 12 => chk (x.b == 0 && nwOk x) (.vflg2 x.d x.a x.nw)
  | 13 => chk (x.b == 0 && nwOk x) (.vfsin x.d x.a x.nw)
  | 14 => chk (x.b == 0 && nwOk x) (.vfcos x.d x.a x.nw)
  | 15 => chk (nwOk x) (.vfdot2 x.d x.a x.b x.nw)
  | _ => .error .undef

/-- Major 0x04 (R53). -/
def decode04 (x : F3) : Except Fate Instr :=
  match x.fn with
  | 0 => chk (!x.nw) (.vcmp_eq x.d x.a x.b)
  | 1 => chk (!x.nw) (.vcmp_ne x.d x.a x.b)
  | 2 => chk (!x.nw) (.vcmp_lt x.d x.a x.b)
  | 3 => chk (!x.nw) (.vcmp_le x.d x.a x.b)
  | 4 => chk (!x.nw) (.vcmp_ltu x.d x.a x.b)
  | 5 => chk (!x.nw) (.vcmp_leu x.d x.a x.b)
  | 6 => chk (!x.nw) (.vfcmp_eq x.d x.a x.b)
  | 7 => chk (!x.nw) (.vfcmp_ne x.d x.a x.b)
  | 8 => chk (!x.nw) (.vfcmp_lt x.d x.a x.b)
  | 9 => chk (!x.nw) (.vfcmp_le x.d x.a x.b)
  | 10 => chk (!x.nw) (.vfcmp_un x.d x.a x.b)
  | 11 => chk (!x.nw) (.vfclass x.d x.a x.b)
  | _ => .error .undef

/-- Major 0x05 (R53). -/
def decode05 (x : F3) : Except Fate Instr :=
  let src : BitVec 4 := lowBits x.b 4
  let rnd : BitVec 3 := BitVec.ofNat 3 (x.b.toNat / 16)
  if x.fn == 15 || src == 15 || rnd.toNat ≥ 5 then .error .undef
  else chk (nwOk x) (.vcvt x.d x.a rnd src x.nw (BitVec.ofNat 4 x.fn))

/-- Major 0x06 (R53). -/
def decode06 (x : F3) : Except Fate Instr :=
  match x.fn with
  | 0 => chk (!x.nw) (.vcvtef x.d x.a x.b)
  | 1 => chk (x.b == 0 && nwOk x) (.vplane x.d x.a x.nw)
  | 2 => chk (x.b == 0 && nwOk x) (.vunpl x.d x.a x.nw)
  | 3 => chk (nwOk x) (.vshfl x.d x.a x.b x.nw)
  | 4 => chk (nwOk x) (.vshfx x.d x.a x.b x.nw)
  | 5 => chk (nwOk x) (.vbcl x.d x.a x.b x.nw)
  | 6 => chk (x.b == 0 && nwOk x) (.vfirst x.d x.a x.nw)
  | 7 =>
    if x.b == 0 then chk (nwOk x) (.vredadd_i x.d x.a x.nw)
    else if x.b == 1 then chk (nwOk x) (.vredadd_f x.d x.a x.nw)
    else .error .rsvbit
  | 8 =>
    if x.b == 0 then chk (nwOk x) (.vredmin_s x.d x.a x.nw)
    else if x.b == 1 then chk (nwOk x) (.vredmin_u x.d x.a x.nw)
    else if x.b == 2 then chk (nwOk x) (.vredmin_f x.d x.a x.nw)
    else .error .rsvbit
  | 9 =>
    if x.b == 0 then chk (nwOk x) (.vredmax_s x.d x.a x.nw)
    else if x.b == 1 then chk (nwOk x) (.vredmax_u x.d x.a x.nw)
    else if x.b == 2 then chk (nwOk x) (.vredmax_f x.d x.a x.nw)
    else .error .rsvbit
  | 10 =>
    if x.b == 0 then chk (nwOk x) (.vscan_i x.d x.a x.nw)
    else if x.b == 1 then chk (nwOk x) (.vscan_f x.d x.a x.nw)
    else .error .rsvbit
  | 11 => chk (x.b == 0 && nwOk x) (.vballot x.d x.a x.nw)
  | 12 => chk (x.b == 0 && nwOk x) (.vmov x.d x.a x.nw)
  | _ => .error .undef

/-- Major 0x07 (R53). -/
def decode07 (x : F3) : Except Fate Instr :=
  if x.fn ≥ 8 then .error .undef
  else chk (nwOk x) (.vsel x.d x.a x.b x.nw (BitVec.ofNat 3 x.fn))

/-- Major 0x08 (R53). -/
def decode08 (x : F3) : Except Fate Instr :=
  match x.fn with
  | 0 => chk (!x.nw) (.mand x.d x.a x.b)
  | 1 => chk (!x.nw) (.mor x.d x.a x.b)
  | 2 => chk (!x.nw) (.mxor x.d x.a x.b)
  | 3 => chk (!x.nw) (.mandn x.d x.a x.b)
  | 4 => chk (x.b == 0 && !x.nw) (.mnot x.d x.a)
  | 5 => chk (x.b == 0 && !x.nw) (.mset x.d x.a)
  | 6 => chk (x.b == 0 && nwOk x) (.mget x.d x.a x.nw)
  | 7 => chk (x.a == 0 && x.b == 0 && !x.nw) (.mclr x.d)
  | 8 => chk (x.b == 0 && nwOk x) (.mcnt x.d x.a x.nw)
  | _ => .error .undef

/-- Major 0x09 (R53). -/
def decode09 (x : F3) : Except Fate Instr :=
  match x.fn with
  | 0 => chk (nwOk x) (.sadd x.d x.a x.b x.nw)
  | 1 => chk (nwOk x) (.ssub x.d x.a x.b x.nw)
  | 2 => chk (nwOk x) (.smul x.d x.a x.b x.nw)
  | 3 => chk (nwOk x) (.smulh x.d x.a x.b x.nw)
  | 4 => chk (nwOk x) (.sand x.d x.a x.b x.nw)
  | 5 => chk (nwOk x) (.sor x.d x.a x.b x.nw)
  | 6 => chk (nwOk x) (.sxor x.d x.a x.b x.nw)
  | 7 => chk (nwOk x) (.sshl x.d x.a x.b x.nw)
  | 8 => chk (nwOk x) (.sshr x.d x.a x.b x.nw)
  | 9 => chk (nwOk x) (.ssra x.d x.a x.b x.nw)
  | 10 => chk (nwOk x) (.smin x.d x.a x.b x.nw)
  | 11 => chk (nwOk x) (.smax x.d x.a x.b x.nw)
  | 12 => chk (nwOk x) (.sslt x.d x.a x.b x.nw)
  | 13 => chk (nwOk x) (.ssltu x.d x.a x.b x.nw)
  | 14 => chk (nwOk x) (.saddx x.d x.a x.b x.nw)
  | _ => .error .undef

/-- Major 0x19 (R53). -/
def decode19 (x : F3) : Except Fate Instr :=
  match x.fn with
  | 0 => chk (x.d == 0 && x.b == 0 && !x.nw) (.jr x.a)
  | 1 => chk (x.d == 0 && x.a == 0 && x.b == 0 && !x.nw) (.ret)
  | 2 => chk (x.d == 0 && x.a == 0 && x.b == 0 && !x.nw) (.exit)
  | 3 => chk (x.d == 0 && x.b == 0 && !x.nw) (.vif x.a)
  | 4 => chk (x.d == 0 && x.a == 0 && x.b == 0 && !x.nw) (.velse)
  | 5 => chk (x.d == 0 && x.a == 0 && x.b == 0 && !x.nw) (.vendif)
  | 6 => chk (x.d == 0 && x.b == 0 && !x.nw) (.vkill x.a)
  | 7 => chk (x.d == 0 && x.b == 0 && !x.nw) (.fmt x.a)
  | 8 => chk (x.d == 0 && x.b == 0 && !x.nw) (.winb x.a)
  | 9 => chk (x.d == 0 && x.a == 0 && !x.nw) (.trap x.b)
  | 10 => chk (x.d == 0 && x.a == 0 && x.b == 0 && !x.nw) (.rett)
  | 11 => chk (x.d == 0 && x.a == 0 && !x.nw) (.brk x.b)
  | 12 => chk (x.d == 0 && x.a == 0 && x.b == 0 && !x.nw) (.nop)
  | _ => .error .undef

/-- Major 0x30 (R53). -/
def decode30 (x : F3) : Except Fate Instr :=
  match x.fn with
  | 0 => if x.a.toNat % 8 ≥ 5 then .error .undef else chk ((x.d &&& 112) == 0 && (x.a &&& 120) == 0 && x.b == 0 && !x.nw) (.fence (lowBits x.d 4) (lowBits x.a 3))
  | 1 => if x.d.toNat % 8 ≥ 5 then .error .undef else chk ((x.d &&& 120) == 0 && x.b == 0 && !x.nw) (.xfence (lowBits x.d 3) x.a)
  | 2 => chk ((x.d &&& 112) == 0 && x.b == 0 && !x.nw) (.sattr (lowBits x.d 4) x.a)
  | 3 => chk (x.d == 0 && x.b == 0 && !x.nw) (.bar x.a)
  | 4 => chk ((x.d &&& 112) == 0 && !x.nw) (.cflush (lowBits x.d 4) x.a x.b)
  | 5 => chk ((x.d &&& 112) == 0 && !x.nw) (.cinv (lowBits x.d 4) x.a x.b)
  | 6 => chk ((x.d &&& 112) == 0 && !x.nw) (.czero (lowBits x.d 4) x.a x.b)
  | 7 => chk (!x.nw) (.vpreq x.d x.a x.b)
  | 8 => chk (x.b == 0 && !x.nw) (.cbget x.d x.a)
  | 9 => chk (x.d == 0 && x.b == 0 && !x.nw) (.cbput x.a)
  | _ => .error .undef

/-- Major 0x31 (R53). -/
def decode31 (x : F3) : Except Fate Instr :=
  match x.fn with
  | 0 => chk (!x.nw) (.evbind x.d x.a x.b)
  | 1 => chk (x.d == 0 && x.b == 0 && !x.nw) (.evmask x.a)
  | 2 => chk (x.d == 0 && x.b == 0 && !x.nw) (.evclr x.a)
  | 3 => chk (x.a == 0 && x.b == 0 && !x.nw) (.evpend x.d)
  | 4 => chk (x.d == 0 && x.b == 0 && !x.nw) (.waitany x.a)
  | 5 => chk (x.d == 0 && x.b == 0 && !x.nw) (.fetchw x.a)
  | 6 => chk (!x.nw) (.spawn x.d x.a x.b)
  | _ => .error .undef

/-- Major 0x32 (R53). -/
def decode32 (x : F3) : Except Fate Instr :=
  match x.fn with
  | 0 => chk (x.d == 0 && x.b == 0 && !x.nw) (.hop x.a)
  | 1 => chk (x.d == 0 && x.a == 0 && x.b == 0 && !x.nw) (.hopback)
  | 2 => chk (x.d == 0 && x.a == 0 && x.b == 0 && !x.nw) (.rejoin)
  | 3 => chk (x.b == 0 && nwOk x) (.owner x.d x.a x.nw)
  | 4 => chk (x.d == 0 && x.b == 0 && !x.nw) (.hopcfg x.a)
  | 5 => chk (x.d == 0 && x.b == 0 && !x.nw) (.hopx x.a)
  | _ => .error .undef

/-- Major 0x33 (R53). -/
def decode33 (x : F3) : Except Fate Instr :=
  match x.fn with
  | 0 => chk (x.b == 0 && !x.nw) (.tshape x.d x.a)
  | 1 => chk (!x.nw) (.mma x.d x.a x.b)
  | 2 => chk (!x.nw) (.mmab x.d x.a x.b)
  | 3 => chk (x.a == 0 && x.b == 0 && !x.nw) (.mzero x.d)
  | 4 => chk (!x.nw) (.mrd x.d x.a x.b)
  | 5 => chk (!x.nw) (.mwr x.d x.a x.b)
  | 6 => chk (x.a == 0 && x.b == 0 && !x.nw) (.mfence x.d)
  | 7 => chk (x.d == 0 && x.b == 0 && !x.nw) (.mwait x.a)
  | 8 => chk (!x.nw) (.msurf x.d x.a x.b)
  | _ => .error .undef

/-- Major 0x34 (R53). -/
def decode34 (x : F3) : Except Fate Instr :=
  match x.fn with
  | 0 => chk ((x.b &&& 112) == 0 && !x.nw) (.ivsld x.d x.a (lowBits x.b 4))
  | 1 => chk ((x.b &&& 112) == 0 && !x.nw) (.bmac x.d x.a (lowBits x.b 4))
  | 2 => chk ((x.b &&& 112) == 0 && !x.nw) (.embw x.d x.a (lowBits x.b 4))
  | _ => .error .undef

/-- Major 0x35 (R53). -/
def decode35 (x : F3) : Except Fate Instr :=
  match x.fn with
  | 0 =>
    if (x.b &&& 112) == 0 then chk (!x.nw) (.cpa x.d x.a (lowBits x.b 4))
    else if (x.b &&& 112) == 16 then chk (!x.nw) (.cpa_ring x.d x.a (lowBits x.b 4))
    else .error .rsvbit
  | 1 => chk ((x.b &&& 112) == 0 && !x.nw) (.cpred x.d x.a (lowBits x.b 4))
  | _ => .error .undef

/-- Major 0x36 (R53). -/
def decode36 (x : F3) : Except Fate Instr :=
  match x.fn with
  | 0 => chk (!x.nw) (.sfld x.d x.a x.b)
  | 1 => chk (!x.nw) (.sfst x.d x.a x.b)
  | 2 => chk (x.a == 0 && x.b == 0 && !x.nw) (.zt x.d)
  | 3 => chk (x.d == 0 && !x.nw) (.pxout x.a x.b)
  | 4 => chk (!x.nw) (.vtxout x.d x.a x.b)
  | 5 => chk (x.b == 0 && nwOk x) (.vinterp x.d x.a x.nw)
  | 6 => chk (!x.nw) (.tsmp x.d x.a x.b)
  | _ => .error .undef

/-- Major 0x37 (R53). -/
def decode37 (x : F3) : Except Fate Instr :=
  match x.fn with
  | 0 => chk (x.a == 0 && nwOk x) (.csrr x.d x.b x.nw)
  | 1 => chk (x.d == 0 && !x.nw) (.csrw x.a x.b)
  | _ => .error .undef

/-- Majors 0x1C to 0x2F: memory (R52). -/
def decodeMem (maj : Nat) (m : FM) : Except Fate Instr :=
  match maj, m.x with
  | 0x1C, _ => .ok (.vld_s8 m.d m.a m.b m.st m.x)
  | 0x1D, _ => .ok (.vld_z8 m.d m.a m.b m.st m.x)
  | 0x1E, _ => .ok (.vld_s16 m.d m.a m.b m.st m.x)
  | 0x1F, _ => .ok (.vld_z16 m.d m.a m.b m.st m.x)
  | 0x20, _ => .ok (.vld_w m.d m.a m.b m.st m.x)
  | 0x21, _ => .ok (.vld_d m.d m.a m.b m.st m.x)
  | 0x22, _ => .ok (.vst_b m.d m.a m.b m.st m.x)
  | 0x23, _ => .ok (.vst_h m.d m.a m.b m.st m.x)
  | 0x24, _ => .ok (.vst_w m.d m.a m.b m.st m.x)
  | 0x25, _ => .ok (.vst_d m.d m.a m.b m.st m.x)
  | 0x26, _ => .ok (.vldc m.d m.a m.b m.st m.x)
  | 0x27, _ => .ok (.vstc m.d m.a m.b m.st m.x)
  | 0x28, _ => .ok (.sld_w m.d m.a m.b m.st m.x)
  | 0x29, _ => .ok (.sld_d m.d m.a m.b m.st m.x)
  | 0x2A, _ => .ok (.sst_w m.d m.a m.b m.st m.x)
  | 0x2B, _ => .ok (.sst_d m.d m.a m.b m.st m.x)
  | 0x2C, false => .ok (.vatom_iadd m.d m.a m.b m.st)
  | 0x2C, true => .ok (.vatom_fadd m.d m.a m.b m.st)
  | 0x2D, false => .ok (.vatom_and m.d m.a m.b m.st)
  | 0x2D, true => .ok (.vatom_or m.d m.a m.b m.st)
  | 0x2E, false => .ok (.vatom_smin m.d m.a m.b m.st)
  | 0x2E, true => .ok (.vatom_smax m.d m.a m.b m.st)
  | 0x2F, false => .ok (.vatom_xchg m.d m.a m.b m.st)
  | 0x2F, true => .ok (.vatom_cas m.d m.a m.b m.st)
  | _, _ => .error .undef

/-- The branches of majors 0x15 and 0x16 (R55). -/
def decodeBranch (maj : Nat) (cnd : Nat) (a : Code) (off : BitVec 16) : Except Fate Instr :=
  match maj, cnd with
  | 0x15, 0 => .ok (.b_eq a off)
  | 0x15, 1 => .ok (.b_ne a off)
  | 0x15, 2 => .ok (.b_lt a off)
  | 0x15, 3 => .ok (.b_ge a off)
  | 0x15, 4 => .ok (.b_gt a off)
  | 0x15, 5 => .ok (.b_le a off)
  | 0x16, 0 => .ok (.bm_any a off)
  | 0x16, 1 => .ok (.bm_none a off)
  | 0x16, 2 => .ok (.bm_all a off)
  | _, _ => .error .undef

/-- The instruction that a word is, or its fate (R32, R52 to R56). -/
def decode (w : Word) : Except Fate Instr :=
  match fieldNat w 26 6 with
  | 0x00 => .error .undef
  | 0x01 => decode01 (f3 w)
  | 0x02 => decode02 (f3 w)
  | 0x03 => decode03 (f3 w)
  | 0x04 => decode04 (f3 w)
  | 0x05 => decode05 (f3 w)
  | 0x06 => decode06 (f3 w)
  | 0x07 => decode07 (f3 w)
  | 0x08 => decode08 (f3 w)
  | 0x09 => decode09 (f3 w)
  | 0x0A => .ok (.saddi (field w 19 7) (field w 12 7) (field w 0 12))
  | 0x0B => .ok (.sandi (field w 19 7) (field w 12 7) (field w 0 12))
  | 0x0C => .ok (.sori (field w 19 7) (field w 12 7) (field w 0 12))
  | 0x0D => .ok (.sxori (field w 19 7) (field w 12 7) (field w 0 12))
  | 0x0E => chk (fieldNat w 5 7 == 0) (.sshli (field w 19 7) (field w 12 7) (field w 0 5))
  | 0x0F => chk (fieldNat w 5 7 == 0) (.sshri (field w 19 7) (field w 12 7) (field w 0 5))
  | 0x10 => chk (fieldNat w 5 7 == 0) (.ssrai (field w 19 7) (field w 12 7) (field w 0 5))
  | 0x11 => .ok (.sslti (field w 19 7) (field w 12 7) (field w 0 12))
  | 0x12 => .ok (.sli (field w 19 7) (field w 0 19))
  | 0x13 => .ok (.slui (field w 19 7) (field w 0 19))
  | 0x14 => .ok (.vaddi (field w 19 7) (field w 12 7) (field w 0 12))
  | 0x15 => decodeBranch 0x15 (fieldNat w 16 3) (field w 19 7) (field w 0 16)
  | 0x16 => decodeBranch 0x16 (fieldNat w 16 3) (field w 19 7) (field w 0 16)
  | 0x17 => .ok (.j (field w 0 26))
  | 0x18 => .ok (.call (field w 0 26))
  | 0x19 => decode19 (f3 w)
  | 0x1A =>
    if fieldNat w 7 12 == 0 then .error .undef
    else chk (fieldNat w 0 7 == 0) (.loop (field w 19 7) (field w 7 12))
  | 0x1B => chk (fieldNat w 19 7 == 0) (.ppt (field w 0 19))
  | 0x1C => decodeMem 0x1C (fm w)
  | 0x1D => decodeMem 0x1D (fm w)
  | 0x1E => decodeMem 0x1E (fm w)
  | 0x1F => decodeMem 0x1F (fm w)
  | 0x20 => decodeMem 0x20 (fm w)
  | 0x21 => decodeMem 0x21 (fm w)
  | 0x22 => decodeMem 0x22 (fm w)
  | 0x23 => decodeMem 0x23 (fm w)
  | 0x24 => decodeMem 0x24 (fm w)
  | 0x25 => decodeMem 0x25 (fm w)
  | 0x26 => decodeMem 0x26 (fm w)
  | 0x27 => decodeMem 0x27 (fm w)
  | 0x28 => decodeMem 0x28 (fm w)
  | 0x29 => decodeMem 0x29 (fm w)
  | 0x2A => decodeMem 0x2A (fm w)
  | 0x2B => decodeMem 0x2B (fm w)
  | 0x2C => decodeMem 0x2C (fm w)
  | 0x2D => decodeMem 0x2D (fm w)
  | 0x2E => decodeMem 0x2E (fm w)
  | 0x2F => decodeMem 0x2F (fm w)
  | 0x30 => decode30 (f3 w)
  | 0x31 => decode31 (f3 w)
  | 0x32 => decode32 (f3 w)
  | 0x33 => decode33 (f3 w)
  | 0x34 => decode34 (f3 w)
  | 0x35 => decode35 (f3 w)
  | 0x36 => decode36 (f3 w)
  | 0x37 => decode37 (f3 w)
  | _ =>
    if bit w 28 then .ok (.vfnma (field w 21 7) (field w 14 7) (field w 7 7) (field w 0 7))
    else .ok (.vfma (field w 21 7) (field w 14 7) (field w 7 7) (field w 0 7))

/-- Decoding from bytes: a word is four bytes, little-endian (R30). Answers the instruction and the bytes after it. -/
def decodeBytes : List Byte → Option (Except Fate Instr × List Byte)
  | b0 :: b1 :: b2 :: b3 :: rest => some (decode (wordOfBytes b0 b1 b2 b3), rest)
  | _ => none

/-- The bytes of a word as memory holds them (R30). -/
def bytesOfWord (w : Word) : List Byte := [field w 0 8, field w 8 8, field w 16 8, field w 24 8]

/-- Packing the formats of R32. -/
def packF3 (maj fn : Nat) (d a b : Code) (nw : Bool) : Word :=
  BitVec.ofNat 32 (maj * 2 ^ 26 + d.toNat * 2 ^ 19 + a.toNat * 2 ^ 12 + b.toNat * 2 ^ 5 + nw.toNat * 2 ^ 4 + fn)

def packF4 (f : Nat) (d a b c : Code) : Word :=
  BitVec.ofNat 32 (7 * 2 ^ 29 + f * 2 ^ 28 + d.toNat * 2 ^ 21 + a.toNat * 2 ^ 14 + b.toNat * 2 ^ 7 + c.toNat)

def packFI (maj : Nat) (d a : Code) (imm : BitVec 12) : Word :=
  BitVec.ofNat 32 (maj * 2 ^ 26 + d.toNat * 2 ^ 19 + a.toNat * 2 ^ 12 + imm.toNat)

def packFK (maj : Nat) (d : Code) (imm : BitVec 19) : Word :=
  BitVec.ofNat 32 (maj * 2 ^ 26 + d.toNat * 2 ^ 19 + imm.toNat)

def packFM (maj : Nat) (d a b : Code) (st : BitVec 4) (x : Bool) : Word :=
  BitVec.ofNat 32 (maj * 2 ^ 26 + d.toNat * 2 ^ 19 + a.toNat * 2 ^ 12 + b.toNat * 2 ^ 5 + st.toNat * 2 + x.toNat)

def packFB (maj cnd : Nat) (a : Code) (off : BitVec 16) : Word :=
  BitVec.ofNat 32 (maj * 2 ^ 26 + a.toNat * 2 ^ 19 + cnd * 2 ^ 16 + off.toNat)

def packFJ (maj : Nat) (off : BitVec 26) : Word := BitVec.ofNat 32 (maj * 2 ^ 26 + off.toNat)

def packFL (a : Code) (end12 : BitVec 12) : Word :=
  BitVec.ofNat 32 (0x1A * 2 ^ 26 + a.toNat * 2 ^ 19 + end12.toNat * 2 ^ 7)

/-- The word of an instruction; none for the steps that have no word (R32, R52 to R55). -/
def encode : Instr → Option Word
  | .vadd d a b nw => some (packF3 0x01 0 d a b nw)
  | .vsub d a b nw => some (packF3 0x01 1 d a b nw)
  | .vmul d a b nw => some (packF3 0x01 2 d a b nw)
  | .vmulh d a b nw => some (packF3 0x01 3 d a b nw)
  | .vmulhu d a b nw => some (packF3 0x01 4 d a b nw)
  | .vand d a b nw => some (packF3 0x01 5 d a b nw)
  | .vor d a b nw => some (packF3 0x01 6 d a b nw)
  | .vxor d a b nw => some (packF3 0x01 7 d a b nw)
  | .vandn d a b nw => some (packF3 0x01 8 d a b nw)
  | .vshl d a b nw => some (packF3 0x01 9 d a b nw)
  | .vshr d a b nw => some (packF3 0x01 10 d a b nw)
  | .vsra d a b nw => some (packF3 0x01 11 d a b nw)
  | .vmin d a b nw => some (packF3 0x01 12 d a b nw)
  | .vmax d a b nw => some (packF3 0x01 13 d a b nw)
  | .vminu d a b nw => some (packF3 0x01 14 d a b nw)
  | .vmaxu d a b nw => some (packF3 0x01 15 d a b nw)
  | .vadds d a b nw => some (packF3 0x02 0 d a b nw)
  | .vaddus d a b nw => some (packF3 0x02 1 d a b nw)
  | .vsubs d a b nw => some (packF3 0x02 2 d a b nw)
  | .vsubus d a b nw => some (packF3 0x02 3 d a b nw)
  | .vabsd d a b nw => some (packF3 0x02 4 d a b nw)
  | .vpopc d a nw => some (packF3 0x02 5 d a 0 nw)
  | .vclz d a nw => some (packF3 0x02 6 d a 0 nw)
  | .vbrev d a nw => some (packF3 0x02 7 d a 0 nw)
  | .vbfx d a b nw => some (packF3 0x02 8 d a b nw)
  | .vbfi d a b => some (packF3 0x02 9 d a b false)
  | .vmulw d a b nw => some (packF3 0x02 10 d a b nw)
  | .vadd64 d a b nw => some (packF3 0x02 11 d a b nw)
  | .vsub64 d a b nw => some (packF3 0x02 12 d a b nw)
  | .vshl64 d a b nw => some (packF3 0x02 13 d a b nw)
  | .vfadd d a b nw => some (packF3 0x03 0 d a b nw)
  | .vfsub d a b nw => some (packF3 0x03 1 d a b nw)
  | .vfmul d a b nw => some (packF3 0x03 2 d a b nw)
  | .vfmin d a b nw => some (packF3 0x03 3 d a b nw)
  | .vfmax d a b nw => some (packF3 0x03 4 d a b nw)
  | .vfabs d a nw => some (packF3 0x03 5 d a 0 nw)
  | .vfneg d a nw => some (packF3 0x03 6 d a 0 nw)
  | .vfdiv d a b nw => some (packF3 0x03 7 d a b nw)
  | .vfsqrt d a nw => some (packF3 0x03 8 d a 0 nw)
  | .vfrcp d a nw => some (packF3 0x03 9 d a 0 nw)
  | .vfrsq d a nw => some (packF3 0x03 10 d a 0 nw)
  | .vfex2 d a nw => some (packF3 0x03 11 d a 0 nw)
  | .vflg2 d a nw => some (packF3 0x03 12 d a 0 nw)
  | .vfsin d a nw => some (packF3 0x03 13 d a 0 nw)
  | .vfcos d a nw => some (packF3 0x03 14 d a 0 nw)
  | .vfdot2 d a b nw => some (packF3 0x03 15 d a b nw)
  | .vcmp_eq d a b => some (packF3 0x04 0 d a b false)
  | .vcmp_ne d a b => some (packF3 0x04 1 d a b false)
  | .vcmp_lt d a b => some (packF3 0x04 2 d a b false)
  | .vcmp_le d a b => some (packF3 0x04 3 d a b false)
  | .vcmp_ltu d a b => some (packF3 0x04 4 d a b false)
  | .vcmp_leu d a b => some (packF3 0x04 5 d a b false)
  | .vfcmp_eq d a b => some (packF3 0x04 6 d a b false)
  | .vfcmp_ne d a b => some (packF3 0x04 7 d a b false)
  | .vfcmp_lt d a b => some (packF3 0x04 8 d a b false)
  | .vfcmp_le d a b => some (packF3 0x04 9 d a b false)
  | .vfcmp_un d a b => some (packF3 0x04 10 d a b false)
  | .vfclass d a imm => some (packF3 0x04 11 d a imm false)
  | .vcvt d a rnd src nw dst => some (packF3 0x05 dst.toNat d a (joinBits rnd src) nw)
  | .vcvtef d a b => some (packF3 0x06 0 d a b false)
  | .vplane d a nw => some (packF3 0x06 1 d a 0 nw)
  | .vunpl d a nw => some (packF3 0x06 2 d a 0 nw)
  | .vshfl d a b nw => some (packF3 0x06 3 d a b nw)
  | .vshfx d a b nw => some (packF3 0x06 4 d a b nw)
  | .vbcl d a b nw => some (packF3 0x06 5 d a b nw)
  | .vfirst d a nw => some (packF3 0x06 6 d a 0 nw)
  | .vredadd_i d a nw => some (packF3 0x06 7 d a 0 nw)
  | .vredadd_f d a nw => some (packF3 0x06 7 d a 1 nw)
  | .vredmin_s d a nw => some (packF3 0x06 8 d a 0 nw)
  | .vredmin_u d a nw => some (packF3 0x06 8 d a 1 nw)
  | .vredmin_f d a nw => some (packF3 0x06 8 d a 2 nw)
  | .vredmax_s d a nw => some (packF3 0x06 9 d a 0 nw)
  | .vredmax_u d a nw => some (packF3 0x06 9 d a 1 nw)
  | .vredmax_f d a nw => some (packF3 0x06 9 d a 2 nw)
  | .vscan_i d a nw => some (packF3 0x06 10 d a 0 nw)
  | .vscan_f d a nw => some (packF3 0x06 10 d a 1 nw)
  | .vballot d a nw => some (packF3 0x06 11 d a 0 nw)
  | .vmov d a nw => some (packF3 0x06 12 d a 0 nw)
  | .vsel d a b nw m => some (packF3 0x07 m.toNat d a b nw)
  | .mand d a b => some (packF3 0x08 0 d a b false)
  | .mor d a b => some (packF3 0x08 1 d a b false)
  | .mxor d a b => some (packF3 0x08 2 d a b false)
  | .mandn d a b => some (packF3 0x08 3 d a b false)
  | .mnot d a => some (packF3 0x08 4 d a 0 false)
  | .mset d a => some (packF3 0x08 5 d a 0 false)
  | .mget d a nw => some (packF3 0x08 6 d a 0 nw)
  | .mclr d => some (packF3 0x08 7 d 0 0 false)
  | .mcnt d a nw => some (packF3 0x08 8 d a 0 nw)
  | .sadd d a b nw => some (packF3 0x09 0 d a b nw)
  | .ssub d a b nw => some (packF3 0x09 1 d a b nw)
  | .smul d a b nw => some (packF3 0x09 2 d a b nw)
  | .smulh d a b nw => some (packF3 0x09 3 d a b nw)
  | .sand d a b nw => some (packF3 0x09 4 d a b nw)
  | .sor d a b nw => some (packF3 0x09 5 d a b nw)
  | .sxor d a b nw => some (packF3 0x09 6 d a b nw)
  | .sshl d a b nw => some (packF3 0x09 7 d a b nw)
  | .sshr d a b nw => some (packF3 0x09 8 d a b nw)
  | .ssra d a b nw => some (packF3 0x09 9 d a b nw)
  | .smin d a b nw => some (packF3 0x09 10 d a b nw)
  | .smax d a b nw => some (packF3 0x09 11 d a b nw)
  | .sslt d a b nw => some (packF3 0x09 12 d a b nw)
  | .ssltu d a b nw => some (packF3 0x09 13 d a b nw)
  | .saddx d a b nw => some (packF3 0x09 14 d a b nw)
  | .saddi d a imm => some (packFI 0x0A d a imm)
  | .sandi d a imm => some (packFI 0x0B d a imm)
  | .sori d a imm => some (packFI 0x0C d a imm)
  | .sxori d a imm => some (packFI 0x0D d a imm)
  | .sshli d a imm => some (packFI 0x0E d a (imm.setWidth 12))
  | .sshri d a imm => some (packFI 0x0F d a (imm.setWidth 12))
  | .ssrai d a imm => some (packFI 0x10 d a (imm.setWidth 12))
  | .sslti d a imm => some (packFI 0x11 d a imm)
  | .sli d imm => some (packFK 0x12 d imm)
  | .slui d imm => some (packFK 0x13 d imm)
  | .vaddi d a imm => some (packFI 0x14 d a imm)
  | .b_eq a off => some (packFB 0x15 0 a off)
  | .b_ne a off => some (packFB 0x15 1 a off)
  | .b_lt a off => some (packFB 0x15 2 a off)
  | .b_ge a off => some (packFB 0x15 3 a off)
  | .b_gt a off => some (packFB 0x15 4 a off)
  | .b_le a off => some (packFB 0x15 5 a off)
  | .bm_any a off => some (packFB 0x16 0 a off)
  | .bm_none a off => some (packFB 0x16 1 a off)
  | .bm_all a off => some (packFB 0x16 2 a off)
  | .j off => some (packFJ 0x17 off)
  | .call off => some (packFJ 0x18 off)
  | .jr a => some (packF3 0x19 0 0 a 0 false)
  | .ret => some (packF3 0x19 1 0 0 0 false)
  | .exit => some (packF3 0x19 2 0 0 0 false)
  | .vif a => some (packF3 0x19 3 0 a 0 false)
  | .velse => some (packF3 0x19 4 0 0 0 false)
  | .vendif => some (packF3 0x19 5 0 0 0 false)
  | .vkill a => some (packF3 0x19 6 0 a 0 false)
  | .fmt a => some (packF3 0x19 7 0 a 0 false)
  | .winb a => some (packF3 0x19 8 0 a 0 false)
  | .trap imm => some (packF3 0x19 9 0 0 imm false)
  | .rett => some (packF3 0x19 10 0 0 0 false)
  | .brk imm => some (packF3 0x19 11 0 0 imm false)
  | .nop => some (packF3 0x19 12 0 0 0 false)
  | .loop a end12 => some (packFL a end12)
  | .ppt imm => some (packFK 0x1B 0 imm)
  | .vld_s8 d a b st x => some (packFM 0x1C d a b st x)
  | .vld_z8 d a b st x => some (packFM 0x1D d a b st x)
  | .vld_s16 d a b st x => some (packFM 0x1E d a b st x)
  | .vld_z16 d a b st x => some (packFM 0x1F d a b st x)
  | .vld_w d a b st x => some (packFM 0x20 d a b st x)
  | .vld_d d a b st x => some (packFM 0x21 d a b st x)
  | .vst_b d a b st x => some (packFM 0x22 d a b st x)
  | .vst_h d a b st x => some (packFM 0x23 d a b st x)
  | .vst_w d a b st x => some (packFM 0x24 d a b st x)
  | .vst_d d a b st x => some (packFM 0x25 d a b st x)
  | .vldc d a b st x => some (packFM 0x26 d a b st x)
  | .vstc d a b st x => some (packFM 0x27 d a b st x)
  | .sld_w d a b st x => some (packFM 0x28 d a b st x)
  | .sld_d d a b st x => some (packFM 0x29 d a b st x)
  | .sst_w d a b st x => some (packFM 0x2A d a b st x)
  | .sst_d d a b st x => some (packFM 0x2B d a b st x)
  | .vatom_iadd d a b st => some (packFM 0x2C d a b st false)
  | .vatom_fadd d a b st => some (packFM 0x2C d a b st true)
  | .vatom_and d a b st => some (packFM 0x2D d a b st false)
  | .vatom_or d a b st => some (packFM 0x2D d a b st true)
  | .vatom_smin d a b st => some (packFM 0x2E d a b st false)
  | .vatom_smax d a b st => some (packFM 0x2E d a b st true)
  | .vatom_xchg d a b st => some (packFM 0x2F d a b st false)
  | .vatom_cas d a b st => some (packFM 0x2F d a b st true)
  | .fence st scope => some (packF3 0x30 0 (widen st) (widen scope) 0 false)
  | .xfence scope a => some (packF3 0x30 1 (widen scope) a 0 false)
  | .sattr st a => some (packF3 0x30 2 (widen st) a 0 false)
  | .bar a => some (packF3 0x30 3 0 a 0 false)
  | .cflush st a b => some (packF3 0x30 4 (widen st) a b false)
  | .cinv st a b => some (packF3 0x30 5 (widen st) a b false)
  | .czero st a b => some (packF3 0x30 6 (widen st) a b false)
  | .vpreq d a b => some (packF3 0x30 7 d a b false)
  | .cbget d a => some (packF3 0x30 8 d a 0 false)
  | .cbput a => some (packF3 0x30 9 0 a 0 false)
  | .evbind d a b => some (packF3 0x31 0 d a b false)
  | .evmask a => some (packF3 0x31 1 0 a 0 false)
  | .evclr a => some (packF3 0x31 2 0 a 0 false)
  | .evpend d => some (packF3 0x31 3 d 0 0 false)
  | .waitany a => some (packF3 0x31 4 0 a 0 false)
  | .fetchw a => some (packF3 0x31 5 0 a 0 false)
  | .spawn d a b => some (packF3 0x31 6 d a b false)
  | .hop a => some (packF3 0x32 0 0 a 0 false)
  | .hopback => some (packF3 0x32 1 0 0 0 false)
  | .rejoin => some (packF3 0x32 2 0 0 0 false)
  | .owner d a nw => some (packF3 0x32 3 d a 0 nw)
  | .hopcfg a => some (packF3 0x32 4 0 a 0 false)
  | .hopx a => some (packF3 0x32 5 0 a 0 false)
  | .tshape d a => some (packF3 0x33 0 d a 0 false)
  | .mma d a b => some (packF3 0x33 1 d a b false)
  | .mmab d a b => some (packF3 0x33 2 d a b false)
  | .mzero d => some (packF3 0x33 3 d 0 0 false)
  | .mrd d a b => some (packF3 0x33 4 d a b false)
  | .mwr d a b => some (packF3 0x33 5 d a b false)
  | .mfence d => some (packF3 0x33 6 d 0 0 false)
  | .mwait a => some (packF3 0x33 7 0 a 0 false)
  | .msurf d a b => some (packF3 0x33 8 d a b false)
  | .ivsld d a st => some (packF3 0x34 0 d a (widen st) false)
  | .bmac d a st => some (packF3 0x34 1 d a (widen st) false)
  | .embw d a st => some (packF3 0x34 2 d a (widen st) false)
  | .cpa d a st => some (packF3 0x35 0 d a (widen st) false)
  | .cpa_ring d a st => some (packF3 0x35 0 d a (16 ||| widen st) false)
  | .cpred d a st => some (packF3 0x35 1 d a (widen st) false)
  | .sfld d a b => some (packF3 0x36 0 d a b false)
  | .sfst d a b => some (packF3 0x36 1 d a b false)
  | .zt d => some (packF3 0x36 2 d 0 0 false)
  | .pxout a b => some (packF3 0x36 3 0 a b false)
  | .vtxout d a b => some (packF3 0x36 4 d a b false)
  | .vinterp d a nw => some (packF3 0x36 5 d a 0 nw)
  | .tsmp d a b => some (packF3 0x36 6 d a b false)
  | .csrr d b nw => some (packF3 0x37 0 d 0 b nw)
  | .csrw a b => some (packF3 0x37 1 0 a b false)
  | .vfma d a b c => some (packF4 0 d a b c)
  | .vfnma d a b c => some (packF4 1 d a b c)
  | .launch _ => none
  | .launchi _ => none
  | .loop_counted _ => none
  | .loop_conditional _ => none
  | .endloop _ => none
  | .cmd_if _ => none
  | .cmd_else _ => none
  | .cmd_endif _ => none
  | .waitmem _ => none
  | .signal _ => none
  | .signal_confirmed _ => none
  | .sfalloc _ _ => none
  | .sffree _ => none
  | .copy _ => none
  | .preempt _ => none
  | .vfset _ => none
  | .cpgate_gate _ => none
  | .cpgate_ungate _ => none
  | .fence_cmd _ => none
  | .llcsz_write _ _ => none
  | .tlbinv_write _ => none
  | .frozen_clear _ _ => none
  | .queue_tail_write _ _ => none
  | .cb_descriptor_write _ _ _ _ => none
  | .mtcap_write _ => none
  | .evpend_write _ => none
  | .ldtmo_write _ => none
  | .tstat_write _ => none
  | .fstr_write _ => none
  | .register_write _ _ => none
  | .attestation_quote _ => none
  | .package_reset _ => none
  | .llc_resize_complete _ => none
  | .tlbinv_done => none
  | .block_placement _ => none
  | .fetchw_delivery _ => none
  | .launch_complete _ => none
  | .deadline_passed _ => none
  | .waitmem_timeout _ => none
  | .token_refill _ => none
  | .frequency_change _ => none
  | .vfset_timeout _ => none
  | .core_gate _ => none
  | .forced_save _ => none
  | .group_save _ => none
  | .continuation_arrival _ => none
  | .pool_due _ _ => none
  | .migrant_launch _ => none
  | .return_arrival _ => none
  | .rejoin_apply _ => none
  | .exit_away_retire _ => none
  | .site_notice _ => none
  | .package_fenced _ => none
  | .waitany_wake _ => none
  | .barrier_stall _ _ => none
  | .matrix_batch_complete _ => none
  | .nearbank_complete _ => none
  | .copy_complete _ => none
  | .ring_notify_read _ => none
  | .ring_entry_complete _ _ => none
  | .cpred_send_complete _ => none
  | .combine_arrival _ => none
  | .combine_timeout _ => none
  | .spill_flip _ _ => none
  | .restore_flip _ _ => none
  | .frame_migration _ _ => none
  | .frame_migration_flip _ => none
  | .draw_start => none
  | .primitive_rasterise => none
  | .fragment_apply _ => none
  | .assay_slot_open _ => none
  | .assay_scan_start _ => none
  | .assay_scan_end _ _ => none
  | .assay_skip _ => none
  | .canary_warning _ => none
  | .voltage_step_down _ => none
  | .canary_fatal _ => none
  | .fatal_error => none
  | .droop_trip _ => none
  | .tallow_update _ _ => none
  | .gddr_overheat _ _ => none
  | .trap_timer _ => none
  | .breakpoint_halt _ => none
  | .debug_release _ => none
  | .residency_request_forward => none
  | .undefined_word _ => none
  | .fetch_fault => none
  | .undefined_command _ => none
  | .load_return _ _ => none
  | .write_reaches_home _ _ => none
  | .group_timer_match _ => none
  | .droop_end _ => none
  | .remote_access_arrival _ => none
  | .fabric_bring_up _ _ => none
  | .debugger_attach _ _ => none

/-- The instruction that the decoder reads from a row's bits, for the host's table check. -/
def decodeTableWord (nbits w : Nat) : Option Instr :=
  match decodeBytes (bytesOfWord (BitVec.ofNat 32 (w % 2 ^ nbits))) with
  | some (.ok i, _) => some i
  | _ => none

end Sys2Proof
end

