-- ==== Sys2Proof/Machine/OperandKinds.lean ====
section
/-! DEFINITION. Which operands a word names, by kind and role (R34 to R39 and the reference entries), which codes each
kind admits (R37, R38, R56), and the registers an operand covers (R46). -/

namespace Sys2Proof.Machine

open Bits

/-- The kinds of an operand field. -/
inductive OprKind where
  /-- vector context (R34) -/
  | vec
  /-- a pair in vector context (R37) -/
  | vecPair
  /-- a run of n window registers, nothing else -/
  | vecRun (n : Nat)
  /-- the first register of a run whose length or place among the faults the entry decides in execution (R57): its code
  is judged at decode, its window with the run -/
  | vecVar
  /-- scalar context (R35) -/
  | sca
  /-- a pair in scalar context (R37) -/
  | scaPair
  /-- a scalar pair that may not be `zero` (R446) -/
  | base
  /-- R38 -/
  | mask
  | tile
  | slot
  /-- an operand of `mma` (R250) -/
  | mtx
  deriving DecidableEq, Repr

/-- Read, written, or both. -/
inductive Role where
  | src | dst | upd
  deriving DecidableEq, Repr

structure Opr where
  kind : OprKind
  role : Role
  code : Nat
  deriving DecidableEq, Repr

/-- The field FMT.VF (R121). -/
def vfOf (fmt : Word) : Nat := fieldNat fmt 0 2

def even (n : Nat) : Bool := n % 2 == 0

/-- Whether a kind admits a code in a role (R34 to R38, R56). -/
def admits (o : Opr) : Bool :=
  let c := o.code
  let isSrc := o.role == .src
  match o.kind with
  | .vec => isSrc && c ≤ 127 || c ≤ 95
  | .vecPair => even c && c ≤ 94 || isSrc && (even c && 104 ≤ c && c ≤ 126 || 96 ≤ c && c ≤ 103)
  | .vecRun n => c + n ≤ 96
  | .vecVar => c ≤ 95
  | .sca => c ≤ 63 || isSrc && (64 ≤ c && c ≤ 86 || 96 ≤ c && c ≤ 103)
  | .scaPair => even c && c ≤ 62 ||
      isSrc && (c == 64 || c == 65 || c == 78 || c == 80 || 96 ≤ c && c ≤ 103)
  | .base => even c && c ≤ 62 || c == 65 || c == 78 || c == 80 || 96 ≤ c && c ≤ 103
  | .mask => c ≤ 7
  | .tile => c ≤ 15
  | .slot => c ≤ 7
  | .mtx => c + 31 ≤ 95 || even c && 104 ≤ c && c ≤ 126

/-- The latch that an operand reads, `qk` by its k (R34, R35). -/
def latchOf (o : Opr) : Option Nat :=
  let q := if o.role == .src && 96 ≤ o.code && o.code ≤ 103 then some (o.code - 96) else none
  match o.kind with
  | .vec | .vecPair | .sca | .scaPair | .base => q
  | .vecRun _ | .vecVar | .mask | .tile | .slot | .mtx => none

/-- Whether an operand reads a pair (R37). -/
def isPair (k : OprKind) : Bool :=
  match k with
  | .vecPair | .scaPair | .base => true
  | .vec | .vecRun _ | .vecVar | .sca | .mask | .tile | .slot | .mtx => false

/-- Whether an operand is read in scalar context (R35). -/
def isScalar (k : OprKind) : Bool :=
  match k with
  | .sca | .scaPair | .base => true
  | .vec | .vecPair | .vecRun _ | .vecVar | .mask | .tile | .slot | .mtx => false

/-- n consecutive registers of a file. -/
def run (f : Nat → RegId) (c n : Nat) : List RegId := (List.range n).map fun i => f (c + i)

/-- The registers that an operand covers (R46); latches and special scalars are none. -/
def regsOf (o : Opr) : List RegId :=
  let c := o.code
  let inVec (n : Nat) : List RegId :=
    if c ≤ 95 then run .v c n else if 104 ≤ c && c ≤ 126 then run .s (c - 104) n else []
  match o.kind with
  | .vec => inVec 1
  | .vecPair => inVec 2
  | .vecRun n => run .v c n
  | .vecVar => [.v c]
  | .sca => if c ≤ 63 then [.s c] else []
  | .scaPair | .base => if c ≤ 62 then run .s c 2 else []
  | .mask => [.m c]
  | .tile => [.t c]
  | .slot => []
  | .mtx => if c ≤ 95 then run .v c 32 else run .s (c - 104) 2

/-! ### The operands of each instruction -/

section
variable (d a b c : Code)

def osrc (k : OprKind) (c : Code) : Opr := ⟨k, .src, c.toNat⟩
def odst (k : OprKind) (c : Code) : Opr := ⟨k, .dst, c.toNat⟩
def oupd (k : OprKind) (c : Code) : Opr := ⟨k, .upd, c.toNat⟩

/-- A destination that NW = 1 suppresses (R47). -/
def odstNw (k : OprKind) (c : Code) (nw : Bool) : List Opr := if nw then [] else [odst k c]

/-- `vD, vA, vB`. -/
def ops3 (k : OprKind) (nw : Bool) : List Opr := odstNw k d nw ++ [osrc k a, osrc k b]
/-- `vD, vA`. -/
def ops2 (k : OprKind) (nw : Bool) : List Opr := odstNw k d nw ++ [osrc k a]
/-- `mD, vA, vB`. -/
def opsCmp (k : OprKind) : List Opr := [odst .mask d, osrc k a, osrc k b]
/-- Base and offsets of a vector access: a pair of offsets when A is `zero` (R39). -/
def opsAddr : List Opr := [osrc .scaPair a, osrc (if a.toNat = 64 then .vecPair else .vec) b]
/-- `vpD, vpA, vB`. -/
def opsPair (nw : Bool) : List Opr := odstNw .vecPair d nw ++ [osrc .vecPair a, osrc .vec b]
/-- `sD, [spA]`. -/
def opsEngine : List Opr := [odst .sca d, osrc .scaPair a]

end

/-- A kind under FMT.VF: the pair of it under VF = 3 (R117). -/
def vkind (fmt : Word) : OprKind := if vfOf fmt = 3 then .vecPair else .vec
/-- A scalar result under FMT.VF (R433). -/
def skind (fmt : Word) : OprKind := if vfOf fmt = 3 then .scaPair else .sca
/-- A `vcvt` type of 64 bits: f64, s64, z64 (R54). -/
def cvtKind (t : BitVec 4) : OprKind := if t.toNat = 3 ∨ t.toNat = 12 ∨ t.toNat = 13 then .vecPair else .vec

/-- The operands of an instruction under FMT; none for a step of the device. -/
def oprsOf (fmt : Word) : Instr → List Opr
  | .vadd d a b nw | .vsub d a b nw | .vmul d a b nw | .vmulh d a b nw | .vmulhu d a b nw | .vand d a b nw
  | .vor d a b nw | .vxor d a b nw | .vandn d a b nw | .vshl d a b nw | .vshr d a b nw | .vsra d a b nw
  | .vmin d a b nw | .vmax d a b nw | .vminu d a b nw | .vmaxu d a b nw | .vadds d a b nw | .vaddus d a b nw
  | .vsubs d a b nw | .vsubus d a b nw | .vabsd d a b nw | .vbfx d a b nw => ops3 d a b .vec nw
  | .vpopc d a nw | .vclz d a nw | .vbrev d a nw => ops2 d a .vec nw
  | .vbfi d a b => [oupd .vec d, osrc .vec a, osrc .vec b]
  | .vmulw d a b nw => odstNw .vecPair d nw ++ [osrc .vec a, osrc .vec b]
  | .vadd64 d a b nw | .vsub64 d a b nw | .vshl64 d a b nw => opsPair d a b nw
  | .vfadd d a b nw | .vfsub d a b nw | .vfmul d a b nw | .vfmin d a b nw | .vfmax d a b nw
  | .vfdiv d a b nw => ops3 d a b (vkind fmt) nw
  | .vfabs d a nw | .vfneg d a nw | .vfsqrt d a nw | .vfrcp d a nw | .vfrsq d a nw => ops2 d a (vkind fmt) nw
  | .vfex2 d a nw | .vflg2 d a nw | .vfsin d a nw | .vfcos d a nw => ops2 d a .vec nw
  | .vfdot2 d a b nw => ops3 d a b .vec nw
  | .vcmp_eq d a b | .vcmp_ne d a b | .vcmp_lt d a b | .vcmp_le d a b | .vcmp_ltu d a b
  | .vcmp_leu d a b => opsCmp d a b .vec
  | .vfcmp_eq d a b | .vfcmp_ne d a b | .vfcmp_lt d a b | .vfcmp_le d a b
  | .vfcmp_un d a b => opsCmp d a b (vkind fmt)
  | .vfclass d a _ => [odst .mask d, osrc (vkind fmt) a]
  | .vcvt d a _ s nw t => odstNw (cvtKind t) d nw ++ [osrc (cvtKind s) a]
  | .vcvtef d a b => [odst .vec d, osrc (.vecRun 1) a, oupd .vec b]
  | .vplane d a nw | .vunpl d a nw | .vmov d a nw => ops2 d a .vec nw
  | .vshfl d a b nw | .vshfx d a b nw => ops3 d a b .vec nw
  | .vbcl d a b nw => odstNw .vec d nw ++ [osrc .vec a, osrc .sca b]
  | .vfirst d a nw | .vredadd_i d a nw | .vredmin_s d a nw | .vredmin_u d a nw | .vredmax_s d a nw
  | .vredmax_u d a nw | .vballot d a nw => odstNw .sca d nw ++ [osrc .vec a]
  | .vredadd_f d a nw | .vredmin_f d a nw | .vredmax_f d a nw => odstNw (skind fmt) d nw ++ [osrc (vkind fmt) a]
  | .vscan_i d a nw => ops2 d a .vec nw
  | .vscan_f d a nw => ops2 d a (vkind fmt) nw
  | .vsel d a b nw m => ops3 d a b .vec nw ++ [⟨.mask, .src, m.toNat⟩]
  | .mand d a b | .mor d a b | .mxor d a b | .mandn d a b => [odst .mask d, osrc .mask a, osrc .mask b]
  | .mnot d a => [odst .mask d, osrc .mask a]
  | .mset d a => [odst .mask d, osrc .sca a]
  | .mget d a nw | .mcnt d a nw => odstNw .sca d nw ++ [osrc .mask a]
  | .mclr d => [odst .mask d]
  | .sadd d a b nw | .ssub d a b nw | .smul d a b nw | .smulh d a b nw | .sand d a b nw | .sor d a b nw
  | .sxor d a b nw | .sshl d a b nw | .sshr d a b nw | .ssra d a b nw | .smin d a b nw | .smax d a b nw
  | .sslt d a b nw | .ssltu d a b nw => ops3 d a b .sca nw
  | .saddx d a b nw => odstNw .scaPair d nw ++ [osrc .scaPair a, osrc .sca b]
  | .saddi d a _ | .sandi d a _ | .sori d a _ | .sxori d a _ | .sshli d a _ | .sshri d a _ | .ssrai d a _
  | .sslti d a _ => [odst .sca d, osrc .sca a]
  | .sli d _ => [odst .sca d]
  | .slui d _ => [oupd .sca d]
  | .vaddi d a _ => [odst .vec d, osrc .vec a]
  | .b_eq a _ | .b_ne a _ | .b_lt a _ | .b_ge a _ | .b_gt a _ | .b_le a _ => [osrc .sca a]
  | .bm_any a _ | .bm_none a _ | .bm_all a _ => [osrc .mask a]
  | .j _ => []
  | .call _ => [⟨.scaPair, .dst, 62⟩]
  | .jr a => [osrc .scaPair a]
  | .ret => [⟨.scaPair, .src, 62⟩]
  | .exit => []
  | .vif a => [osrc .mask a]
  | .velse | .vendif => []
  | .vkill a => [osrc .mask a]
  | .fmt a | .winb a => [osrc .sca a]
  | .trap _ | .rett | .brk _ | .nop => []
  | .loop a _ => [osrc .sca a]
  | .ppt _ => []
  | .vld_s8 d a b _ _ | .vld_z8 d a b _ _ | .vld_s16 d a b _ _ | .vld_z16 d a b _ _
  | .vld_w d a b _ _ => odst .vec d :: opsAddr a b
  | .vld_d d a b _ _ => odst .vecPair d :: opsAddr a b
  | .vst_b d a b _ _ | .vst_h d a b _ _ | .vst_w d a b _ _ => osrc .vec d :: opsAddr a b
  | .vst_d d a b _ _ => osrc .vecPair d :: opsAddr a b
  | .vldc d a _ _ _ => [odst .vec d, osrc .base a]
  | .vstc d a _ _ _ => [osrc .vec d, osrc .base a]
  | .sld_w d a _ _ _ => [odst .sca d, osrc .scaPair a]
  | .sld_d d a _ _ _ => [odst .scaPair d, osrc .scaPair a]
  | .sst_w d a _ _ _ => [osrc .sca d, osrc .scaPair a]
  | .sst_d d a _ _ _ => [osrc .scaPair d, osrc .scaPair a]
  | .vatom_iadd d a b _ | .vatom_fadd d a b _ | .vatom_and d a b _ | .vatom_or d a b _ | .vatom_smin d a b _
  | .vatom_smax d a b _ | .vatom_xchg d a b _ => oupd .vec d :: opsAddr a b
  | .vatom_cas d a b _ => oupd .vecPair d :: opsAddr a b
  | .fence _ _ => []
  | .xfence _ a => [osrc .sca a]
  | .sattr _ a => [osrc .sca a]
  | .bar a => [osrc .sca a]
  | .cflush _ a b | .cinv _ a b | .czero _ a b => [osrc .scaPair a, osrc .sca b]
  | .vpreq d a b => odst .sca d :: opsAddr a b ++ [⟨.mask, .src, 7⟩]
  | .cbget d a => [odst .sca d, osrc .sca a]
  | .cbput a => [osrc .sca a]
  | .evbind d a b => [osrc .slot d, osrc .sca a, osrc .scaPair b]
  | .evmask a | .evclr a => [osrc .sca a]
  | .evpend d => [odst .sca d]
  | .waitany a => [osrc .sca a, ⟨.scaPair, .dst, 62⟩]
  | .fetchw a => [osrc .sca a]
  | .spawn d a b => [oupd .sca d, osrc .scaPair a, osrc .scaPair b]
  | .hop a => [osrc .vecPair a, ⟨.mask, .dst, 7⟩]
  | .hopback | .rejoin => []
  | .owner d a nw => odstNw .vec d nw ++ [osrc .vecPair a]
  | .hopcfg a => [osrc .sca a]
  | .hopx a => [osrc .vec a]
  | .tshape d a => [odst .sca d, osrc .sca a]
  | .mma d a b | .mmab d a b => [oupd .tile d, osrc .mtx a, osrc .mtx b]
  | .mzero d => [odst .tile d]
  | .mrd d a b => [odst .vecVar d, osrc .tile a, osrc .sca b]
  | .mwr d a b => [odst .tile d, osrc .vecVar a, osrc .sca b]
  | .mfence d => [odst .sca d]
  | .mwait a => [osrc .sca a]
  | .msurf d a b => [odst .scaPair d, osrc .sca a, osrc .sca b]
  | .ivsld d a _ | .bmac d a _ | .embw d a _ | .cpa d a _ | .cpa_ring d a _ | .cpred d a _ => opsEngine d a
  | .sfld d a b => [odst .vecVar d, osrc .sca a, osrc .vec b]
  | .sfst d a b => [osrc .vecVar d, osrc .sca a, osrc .vec b]
  | .zt d => [odst .mask d]
  | .pxout a b => [osrc (.vecRun 4) a, osrc .sca b]
  | .vtxout d a b => [osrc .vecVar d, osrc .scaPair a, osrc .vec b]
  | .vinterp d a nw => odstNw .vec d nw ++ [osrc .sca a]
  | .tsmp d a b => [odst (.vecRun 4) d, osrc (.vecRun 2) a, osrc .sca b]
  | .csrr d _ nw => odstNw .sca d nw
  | .csrw a _ => [osrc .sca a]
  | .vfma d a b c | .vfnma d a b c => [odst (vkind fmt) d, osrc (vkind fmt) a, osrc (vkind fmt) b,
      osrc (vkind fmt) c]
  | .launch _ | .launchi _ | .loop_counted _ | .loop_conditional _ | .endloop _ | .cmd_if _ | .cmd_else _
  | .cmd_endif _ | .waitmem _ | .signal _ | .signal_confirmed _ | .sfalloc _ _ | .sffree _ | .copy _ | .preempt _
  | .vfset _ | .cpgate_gate _ | .cpgate_ungate _ | .fence_cmd _ | .llcsz_write _ _ | .tlbinv_write _
  | .frozen_clear _ _ | .queue_tail_write _ _ | .cb_descriptor_write _ _ _ _ | .mtcap_write _ | .evpend_write _
  | .ldtmo_write _ | .tstat_write _ | .fstr_write _ | .register_write _ _ | .attestation_quote _
  | .package_reset _ | .llc_resize_complete _ | .tlbinv_done | .block_placement _ | .fetchw_delivery _
  | .launch_complete _ | .deadline_passed _ | .waitmem_timeout _ | .token_refill _ | .frequency_change _
  | .vfset_timeout _ | .core_gate _ | .forced_save _ | .group_save _ | .continuation_arrival _ | .pool_due _ _
  | .migrant_launch _ | .return_arrival _ | .rejoin_apply _ | .exit_away_retire _ | .site_notice _
  | .package_fenced _ | .waitany_wake _ | .barrier_stall _ _ | .matrix_batch_complete _ | .nearbank_complete _
  | .copy_complete _ | .ring_notify_read _ | .ring_entry_complete _ _ | .cpred_send_complete _
  | .combine_arrival _ | .combine_timeout _ | .spill_flip _ _ | .restore_flip _ _ | .frame_migration _ _
  | .frame_migration_flip _ | .draw_start | .primitive_rasterise | .fragment_apply _ | .assay_slot_open _
  | .assay_scan_start _ | .assay_scan_end _ _ | .assay_skip _ | .canary_warning _ | .voltage_step_down _
  | .canary_fatal _ | .fatal_error | .droop_trip _ | .tallow_update _ _ | .gddr_overheat _ _ | .trap_timer _
  | .breakpoint_halt _ | .debug_release _ | .residency_request_forward | .undefined_word _ | .fetch_fault
  | .undefined_command _ | .load_return _ _ | .write_reaches_home _ _ | .group_timer_match _ | .droop_end _
  | .remote_access_arrival _ | .fabric_bring_up _ _ | .debugger_attach _ _ => []

/-- The registers an instruction reads (R46). -/
def readsOf (os : List Opr) : List RegId := (os.filter fun o => o.role != .dst).flatMap regsOf

/-- The registers an instruction writes (R46). -/
def writesOf (os : List Opr) : List RegId := (os.filter fun o => o.role != .src).flatMap regsOf

/-- The latches an instruction reads, each with whether it is read as a pair and in scalar context. -/
def latchesOf (os : List Opr) : List (Nat × Bool × Bool) :=
  os.filterMap fun o => (latchOf o).map fun k => (k, isPair o.kind, isScalar o.kind)

/-- `vcvtef` with D = B, the one OPND of R56 that is not about a single field (R131). -/
def pairwiseBad : Instr → Bool
  | .vcvtef d _ b => d == b
  | _ => false

/-- Every operand code is one that its kind admits (R56, OPND). -/
def codesOk (os : List Opr) : Bool := os.all admits

end Sys2Proof.Machine
end

