-- ==== Sys2Proof/Machine/Operands.lean ====
section
/-! DEFINITION. Every operand form: special scalars (R36), scalar and vector operands, pairs and latches (R34 to R37,
R44, R45), and writing a result to its destination (R47, R70). The decode checks of Machine/Issue.lean come first:
here a code is one that its kind admits, and a latch is one that may be read. -/

namespace Sys2Proof.Machine

open Assoc Bits

/-! ### Special scalars (R36) -/

/-- Where field k of the WID lies (R81). -/
def widOffset (ws : List Nat) (k : Nat) : Nat := (ws.take k).foldl (· + ·) 0

/-- In a migrant, the origin of its lowest live lane. -/
def lowestOrigin (g : Group) : Option Origin := (lanesOf g.lmask).findSome? fun j => find (originsOf g) j

/-- The WID that a group reports: in a migrant the home group's, of its lowest live lane (R36, R200). -/
def widOf (g : Group) : DWord :=
  match lowestOrigin g with
  | some o => o.hwid
  | none => g.wid

/-- `wf0` to `wf5`. A pixel group's are its region and primitive (R295), in its migrants too (R36). -/
def widField (s : State) (g : Group) (k : Nat) : Word :=
  match g.kind with
  | .pixel p => BitVec.ofNat 32 (if k = 0 then p.x0 / 8 else if k = 1 then p.y0 / 4 else if k = 2 then p.prim else 0)
  | .home | .migrant .. =>
    if (lowestOrigin g).any (·.pix) then
      BitVec.ofNat 32 (if k = 0 then fieldNat (widOf g) 0 16 else if k = 1 then fieldNat (widOf g) 16 16
        else if k = 2 then fieldNat (widOf g) 32 32 else 0)
    else match s.launch? g.launch with
    | some l => BitVec.ofNat 32 (fieldNat (widOf g) (widOffset l.hdr.widths k) (l.hdr.widths.getD k 0))
    | none => 0

def cycOf (s : State) (g : Group) : DWord := (s.coreAt g.core).cyc
def ntimeOf (s : State) (g : Group) : DWord := s.ntime (dieOfCore g.core)

/-- Codes 64 to 86 in scalar context. -/
def special (s : State) (g : Group) (c : Nat) : Word :=
  match c with
  | 64 => 0
  | 65 => lo32 (widOf g)
  | 66 => hi32 (widOf g)
  | 67 => widField s g 0
  | 68 => widField s g 1
  | 69 => widField s g 2
  | 70 => widField s g 3
  | 71 => widField s g 4
  | 72 => widField s g 5
  | 73 => BitVec.ofNat 32 (popcount 32 g.amask.toNat)
  | 74 => BitVec.ofNat 32 g.core
  | 75 => BitVec.ofNat 32 (clusterOfCore g.core)
  | 76 => BitVec.ofNat 32 (dieOfCore g.core)
  | 77 => BitVec.ofNat 32 s.pkgid
  | 78 => lo32 (cycOf s g)
  | 79 => hi32 (cycOf s g)
  | 80 => lo32 (ntimeOf s g)
  | 81 => hi32 (ntimeOf s g)
  | 82 => g.gtim
  | 83 => g.amask
  | 84 => g.lmask
  | 85 => g.fmt
  | 86 => g.fst.setWidth 32
  | _ => 0

/-- A special scalar as an instruction reads it: one that executes again keeps what it read at its issue (R48). -/
def specialNow (s : State) (g : Group) (c : Nat) : Word := (find g.chain.specials c).getD (special s g c)

/-- A special scalar and the next one. -/
def specialPair (s : State) (g : Group) (c : Nat) : DWord := join32 (specialNow s g (c + 1)) (specialNow s g c)

/-! ### Latches (R44, R45) -/

def latchAt (g : Group) (k : Nat) : Latch := g.chain.latches.getD k .none

/-- A latch read as 32 bits in a lane, or in scalar context (lane 0): the low half of a 64-bit result. -/
def latchWord (l : Latch) (lane : Nat) : Word :=
  match l with
  | .none => 0
  | .sca w => w
  | .sca64 w => lo32 w
  | .vec ws => ws.getD lane 0
  | .vec64 ws => lo32 (ws.getD lane 0)

/-- A latch read as a pair. -/
def latchPair (l : Latch) (lane : Nat) : DWord :=
  match l with
  | .none | .sca _ | .vec _ => 0
  | .sca64 w => w
  | .vec64 ws => ws.getD lane 0

/-- Whether a latch may be read as a pair, or in scalar context (R45). -/
def latchReadable (l : Latch) (pair scalar : Bool) : Bool :=
  match l with
  | .none => false
  | .sca _ => !pair
  | .sca64 _ => true
  | .vec _ => !pair && !scalar
  | .vec64 _ => !scalar

/-! ### Sources -/

/-- A scalar source (R35). -/
def srcS (s : State) (g : Group) (c : Code) : Word :=
  let n := c.toNat
  if n ≤ 63 then g.scalar n
  else if n ≤ 86 then specialNow s g n
  else latchWord (latchAt g (n - 96)) 0

/-- A scalar pair source (R37). -/
def srcSP (s : State) (g : Group) (c : Code) : DWord :=
  let n := c.toNat
  if n ≤ 62 then g.scalarPair n
  else if n = 64 then 0
  else if n = 65 ∨ n = 78 ∨ n = 80 then specialPair s g n
  else latchPair (latchAt g (n - 96)) 0

/-- Lane j of a vector source (R34). -/
def srcV (g : Group) (c : Code) (j : Nat) : Word :=
  let n := c.toNat
  if n ≤ 95 then g.vcode n j
  else if n ≤ 103 then latchWord (latchAt g (n - 96)) j
  else if n ≤ 126 then g.scalar (n - 104)
  else BitVec.ofNat 32 j

/-- Lane j of a vector pair source (R37). -/
def srcVP (g : Group) (c : Code) (j : Nat) : DWord :=
  let n := c.toNat
  if n ≤ 95 then join32 (g.vcode (n + 1) j) (g.vcode n j)
  else if n ≤ 103 then latchPair (latchAt g (n - 96)) j
  else g.scalarPair (n - 104)

/-- Lane k of a vector source as a form that reads across lanes reads it: 0 in a dead lane (R233, R434); a broadcast
scalar and `lid` read the same in every lane. -/
def srcLane (g : Group) (c : Code) (k : Nat) : Word := if g.live k || c.toNat ≥ 104 then srcV g c k else 0

def srcMask (g : Group) (c : Code) : Word := g.maskAt c.toNat

/-! ### Results -/

/-- The latch of a vector result: 0 in the lanes that were inactive (R45). -/
def vecLatch (g : Group) (f : Nat → Word) : Latch := .vec ((List.range 32).map fun j => if g.active j then f j else 0)
def vecLatch64 (g : Group) (f : Nat → DWord) : Latch :=
  .vec64 ((List.range 32).map fun j => if g.active j then f j else 0)

/-- A vector result: active lanes of vD, unless NW = 1 (R47, R70). -/
def writeV (g : Group) (d : Code) (nw : Bool) (f : Nat → Word) : Group :=
  if nw then g else g.setLanes d.toNat g.activeLanes f
def writeV64 (g : Group) (d : Code) (nw : Bool) (f : Nat → DWord) : Group :=
  if nw then g else g.setLanes64 d.toNat g.activeLanes f
def writeS (g : Group) (d : Code) (nw : Bool) (w : Word) : Group := if nw then g else g.setS d.toNat w
def writeS64 (g : Group) (d : Code) (nw : Bool) (w : DWord) : Group := if nw then g else g.setSPair d.toNat w

end Sys2Proof.Machine
end

