-- ==== Sys2Proof/WellFormed.lean ====
section
/-! DEFINITION. Which instructions are well formed: those whose word the decoder accepts (R40, R47, R54, R56) and
whose operand codes their kinds admit in the format of a group's start, FMT = 0 (R37, R38, R56); for a step of the
device, those whose unit numbers exist (R13 to R20, R93). -/

namespace Sys2Proof

open Machine

/-- NW = 1 needs D = 0 (R47). -/
def nwFits (d : Code) (nw : Bool) : Bool := !nw || d == 0

/-- System-register numbers that a map assigns (R371). -/
def csrAssigned (n : Nat) : Bool :=
  n ≤ 0x08 || n == 0x0A || n == 0x0B || n == 0x0C || n == 0x0E || 0x10 ≤ n && n ≤ 0x17 || 0x20 ≤ n && n ≤ 0x3D ||
  0x40 ≤ n && n ≤ 0x43 || 0x50 ≤ n && n ≤ 0x5C || 0x60 ≤ n && n ≤ 0x65

/-- The fields of an instruction word are as its entry allows; the units a device step names exist. -/
def Instr.shapeOk : Instr → Bool
  | .vadd d _ _ nw | .vsub d _ _ nw | .vmul d _ _ nw | .vmulh d _ _ nw | .vmulhu d _ _ nw | .vand d _ _ nw
  | .vor d _ _ nw | .vxor d _ _ nw | .vandn d _ _ nw | .vshl d _ _ nw | .vshr d _ _ nw | .vsra d _ _ nw
  | .vmin d _ _ nw | .vmax d _ _ nw | .vminu d _ _ nw | .vmaxu d _ _ nw | .vadds d _ _ nw | .vaddus d _ _ nw
  | .vsubs d _ _ nw | .vsubus d _ _ nw | .vabsd d _ _ nw | .vbfx d _ _ nw | .vmulw d _ _ nw | .vadd64 d _ _ nw
  | .vsub64 d _ _ nw | .vshl64 d _ _ nw | .vfadd d _ _ nw | .vfsub d _ _ nw | .vfmul d _ _ nw | .vfmin d _ _ nw
  | .vfmax d _ _ nw | .vfdiv d _ _ nw | .vfdot2 d _ _ nw | .vshfl d _ _ nw | .vshfx d _ _ nw | .vbcl d _ _ nw
  | .vsel d _ _ nw _ | .sadd d _ _ nw | .ssub d _ _ nw | .smul d _ _ nw | .smulh d _ _ nw | .sand d _ _ nw
  | .sor d _ _ nw | .sxor d _ _ nw | .sshl d _ _ nw | .sshr d _ _ nw | .ssra d _ _ nw | .smin d _ _ nw
  | .smax d _ _ nw | .sslt d _ _ nw | .ssltu d _ _ nw | .saddx d _ _ nw => nwFits d nw
  | .vpopc d _ nw | .vclz d _ nw | .vbrev d _ nw | .vfabs d _ nw | .vfneg d _ nw | .vfsqrt d _ nw | .vfrcp d _ nw
  | .vfrsq d _ nw | .vfex2 d _ nw | .vflg2 d _ nw | .vfsin d _ nw | .vfcos d _ nw | .vplane d _ nw | .vunpl d _ nw
  | .vfirst d _ nw | .vredadd_i d _ nw | .vredadd_f d _ nw | .vredmin_s d _ nw | .vredmin_u d _ nw
  | .vredmin_f d _ nw | .vredmax_s d _ nw | .vredmax_u d _ nw | .vredmax_f d _ nw | .vscan_i d _ nw
  | .vscan_f d _ nw | .vballot d _ nw | .vmov d _ nw | .mget d _ nw | .mcnt d _ nw | .owner d _ nw
  | .vinterp d _ nw => nwFits d nw
  | .csrr d b nw => nwFits d nw && csrAssigned b.toNat
  | .csrw _ b => csrAssigned b.toNat
  | .vcvt d _ rnd src nw dst => nwFits d nw && rnd.toNat < 5 && src.toNat ≠ 15 && dst.toNat ≠ 15
  | .loop _ e => e ≠ 0
  | .fence _ s | .xfence s _ => s.toNat < 5
  | .vbfi _ _ _ | .vcmp_eq _ _ _ | .vcmp_ne _ _ _ | .vcmp_lt _ _ _ | .vcmp_le _ _ _ | .vcmp_ltu _ _ _
  | .vcmp_leu _ _ _ | .vfcmp_eq _ _ _ | .vfcmp_ne _ _ _ | .vfcmp_lt _ _ _ | .vfcmp_le _ _ _ | .vfcmp_un _ _ _
  | .vfclass _ _ _ | .vcvtef _ _ _ | .mand _ _ _ | .mor _ _ _ | .mxor _ _ _ | .mandn _ _ _ | .mnot _ _
  | .mset _ _ | .mclr _ | .saddi _ _ _ | .sandi _ _ _ | .sori _ _ _ | .sxori _ _ _ | .sshli _ _ _ | .sshri _ _ _
  | .ssrai _ _ _ | .sslti _ _ _ | .sli _ _ | .slui _ _ | .vaddi _ _ _ | .b_eq _ _ | .b_ne _ _ | .b_lt _ _
  | .b_ge _ _ | .b_gt _ _ | .b_le _ _ | .bm_any _ _ | .bm_none _ _ | .bm_all _ _ | .j _ | .call _ | .jr _ | .ret
  | .exit | .vif _ | .velse | .vendif | .vkill _ | .fmt _ | .winb _ | .trap _ | .rett | .brk _ | .nop | .ppt _
  | .vld_s8 _ _ _ _ _ | .vld_z8 _ _ _ _ _ | .vld_s16 _ _ _ _ _ | .vld_z16 _ _ _ _ _ | .vld_w _ _ _ _ _
  | .vld_d _ _ _ _ _ | .vst_b _ _ _ _ _ | .vst_h _ _ _ _ _ | .vst_w _ _ _ _ _ | .vst_d _ _ _ _ _
  | .vldc _ _ _ _ _ | .vstc _ _ _ _ _ | .sld_w _ _ _ _ _ | .sld_d _ _ _ _ _ | .sst_w _ _ _ _ _
  | .sst_d _ _ _ _ _ | .vatom_iadd _ _ _ _ | .vatom_fadd _ _ _ _ | .vatom_and _ _ _ _ | .vatom_or _ _ _ _
  | .vatom_smin _ _ _ _ | .vatom_smax _ _ _ _ | .vatom_xchg _ _ _ _ | .vatom_cas _ _ _ _ | .sattr _ _ | .bar _
  | .cflush _ _ _ | .cinv _ _ _ | .czero _ _ _ | .vpreq _ _ _ | .cbget _ _ | .cbput _ | .evbind _ _ _ | .evmask _
  | .evclr _ | .evpend _ | .waitany _ | .fetchw _ | .spawn _ _ _ | .hop _ | .hopback | .rejoin | .hopcfg _
  | .hopx _ | .tshape _ _ | .mma _ _ _ | .mmab _ _ _ | .mzero _ | .mrd _ _ _ | .mwr _ _ _ | .mfence _ | .mwait _
  | .msurf _ _ _ | .ivsld _ _ _ | .bmac _ _ _ | .embw _ _ _ | .cpa _ _ _ | .cpa_ring _ _ _ | .cpred _ _ _
  | .sfld _ _ _ | .sfst _ _ _ | .zt _ | .pxout _ _ | .vtxout _ _ _ | .tsmp _ _ _ | .vfma _ _ _ _
  | .vfnma _ _ _ _ => true
  | .launch q | .launchi q | .loop_counted q | .loop_conditional q | .endloop q | .cmd_if q | .cmd_else q
  | .cmd_endif q | .waitmem q | .signal q | .signal_confirmed q | .sfalloc q _ | .sffree q | .copy q | .preempt q
  | .vfset q | .cpgate_gate q | .cpgate_ungate q | .fence_cmd q | .queue_tail_write q _ | .waitmem_timeout q
  | .undefined_command q => q < 64
  | .llcsz_write s _ | .llc_resize_complete s => s < 2
  | .frozen_clear d _ | .block_placement d | .frequency_change d | .vfset_timeout d | .assay_slot_open d
  | .assay_scan_start d | .assay_scan_end d _ | .assay_skip d | .tallow_update d _ => d < 4
  | .cb_descriptor_write n off size _ => n < 63 && off < 16 && (size == 4 || size == 8) && off % size == 0
  | .token_refill c | .barrier_stall c _ | .droop_trip c | .droop_end c => c < 144
  | .core_gate c | .pool_due c _ | .migrant_launch c => c < 576
  | .spill_flip c h | .restore_flip c h => c < 4096 && h < 4096
  | .canary_warning d | .voltage_step_down d | .canary_fatal d => d < 8
  | .gddr_overheat c _ => c < 32
  | .frame_migration s d => s < 2097152 && d < 2097152
  | .frame_migration_flip s => s < 2097152
  | .package_fenced p => p < 262144
  | .fabric_bring_up p k => p < 262144 && k < 1048576
  | .register_write (.ctl b off) _ => b < 2 && off < 1048576
  | .register_write (.group _ n) _ => n < 128 && csrAssigned n
  | .register_write (.core c n) _ => c < 576 && n < 128 && csrAssigned n
  | .tlbinv_write _ | .mtcap_write _ | .evpend_write _ | .ldtmo_write _ | .tstat_write _ | .fstr_write _
  | .attestation_quote _ | .package_reset _ | .tlbinv_done | .fetchw_delivery _ | .launch_complete _
  | .deadline_passed _ | .forced_save _ | .group_save _ | .continuation_arrival _ | .return_arrival _
  | .rejoin_apply _ | .exit_away_retire _ | .site_notice _ | .waitany_wake _ | .matrix_batch_complete _
  | .nearbank_complete _ | .copy_complete _ | .ring_notify_read _ | .ring_entry_complete _ _
  | .cpred_send_complete _ | .combine_arrival _ | .combine_timeout _ | .draw_start | .primitive_rasterise
  | .fragment_apply _ | .fatal_error | .trap_timer _ | .breakpoint_halt _ | .debug_release _
  | .residency_request_forward | .undefined_word _ | .fetch_fault | .load_return _ _ | .write_reaches_home _ _
  | .group_timer_match _ | .remote_access_arrival _ | .debugger_attach _ _ => true

/-- Well formed: the shape of the word, and codes that a group in its starting format may use. -/
def Instr.wellFormed (i : Instr) : Bool := i.shapeOk && codesOk (oprsOf 0 i) && !pairwiseBad i

end Sys2Proof
end

