-- ==== Sys2Proof/Machine/Issue.lean ====
section
/-! DEFINITION. The issue of one instruction by the group that executes: the decode checks in the order of R57, the
chain it joins (R43 to R51), the waits of the scoreboard (R272, R387, R396), uncorrectable operands (R230, R231), and
what follows the instruction's own effect: its latch, the advance (R78), an FP trap at the chain's end (R50, R128),
the halt of a step (R244) and the end of a group without live lanes (R75). -/

namespace Sys2Proof.Machine

open Assoc Bits

abbrev Outcome := Host.Outcome State Fault Refusal

/-- What the effect of an instruction comes to. -/
inductive Effect where
  /-- completed: what it leaves in its latch; the enabled FP exceptions it raised, and in which lanes -/
  | done (s : State) (latch : Latch) (fp : BitVec 5) (lanes : Word)
  /-- a control transfer: the PC is set -/
  | jump (s : State)
  /-- issued and parked: the PC stays -/
  | park (s : State)
  /-- issued, but it waits where it stands: it will execute again with the values it has read (R48) -/
  | hold (s : State)
  /-- the group has gone -/
  | gone (s : State)
  /-- does not issue (R85) -/
  | stall
  /-- a fault: the instruction has no effect -/
  | fault (c : Cause) (lanes : Word) (addr : DWord)
  /-- completed, with a trap taken after it -/
  | thenTrap (s : State) (c : Cause) (lanes : Word)

/-- An effect whose state has something more done to it. -/
def Effect.map (f : State → State) : Effect → Effect
  | .done s latch fp lanes => .done (f s) latch fp lanes
  | .jump s => .jump (f s)
  | .park s => .park (f s)
  | .hold s => .hold (f s)
  | .gone s => .gone (f s)
  | .stall => .stall
  | .fault c lanes addr => .fault c lanes addr
  | .thenTrap s c lanes => .thenTrap (f s) c lanes

/-- Exceptions that belong to a whole group name lanes that have stood aside too: TLANES is AMASK at issue (R435). -/
def Effect.alsoLanes (e : Effect) (lanes : Word) : Effect :=
  match e with
  | .done s latch fp ls => .done s latch fp (ls ||| lanes)
  | .jump _ | .park _ | .hold _ | .gone _ | .stall | .fault .. | .thenTrap .. => e

/-- Completed without a readable latch. -/
def Effect.plain (s : State) : Effect := .done s .none 0 0

/-! ### What a word is -/

def insWord (i : Instr) : Word := (encode i).getD 0

/-- Side effects under R46, which end a chain. -/
def sideEffect : Instr → Bool
  | .vadd .. | .vsub .. | .vmul .. | .vmulh .. | .vmulhu .. | .vand .. | .vor .. | .vxor .. | .vandn .. | .vshl ..
  | .vshr .. | .vsra .. | .vmin .. | .vmax .. | .vminu .. | .vmaxu .. | .vadds .. | .vaddus .. | .vsubs ..
  | .vsubus .. | .vabsd .. | .vpopc .. | .vclz .. | .vbrev .. | .vbfx .. | .vbfi .. | .vmulw .. | .vadd64 ..
  | .vsub64 .. | .vshl64 .. | .vfadd .. | .vfsub .. | .vfmul .. | .vfmin .. | .vfmax .. | .vfabs .. | .vfneg ..
  | .vfdiv .. | .vfsqrt .. | .vfrcp .. | .vfrsq .. | .vfex2 .. | .vflg2 .. | .vfsin .. | .vfcos .. | .vfdot2 ..
  | .vcmp_eq .. | .vcmp_ne .. | .vcmp_lt .. | .vcmp_le .. | .vcmp_ltu .. | .vcmp_leu .. | .vfcmp_eq ..
  | .vfcmp_ne .. | .vfcmp_lt .. | .vfcmp_le .. | .vfcmp_un .. | .vfclass .. | .vcvt .. | .vcvtef .. | .vplane ..
  | .vunpl .. | .vshfl .. | .vshfx .. | .vbcl .. | .vfirst .. | .vredadd_i .. | .vredadd_f .. | .vredmin_s ..
  | .vredmin_u .. | .vredmin_f .. | .vredmax_s .. | .vredmax_u .. | .vredmax_f .. | .vscan_i .. | .vscan_f ..
  | .vballot .. | .vmov .. | .vsel .. | .mand .. | .mor .. | .mxor .. | .mandn .. | .mnot .. | .mset .. | .mget ..
  | .mclr .. | .mcnt .. | .sadd .. | .ssub .. | .smul .. | .smulh .. | .sand .. | .sor .. | .sxor .. | .sshl ..
  | .sshr .. | .ssra .. | .smin .. | .smax .. | .sslt .. | .ssltu .. | .saddx .. | .saddi .. | .sandi .. | .sori ..
  | .sxori .. | .sshli .. | .sshri .. | .ssrai .. | .sslti .. | .sli .. | .slui .. | .vaddi .. | .vfma ..
  | .vfnma .. | .nop | .owner .. | .csrr .. | .evpend .. | .vinterp .. => false
  | _ => true

/-- The forms whose exceptions belong to the whole group (R435). -/
def groupForm : Instr → Bool
  | .vredadd_f .. | .vredmin_f .. | .vredmax_f .. | .vscan_f .. => true
  | _ => false

/-- The instructions that make requests to memory (R16). -/
def touchesMemory : Instr → Bool
  | .vld_s8 .. | .vld_z8 .. | .vld_s16 .. | .vld_z16 .. | .vld_w .. | .vld_d .. | .vst_b .. | .vst_h .. | .vst_w .. | .vst_d ..
  | .vldc .. | .vstc .. | .sld_w .. | .sld_d .. | .sst_w .. | .sst_d .. | .vatom_iadd .. | .vatom_fadd .. | .vatom_and ..
  | .vatom_or .. | .vatom_smin .. | .vatom_smax .. | .vatom_xchg .. | .vatom_cas .. | .sfld .. | .sfst .. | .tsmp .. => true
  | _ => false

/-- The instructions that R80 forbids at a loop end. -/
def badAtLoopEnd : Instr → Bool
  | .b_eq .. | .b_ne .. | .b_lt .. | .b_ge .. | .b_gt .. | .b_le .. | .bm_any .. | .bm_none .. | .bm_all .. | .j ..
  | .call .. | .jr .. | .ret | .rett | .loop .. | .waitany .. => true
  | _ => false

/-- UNDEF that follows from FMT.VF (R132, R442). -/
def undefByFmt (fmt : Word) : Instr → Bool
  | .vfdot2 .. => vfOf fmt = 0 || vfOf fmt = 3
  | .vfex2 .. | .vflg2 .. | .vfsin .. | .vfcos .. => vfOf fmt = 3
  | _ => false

/-- The same of a word whose reserved bits are set: UNDEF comes before RSVBIT (R57). -/
def undefWord (fmt w : Word) : Bool :=
  fieldNat w 26 6 == 3 && (fieldNat w 0 4 == 15 && (vfOf fmt == 0 || vfOf fmt == 3) ||
    decide (11 ≤ fieldNat w 0 4 ∧ fieldNat w 0 4 ≤ 14) && vfOf fmt == 3)

/-- The system register an instruction names (R370). -/
def csrNumber : Instr → Option Nat
  | .csrr _ b _ => some b.toNat
  | .csrw _ b => some b.toNat
  | _ => none

/-- Scalars read beyond those that the word names: the KEY of a record (R195), the copies of `spawn` (R88). -/
def implicitScalars : Instr → List Nat
  | .hop .. | .hopx .. | .spawn .. => [0, 1, 2, 3]
  | _ => []

/-! ### Decode checks (R43 to R46, R57) -/

/-- Registers that `mrd` and `sfld` write, whose number follows from state (R261, R413). -/
def extraWrites (s : State) (g : Group) : Instr → List RegId
  | .mrd d _ b =>
    let nr := fieldNat g.fmt 19 3
    let n := if bit (srcS s g b) 7 then (if nr = 4 then 4 else if nr = 2 ∨ nr = 3 then 8 else 16) else 32
    run .v d.toNat n
  | .sfld d a _ => match s.handle? g.ctx (fieldNat (srcS s g a) 0 12) with
    | some h => if pixelBytes h.fmt = 8 then run .v d.toNat 2 else []
    | none => []
  | _ => []

def joins (os : List Opr) : Bool := !(latchesOf os).isEmpty

/-- The latches of the chain may be read by the instruction at an address: the chain goes on, or it ended with that
instruction, which executes again (R48). -/
def readsChain (c : Chain) (pc : DWord) : Bool := !c.ended || c.kept && c.last == pc

/-- `hop` takes no 64-bit scalar result for the addresses of its lanes (R382). -/
def latchBarred (i : Instr) (l : Latch) : Bool :=
  match i, l with
  | .hop _, .sca64 _ => true
  | _, _ => false

/-- R44, R45, R382: a latch out of reach or of the wrong kind. -/
def latchFault (g : Group) (i : Instr) (os : List Opr) : Bool :=
  (latchesOf os).any fun (k, pair, scalar) =>
    k == 7 || readsChain g.chain g.pc && (k ≥ g.chain.latches.length || !latchReadable (latchAt g k) pair scalar ||
      latchBarred i (latchAt g k))

/-- R43, R46: the chain has ended or is full, or the word would write what the chain reads. -/
def chainFault (s : State) (g : Group) (i : Instr) (os : List Opr) : Bool :=
  joins os && (!readsChain g.chain g.pc || g.chain.latches.length ≥ 8 ||
    (writesOf os ++ extraWrites s g i).any fun r => g.chain.reads.contains r || (readsOf os).contains r)

/-- R41: a window register at or above the allocation, runs that the entry judges in execution apart (R57). -/
def windowFault (g : Group) (os : List Opr) : Bool :=
  ((os.filter (·.kind != .vecVar)).flatMap regsOf).any fun r => match r with | .v n => g.wb + n ≥ g.vregs | .s _ | .m _ | .t _ => false

/-- PRIV, and the OPND that the word alone shows (R56), whatever FMT holds. -/
def wordFault (g : Group) (i : Instr) : Option Cause :=
  if (match csrNumber i with | some n => !g.priv && n ≥ 0x60 | none => false) then some .priv
  else if !codesOk (oprsOf 0 i) || pairwiseBad i ||
      (match csrNumber i with | some n => !csrAssigned n | none => false) then some .opnd
  else none

/-- The decode faults of a word that is an instruction, in the order of R57; LOOPEND (R80) follows them, and then the
checks of a register range whose length FMT decides, which R57 counts as execution checks. -/
def decodeFault (s : State) (g : Group) (i : Instr) : Option Cause :=
  let os := oprsOf g.fmt i
  if undefByFmt g.fmt i then some .undef
  else match wordFault g i with
  | some c => some c
  | none =>
    if latchFault g i os then some .latch
    else if chainFault s g i os then some .chain
    else if windowFault g (oprsOf 0 i) then some .window
    else if badAtLoopEnd i && atLoopEnd g g.pc then some .loopend
    else if !codesOk os then some .opnd
    else if windowFault g os then some .window
    else none

/-- Whether a fault of the instruction is one at its place in the chain (R49): it reads a latch, and neither the word
alone (R56) nor the chain turns it away (log 25). -/
def faultJoins (s : State) (g : Group) (i : Instr) : Bool :=
  let os := oprsOf g.fmt i
  joins os && (wordFault g i).isNone && !latchFault g i os && !chainFault s g i os

/-! ### Waits (R85, R272, R387, R396) -/

/-- Registers that loads are still to write: whether a vector register, and its number. -/
def loadRegs (g : Group) : List (Bool × Nat) :=
  g.loads.flatMap fun l => l.parts.flatMap fun p =>
    (List.range (if p.texel.isSome then 4 else if l.pair then 2 else 1)).map fun k => (p.lane.isSome, p.reg + k)

/-- The memory requests of a core's groups that are outstanding: one for each lane of an access (R16, R186). -/
def outstandingOn (s : State) (core : Nat) : Nat :=
  ((residentOn s core).map fun e => e.2.loads.length + (e.2.wbuf.filter (·.maker == .group)).length).sum

/-- The core lacks outstanding-request slots for an access of the group's lanes (R85, R107): every access, a scalar one too, waits
for as many free slots as the group has active lanes, one at least (log 29; DESIGN CHOICE: R16 gives only the number of slots
of a core, not how many an access takes). -/
def requestsFull (s : State) (g : Group) : Bool :=
  decide (Config.requests < outstandingOn s g.core + max 1 g.activeLanes.length)

/-- The word names `fst`, which an outstanding atomic may still change. -/
def fstAwaited (g : Group) (i : Instr) : Bool := csrNumber i == some 0x0E && g.loads.any isAtomic

/-- The word names a register that a load or a status is still to write, or `m7` while a load is out. -/
def stalled (g : Group) (i : Instr) : Bool :=
  let os := oprsOf g.fmt i
  fstAwaited g i ||
  (os.flatMap regsOf ++ (implicitScalars i).map RegId.s).any fun r => match r with
    | .s n => g.pending.contains n || (loadRegs g).contains (false, n)
    | .v n => (loadRegs g).contains (true, g.wb + n)
    | .m n => n == 7 && !g.loads.isEmpty
    | .t _ => false

/-! ### Uncorrectable operands (R230, R231) -/

/-- The number of the latch `qk`, by position in the chain. -/
def latchNo (g : Group) (k : Nat) : Nat := g.chain.latches.length - 1 - k

/-- Whether a latch holds one value for all lanes. -/
def scalarLatch : Latch → Bool
  | .sca _ | .sca64 _ => true
  | .none | .vec _ | .vec64 _ => false

/-- The operand reads an uncorrectable scalar latch. -/
def badScalarLatch (g : Group) (o : Opr) : Bool :=
  match latchOf o with
  | some k => scalarLatch (latchAt g k) && g.chain.badL.contains (latchNo g k * 32)
  | none => false

/-- The special scalars that an operand reads (R36, R37). -/
def specialsOf (o : Opr) : List Nat :=
  if isScalar o.kind && o.role == .src && 64 ≤ o.code && o.code ≤ 86 then
    (if isPair o.kind && o.code != 64 then [o.code, o.code + 1] else [o.code])
  else []

/-- The special scalars that a word reads, with their values. -/
def readSpecials (s : State) (g : Group) (os : List Opr) : Map Word :=
  ((os.flatMap specialsOf).filter (· != 64)).map fun n => (n, specialNow s g n)

/-- The word reads an uncorrectable scalar: one that it names or that its entry does, a special scalar, or a scalar latch
(R231). -/
def readsBadScalar (g : Group) (i : Instr) : Bool :=
  let os := oprsOf g.fmt i
  ((readsOf os ++ (implicitScalars i).map RegId.s).any fun r => match r with
    | .s n => g.badS.contains n
    | .v _ | .m _ | .t _ => false) ||
  os.any fun o => badScalarLatch g o || (specialsOf o).any fun n => g.badSp.contains n && (find g.chain.specials n).isNone

/-- The element of a vector source in a lane is uncorrectable: in a register, or in a vector latch (R230). -/
def badAt (g : Group) (o : Opr) (lane : Nat) : Bool :=
  ((regsOf o).any fun r => match r with
    | .v n => g.badV.contains (elemOf (g.wb + n) lane)
    | .s _ | .m _ | .t _ => false) ||
  match latchOf o with
  | some k => !scalarLatch (latchAt g k) && g.chain.badL.contains (latchNo g k * 32 + lane)
  | none => false

/-- The vector sources that lane j reads, each with the lanes of which it reads the element: its own, or those that a
cross-lane form names (R434, R435); live ones, since a dead lane reads 0. A matrix operation reads its operands itself
(R266), and so do `mwr`, `vfirst`, `vpreq`, and `vtxout` its triangles. -/
def laneReads (s : State) (g : Group) (i : Instr) (os : List Opr) (j : Nat) : List (Opr × List Nat) :=
  match i with
  | .vshfl _ a b _ => [(osrc .vec a, [(srcV g b j).toNat % 32].filter g.live), (osrc .vec b, [j])]
  | .vshfx _ a b _ =>
    [(osrc .vec a, [(BitVec.ofNat 5 j ^^^ (srcV g b j).setWidth 5).toNat].filter g.live), (osrc .vec b, [j])]
  | .vbcl _ a b _ => [(osrc .vec a, [(srcS s g b).toNat % 32].filter g.live)]
  | .vplane _ a _ | .vunpl _ a _ => [(osrc .vec a, (List.range 32).filter g.live)]
  | .vfirst .. | .mwr .. | .vpreq .. => []
  | .vtxout _ _ b => [(osrc .vec b, [j])]
  | _ => (os.filter fun o => o.role != .dst && o.kind != .mtx).map fun o => (o, [j])

/-- The active lanes that consume an uncorrectable element. -/
def consuming (s : State) (g : Group) (i : Instr) (os : List Opr) : Word :=
  if g.badV.isEmpty && g.chain.badL.isEmpty then 0 else
    maskOf (g.activeLanes.filter fun j => (laneReads s g i os j).any fun e => e.2.any (badAt g e.1))

/-- The consuming lanes stand aside while the word acts: they do nothing, and other lanes may still read what they hold
(R230, R434). The word reads AMASK and the other special scalars (`sp`) as they were at its issue. -/
def standAside (s : State) (gid : Nat) (lanes : Word) (sp : Map Word) : State :=
  if lanes = 0 then s else s.updGroup gid fun g =>
    { g with amask := g.amask &&& ~~~lanes, chain := { g.chain with specials := sp } }

/-- The registers of the instruction's destination: the `m7` of `hop` is none. -/
def destinations (s : State) (g : Group) (i : Instr) (os : List Opr) : List RegId :=
  match i with
  | .hop _ => []
  | _ => writesOf os ++ extraWrites s g i

/-- The consuming lanes' elements of the destination become 0, and the lanes die (R230). The pit log gets the PC: an element
of a register or a latch has no address in memory (log 28; DESIGN CHOICE: R336 says only the address). -/
def consume (s : State) (gid : Nat) (ws : List RegId) (lanes : Word) (pc : DWord) : State :=
  if lanes = 0 then s else
    let s := s.updGroup gid fun g => ws.foldl (fun g r => match r with
      | .v n => g.setLanes n (lanesOf lanes) fun _ => 0
      | .m n => g.setM n (g.maskAt n &&& ~~~lanes)
      | .s _ | .t _ => g) g
    uceLanes s gid lanes pc

/-! ### Chains (R43 to R50) -/

/-- A chain that the instruction heads. -/
def newChain (g : Group) : Chain :=
  { Chain.none with
    ended := false, head := g.pc, savedV := g.v, savedS := g.s, savedM := g.m, savedBadV := g.badV,
    savedBadS := g.badS, wb := g.wb }

/-- The chain as it stands when the instruction issues. -/
def chainAt (g : Group) (os : List Opr) : Chain := if joins os then g.chain else newChain g

/-- The chain after the instruction: its registers, its latch and its enabled exceptions. -/
def extendChain (c : Chain) (i : Instr) (os : List Opr) (ends : Bool) (l : Latch) (fp : BitVec 5) (lanes : Word) :
    Chain :=
  { c with
    ended := ends, kept := false, specials := [], latches := l :: c.latches, reads := readsOf os ++ c.reads, writes := writesOf os ++ c.writes,
    fpIns := if c.fpFlags = 0 ∧ fp ≠ 0 then insWord i else c.fpIns,
    fpFlags := c.fpFlags ||| fp, fpLanes := if fp = 0 then c.fpLanes else c.fpLanes ||| lanes }

/-! ### Fetching (R30, R151, R224) -/

/-- The word at an address, as the group fetches it. -/
def fetchAt (s : State) (g : Group) (va : DWord) : Except Cause (Word × Hit) :=
  match resolve s (agentOf s g none) .fetch va 4 with
  | .error c => .error c
  | .ok h => .ok (BitVec.ofNat 32 (hitNat s h 4), h)

/-- Whether the chain ends here: it has ended, or the next word would not join it, one that R56 or the chain turns away
included (log 25). A word that cannot be fetched leaves it open (R49). -/
def chainOver (s : State) (g : Group) (next : DWord) : Bool :=
  g.chain.ended ||
  match fetchAt s g next with
  | .error _ => false
  | .ok (w, _) => match decode w with
    | .error _ => true
    | .ok i =>
      let os := oprsOf g.fmt i
      !joins os || (wordFault g i).isSome || latchFault g i os || chainFault s g i os

/-- The group stands at an instruction of a chain that has issued before, and executes again with what it read (R48):
nothing is taken before that. -/
def standsIn (g : Group) : Bool := g.chain.kept && g.chain.last == g.pc

/-- The group stands between two chains (R48). -/
def atBoundary (s : State) (g : Group) : Bool := chainOver s g g.pc && !standsIn g

/-- A halt is due at the end of the chain in progress: of a breakpoint, or of a step (R48, R244), whose chain may end long after
its last instruction, where the next word could not be fetched. -/
def haltOwed (g : Group) : Bool := g.dbg.haltDue || g.dbg.step && !g.chain.ended

/-! ### After the effect -/

/-- The FP trap of highest priority among enabled exceptions (R128). -/
def fpCause (f : BitVec 5) : Cause :=
  if f.getLsbD 0 then .fpinv else if f.getLsbD 1 then .fpdz else if f.getLsbD 2 then .fpovf
  else if f.getLsbD 3 then .fpunf else .fpinx

/-- The halt of a step, or of a breakpoint matched inside the chain (R48, R244). TPC and TNEXT are the address of the next
instruction (log 27; DESIGN CHOICE: R244 gives them for a breakpoint only). -/
def haltAfter (s : State) (gid : Nat) (g : Group) : State :=
  if (g.dbg.step || g.dbg.haltDue) && g.status == .ready then
    report (s.setGroup gid { g with
      status := .halted none, chain := g.chain.stop, dbg := { g.dbg with haltDue := false },
      trap := { g.trap with tpc := g.pc, tnext := g.pc } }) (.halt gid)
  else s

/-- The boundary after an instruction: a group without live lanes ends (R75), a stepped one halts. -/
def boundary (s : State) (gid : Nat) : State :=
  match s.group? gid with
  | none => s
  | some g =>
    if g.lmask = 0 then endGroup s gid
    else haltAfter s gid g

/-- A trap at the boundary: a group that it killed ends (R225). -/
def trapBoundary (s : State) (gid : Nat) (i : TrapInfo) : State :=
  let s := takeTrap s gid i
  match s.group? gid with
  | none => s
  | some g => if g.lmask = 0 then endGroup s gid else s

/-- The halt of a step, or of a breakpoint inside the chain, after an instruction that has completed and then trapped
(R48, R244). -/
def haltTrapped (s : State) (gid : Nat) : State :=
  match s.group? gid with
  | none => s
  | some g => haltAfter s gid g

/-- A group whose last lane the device has killed ends at its boundary (R75): at once, unless it is inside a chain. One that
is parked in the middle of an instruction ends there, and the instruction never completes (log 27; DESIGN CHOICE: R75 names
the next boundary only). -/
def lanesGone (s : State) (gid : Nat) : State :=
  match s.group? gid with
  | none => s
  | some g =>
    if g.lmask != 0 then s
    else match g.status with
      | .ready => if chainOver s g g.pc then endGroup s gid else s
      | .parked .exit => countArrived s gid
      | .saved .. => s
      | .parked _ | .halted _ => endGroup (leaveWaits s gid) gid

/-- The word has issued: it is the last one, and a breakpoint passed over at it matches again (R244). -/
def issued (g : Group) (w : Word) : Group := { g with ins := w, dbg := { g.dbg with passed := none } }

/-- A fault of the instruction at the PC (R49, R51, R56, R224). -/
def raise (s : State) (gid : Nat) (g : Group) (inChain : Bool) (c : Cause) (lanes : Word) (addr : DWord)
    (tins : Word) : State :=
  if inChain && c != .chain && c != .latch then
    trapBoundary (s.setGroup gid (issued (undoChain g) tins)) gid
      ⟨c, true, g.chain.head, g.chain.head, lanes, addr, tins⟩
  else trapBoundary (s.setGroup gid (issued g tins)) gid ⟨c, false, g.pc, g.pc, lanes, addr, tins⟩

/-- The FP trap due at the end of a chain (R50): TPC at its last instruction, TNEXT = TPC + 4. Where several instructions of the
chain raised different enabled flags, the cause is the first in the order of R128 among all of them, while TINS is the first
that raised any (log 29; DESIGN CHOICE: R128 orders the flags of one instruction, and R50 names no cause for a chain). -/
def fpTrap (s : State) (gid : Nat) (c : Chain) (pc : DWord) : State :=
  haltTrapped (trapBoundary s gid ⟨fpCause c.fpFlags, false, pc, pc + 4, c.fpLanes, 0, c.fpIns⟩) gid

/-- What follows a completed instruction: the chain, a due FP trap, the advance, the boundary. -/
def complete (s : State) (gid : Nat) (i : Instr) (os : List Opr) (c : Chain) (l : Latch) (fp : BitVec 5)
    (lanes : Word) : State :=
  match s.group? gid with
  | none => s
  | some g =>
    let c := { extendChain c i os (sideEffect i || atLoopEnd g g.pc) l fp lanes with last := g.pc }
    let g := issued { g with chain := c } (insWord i)
    let s := s.setGroup gid g
    if chainOver s g (g.pc + 4) then
      if g.chain.fpFlags = 0 then boundary (s.setGroup gid (advance g)) gid
      else fpTrap s gid g.chain g.pc
    else s.setGroup gid (advance g)

/-- The group after an instruction that parks: it keeps what it read (R48); one that has completed meanwhile ends its chain
(R50). -/
def parkedChain (c : Chain) (pc : DWord) (sp : Map Word) (g : Group) : Group :=
  { g with chain := if (parkedIn g).isSome then c.keep pc sp else Chain.close { c with last := pc } }

/-- What an effect makes of the state. The group runs on its core with every one but a stall (R325). -/
def settle (s : State) (gid : Nat) (g : Group) (i : Instr) (os : List Opr) (c : Chain) : Effect → State
  | .done s' l fp lanes => complete (ranHere s' g) gid i os c l fp lanes
  | .jump s' =>
    let s' := (ranHere s' g).updGroup gid fun g' => issued { g' with chain := Chain.close { c with last := g.pc } } (insWord i)
    if c.fpFlags = 0 then boundary s' gid else fpTrap s' gid c g.pc
  | .park s' => (ranHere s' g).updGroup gid fun g' => issued (parkedChain c g.pc (readSpecials s g os) g') (insWord i)
  | .hold s' => (ranHere s' g).updGroup gid fun g' => issued { g' with chain := c.keep g.pc (readSpecials s g os) } (insWord i)
  | .gone s' => ranHere s' g
  | .stall => s
  | .fault cause ls addr => raise (ranHere s g) gid g (joins os) cause ls addr (insWord i)
  | .thenTrap s' cause ls =>
    haltTrapped (trapBoundary ((ranHere s' g).updGroup gid fun g => issued g (insWord i)) gid
      ⟨cause, false, g.pc, g.pc + 4, ls, 0, insWord i⟩) gid

/-! ### Joins (R183) -/

/-- Writes on their way of a copy with its status in one of some scalars are joined; with `all`, those of earlier copies of
the scalar too. -/
def joinWrite (ds : List Nat) (all : Bool) (w : PendStore) : PendStore :=
  match w.maker with
  | .copy d past => if ds.contains d && (all || !past) then { w with maker := .joined } else w
  | .group | .joined => w

/-- Those of earlier copies alone. -/
def joinOver (d : Nat) (w : PendStore) : PendStore := if w.maker = .copy d true then { w with maker := .joined } else w

/-- A group joins the operations whose statuses some scalars hold: what they did, and what preceded that, comes before all that
it does from now on (log 4). -/
def joinOps (s : State) (ds : List Nat) (all : Bool) (g : Group) : Group :=
  seeAll s .all { g with unread := g.unread.filter fun d => !ds.contains d, wbuf := g.wbuf.map (joinWrite ds all) }

/-- The scalars that a word reads, its entry's own included. -/
def scalarsRead (g : Group) (i : Instr) : List Nat :=
  ((readsOf (oprsOf g.fmt i)).filterMap fun r => match r with | .s n => some n | .v _ | .m _ | .t _ => none) ++ implicitScalars i

/-- The scalars that it reads which hold the status of an operation that the group has not joined. -/
def unreadBy (g : Group) (i : Instr) : List Nat := g.unread.filter (scalarsRead g i).contains

/-- The state as the instruction's own effect finds it: the operations whose statuses it reads are joined. -/
def readState (s : State) (g : Group) (i : Instr) : State :=
  match unreadBy g i with
  | [] => s
  | ds => s.updGroup s.cur (joinOps s ds false)

/-- The issue of an instruction whose effect is `body`. A group that is absent or not Ready issues nothing, nor does one
whose core is being scanned (R322). -/
def issue (i : Instr) (body : State → Nat → Group → Effect) (s : State) : Outcome :=
  match s.group? s.cur with
  | none => .next s
  | some g =>
    if g.status != .ready || (s.coreAt g.core).scanning then .next s
    else
      let os := oprsOf g.fmt i
      match decodeFault s g i with
      | some c => .next (raise (ranHere s g) s.cur g (faultJoins s g i) c 0 0 (insWord i))
      | none =>
        if stalled g i then .next s
        else if readsBadScalar g i then .next (uceKill (ranHere s g) s.cur g.pc)
        else
          let lanes := consuming s g i os
          let s1 := standAside (readState s g i) s.cur lanes (readSpecials s g os)
          match s1.group? s.cur with
          | none => .next s1
          | some g1 =>
            let e := (body s1 s.cur g1).map fun t => consume t s.cur (destinations s g i os) lanes g.pc
            .next (settle s s.cur g i os (chainAt g os) (if groupForm i then e.alsoLanes lanes else e))

/-- The group that executes may issue the instruction: it is Ready on a core that is not being scanned, the word passes
every decode check, nothing it names is awaited, nothing it reads is uncorrectable, and it reads no status that
joins an operation (what reading one adds is `readState`). -/
def Admits (i : Instr) (s : State) (g : Group) : Prop :=
  s.group? s.cur = some g ∧ g.status = .ready ∧ (s.coreAt g.core).scanning = false ∧ decodeFault s g i = none ∧
  stalled g i = false ∧ readsBadScalar g i = false ∧ unreadBy g i = [] ∧ consuming s g i (oprsOf g.fmt i) = 0

end Sys2Proof.Machine
end

