-- ==== Sys2Proof/Machine/VectorInt.lean ====
section
/-! DEFINITION. Vector integer: majors 01, 02 and 14 (R426 to R430). Every form acts on the active lanes, sets no flag
and raises no execution fault (R428). -/

namespace Sys2Proof.Machine

open Bits

/-! ### Shapes -/

/-- `vD[j] := f vA[j]`. -/
def lane1 (d a : Code) (nw : Bool) (f : Word → Word) (s : State) (gid : Nat) (g : Group) : Effect :=
  let r := fun j => f (srcV g a j)
  .done (s.setGroup gid (writeV g d nw r)) (vecLatch g r) 0 0

/-- `vD[j] := f vA[j] vB[j]`. -/
def lane2 (d a b : Code) (nw : Bool) (f : Word → Word → Word) (s : State) (gid : Nat) (g : Group) : Effect :=
  let r := fun j => f (srcV g a j) (srcV g b j)
  .done (s.setGroup gid (writeV g d nw r)) (vecLatch g r) 0 0

/-- `vpD[j] := f vpA[j] vB[j]`. -/
def lanePair (d a b : Code) (nw : Bool) (f : DWord → Word → DWord) (s : State) (gid : Nat) (g : Group) : Effect :=
  let r := fun j => f (srcVP g a j) (srcV g b j)
  .done (s.setGroup gid (writeV64 g d nw r)) (vecLatch64 g r) 0 0

/-! ### Lane arithmetic (R427 to R429) -/

def shl (a b : Word) : Word := a <<< (b.toNat % 32)
def shr (a b : Word) : Word := a >>> (b.toNat % 32)
def sra (a b : Word) : Word := a.sshiftRight (b.toNat % 32)
def mulHigh (a b : Word) : Word := hi32 (sext64 a * sext64 b)
def mulHighU (a b : Word) : Word := hi32 (a.setWidth 64 * b.setWidth 64)
def minU (a b : Word) : Word := if a.ult b then a else b
def maxU (a b : Word) : Word := if a.ult b then b else a
def addSatS (a b : Word) : Word := BitVec.ofInt 32 (satS 32 (a.toInt + b.toInt))
def addSatU (a b : Word) : Word := BitVec.ofInt 32 (satU 32 (a.toNat + b.toNat))
def subSatS (a b : Word) : Word := BitVec.ofInt 32 (satS 32 (a.toInt - b.toInt))
def subSatU (a b : Word) : Word := BitVec.ofInt 32 (satU 32 ((a.toNat : Int) - b.toNat))
def absDiff (a b : Word) : Word := BitVec.ofNat 32 (a.toInt - b.toInt).natAbs
def popc (a : Word) : Word := BitVec.ofNat 32 (popcount 32 a.toNat)
/-- Leading zeros; 32 for 0. -/
def clz (a : Word) : Word := if a = 0 then 32 else BitVec.ofNat 32 (31 - a.toNat.log2)
/-- Bit i moved to bit 31 - i. -/
def brev (a : Word) : Word := maskOf ((List.range 32).filter fun i => a.getLsbD (31 - i))

/-- R429: lowest bit, width and sign-extension of a field operand. -/
def fieldPos (b : Word) : Nat := fieldNat b 0 5
def fieldWidth (b : Word) : Nat := min (fieldNat b 8 6) 32

def bitFieldExtract (a b : Word) : Word :=
  let w := fieldWidth b
  let x := a.toNat / 2 ^ fieldPos b % 2 ^ w
  if bit b 15 && 0 < w && 2 ^ (w - 1) ≤ x then BitVec.ofInt 32 ((x : Int) - 2 ^ w) else BitVec.ofNat 32 x

def bitFieldInsert (d a b : Word) : Word :=
  let m := BitVec.ofNat 32 ((2 ^ fieldWidth b - 1) * 2 ^ fieldPos b)
  let x := BitVec.ofNat 32 (a.toNat % 2 ^ fieldWidth b * 2 ^ fieldPos b)
  (d &&& ~~~m) ||| x

/-! ### Major 01 (R427) -/

/-- `vadd` (R427): a + b. -/
def execVadd (d a b : Code) (nw : Bool) (s : State) : Outcome :=
  issue (.vadd d a b nw) (lane2 d a b nw (· + ·)) s

/-- `vsub` (R427): a - b. -/
def execVsub (d a b : Code) (nw : Bool) (s : State) : Outcome :=
  issue (.vsub d a b nw) (lane2 d a b nw (· - ·)) s

/-- `vmul` (R427): the low half of a * b. -/
def execVmul (d a b : Code) (nw : Bool) (s : State) : Outcome :=
  issue (.vmul d a b nw) (lane2 d a b nw (· * ·)) s

/-- `vmulh` (R427): the high half of the signed product. -/
def execVmulh (d a b : Code) (nw : Bool) (s : State) : Outcome :=
  issue (.vmulh d a b nw) (lane2 d a b nw mulHigh) s

/-- `vmulhu` (R427): the high half of the unsigned product. -/
def execVmulhu (d a b : Code) (nw : Bool) (s : State) : Outcome :=
  issue (.vmulhu d a b nw) (lane2 d a b nw mulHighU) s

/-- `vand` (R427). -/
def execVand (d a b : Code) (nw : Bool) (s : State) : Outcome :=
  issue (.vand d a b nw) (lane2 d a b nw (· &&& ·)) s

/-- `vor` (R427). -/
def execVor (d a b : Code) (nw : Bool) (s : State) : Outcome :=
  issue (.vor d a b nw) (lane2 d a b nw (· ||| ·)) s

/-- `vxor` (R427). -/
def execVxor (d a b : Code) (nw : Bool) (s : State) : Outcome :=
  issue (.vxor d a b nw) (lane2 d a b nw (· ^^^ ·)) s

/-- `vandn` (R427): a & ~b. -/
def execVandn (d a b : Code) (nw : Bool) (s : State) : Outcome :=
  issue (.vandn d a b nw) (lane2 d a b nw (fun x y => x &&& ~~~y)) s

/-- `vshl` (R427): a << b[4:0]. -/
def execVshl (d a b : Code) (nw : Bool) (s : State) : Outcome :=
  issue (.vshl d a b nw) (lane2 d a b nw shl) s

/-- `vshr` (R427): zeros shifted in. -/
def execVshr (d a b : Code) (nw : Bool) (s : State) : Outcome :=
  issue (.vshr d a b nw) (lane2 d a b nw shr) s

/-- `vsra` (R427): copies of bit 31 shifted in. -/
def execVsra (d a b : Code) (nw : Bool) (s : State) : Outcome :=
  issue (.vsra d a b nw) (lane2 d a b nw sra) s

/-- `vmin` (R427): the smaller, signed. -/
def execVmin (d a b : Code) (nw : Bool) (s : State) : Outcome :=
  issue (.vmin d a b nw) (lane2 d a b nw minS) s

/-- `vmax` (R427): the larger, signed. -/
def execVmax (d a b : Code) (nw : Bool) (s : State) : Outcome :=
  issue (.vmax d a b nw) (lane2 d a b nw maxS) s

/-- `vminu` (R427): the smaller, unsigned. -/
def execVminu (d a b : Code) (nw : Bool) (s : State) : Outcome :=
  issue (.vminu d a b nw) (lane2 d a b nw minU) s

/-- `vmaxu` (R427): the larger, unsigned. -/
def execVmaxu (d a b : Code) (nw : Bool) (s : State) : Outcome :=
  issue (.vmaxu d a b nw) (lane2 d a b nw maxU) s

/-! ### Major 02 (R428) -/

/-- `vadds` (R428): saturating, signed. -/
def execVadds (d a b : Code) (nw : Bool) (s : State) : Outcome :=
  issue (.vadds d a b nw) (lane2 d a b nw addSatS) s

/-- `vaddus` (R428): saturating, unsigned. -/
def execVaddus (d a b : Code) (nw : Bool) (s : State) : Outcome :=
  issue (.vaddus d a b nw) (lane2 d a b nw addSatU) s

/-- `vsubs` (R428): saturating, signed. -/
def execVsubs (d a b : Code) (nw : Bool) (s : State) : Outcome :=
  issue (.vsubs d a b nw) (lane2 d a b nw subSatS) s

/-- `vsubus` (R428): saturating, unsigned. -/
def execVsubus (d a b : Code) (nw : Bool) (s : State) : Outcome :=
  issue (.vsubus d a b nw) (lane2 d a b nw subSatU) s

/-- `vabsd` (R428): the exact absolute difference of signed values. -/
def execVabsd (d a b : Code) (nw : Bool) (s : State) : Outcome :=
  issue (.vabsd d a b nw) (lane2 d a b nw absDiff) s

/-- `vpopc` (R428). -/
def execVpopc (d a : Code) (nw : Bool) (s : State) : Outcome :=
  issue (.vpopc d a nw) (lane1 d a nw popc) s

/-- `vclz` (R428). -/
def execVclz (d a : Code) (nw : Bool) (s : State) : Outcome :=
  issue (.vclz d a nw) (lane1 d a nw clz) s

/-- `vbrev` (R428). -/
def execVbrev (d a : Code) (nw : Bool) (s : State) : Outcome :=
  issue (.vbrev d a nw) (lane1 d a nw brev) s

/-- `vbfx` (R429). -/
def execVbfx (d a b : Code) (nw : Bool) (s : State) : Outcome :=
  issue (.vbfx d a b nw) (lane2 d a b nw bitFieldExtract) s

/-- `vbfi` (R429): the field inserted into vD. -/
def execVbfi (d a b : Code) (s : State) : Outcome :=
  issue (.vbfi d a b) (fun s gid g =>
    let r := fun j => bitFieldInsert (g.vcode d.toNat j) (srcV g a j) (srcV g b j)
    .done (s.setGroup gid (writeV g d false r)) (vecLatch g r) 0 0) s

/-- `vmulw` (R428): the whole signed product, a pair. -/
def execVmulw (d a b : Code) (nw : Bool) (s : State) : Outcome :=
  issue (.vmulw d a b nw) (fun s gid g =>
    let r := fun j => sext64 (srcV g a j) * sext64 (srcV g b j)
    .done (s.setGroup gid (writeV64 g d nw r)) (vecLatch64 g r) 0 0) s

/-- `vadd64` (R428): vpA + sext64(b). -/
def execVadd64 (d a b : Code) (nw : Bool) (s : State) : Outcome :=
  issue (.vadd64 d a b nw) (lanePair d a b nw fun x y => x + sext64 y) s

/-- `vsub64` (R428): vpA - sext64(b). -/
def execVsub64 (d a b : Code) (nw : Bool) (s : State) : Outcome :=
  issue (.vsub64 d a b nw) (lanePair d a b nw fun x y => x - sext64 y) s

/-- `vshl64` (R428): vpA << b[5:0]. -/
def execVshl64 (d a b : Code) (nw : Bool) (s : State) : Outcome :=
  issue (.vshl64 d a b nw) (lanePair d a b nw fun x y => x <<< (y.toNat % 64)) s

/-- `vaddi` (R430): vA + sext(IMM12). -/
def execVaddi (d a : Code) (imm : BitVec 12) (s : State) : Outcome :=
  issue (.vaddi d a imm) (lane1 d a false fun x => x + sext32 imm) s

end Sys2Proof.Machine
end

