-- ==== Sys2Proof/Machine/ScalarAlu.lean ====
section
/-! DEFINITION. Scalar arithmetic: majors 09 to 13 (R407 to R411, R418). The forms ignore AMASK, set no flag and raise
no execution fault. -/

namespace Sys2Proof.Machine

open Bits

/-- `sD := f sA sB`. -/
def scalar2 (d a b : Code) (nw : Bool) (f : Word → Word → Word) (s : State) (gid : Nat) (g : Group) : Effect :=
  let r := f (srcS s g a) (srcS s g b)
  .done (s.setGroup gid (writeS g d nw r)) (.sca r) 0 0

/-- `sD := f sA`. -/
def scalarImm (d a : Code) (f : Word → Word) (s : State) (gid : Nat) (g : Group) : Effect :=
  let r := f (srcS s g a)
  .done (s.setGroup gid (writeS g d false r)) (.sca r) 0 0

def ofBool (b : Bool) : Word := if b then 1 else 0

/-! ### Major 09 (R408, R409) -/

/-- `sadd` (R408). -/
def execSadd (d a b : Code) (nw : Bool) (s : State) : Outcome :=
  issue (.sadd d a b nw) (scalar2 d a b nw (· + ·)) s

/-- `ssub` (R408). -/
def execSsub (d a b : Code) (nw : Bool) (s : State) : Outcome :=
  issue (.ssub d a b nw) (scalar2 d a b nw (· - ·)) s

/-- `smul` (R408): the low half. -/
def execSmul (d a b : Code) (nw : Bool) (s : State) : Outcome :=
  issue (.smul d a b nw) (scalar2 d a b nw (· * ·)) s

/-- `smulh` (R408): the high half, signed. -/
def execSmulh (d a b : Code) (nw : Bool) (s : State) : Outcome :=
  issue (.smulh d a b nw) (scalar2 d a b nw mulHigh) s

/-- `sand` (R408). -/
def execSand (d a b : Code) (nw : Bool) (s : State) : Outcome :=
  issue (.sand d a b nw) (scalar2 d a b nw (· &&& ·)) s

/-- `sor` (R408). -/
def execSor (d a b : Code) (nw : Bool) (s : State) : Outcome :=
  issue (.sor d a b nw) (scalar2 d a b nw (· ||| ·)) s

/-- `sxor` (R408). -/
def execSxor (d a b : Code) (nw : Bool) (s : State) : Outcome :=
  issue (.sxor d a b nw) (scalar2 d a b nw (· ^^^ ·)) s

/-- `sshl` (R408). -/
def execSshl (d a b : Code) (nw : Bool) (s : State) : Outcome :=
  issue (.sshl d a b nw) (scalar2 d a b nw shl) s

/-- `sshr` (R408). -/
def execSshr (d a b : Code) (nw : Bool) (s : State) : Outcome :=
  issue (.sshr d a b nw) (scalar2 d a b nw shr) s

/-- `ssra` (R408). -/
def execSsra (d a b : Code) (nw : Bool) (s : State) : Outcome :=
  issue (.ssra d a b nw) (scalar2 d a b nw sra) s

/-- `smin` (R408): signed. -/
def execSmin (d a b : Code) (nw : Bool) (s : State) : Outcome :=
  issue (.smin d a b nw) (scalar2 d a b nw minS) s

/-- `smax` (R408): signed. -/
def execSmax (d a b : Code) (nw : Bool) (s : State) : Outcome :=
  issue (.smax d a b nw) (scalar2 d a b nw maxS) s

/-- `sslt` (R408): 1 if less, signed. -/
def execSslt (d a b : Code) (nw : Bool) (s : State) : Outcome :=
  issue (.sslt d a b nw) (scalar2 d a b nw (fun x y => ofBool (x.slt y))) s

/-- `ssltu` (R408): 1 if less, unsigned. -/
def execSsltu (d a b : Code) (nw : Bool) (s : State) : Outcome :=
  issue (.ssltu d a b nw) (scalar2 d a b nw (fun x y => ofBool (x.ult y))) s

/-- `saddx` (R409): spA + sext(sB), 64 bits. -/
def execSaddx (d a b : Code) (nw : Bool) (s : State) : Outcome :=
  issue (.saddx d a b nw) (fun s gid g =>
    let r := srcSP s g a + sext64 (srcS s g b)
    .done (s.setGroup gid (writeS64 g d nw r)) (.sca64 r) 0 0) s

/-! ### Immediate forms (R410, R418) -/

/-- `saddi` (R410). -/
def execSaddi (d a : Code) (imm : BitVec 12) (s : State) : Outcome :=
  issue (.saddi d a imm) (scalarImm d a fun x => x + sext32 imm) s

/-- `sandi` (R410): zero-extended. -/
def execSandi (d a : Code) (imm : BitVec 12) (s : State) : Outcome :=
  issue (.sandi d a imm) (scalarImm d a fun x => x &&& imm.setWidth 32) s

/-- `sori` (R410): zero-extended. -/
def execSori (d a : Code) (imm : BitVec 12) (s : State) : Outcome :=
  issue (.sori d a imm) (scalarImm d a fun x => x ||| imm.setWidth 32) s

/-- `sxori` (R410): zero-extended. -/
def execSxori (d a : Code) (imm : BitVec 12) (s : State) : Outcome :=
  issue (.sxori d a imm) (scalarImm d a fun x => x ^^^ imm.setWidth 32) s

/-- `sshli` (R410). -/
def execSshli (d a : Code) (imm : BitVec 5) (s : State) : Outcome :=
  issue (.sshli d a imm) (scalarImm d a fun x => x <<< imm.toNat) s

/-- `sshri` (R410). -/
def execSshri (d a : Code) (imm : BitVec 5) (s : State) : Outcome :=
  issue (.sshri d a imm) (scalarImm d a fun x => x >>> imm.toNat) s

/-- `ssrai` (R410). -/
def execSsrai (d a : Code) (imm : BitVec 5) (s : State) : Outcome :=
  issue (.ssrai d a imm) (scalarImm d a fun x => x.sshiftRight imm.toNat) s

/-- `sslti` (R410): 1 if less, signed. -/
def execSslti (d a : Code) (imm : BitVec 12) (s : State) : Outcome :=
  issue (.sslti d a imm) (scalarImm d a fun x => ofBool (x.slt (sext32 imm))) s

/-- `sli` (R418): sext(IMM19). -/
def execSli (d : Code) (imm : BitVec 19) (s : State) : Outcome :=
  issue (.sli d imm) (fun s gid g =>
    .done (s.setGroup gid (writeS g d false (sext32 imm))) (.sca (sext32 imm)) 0 0) s

/-- `slui` (R418): IMM19 in bits 31:13, bits 12:0 kept. -/
def execSlui (d : Code) (imm : BitVec 19) (s : State) : Outcome :=
  issue (.slui d imm) (fun s gid g =>
    let r := imm ++ (g.scalar d.toNat).extractLsb' 0 13
    .done (s.setGroup gid (writeS g d false r)) (.sca r) 0 0) s

end Sys2Proof.Machine
end

