-- ==== Sys2Proof/Machine/Masks.lean ====
section
/-! DEFINITION. Mask operations: major 08 (R394 to R396). They act on all 32 bits whatever AMASK and LMASK hold. -/

namespace Sys2Proof.Machine

open Bits

/-- `mD := f mA mB`. -/
def mask2 (d a b : Code) (f : Word → Word → Word) (s : State) (gid : Nat) (g : Group) : Effect :=
  .plain (s.setGroup gid (g.setM d.toNat (f (srcMask g a) (srcMask g b))))

/-- `mand` (R394). -/
def execMand (d a b : Code) (s : State) : Outcome := issue (.mand d a b) (mask2 d a b (· &&& ·)) s

/-- `mor` (R394). -/
def execMor (d a b : Code) (s : State) : Outcome := issue (.mor d a b) (mask2 d a b (· ||| ·)) s

/-- `mxor` (R394). -/
def execMxor (d a b : Code) (s : State) : Outcome := issue (.mxor d a b) (mask2 d a b (· ^^^ ·)) s

/-- `mandn` (R394): mA & ~mB. -/
def execMandn (d a b : Code) (s : State) : Outcome :=
  issue (.mandn d a b) (mask2 d a b fun x y => x &&& ~~~y) s

/-- `mnot` (R394). -/
def execMnot (d a : Code) (s : State) : Outcome :=
  issue (.mnot d a) (fun s gid g => .plain (s.setGroup gid (g.setM d.toNat (~~~(srcMask g a))))) s

/-- `mset` (R394): a mask from a scalar. -/
def execMset (d a : Code) (s : State) : Outcome :=
  issue (.mset d a) (fun s gid g => .plain (s.setGroup gid (g.setM d.toNat (srcS s g a)))) s

/-- `mclr` (R394). -/
def execMclr (d : Code) (s : State) : Outcome :=
  issue (.mclr d) (fun s gid g => .plain (s.setGroup gid (g.setM d.toNat 0))) s

/-- `mget` (R394): a scalar from a mask. -/
def execMget (d a : Code) (nw : Bool) (s : State) : Outcome :=
  issue (.mget d a nw) (fun s gid g =>
    .done (s.setGroup gid (writeS g d nw (srcMask g a))) (.sca (srcMask g a)) 0 0) s

/-- `mcnt` (R394): the set bits of all 32. -/
def execMcnt (d a : Code) (nw : Bool) (s : State) : Outcome :=
  issue (.mcnt d a nw) (fun s gid g =>
    let r := BitVec.ofNat 32 (popcount 32 (srcMask g a).toNat)
    .done (s.setGroup gid (writeS g d nw r)) (.sca r) 0 0) s

end Sys2Proof.Machine
end

