-- ==== Sys2Proof/Machine/Control.lean ====
section
/-! DEFINITION. Control: branches (R357 to R360), jumps and calls (R364, R390, R391), loops (R77, R392, R393), the mask
stack and lane kill (R73, R74), FMT and the window (R42, R76), traps and breakpoints (R228, R229, R363), `exit` (R86,
R203), `ppt` (R401) and `nop` (R399). -/

namespace Sys2Proof.Machine

open Assoc Bits

/-! ### Branches and jumps -/

/-- A transfer that pops the loop entries which do not contain its target (R79). -/
def branchTo (g : Group) (t : DWord) : Group := { g with lstack := popLoops g.loopBase t g.lstack, pc := t }

/-- R358: to the target, or on to the next word. -/
def branch (taken : Bool) (off : BitVec 16) (s : State) (gid : Nat) (g : Group) : Effect :=
  .jump (s.setGroup gid (if taken then branchTo g (g.pc + 4 * sext64 off) else { g with pc := g.pc + 4 }))

/-- `b.cond sA`: the signed value of sA against zero. -/
def branchScalar (a : Code) (off : BitVec 16) (p : Int → Bool) (s : State) (gid : Nat) (g : Group) : Effect :=
  branch (p (srcS s g a).toInt) off s gid g

/-- `b.eq` (R358). -/
def execBEq (a : Code) (off : BitVec 16) (s : State) : Outcome :=
  issue (.b_eq a off) (branchScalar a off (· == 0)) s
/-- `b.ne` (R358). -/
def execBNe (a : Code) (off : BitVec 16) (s : State) : Outcome :=
  issue (.b_ne a off) (branchScalar a off (· != 0)) s
/-- `b.lt` (R358). -/
def execBLt (a : Code) (off : BitVec 16) (s : State) : Outcome :=
  issue (.b_lt a off) (branchScalar a off fun v => v < 0) s
/-- `b.ge` (R358). -/
def execBGe (a : Code) (off : BitVec 16) (s : State) : Outcome :=
  issue (.b_ge a off) (branchScalar a off fun v => 0 ≤ v) s
/-- `b.gt` (R358). -/
def execBGt (a : Code) (off : BitVec 16) (s : State) : Outcome :=
  issue (.b_gt a off) (branchScalar a off fun v => 0 < v) s
/-- `b.le` (R358). -/
def execBLe (a : Code) (off : BitVec 16) (s : State) : Outcome :=
  issue (.b_le a off) (branchScalar a off fun v => v ≤ 0) s

/-- `bm.cond mA`: mA restricted to the live lanes (R360). -/
def branchMask (a : Code) (off : BitVec 16) (p : Word → Word → Bool) (s : State) (gid : Nat) (g : Group) : Effect :=
  branch (p (srcMask g a &&& g.lmask) g.lmask) off s gid g

/-- `bm.any` (R360). -/
def execBmAny (a : Code) (off : BitVec 16) (s : State) : Outcome :=
  issue (.bm_any a off) (branchMask a off fun x _ => x != 0) s
/-- `bm.none` (R360). -/
def execBmNone (a : Code) (off : BitVec 16) (s : State) : Outcome :=
  issue (.bm_none a off) (branchMask a off fun x _ => x == 0) s
/-- `bm.all` (R360). -/
def execBmAll (a : Code) (off : BitVec 16) (s : State) : Outcome :=
  issue (.bm_all a off) (branchMask a off fun x l => x == l) s

/-- `j` (R390). -/
def execJ (off : BitVec 26) (s : State) : Outcome :=
  issue (.j off) (fun s gid g => .jump (s.setGroup gid (branchTo g (g.pc + 4 * sext64 off)))) s

/-- `call` (R69, R364): the link in `sp62`; no loop entry is popped. -/
def execCall (off : BitVec 26) (s : State) : Outcome :=
  issue (.call off) (fun s gid g =>
    .jump (s.setGroup gid { g.setSPair 62 (g.pc + 4) with pc := g.pc + 4 * sext64 off })) s

/-- A transfer to an address in a register (R391): ALIGN if it is misaligned (R30). -/
def jumpTo (t : DWord) (s : State) (gid : Nat) (g : Group) : Effect :=
  if t &&& 3 != 0 then .fault .align 0 t else .jump (s.setGroup gid { g with pc := t })

/-- `jr` (R391). -/
def execJr (a : Code) (s : State) : Outcome := issue (.jr a) (fun s gid g => jumpTo (srcSP s g a) s gid g) s

/-- `ret` (R391). -/
def execRet (s : State) : Outcome := issue .ret (fun s gid g => jumpTo (g.scalarPair 62) s gid g) s

/-- `loop` (R77, R392, R393). -/
def execLoop (a : Code) (end12 : BitVec 12) (s : State) : Outcome :=
  issue (.loop a end12) (fun s gid g =>
    let n := (srcS s g a).toNat
    let e := g.pc + 4 * end12.setWidth 64
    let inner := g.lstack.length > g.loopBase
    if n = 0 then
      if atLoopEnd g e then .jump (s.setGroup gid (resumeAfter g e))
      else .jump (s.setGroup gid { g with pc := e + 4 })
    else if inner && (match g.lstack with | top :: _ => top.last.ult e | [] => false) then .fault .loopend 0 0
    else if g.lstack.length = 4 then .fault .mstack 0 0
    else .jump (s.setGroup gid { g with lstack := ⟨g.pc + 4, e, n⟩ :: g.lstack, pc := g.pc + 4 })) s

/-! ### The mask stack (R73, R440) -/

/-- `vif` (R73). -/
def execVif (a : Code) (s : State) : Outcome :=
  issue (.vif a) (fun s gid g =>
    if g.mstack.length = 16 then .fault .mstack 0 0
    else .plain (s.setGroup gid { g with mstack := ⟨g.amask, g.fmt⟩ :: g.mstack, amask := g.amask &&& srcMask g a })) s

/-- `velse` (R73). -/
def execVelse (s : State) : Outcome :=
  issue .velse (fun s gid g => match g.mstack with
    | [] => .fault .mstack 0 0
    | e :: _ => .plain (s.setGroup gid
        { g with amask := e.mask &&& g.lmask &&& ~~~g.away &&& ~~~g.amask, fmt := e.fmt })) s

/-- `vendif` (R73). -/
def execVendif (s : State) : Outcome :=
  issue .vendif (fun s gid g => match g.mstack with
    | [] => .fault .mstack 0 0
    | e :: es => .plain (s.setGroup gid
        { g with mstack := es, amask := e.mask &&& g.lmask &&& ~~~g.away, fmt := e.fmt })) s

/-- `vkill` (R74, R445): the active lanes of mA die. -/
def execVkill (a : Code) (s : State) : Outcome :=
  issue (.vkill a) (fun s gid g => .plain (killLanes s gid (g.amask &&& srcMask g a))) s

/-! ### FMT and the window -/

/-- The values that the map of FMT declares reserved (R121, R381). -/
def fmtReserved (w : Word) : Bool :=
  fieldNat w 25 7 != 0 || fieldNat w 2 3 ≥ 4 || fieldNat w 19 3 ≥ 5 || fieldNat w 11 4 ≥ 7 || fieldNat w 15 4 ≥ 7

/-- `fmt` (R76, R381). -/
def execFmt (a : Code) (s : State) : Outcome :=
  issue (.fmt a) (fun s gid g =>
    if fmtReserved (srcS s g a) then .fault .rsvbit 0 0
    else .plain (s.setGroup gid { g with fmt := srcS s g a })) s

/-- `winb` (R42, R453). -/
def execWinb (a : Code) (s : State) : Outcome :=
  issue (.winb a) (fun s gid g =>
    let w := (srcS s g a).toNat
    if w % 16 ≠ 0 ∨ w ≥ g.vregs then .fault .window 0 0 else .plain (s.setGroup gid { g with wb := w })) s

/-! ### Traps, breakpoints, ends -/

/-- `trap` (R228, R422). -/
def execTrap (imm : BitVec 7) (s : State) : Outcome :=
  issue (.trap imm) (fun s _ _ => .thenTrap s .swtrap 0) s

/-- `rett` (R229, R406): ALIGN of TNEXT before anything changes. -/
def execRett (s : State) : Outcome :=
  issue .rett (fun s gid g =>
    if g.trap.tnext &&& 3 != 0 then .fault .align 0 g.trap.tnext
    else .jump (s.setGroup gid (returnFromTrap g))) s

/-- `brk` (R228, R363): with a debugger attached the group halts, else it traps BRK. -/
def execBrk (imm : BitVec 7) (s : State) : Outcome :=
  issue (.brk imm) (fun s gid g =>
    if debuggerOn s g then
      .park (report (s.setGroup gid { g with
        status := .halted none,
        trap := { g.trap with tpc := g.pc, tnext := g.pc + 4, tins := insWord (.brk imm) } }) (.halt gid))
    else .thenTrap s .brk 0) s

/-- `nop` (R399). -/
def execNop (s : State) : Outcome := issue .nop (fun s _ _ => .plain s) s

/-- `exit` (R86, R203, R206, R376): a home group retires, or parks until it may; every live lane of a migrant returns as
finished and the migrant retires. -/
def execExit (s : State) : Outcome :=
  issue .exit (fun s gid g =>
    if isMigrant g then (if !quiet g then .stall else .gone (retire (sendReturns s g 2 (lanesOf g.lmask)) gid))
    else .gone (endGroup (s.setGroup gid { g with ins := insWord .exit }) gid)) s

/-- A PREEMPT of the group's launch is in progress (R234). -/
def preempting (s : State) (g : Group) : Bool :=
  match s.launch? g.launch with
  | some l => l.phase == .preempting && l.preempt.isSome
  | none => false

/-- A pre-emption of the group's launch is in progress and reaches this group (R234, R295): pixel groups are never
saved. A group whose save failed runs on (R239). -/
def preemptDue (s : State) (gid : Nat) (g : Group) : Bool :=
  !isMigrant g && !isPixel g &&
    match s.launch? g.launch with
    | some l => match l.preempt with | some p => l.phase == .preempting && !p.failed.contains gid | none => false
    | none => false

/-- A frequency change holds the group's die (R111). -/
def vfHolds (s : State) (g : Group) : Bool := !(s.dieAt (dieOfCore g.core)).vfs.isEmpty

/-- `ppt` (R235, R401). -/
def execPpt (imm : BitVec 19) (s : State) : Outcome :=
  issue (.ppt imm) (fun s gid g =>
    if isMigrant g then .plain s
    else if preemptDue s gid g then
      .park (s.setGroup gid { g with
        status := .parked (.save (some imm.toNat)), trap := { g.trap with tnext := g.pc + 4 } })
    else if vfHolds s g then .park (s.setGroup gid { g with status := .parked .transition })
    else .plain s) s

end Sys2Proof.Machine
end

