-- ==== Sys2Proof/Machine/Buffers.lean ====
section
/-! DEFINITION. Circular buffers: the descriptors and their control window (R137, R139, R140), `cbget` and `cbput`
(R141, R142, R365, R366). -/

namespace Sys2Proof.Machine

open Assoc Bits

/-! ### Descriptors (R139, R140) -/

/-- The 16 bytes of a descriptor, as a number. -/
def cbWord (c : CbDesc) : Nat :=
  c.base.toNat + (if c.en then 2 ^ 31 else 0) + c.slotsz.toNat * 2 ^ 32 + c.nslot.toNat * 2 ^ 40 + c.pidx * 2 ^ 64 +
  c.cidx * 2 ^ 72 + c.free * 2 ^ 80 + c.filled * 2 ^ 88

/-- A number with `size` bytes from byte `off` replaced. -/
def replaceBytes (old off size v : Nat) : Nat :=
  old % 2 ^ (8 * off) + v % 2 ^ (8 * size) * 2 ^ (8 * off) + old / 2 ^ (8 * (off + size)) * 2 ^ (8 * (off + size))

/-- The descriptor as a write leaves it, before what EN does; the counters are read-only. -/
def cbMerge (c : CbDesc) (w : Nat) : CbDesc :=
  { c with base := BitVec.ofNat 21 w, slotsz := BitVec.ofNat 8 (w / 2 ^ 32), nslot := BitVec.ofNat 8 (w / 2 ^ 40),
           en := w / 2 ^ 31 % 2 == 1 }

/-- Bytes of a slot. -/
def slotBytes (c : CbDesc) : Nat := (c.slotsz.toNat + 1) * 128

/-- The conditions under which a write by a block raises CBBAD. -/
def cbWriteBad (c : CbDesc) (bid spad w : Nat) : Bool :=
  let n := cbMerge c w
  (c.en && c.owner != bid) || w / 2 ^ 21 % 2 ^ 10 != 0 || w / 2 ^ 48 % 2 ^ 16 != 0 || w / 2 ^ 96 != 0 ||
  (n.en && (n.nslot == 0 || n.nslot.toNat > 128 || n.base.toNat + n.nslot.toNat * slotBytes n > spad))

/-- A descriptor enabled: its owner and its counters (R140). -/
def cbEnable (c : CbDesc) (bid : Nat) : CbDesc :=
  { c with owner := bid, free := c.nslot.toNat, filled := 0, pidx := 0, cidx := 0 }

/-- A store by a block to descriptor `n` of a cluster; none where it raises CBBAD. -/
def cbStore (s : State) (cl bid n off size v : Nat) : Option State :=
  let k := s.clusterAt cl
  let c := get CbDesc.reset k.cbs n
  let w := replaceBytes (cbWord c) off size v
  let spad := match s.block? bid with | some b => b.spad | none => 0
  if cbWriteBad c bid spad w then none
  else
    let c' := cbMerge c w
    if c'.en then
      let c' := if c.en then c' else cbEnable c' bid
      some (s.setCluster cl { k with cbs := put CbDesc.reset k.cbs n c' })
    else some (cbDisable (s.setCluster cl { k with cbs := put CbDesc.reset k.cbs n c' }) cl n)

/-- What a load of a descriptor returns. -/
def cbLoad (s : State) (cl n off size : Nat) : Nat :=
  cbWord (get CbDesc.reset (s.clusterAt cl).cbs n) / 2 ^ (8 * off) % 2 ^ (8 * size)

/-- The address of a byte of the control window (R137). -/
def cbAddr (n off : Nat) : DWord := BitVec.ofNat 64 (0xFFFFFF8000000000 + 16 * n + off)

/-- The word at the PC of a group, or the one that issued last where it cannot be fetched. -/
def wordAtPc (s : State) (g : Group) : Word := match fetchAt s g g.pc with | .ok (w, _) => w | .error _ => g.ins

/-- CB_DESCRIPTOR_WRITE (R140): the group that executes stores `size` bytes of a descriptor of its cluster. -/
def execCbDescriptorWrite (n off size : Nat) (v : DWord) (s : State) : Outcome :=
  match s.group? s.cur with
  | none => .next s
  | some g =>
    if g.status != .ready || (s.coreAt g.core).scanning then .next s
    else match cbStore s (clusterOfCore g.core) g.block n off size v.toNat with
      | some s' => .next s'
      | none => .next (raise s s.cur g false .cbbad 0 (cbAddr n off) (wordAtPc s g))

/-! ### Slots (R141 to R143) -/

/-- A buffer identifier that R141 admits, in a home group. -/
def cbIdOk (g : Group) (a : Word) : Bool := !isMigrant g && fieldNat a 8 24 == 0 && !bit a 6
def cbIdDesc (a : Word) : Nat := fieldNat a 0 6
def cbIdProd (a : Word) : Bool := bit a 7

/-- The group waits its turn at a buffer. -/
def cbPark (g : Group) (d n : Nat) (prod : Bool) : Group := { g with status := .parked (.cbget d n prod) }

/-- `cbget` on the shaft (R142): the FIFO of the role. -/
def shaftGet (d : Nat) (prod : Bool) (s : State) (gid : Nat) (g : Group) : Effect :=
  let fc := fifoOf g.core prod
  let k := s.coreAt fc
  if prod && k.oos then .fault .cbbad 0 0
  else if shaftCount k.inbound prod = 0 then
    .park ((s.setCore fc { k with inbound := { k.inbound with waiters := k.inbound.waiters ++ [(gid, prod)] } }).setGroup
      gid (cbPark g d 63 prod))
  else
    let r := shaftAcquire k.inbound prod
    .plain ((s.setCore fc { k with inbound := r.1 }).setGroup gid (cbReceive s g d 63 prod r.2))

/-- `cbget` on a descriptor of the cluster. -/
def bufferGet (d n : Nat) (prod : Bool) (s : State) (gid : Nat) (g : Group) : Effect :=
  let cl := clusterOfCore g.core
  let k := s.clusterAt cl
  let c := get CbDesc.reset k.cbs n
  if !c.en then .fault .cbbad 0 0
  else if cbCount c prod = 0 then
    .park ((s.setCluster cl { k with
      cbs := put CbDesc.reset k.cbs n { c with waiters := c.waiters ++ [(gid, prod)] } }).setGroup gid (cbPark g d n prod))
  else
    let r := cbAcquire c prod
    .plain ((s.setCluster cl { k with cbs := put CbDesc.reset k.cbs n r.1 }).setGroup gid (cbReceive s g d n prod r.2))

/-- `cbget` (R141): a slot acquired, or the group parks until one comes free. -/
def execCbget (d a : Code) (s : State) : Outcome :=
  issue (.cbget d a) (fun s gid g =>
    let id := srcS s g a
    if !cbIdOk g id then .fault .cbbad 0 0
    else if cbIdDesc id = 63 then shaftGet d.toNat (cbIdProd id) s gid g
    else bufferGet d.toNat (cbIdDesc id) (cbIdProd id) s gid g) s

/-- `cbput` (R141): the oldest slot that the group holds in the role, released over every stream. -/
def execCbput (a : Code) (s : State) : Outcome :=
  issue (.cbput a) (fun s gid g =>
    let id := srcS s g a
    match g.held.find? fun h => h.desc == cbIdDesc id && h.prod == cbIdProd id with
    | none => .fault .cbbad 0 0
    | some h =>
      if !cbIdOk g id then .fault .cbbad 0 0
      else if !quiet g then .stall
      else .plain (cbRelease (s.setGroup gid { g with held := g.held.erase h }) g.core h)) s

end Sys2Proof.Machine
end

