-- ==== Sys2Proof/Machine/Trans.lean ====
section
/-! DEFINITION. Correctly rounded 2^a, log2 a, sin(πa) and cos(πa) (R442) for f32, f16 and bf16. Exact results are told
apart first; any other is irrational, and its value on a grid of 2^-640 lies far nearer than any rounding boundary of
these formats can. -/

namespace Sys2Proof.Machine.Float

open Bits

/-- Fraction bits of the grid. -/
def gridBits : Nat := 640
/-- 1 on the grid. -/
def one : Nat := 2 ^ gridBits
def gmul (a b : Nat) : Nat := a * b / one

/-- term + term x / (k+1) + term x² / ((k+1)(k+2)) + … , n terms. -/
def expGo (x : Nat) : Nat → Nat → Nat → Nat
  | 0, _, _ => 0
  | n + 1, k, term => term + expGo x n (k + 1) (gmul term x / (k + 1))

/-- e^x for 0 ≤ x < 1. -/
def expGrid (x : Nat) : Nat := expGo x 140 0 one

/-- The alternating sine series: positive terms less negative ones. -/
def sinGo (x2 : Nat) : Nat → Nat → Nat → Int
  | 0, _, _ => 0
  | n + 1, k, term => (term : Int) - sinGo x2 n (k + 2) (gmul term x2 / ((k + 1) * (k + 2)))

/-- sin x for 0 ≤ x < 2. -/
def sinGrid (x : Nat) : Nat := (sinGo (gmul x x) 80 1 x).toNat

/-- pw / k + pw z² / (k+2) + … , n terms; `alt`: with alternating signs. -/
def atanGo (alt : Bool) (z2 : Nat) : Nat → Nat → Nat → Int
  | 0, _, _ => 0
  | n + 1, k, pw =>
    let rest := atanGo alt z2 n (k + 2) (gmul pw z2)
    ((pw / k : Nat) : Int) + if alt then -rest else rest

/-- artanh z and arctan z for 0 ≤ z ≤ 1/3. -/
def atanhGrid (z : Nat) : Nat := (atanGo false (gmul z z) 210 1 z).toNat
def atanGrid (z : Nat) : Nat := (atanGo true (gmul z z) 210 1 z).toNat

/-- ln 2 and π. -/
def ln2Grid : Nat := 2 * atanhGrid (one / 3)
def piGrid : Nat := 16 * atanGrid (one / 5) - 4 * atanGrid (one / 239)

/-- An irrational magnitude x * 2^k, x on the grid, rounded. -/
def roundGrid (f : Fmt) (rm : Rm) (neg : Bool) (x : Nat) (k : Int) : Res :=
  roundMag f rm neg (x * 2 ^ k.toNat) (one * 2 ^ (-k).toNat) true

/-- The value of a dyadic on the grid, floor; exact where its exponent is at least -640. -/
def Dyad.onGrid (a : Dyad) : Nat := a.num.natAbs * one / a.den

/-- 2^a of a finite value: the exponent is clamped far outside every format's range. -/
def exp2Val (f : Fmt) (rm : Rm) (a : Dyad) : Res :=
  let n := max (-2000) (min 2000 a.floor)
  let r := a.add (Dyad.ofInt n).negate
  if a.v ≠ 0 ∧ a.floor ≠ n then roundGrid f rm false (one + 1) n
  else if r.v = 0 then roundDyad f rm false ⟨1, n⟩
  else roundGrid f rm false (expGrid (gmul r.onGrid ln2Grid)) n

/-- `vfex2`. -/
def fex2 (v : Env) (a : Nat) : Res :=
  let a := v.rd a
  match nanOf v.f [a] with
  | some r => r
  | none => match unpack v.f a with
    | .inf n => ⟨if n then 0 else v.f.infBits, 0⟩
    | x => v.wr (exp2Val v.f v.rm x.dyad)

/-- log2 of a positive value: its leading exponent, and the rest in [1, 2). -/
def log2Val (f : Fmt) (rm : Rm) (a : Dyad) : Res :=
  let n := a.v.natAbs
  let lead := n.log2
  let e : Int := a.e + lead
  if n = 2 ^ lead then roundDyad f rm false (Dyad.ofInt e)
  else
    let x := n * one / 2 ^ lead
    let l := 2 * atanhGrid ((x - one) * one / (x + one))
    let t : Int := e * one + (l * one / ln2Grid : Nat)
    roundGrid f rm (t < 0) t.natAbs 0

/-- `vflg2`. -/
def flg2 (v : Env) (a : Nat) : Res :=
  let a := v.rd a
  match nanOf v.f [a] with
  | some r => r
  | none =>
    let x := unpack v.f a
    if x.isZero then ⟨signed v.f true v.f.infBits, fDZ⟩ else if x.neg then invalid v.f else
      match x with
      | .inf _ => ⟨v.f.infBits, 0⟩
      | x => v.wr (log2Val v.f v.rm x.dyad)

/-- |a| mod 2 on the grid. -/
def modTwo (a : Dyad) : Nat := a.onGrid % (2 * one)

/-- sin(πx) for 0 < x ≤ 1/2 on the grid, rounded. -/
def sinPi (f : Fmt) (rm : Rm) (neg : Bool) (x : Nat) : Res :=
  if 2 * x = one then roundDyad f rm neg ⟨if neg then -1 else 1, 0⟩
  else roundGrid f rm neg (sinGrid (gmul x piGrid)) 0

/-- `vfsin`: sin(π a). -/
def fsin (v : Env) (a : Nat) : Res :=
  let a := v.rd a
  match nanOf v.f [a] with
  | some r => r
  | none => match unpack v.f a with
    | .inf _ => invalid v.f
    | x =>
      let r := modTwo x.dyad
      let neg := x.neg != decide (r > one)
      let r := if r > one then r - one else r
      let r := if 2 * r > one then one - r else r
      if r = 0 then ⟨signed v.f x.neg 0, 0⟩ else v.wr (sinPi v.f v.rm neg r)

/-- `vfcos`: cos(π a). -/
def fcos (v : Env) (a : Nat) : Res :=
  let a := v.rd a
  match nanOf v.f [a] with
  | some r => r
  | none => match unpack v.f a with
    | .inf _ => invalid v.f
    | x =>
      let r := modTwo x.dyad
      let r := if r > one then 2 * one - r else r
      if 2 * r = one then ⟨0, 0⟩
      else if 2 * r > one then v.wr (sinPi v.f v.rm true (r - one / 2))
      else v.wr (sinPi v.f v.rm false (one / 2 - r))

end Sys2Proof.Machine.Float
end

