-- ==== Sys2Proof/Machine/Flags.lean ====
section
/-! DEFINITION. Float operands and results under FMT (R117, R121), the sticky flags (R127) and the enabled exceptions
(R128) that a float form leaves. -/

namespace Sys2Proof.Machine

open Bits Sys2Proof.Machine.Float

/-! ### FMT -/

def fmtRm (fmt : Word) : Rm := rmOf (fieldNat fmt 2 3)
def fmtDz (fmt : Word) : Bool := bit fmt 5

/-- The type of a vector float instruction. -/
def vfFmt (fmt : Word) : Fmt := match vfOf fmt with | 0 => f32 | 1 => f16 | 2 => bf16 | _ => f64

/-- What FMT gives a vector float instruction. -/
def envOf (fmt : Word) : Env := ⟨vfFmt fmt, fmtRm fmt, fmtDz fmt⟩

/-- The same without flush, for the sums of R132. -/
def envKeep (fmt : Word) : Env := { envOf fmt with dz := false }

/-- FMT.TE, in the order of `fst`. -/
def trapEnables (fmt : Word) : BitVec 5 := field fmt 6 5

/-! ### Elements -/

/-- The element that lane j of a float operand holds: a pair under f64. -/
def fpSrc (g : Group) (c : Code) (j : Nat) : Nat :=
  if vfOf g.fmt = 3 then (srcVP g c j).toNat else (srcV g c j).toNat

/-- An operation on elements: once, or on each half of packed elements (R117). -/
def packed (fmt : Word) (op : Env → List Nat → Res) (v : Env) (xs : List Nat) : Res :=
  if vfOf fmt = 0 ∨ vfOf fmt = 3 then op v xs
  else
    let l := op v (xs.map (· % 65536))
    let h := op v (xs.map (· / 65536))
    ⟨h.w * 65536 + l.w, h.fl ||| l.fl⟩

def op1 (f : Env → Nat → Res) (v : Env) : List Nat → Res
  | [a] => f v a
  | _ => ⟨0, 0⟩
def op2 (f : Env → Nat → Nat → Res) (v : Env) : List Nat → Res
  | [a, b] => f v a b
  | _ => ⟨0, 0⟩
def op3 (f : Env → Nat → Nat → Nat → Res) (v : Env) : List Nat → Res
  | [a, b, c] => f v a b c
  | _ => ⟨0, 0⟩

/-! ### Flags -/

/-- Flags ORed into `fst` (R127). -/
def mergeFst (g : Group) (fl : BitVec 5) : Group := { g with fst := g.fst ||| fl }

/-- All flags raised by the lanes of a list. -/
def flagsOf (js : List Nat) (r : Nat → Flags) : Flags := js.foldl (fun a j => a ||| r j) 0

/-- The lanes of a list that raised an enabled exception. -/
def enabledLanes (fmt : Word) (js : List Nat) (r : Nat → Flags) : Word :=
  maskOf (js.filter fun j => r j &&& trapEnables fmt != 0)

/-- What a form leaves that computes flags by lane: `g'` holds its results. -/
def laneFlags (s : State) (gid : Nat) (g g' : Group) (l : Latch) (r : Nat → Flags) : Effect :=
  let fl := flagsOf g.activeLanes r
  .done (s.setGroup gid (mergeFst g' fl)) l (fl &&& trapEnables g.fmt) (enabledLanes g.fmt g.activeLanes r)

/-- The same where the flags belong to no lane: TLANES is AMASK (R435). -/
def groupFlags (s : State) (gid : Nat) (g g' : Group) (l : Latch) (fl : Flags) : Effect :=
  .done (s.setGroup gid (mergeFst g' fl)) l (fl &&& trapEnables g.fmt) g.amask

/-- A vector result by lane: a word each, or a pair each. -/
def floatResult (s : State) (gid : Nat) (g : Group) (d : Code) (nw pair : Bool) (r : Nat → Res) : Effect :=
  if pair then
    let f := fun j => BitVec.ofNat 64 (r j).w
    laneFlags s gid g (writeV64 g d nw f) (vecLatch64 g f) fun j => (r j).fl
  else
    let f := fun j => BitVec.ofNat 32 (r j).w
    laneFlags s gid g (writeV g d nw f) (vecLatch g f) fun j => (r j).fl

end Sys2Proof.Machine
end

