-- ==== Sys2Proof/Machine/Formats.lean ====
section
/-! DEFINITION. Pixel formats and their components (R283, R299), and what the texels of a sample come to (R303, R425). -/

namespace Sys2Proof.Machine

open Assoc Bits Sys2Proof.Machine.Float

/-! ### Formats (R283) -/

/-- How a component is coded. -/
inductive CompKind where
  | unorm (n : Nat)
  | float (f : Fmt)
  deriving DecidableEq, Repr

/-- A component of a pixel: its lowest bit and its code. -/
structure Comp where
  lo : Nat
  kind : CompKind
  deriving DecidableEq, Repr

def compBits (c : Comp) : Nat := match c.kind with | .unorm n => n | .float f => f.bits

/-- n components of one float format. -/
def floatComps (f : Fmt) (n : Nat) : List Comp := (List.range n).map fun c => ⟨f.bits * c, .float f⟩

/-- The components of a format, in the order R, G, B, A; depth formats have one. -/
def compsOf (fmt : Nat) : List Comp :=
  match fmt with
  | 0 => (List.range 4).map fun c => ⟨8 * c, .unorm 8⟩
  | 1 => [⟨0, .unorm 10⟩, ⟨10, .unorm 10⟩, ⟨20, .unorm 10⟩, ⟨30, .unorm 2⟩]
  | 2 => floatComps f16 2
  | 3 => floatComps f16 4
  | 4 => floatComps f32 1
  | 5 => floatComps bf16 2
  | 6 => floatComps bf16 4
  | 7 => floatComps e4m3 4
  | 8 => floatComps e5m2 4
  | 9 => floatComps f32 1
  | 10 => [⟨0, .unorm 16⟩]
  | _ => []

def isDepthFmt (fmt : Nat) : Bool := fmt == 9 || fmt == 10
def hasAlpha (fmt : Nat) : Bool := (compsOf fmt).length == 4

/-- The bits of a component in a pixel. -/
def compRaw (c : Comp) (pixel : Nat) : Nat := pixel / 2 ^ c.lo % 2 ^ compBits c

/-- A component as a float of a wider format, RNE (R283, R299). -/
def compAs (f : Fmt) (c : Comp) (pixel : Nat) : Nat :=
  match c.kind with
  | .unorm n => (roundQuo f .rne false (compRaw c pixel) (2 ^ n - 1)).w
  | .float src => if src = f then compRaw c pixel else (cvtFF src f .rne (compRaw c pixel)).w

/-- An f32 as a unorm of n bits: clamped, scaled, ties to even; a NaN gives 0 (R299). -/
def toUnorm (n w : Nat) : Nat :=
  match unpack f32 w with
  | .nan .. => 0
  | .inf neg => if neg then 0 else 2 ^ n - 1
  | .fin neg m e =>
    if neg then 0
    else min (2 ^ n - 1) (roundInt .rne ((Val.fin neg m e).dyad.mul (Dyad.ofInt (2 ^ n - 1)))).1.toNat

/-- An f32 as the bits of a component (R299); a float component quiets a signalling NaN (R130). -/
def compFrom (c : Comp) (w : Nat) : Nat :=
  match c.kind with
  | .unorm n => toUnorm n w
  | .float f =>
    if f ≠ f32 then (cvtFF f32 f .rne w).w else if (unpack f32 w).isNan then Float.quiet f32 w else w

/-- A component replaced in a pixel. -/
def setComp (c : Comp) (pixel v : Nat) : Nat := pixel - compRaw c pixel * 2 ^ c.lo + v % 2 ^ compBits c * 2 ^ c.lo

/-! ### Samples (R303, R425) -/

/-- Component c of a texel as f32: missing G and B read 0, a missing A reads 1. -/
def texelComp (fmt pixel c : Nat) : Nat :=
  match (compsOf fmt)[c]? with
  | some cp => compAs f32 cp pixel
  | none => if c = 3 then 0x3F800000 else 0

/-- A weighted sum of f32 values, weights in 1/65536 (R425). -/
def weighted (ts : List (Nat × Nat)) : Nat :=
  let ts := ts.filter fun t => t.2 != 0
  let vs := ts.map fun t => unpack f32 t.1
  if vs.any Val.isNan then f32.nanBits
  else
    let pos := vs.contains (.inf false)
    let neg := vs.contains (.inf true)
    if pos && neg then f32.nanBits
    else if pos || neg then signed f32 neg f32.infBits
    else (roundDyad f32 .rne false (ts.foldl (fun a t =>
      a.add ((unpack f32 t.1).dyad.mul ⟨t.2, -16⟩)) ⟨0, 0⟩)).w

/-- Component c of a sample of some texels, given as pixel bits: the one texel itself under NEAREST, a NaN as the canonical
one (R425), else the weighted sum. -/
def sampleComp (t : TexelPart) (ps : List Nat) (c : Nat) : Nat :=
  let vs := ps.map fun p => texelComp t.fmt p c
  match t.weights with
  | none => match vs with
    | v :: _ => if (unpack f32 v).isNan then f32.nanBits else v
    | [] => 0
  | some ws => weighted (vs.zip ws)

/-- The four components of a sample whose texels are given as bytes, n each. -/
def sampleWords (t : TexelPart) (n : Nat) (bs : List Byte) : List Word :=
  let ps := (List.range (bs.length / n)).map fun i => natOfBytes ((bs.drop (n * i)).take n)
  (List.range 4).map fun c => BitVec.ofNat 32 (sampleComp t ps c)

end Sys2Proof.Machine
end

