-- ==== Sys2Proof/Machine/Access.lean ====
section
/-! DEFINITION. Making accesses: lane faults (R152), loads and stores with the order they keep while they are
outstanding and what they follow (R166 to R186; log 4), and what an uncorrectable value does (R230, R231). -/

namespace Sys2Proof.Machine

open Assoc Bits

/-! ### Lane checks (R152) -/

/-- A fault of an access: cause and address. -/
structure AccFault where
  cause : Cause
  addr : DWord
  deriving DecidableEq, Repr

/-- The address must be a multiple of the size, then it is steered and translated. -/
def checkedHit (s : State) (ag : Agent) (acc : Access) (va : DWord) (size : Nat) : Except AccFault Hit :=
  if va.toNat % size ≠ 0 then .error ⟨.align, va⟩
  else match resolve s ag acc va size with
    | .error c => .error ⟨c, va⟩
    | .ok h => .ok h

/-- Lanes with their results; R152 if any failed: the cause of the lowest, every lane with that cause, its address. -/
def joinLanes (rs : List (Nat × Except AccFault Hit)) : Except (AccFault × Word) (List (Nat × Hit)) :=
  let bad := rs.filterMap fun e => match e.2 with | .error f => some (e.1, f) | .ok _ => none
  match bad with
  | [] => .ok (rs.filterMap fun e => match e.2 with | .ok h => some (e.1, h) | .error _ => none)
  | (_, f) :: _ => .error (f, maskOf ((bad.filter fun e => e.2.cause == f.cause).map (·.1)))

/-- The address of lane j (R162): a full address under A = `zero`, else base plus offset. -/
def laneAddr (s : State) (g : Group) (a b : Code) (j : Nat) : DWord :=
  if a.toNat = 64 then srcVP g b j else srcSP s g a + sext64 (srcV g b j)

/-- Every active lane checked on its own. -/
def laneHits (s : State) (g : Group) (acc : Access) (size : Nat) (addr : Nat → DWord) :
    Except (AccFault × Word) (List (Nat × Hit)) :=
  joinLanes (g.activeLanes.map fun j => (j, checkedHit s (agentOf s g (some j)) acc (addr j) size))

def laneFault (f : AccFault × Word) : Effect := .fault f.1.cause f.2 f.1.addr

/-! ### Order of outstanding accesses (R171 to R182, R314) -/

def overlaps (xs ys : List Nat) : Bool := xs.any ys.contains

/-- Two lists of places share a byte, wherever the homes are now. -/
def sameBytes (s : State) (ps qs : List Nat) : Bool := overlaps (ps.map (homeOf s)) (qs.map (homeOf s))

def loadPlaces (l : PendLoad) : List Nat := l.parts.flatMap (·.places)
def storePlaces (w : PendStore) : List Nat := w.bytes.map (·.1)

/-- The other packages that places lie in. -/
def packagesOf (ps : List Nat) : List Nat := (ps.filter fun p => 2 ^ 70 ≤ p && p < 2 ^ 90).map fun p => (p - 2 ^ 70) / 2 ^ 46

/-- Stores that are dirty in the L1 of a core (R144). -/
def dirtyOn (s : State) (core : Nat) : List (Nat × PendStore) :=
  (residentOn s core).flatMap fun e => (e.2.wbuf.filter (·.dirty)).map (e.1, ·)

/-- An outstanding store is ordered before later accesses of a stream. -/
def follows (w : PendStore) (st : Nat) : Bool := w.stream == st || w.takenBy st || w.joined

/-- A fence that is not complete holds accesses of the stream back (R178, R179). -/
def fenceHolds (g : Group) (st : Nat) : Bool := g.fences.any fun f => bit f.streams st

/-- An earlier store or atomic of the stream to a package that the access goes to is outstanding (R314). -/
def fabricHolds (g : Group) (st : Nat) (ps : List Nat) : Bool :=
  !(packagesOf ps).isEmpty &&
  (g.wbuf.any (fun w => w.stream == st && overlaps (packagesOf (storePlaces w)) (packagesOf ps)) ||
    g.loads.any fun l => l.stream == st && overlaps (packagesOf (loadPlaces l)) (packagesOf ps))

/-- What holds any access of a stream back: a slot, a fence, the order towards a package. -/
def accessHeld (s : State) (g : Group) (st : Nat) (ps : List Nat) : Bool :=
  requestsFull s g || fenceHolds g st || fabricHolds g st ps

/-- An outstanding load comes before a later one of a stream: unless it is an atomic, which no stream orders (R172). -/
def loadFirst (l : PendLoad) (st : Nat) : Bool := l.stream == st && !isAtomic l

/-- An acquire waits for the group's outstanding stores of its bytes, and for releases whose value its stream has read, so
that all of them precede it in T (R175). -/
def acquireWaits (s : State) (g : Group) (st : Nat) (ps : List Nat) : Bool :=
  g.wbuf.any (fun w => w.known && sameBytes s (storePlaces w) ps || w.release && w.takenBy st) ||
  g.ahead.any fun a => ps.contains a.place

/-- A load waits for earlier loads of its stream or of its bytes; it takes the group's own outstanding bytes from where they
are. -/
def loadWaits (s : State) (g : Group) (st : Nat) (acquire : Bool) (ps : List Nat) : Bool :=
  accessHeld s g st ps || (g.loads.any fun l => loadFirst l st || sameBytes s (loadPlaces l) ps) ||
  acquire && acquireWaits s g st ps

/-- A store waits for every earlier load and atomic (R180), for earlier stores that it follows or that have its bytes, and
for dirty data of the core's L1 at its bytes, which it would overtake. -/
def storeWaits (s : State) (g : Group) (st : Nat) (ps : List Nat) : Bool :=
  accessHeld s g st ps || !g.loads.isEmpty || (g.wbuf.any fun w => follows w st || w.known && sameBytes s (storePlaces w) ps) ||
  (g.ahead.any fun a => a.stream == st || ps.contains a.place) ||
  (dirtyOn s g.core).any fun e => overlaps (storePlaces e.2) ps

/-- An atomic waits for every earlier load and atomic, for earlier stores of its bytes, and for stores whose value the
stream has read. -/
def atomicWaits (s : State) (g : Group) (st : Nat) (ps : List Nat) : Bool :=
  accessHeld s g st ps || !g.loads.isEmpty ||
  (g.wbuf.any fun w => w.takenBy st || w.joined || w.known && sameBytes s (storePlaces w) ps) ||
  g.ahead.any fun a => a.stream == st || ps.contains a.place

/-- The scope code of a stream, as R169 numbers them (R167). -/
def streamScope (g : Group) (st : Nat) : Nat := (get 0 g.sattr st).toNat % 4 + 1

/-- The policy of an access: the less-caching of the leaf's and the stream's (R144); none for data that no cache holds. -/
def policyOf (g : Group) (st : Nat) (h : Hit) : Option Nat := h.cp.map fun c => max c ((get 0 g.sattr st).toNat / 4)

/-! ### Reading -/

/-- The byte that the group's own outstanding stores give a place, or writes that it has joined, the latest first. -/
def ownByte (s : State) (g : Group) (p : Nat) : Option Byte :=
  (g.wbuf.filter (·.known)).reverse.findSome? fun w => (w.bytes.reverse.find? fun e => homeOf s e.1 == homeOf s p).map (·.2)

/-- A byte as the group reads it at its home (R171), and whether it is uncorrectable. -/
def readOwn (s : State) (g : Group) (p : Nat) : Byte × Bool :=
  match ownByte s g p with
  | some b => (b, false)
  | none => (readByte s (homeOf s p), isBad s (homeOf s p))

/-- A load that hits dirty lines of the L1: none takes them that is strong, or that is asked to take what is older. -/
def hitsDirty (l : PendLoad) (p : LoadPart) : Bool :=
  !l.old && !l.acquire && p.atom.isNone && match p.cp with | some c => decide (c ≤ 1) | none => false

/-- The store of a group of the core, dirty in the L1, that gives a place to a load (R144): one that the load hits, or one
that the group has read before (R171). -/
def dirtyFor (s : State) (g : Group) (l : PendLoad) (p : LoadPart) (x : Nat) : Option (Nat × PendStore) :=
  (dirtyOn s g.core).find? fun e => e.2.bytes.any (·.1 == x) &&
    (hitsDirty l p || g.ahead.any fun a => a.owner == e.1 && a.place == x)

/-- The old byte of a line that a copy holds. -/
def oldByte (c : L1Copy) (off : Nat) : Option OldByte := c.olds.find? (·.off == off)

/-- A missed write that precedes the reader's access in the causal order (R173, R185). -/
def known (gid : Nat) (g : Group) (st n : Nat) : Bool :=
  let v := viewAt g st
  (v.seen ++ v.held ++ v.mine).any fun e => e.2 == n && audHas e.1 gid g.core

/-- The copy from which the load may take old bytes: of its core and line, all whose missed writes of those bytes the
reader has not seen. -/
def oldCopy (s : State) (gid : Nat) (g : Group) (l : PendLoad) (p : LoadPart) : Option L1Copy :=
  let locs := p.places.map (homeOf s)
  match p.cp, locs with
  | some c, x :: _ =>
    if !l.old || l.acquire || 2 ≤ c then none
    else (copyAt s g.core (x / 128)).filter fun k => locs.all fun y =>
      ((oldByte k (y % 128)).map fun o => o.missed.all fun n => !known gid g l.stream n).getD true
  | _, _ => none

/-- A byte of a load: the group's own, one that is dirty in the L1, an old one, or that of the home. -/
def loadByte (s : State) (g : Group) (l : PendLoad) (p : LoadPart) (c : Option L1Copy) (x : Nat) : Byte × Bool :=
  match ownByte s g x, dirtyFor s g l p x, c.bind fun c => oldByte c (homeOf s x % 128) with
  | none, some e, _ => (((e.2.bytes.reverse.find? (·.1 == x)).map (·.2)).getD 0, false)
  | none, none, some o => (o.byte, false)
  | _, _, _ => readOwn s g x

/-- A little-endian value of some bytes, extended. -/
def extendBytes (signed : Bool) (bs : List Byte) : DWord :=
  let n := natOfBytes bs
  let size := 8 * bs.length
  if signed && 0 < size && 2 ^ (size - 1) ≤ n then BitVec.ofInt 64 ((n : Int) - 2 ^ size) else BitVec.ofNat 64 n

/-- The bytes of one part of a load, and which are uncorrectable. -/
def partBytes (s : State) (gid : Nat) (g : Group) (l : PendLoad) (p : LoadPart) : List (Byte × Bool) :=
  p.places.map (loadByte s g l p (oldCopy s gid g l p))

/-- The value of a load of one lane or scalar, extended; and whether a byte is uncorrectable. -/
def partValue (s : State) (gid : Nat) (g : Group) (l : PendLoad) (p : LoadPart) : DWord × Bool :=
  match p.known with
  | some w => (w, false)
  | none =>
    let bs := partBytes s gid g l p
    (extendBytes p.signed (bs.map (·.1)), bs.any (·.2))

/-- The words that a part of a load writes from its register on: one, a pair, or the components of a sample. -/
def partWords (s : State) (gid : Nat) (g : Group) (l : PendLoad) (p : LoadPart) : List Word × Bool :=
  let v := partValue s gid g l p
  match p.texel with
  | some t => (if p.known.isSome then List.replicate 4 0
      else sampleWords t (pixelBytes t.fmt) ((partBytes s gid g l p).map (·.1)), v.2)
  | none => (if l.pair then [lo32 v.1, hi32 v.1] else [lo32 v.1], v.2)

/-- What a read of a line at its home leaves: the L1 copy of its core renewed, or made where the policy allocates; the line
in the LLC; and what its reader follows. -/
def readLine (s : State) (gid core : Nat) (l : PendLoad) (cp : Option Nat) (line : Nat) : State :=
  let s := match cp with
    | some 3 | none => s
    | some _ => llcRead s line
  let s := if (copyAt s core line).isSome || cp == some 0 then fillCopy s core line else s
  s.updGroup gid (seeIn s (prune s (get [] s.msgs line)) l.stream (audOf gid core l.scope))

/-- Bytes taken from dirty lines of the L1: the group reads those stores from now on, and follows what they follow. -/
def readAhead (s : State) (gid : Nat) (g : Group) (l : PendLoad) (p : LoadPart) : Group :=
  p.places.foldl (fun g x =>
    match ownByte s g x, dirtyFor s g l p x with
    | none, some e =>
      let g := seeIn s (prune s e.2.carries) l.stream (audOf gid g.core l.scope) g
      if g.ahead.any fun a => a.stream == l.stream && a.aud == audOf gid g.core l.scope && a.owner == e.1 && a.place == x then g
      else { g with ahead := g.ahead ++ [⟨l.stream, e.1, x, audOf gid g.core l.scope, []⟩] }
    | _, _ => g) g

/-- What the read of one part leaves. -/
def afterRead (s : State) (gid : Nat) (l : PendLoad) (p : LoadPart) : State :=
  match s.group? gid with
  | none => s
  | some g =>
    let s := s.updGroup gid fun g => readAhead s gid g l p
    match oldCopy s gid g l p with
    | some c => s.updGroup gid (seeIn s (prune s c.carries) l.stream (audOf gid g.core l.scope))
    | none => ((p.places.map fun x => homeOf s x / 128).eraseDups).foldl (fun s line =>
        readLine s gid g.core l p.cp line) s

/-- The edges of an acquire that has returned (R177): also from stores that its stream has read, once they are home. -/
def acquireEdges (gid : Nat) (l : PendLoad) (g : Group) : Group :=
  if !l.acquire then g
  else
    let v := viewAt g l.stream
    let a := audOf gid g.core l.scope
    { setView g l.stream { v with fenced := joinSeen v.fenced (restrict a v.seen) } with
      wbuf := g.wbuf.map fun w => if w.takenBy l.stream then { w with acq := w.acq ++ [(l.stream, a)] } else w
      ahead := g.ahead.map fun x => if x.stream == l.stream then { x with acq := x.acq ++ [a] } else x }

/-- An element of an absolute register written; a new value is correct. -/
def setAbs (g : Group) (reg lane : Nat) (w : Word) : Group :=
  { g with v := put 0 g.v (elemOf reg lane) w, badV := g.badV.filter (· != elemOf reg lane) }

/-- A load's destination written, register by register. -/
def writePart (g : Group) (p : LoadPart) (ws : List Word) : Group :=
  ws.zipIdx.foldl (fun g w => match p.lane with
    | none => g.setS (p.reg + w.2) w.1
    | some j => setAbs g (p.reg + w.2) j w.1) g

/-! ### Loads that return -/

/-- What atomics leave when their values return: old values, flags, and lanes that met an uncorrectable word dead. -/
def returnAtoms (s : State) (gid : Nat) (g : Group) (l : PendLoad) : State :=
  let r := atomLanes s gid g l
  let s := r.s.updGroup gid fun g => mergeFst (r.olds.foldl (fun g e => writePart g e.1 [e.2]) g) r.fl
  uceLanes s gid (maskOf r.dead) (BitVec.ofNat 64 r.at_)

/-- What a load leaves when its value returns (R153, R230, R231, R417): registers and `m7`; what it has seen; lanes that
consumed an uncorrectable value die with a zero element, and a scalar one kills the group. The pit log gets the first
location. -/
def returnLoad (s : State) (gid : Nat) (l : PendLoad) : State :=
  match s.group? gid with
  | none => s
  | some g =>
    if isAtomic l then returnAtoms s gid g l
    else
      let vals := l.parts.map fun p => (p, partWords s gid g l p)
      if vals.any fun v => v.1.lane.isNone && v.2.2 then uceKill s gid g.pc
      else
        let s := l.parts.foldl (fun s p => afterRead s gid l p) s
        let dead := maskOf (vals.filterMap fun v => if v.2.2 then v.1.lane else none)
        let where_ := (((vals.find? fun v => v.2.2).bind fun v => v.1.places.head?).map (homeOf s)).getD 0
        let s := s.updGroup gid fun g => (acquireEdges gid l (vals.foldl (fun g v =>
          writePart g v.1 (if v.2.2 then v.2.1.map fun _ => 0 else v.2.1)) g)).orM7 l.m7
        uceLanes s gid dead (BitVec.ofNat 64 where_)

/-- All outstanding accesses of a group made now, and the stores whose bytes it has taken, as their agents may make them at
any moment (R182). -/
def quiesce (s : State) (gid : Nat) : State :=
  match s.group? gid with
  | none => s
  | some g =>
    settleAccesses (g.loads.foldl (fun s l => returnLoad s gid l) (s.setGroup gid { g with loads := [] })) gid

def markHits (s : State) (hs : List Hit) : State := hs.foldl markHit s

/-- A load as its parts, each outstanding on its own (R186). -/
def splitLoad (l : PendLoad) : List PendLoad :=
  l.parts.map fun p => { l with
    parts := [p], old := false, m7 := match p.lane with | some j => l.m7 &&& maskOf [j] | none => l.m7 }

/-- A load follows an outstanding write: one of the group's own whose bytes it takes (R172, R175), and one that the group has
joined, whatever its bytes (R183). -/
def loadFollows (s : State) (ps : List Nat) (w : PendStore) : Bool :=
  w.joined || w.known && sameBytes s (storePlaces w) ps

/-- A write that a load of a stream follows, if it does, is followed by later accesses of that stream. -/
def followed (s : State) (st : Nat) (a : Aud) (ps : List Nat) (w : PendStore) : PendStore :=
  if w.also.contains (st, a) || !loadFollows s ps w then w else { w with also := w.also ++ [(st, a)] }

/-- A group whose load of a stream, with the agents in its scope, follows outstanding writes: it follows what they follow. -/
def takeOwn (s : State) (st : Nat) (a : Aud) (ps : List Nat) (g : Group) : Group :=
  let ws := g.wbuf.filter (loadFollows s ps)
  if ws.isEmpty then g
  else seeIn s (ws.foldl (fun k w => joinSeen k w.carries) []) st a { g with wbuf := g.wbuf.map (followed s st a ps) }

/-- A checked load issued: it returns at once, or stays outstanding, lane by lane. -/
def issueLoad (s : State) (gid : Nat) (l : PendLoad) (hs : List Hit) : State :=
  let s := markHits s hs
  let s := s.updGroup gid fun g => takeOwn s l.stream (audOf gid g.core l.scope) (loadPlaces l) g
  if s.late then s.updGroup gid fun g => { g with loads := g.loads ++ splitLoad l }
  else returnLoad s gid l

/-- The part of a load that a hit makes. -/
def loadPart (s : State) (g : Group) (st : Nat) (lane : Option Nat) (reg size : Nat) (signed : Bool) (h : Hit) : LoadPart :=
  { lane := lane, reg := reg, places := hitPlaces h size, cp := policyOf g st h, signed := signed, atom := none, texel := none,
    known := if h.nonres then some 0
      else h.cb.map fun c => BitVec.ofNat 64 (cbLoad s (clusterOfCore g.core) c.1 c.2 size) }

/-- A load of some parts. -/
def loadOf (s : State) (g : Group) (st : Nat) (acquire pair : Bool) (parts : List LoadPart) (m7 : Word) : PendLoad :=
  { stream := st, acquire := acquire, scope := streamScope g st, pair := pair, old := s.stale && !s.late, parts := parts,
    m7 := m7 }

/-! ### Writing -/

/-- What a store of a stream follows (R172, R174, R177). -/
def carriesOf (gid : Nat) (g : Group) (st : Nat) (release : Bool) : Seen :=
  let v := viewAt g st
  let seen := joinSeen v.seen v.wrote
  joinSeen v.held (restrict (audOf gid g.core (streamScope g st)) (if release then joinSeen seen v.heard else seen))

/-- A store makes its line dirty in the L1 (R144): the L1 writes back for GDDR 7, allocates under CP 0 and holds a line that
is there under CP 1. A release goes to its home, where it takes its place in T (R175). -/
def makesDirty (s : State) (g : Group) (st : Nat) (rel : Bool) (h : Hit) : Bool :=
  !rel && decide (h.place < gddrEnd) && match policyOf g st h with
    | some 0 => true
    | some 1 => (copyAt s g.core (homeOf s h.place / 128)).isSome
    | _ => false

/-- The store of one lane, or of a scalar, at its hit. -/
def storeOf (s : State) (gid : Nat) (g : Group) (st : Nat) (rel : Bool) (size : Nat) (lane : Option Nat) (h : Hit)
    (v : DWord) : PendStore :=
  { stream := st, aud := audOf gid g.core (streamScope g st), also := [], acq := [], release := rel, lane := lane,
    maker := .group, uncached := policyOf g st h == some 3,
    dirty := makesDirty s g st rel h, carries := carriesOf gid g st rel, bytes := cellsAt h.place (bytesOfNat size v.toNat) }

/-- Stores of one instruction that are made in any order: of lanes that write one byte the highest keeps it (R162). -/
def apartStores (s : State) : List PendStore → List PendStore
  | [] => []
  | w :: ws =>
    let later := (ws.flatMap storePlaces).map (homeOf s)
    { w with bytes := w.bytes.filter fun e => !later.contains (homeOf s e.1) } :: apartStores s ws

/-- Checked stores issued: they reach their homes at once, in order, or stay outstanding, lane by lane (R182, R186). -/
def issueStores (s : State) (gid : Nat) (ws : List PendStore) (hs : List Hit) : State :=
  let s := markHits s hs
  if s.late then s.updGroup gid fun g => { g with wbuf := g.wbuf ++ apartStores s ws }
  else ws.foldl (fun s w => applyWrite s gid w) s

/-- The stores of lanes to descriptors, in increasing lane order, as checked before the others: what they leave, and
the lanes that raise CBBAD (R140). -/
def cbStores (s : State) (g : Group) (size : Nat) (hits : List (Nat × Hit)) (data : Nat → DWord) : State × List Nat :=
  hits.foldl (fun r e => match e.2.cb with
    | none => r
    | some c => match cbStore r.1 (clusterOfCore g.core) g.block c.1 c.2 size (data e.1).toNat with
      | some s' => (s', r.2)
      | none => (r.1, r.2 ++ [e.1])) (s, [])

/-- The stores that lanes make outside descriptors. -/
def laneStores (s : State) (gid : Nat) (g : Group) (st : Nat) (rel : Bool) (size : Nat) (hits : List (Nat × Hit))
    (data : Nat → DWord) : List PendStore :=
  (hits.filter fun e => e.2.cb.isNone).map fun e => storeOf s gid g st rel size (some e.1) e.2 (data e.1)

/-- Writes of descriptors noted as writes of the stream, so that a release orders there too (R137, R177). -/
def cbNoted (gid : Nat) (g : Group) (st : Nat) (rel : Bool) (size : Nat) (s : State) (hs : List Hit) : State :=
  (hs.filter (·.cb.isSome)).foldl (fun s h =>
    let s := noteWrite { core := some g.core, carries := carriesOf gid g st rel, uncached := true } s (hitPlaces h size)
    s.updGroup gid (wroteIn s (prune s (carriesOf gid g st rel)) st (audOf gid g.core (streamScope g st)))) s

/-- A store of lanes (R162): those to descriptors are made if none raises CBBAD. -/
def storeLanes (s : State) (gid : Nat) (g : Group) (st : Nat) (rel : Bool) (size : Nat) (addr : Nat → DWord)
    (hits : List (Nat × Hit)) (data : Nat → DWord) : Effect :=
  let ws := laneStores s gid g st rel size hits data
  let r := cbStores s g size hits data
  match r.2 with
  | j :: js => .fault .cbbad (maskOf (j :: js)) (addr j)
  | [] => if storeWaits s g st (ws.flatMap storePlaces) then .stall
    else .plain (issueStores (cbNoted gid g st rel size r.1 (hits.map (·.2))) gid ws (hits.map (·.2)))

/-- The lanes of a store with the writes of descriptors judged too, in increasing lane order (R140): one that raises
CBBAD has failed, like a lane that no address reaches. -/
def judgedLanes (s : State) (g : Group) (size : Nat) (addr data : Nat → DWord) (rs : List (Nat × Except AccFault Hit)) :
    List (Nat × Except AccFault Hit) :=
  let bad := (cbStores s g size (rs.filterMap fun e => match e.2 with
    | .ok h => some (e.1, h)
    | .error _ => none) data).2
  rs.map fun e => if bad.contains e.1 then (e.1, .error ⟨.cbbad, addr e.1⟩) else e

/-- What a store raises some of whose lanes fail (R152): the lowest of all that fail, CBBAD included. -/
def storeFault (s : State) (g : Group) (size : Nat) (addr data : Nat → DWord) (f : AccFault × Word) : AccFault × Word :=
  match joinLanes (judgedLanes s g size addr data
    (g.activeLanes.map fun j => (j, checkedHit s (agentOf s g (some j)) .store (addr j) size))) with
  | .error f' => f'
  | .ok _ => f

end Sys2Proof.Machine
end

