-- ==== Sys2Proof/Machine/Surface.lean ====
section
/-! DEFINITION. Pixels of a surface: where a pixel lies (R284) and the home of an access that names a handle (R160, R170),
the views of `msurf` (R255 to R257). -/

namespace Sys2Proof.Machine

open Assoc Bits Sys2Proof.Machine.Float

/-! ### Where a pixel lies (R284) -/

/-- The place of a sample of a pixel of a handle. -/
def pixelPlace (ctx hn : Nat) (h : Sfte) (x y m : Nat) : Nat :=
  handlePlace (ctx * 4096 + hn) (pixelAt h x y m).1 (pixelAt h x y m).2

/-- The location of a sample of a pixel: in the bank, or at the handle's compressor (R160, R170). -/
def pixelLoc (s : State) (ctx hn : Nat) (h : Sfte) (x y m : Nat) : Nat :=
  homeIn s (ctx * 4096 + hn) h (pixelAt h x y m).1 (pixelAt h x y m).2

/-- Where a sample of a pixel lies for a group: SECV for a pixel in a secure region (R333). -/
def pixelHit (s : State) (g : Group) (hn : Nat) (h : Sfte) (x y m : Nat) : Except AccFault Hit :=
  let (st, off) := pixelAt h x y m
  let pa := surfPa st (h.base + off)
  if inBank h.state && inSecure s pa && !g.secure then .error ⟨.secv, BitVec.ofNat 64 pa⟩
  else .ok (hitAt (pixelPlace g.ctx hn h x y m))

def inSurface (h : Sfte) (x y : Nat) : Bool := x ≤ h.wm1 && y ≤ h.hm1

/-- A handle used now (R159). -/
def touchHandle (s : State) (ctx hn : Nat) : State := touchKey s (ctx * 4096 + hn)

/-- The sample of a pixel as stored. -/
def pixelValue (s : State) (ctx hn : Nat) (h : Sfte) (x y m : Nat) : Nat :=
  readNat s (pixelLoc s ctx hn h x y m) (pixelBytes h.fmt)

/-! ### Views (R255 to R257, R283) -/

/-- The view that a format defines. -/
def viewOf (h : Sfte) : Option Nat :=
  if h.ms4 || h.fmt > 8 then none else some (if h.fmt = 7 then 1 else if h.fmt = 8 then 2 else 0)

/-- The element format of a view. -/
def viewFmt (view : Nat) : Fmt := if view = 1 then e4m3 else if view = 2 then e5m2 else bf16

/-- Pixel and component of element k of a view's row. -/
def viewPixel (h : Sfte) (k : Nat) : Nat × Nat := let n := (compsOf h.fmt).length; (k / n, k % n)

/-- Element k of row y of a view; 0 beyond the surface. -/
def viewElem (s : State) (ctx hn : Nat) (h : Sfte) (view y k : Nat) : Nat :=
  let (x, c) := viewPixel h k
  if !inSurface h x y then 0
  else match (compsOf h.fmt)[c]? with
    | some cp => compAs (viewFmt view) cp (pixelValue s ctx hn h x y 0)
    | none => 0

/-- Whether an element of a view is uncorrectable. -/
def viewBad (s : State) (ctx hn : Nat) (h : Sfte) (y k : Nat) : Bool :=
  let (x, _) := viewPixel h k
  inSurface h x y && anyBad s (pixelLoc s ctx hn h x y 0) (pixelBytes h.fmt)

end Sys2Proof.Machine
end

