-- ==== Sys2Proof/Machine/Engine.lean ====
section
/-! DEFINITION. The operands and products of the matrix engine (R118 to R120, R122, R133, R134, R248 to R259): where
each row of A and column of B lies, what the checks of an operand refuse, and what one operation makes of the tiles. -/

namespace Sys2Proof.Machine

open Assoc Bits Sys2Proof.Machine.Float

/-! ### Formats (R122, R134, R247) -/

def fmtMa (fmt : Word) : Nat := fieldNat fmt 11 4
def fmtMb (fmt : Word) : Nat := fieldNat fmt 15 4
def fmtBpn (fmt : Word) : Nat := fieldNat fmt 22 3
def fmtNr (fmt : Word) : Nat := fieldNat fmt 19 3

/-- CLS of a format code; 0 for a reserved one. -/
def mtxClass (m : Nat) : Nat :=
  match m with
  | 0 | 1 => 1
  | 2 | 3 => 2
  | 4 => 3
  | 5 => 4
  | 6 => 5
  | _ => 0

/-- Elements of a K-group. -/
def groupSize (cls : Nat) : Nat :=
  match cls with
  | 1 => 2
  | 2 => 4
  | 3 => 8
  | 4 => 32
  | _ => 4

/-- K that a register operand can hold (R251). -/
def regCapacity (cls : Nat) : Nat := match cls with | 1 => 16 | 3 => 64 | _ => 32

/-- Bits of an element. -/
def elemBits (cls : Nat) : Nat := match cls with | 1 => 16 | 3 => 4 | _ => 8

def matFmt (m : Nat) : Fmt :=
  match m with | 0 => bf16 | 1 => f16 | 2 => e4m3 | 3 => e5m2 | _ => mx4

def shapeM (w : Word) : Nat := fieldNat w 0 8
def shapeN (w : Word) : Nat := fieldNat w 8 8
def shapeKg (w : Word) : Nat := fieldNat w 16 10
def shapeCls (w : Word) : Nat := fieldNat w 29 3
/-- The granted K. -/
def shapeK (w : Word) : Nat := shapeKg w * groupSize (shapeCls w)

/-! ### Operands (R250 to R257) -/

inductive MtxOpd where
  | regs (base : Nat)
  | spad (d : DWord)
  | view (h v x0 y0 : Nat)
  /-- any other KIND -/
  | bad
  deriving DecidableEq, Repr

def operandOf (g : Group) (c : Code) : MtxOpd :=
  if c.toNat ≤ 95 then .regs c.toNat
  else
    let d := g.scalarPair (c.toNat - 104)
    if fieldNat d 58 6 = 0 then .spad d
    else if fieldNat d 58 6 = 0x20 then .view (fieldNat d 44 12) (fieldNat d 56 2) (fieldNat d 0 16) (fieldNat d 16 16)
    else .bad

def dBase (d : DWord) : Nat := fieldNat d 0 22
def dRpitch (d : DWord) : Nat := fieldNat d 22 16
def dTpitch (d : DWord) : Nat := fieldNat d 38 16
def dRot (d : DWord) : Nat := fieldNat d 54 4

/-- What an operation is: `mma` has one product, `mmab` sixteen. -/
structure MtxShape where
  cls : Nat
  k : Nat
  bpn : Nat
  m : Nat
  n : Nat
  many : Bool

def shapeOf (g : Group) (many : Bool) : MtxShape :=
  let w := g.mx.mshape
  { cls := shapeCls w, k := shapeK w, bpn := fmtBpn g.fmt, many := many,
    m := if many then min (shapeM w) 32 else shapeM w, n := if many then min (shapeN w) 32 else shapeN w }

/-- Bytes of a row of a scratchpad operand, mx4 scales included (R253). -/
def rowBytes (sh : MtxShape) : Nat :=
  if sh.cls = 3 then sh.k / 2 + (sh.k + 31) / 32 else sh.k * elemBits sh.cls / 8

/-- Slice offset of byte b of row i of product p (R253, R259). -/
def spadOff (d : DWord) (p i b : Nat) : Nat :=
  dBase d + 64 * dTpitch d * p + i * dRpitch d + (b ^^^ (i * dRot d % 16 * 64))

/-- Slice offset of plane word q of row i of K-block b (R119, R253, R259). -/
def planeOff (sh : MtxShape) (d : DWord) (p i b q : Nat) : Nat :=
  dBase d + 64 * dTpitch d * (if sh.many then 16 * b + p else b) + 512 * q + 4 * i

/-- Slice offsets of everything that row i of product p reads. -/
def spadReads (sh : MtxShape) (d : DWord) (p i : Nat) : List Nat :=
  if sh.cls = 4 then (List.range (sh.k / 32)).flatMap fun b => (List.range (sh.bpn + 1)).flatMap fun q =>
      (List.range 4).map fun t => planeOff sh d p i b q + t
  else (List.range (rowBytes sh)).map (spadOff d p i)

/-- SPADDESC (R254), but for the bounds. The BASE of the descriptor itself is judged, not those that `mmab` advances by 64
times TPITCH (log 27; DESIGN CHOICE: R259 says only that the checks are those of `mma`). -/
def descriptorForm (sh : MtxShape) (d : DWord) : Bool :=
  dBase d % 64 != 0 || dRpitch d % 64 != 0 || sh.cls == 4 && dBase d % 128 != 0 ||
  dRot d != 0 && (dBase d % 1024 != 0 || dRpitch d % 1024 != 0) ||
  (if sh.cls = 4 then dRpitch d != 0 || dRot d != 0 || dTpitch d < 64 && (sh.k > 32 || sh.many)
    else dRpitch d < rowBytes sh)

/-- The checks of R254 on one operand, `rows` being the rows that product p reads. -/
def spaddescBad (g : Group) (spad : Nat) (sh : MtxShape) (o : MtxOpd) (rows : Nat → List Nat) : Bool :=
  match o with
  | .regs _ | .view .. => false
  | .bad => true
  | .spad d => isMigrant g || descriptorForm sh d ||
      (List.range (if sh.many then 16 else 1)).any fun p => (rows p).any fun i =>
        (spadReads sh d p i).any fun b => b ≥ spad

/-- MTXSHAPE for one operand (R251, R257, R259). -/
def shapeBad (sh : MtxShape) (o : MtxOpd) (m : Nat) : Bool :=
  match o with
  | .regs _ => sh.many || sh.k > regCapacity sh.cls
  | .view _ v _ _ => !(v == 0 && m == 0 || v == 1 && m == 2 || v == 2 && m == 3)
  | .spad _ | .bad => false

/-- OPND and WINDOW for the scale registers under mx4 (R258). -/
def scaleRegs (g : Group) (sh : MtxShape) (o : MtxOpd) : Option Cause :=
  match o with
  | .regs n =>
    if sh.cls != 3 then none
    else if n + 33 > 95 then some .opnd
    else if g.wb + n + 33 ≥ g.vregs then some .window
    else none
  | .spad _ | .view .. | .bad => none

/-- SURFBAD for one operand (R257, R283): also where the handle is allocated and its format no longer defines the view
(log 27; DESIGN CHOICE: R257 names a handle that is not allocated). -/
def surfOpdBad (s : State) (g : Group) (o : MtxOpd) : Bool :=
  match o with
  | .view h v _ _ => match s.handle? g.ctx h with
    | some x => viewOf x != some v
    | none => true
  | .regs _ | .spad _ | .bad => false

/-! ### Elements of a row (R251, R253, R257) -/

/-- A row of A or a column of B: its elements by K-group, with the scale byte of each group, or its integers; and
whether an uncorrectable value was read. -/
structure MtxRow where
  groups : List (List Val × Nat)
  ints : List Int
  bad : Bool

/-- The signed integer of plane words 0 to n - 1 at bit j (R120). -/
def planeInt (n : Nat) (plane : Nat → Nat) (j : Nat) : Int :=
  (List.range n).foldl (fun (a : Int) q =>
    let b : Int := (plane q / 2 ^ j % 2 : Nat)
    a + b * (if q = 0 then -(2 ^ (n - 1)) else 2 ^ (n - 1 - q))) 0

/-- The encoding of element k among packed bytes. -/
def packedElem (cls : Nat) (byte : Nat → Nat) (k : Nat) : Nat :=
  if cls = 1 then byte (2 * k) + 256 * byte (2 * k + 1)
  else if cls = 3 then byte (k / 2) / 16 ^ (k % 2) % 16
  else byte k

/-- A row from its elements and scales. -/
def rowOf (sh : MtxShape) (m : Nat) (elem scale : Nat → Nat) (bad : Bool) : MtxRow :=
  let gs := groupSize sh.cls
  if sh.cls = 5 then
    ⟨[], (List.range sh.k).map fun k => (BitVec.ofNat 8 (elem k)).toInt, bad⟩
  else
    ⟨(List.range (sh.k / gs)).map fun t =>
      ((List.range gs).map fun i => unpack (matFmt m) (elem (t * gs + i)), scale (t * gs / 32)), [], bad⟩

/-- A row of bit planes. -/
def planeRow (sh : MtxShape) (plane : Nat → Nat → Nat) (bad : Bool) : MtxRow :=
  ⟨[], (List.range sh.k).map fun k => planeInt (sh.bpn + 1) (plane (k / 32)) (k % 32), bad⟩

/-- Row i of product p of an operand. Uncorrectable bytes of the scratchpad or of a surface view count as consumed as those of
a register operand do (log 29; DESIGN CHOICE: R266 speaks of register operands only). -/
def readRow (s : State) (g : Group) (sh : MtxShape) (o : MtxOpd) (m p i : Nat) : MtxRow :=
  match o with
  | .bad => ⟨[], [], false⟩
  | .regs n =>
    let j := i / 4
    let c := i % 4
    if !g.live j then rowOf sh m (fun _ => 0) (fun _ => 0) false
    else
      let reg := fun r => (g.vcode (n + r) j).toNat
      let byte := fun b => reg (8 * c + b / 4) / 256 ^ (b % 4) % 256
      let used := (List.range ((sh.k * elemBits sh.cls / 8 + 3) / 4)).map (8 * c + ·) ++
        (if sh.cls = 3 then (List.range ((sh.k + 31) / 32)).map (32 + ·) else [])
      let used := if sh.cls = 4 then (List.range (sh.bpn + 1)).map (8 * c + ·) else used
      let bad := used.any fun r => g.badV.contains (elemOf (g.wb + n + r) j)
      if sh.cls = 4 then planeRow sh (fun _ q => reg (8 * c + q)) bad
      else rowOf sh m (packedElem sh.cls byte) (fun t => reg (32 + t) / 256 ^ c % 256) bad
  | .spad d =>
    let (cl, base) := match s.block? g.block with | some b => (b.cluster, b.spadBase) | none => (0, 0)
    let rd := fun off n => readNat s (spadLoc cl (base + off)) n
    let bad := (spadReads sh d p i).any fun off => isBad s (spadLoc cl (base + off))
    if sh.cls = 4 then planeRow sh (fun b q => rd (planeOff sh d p i b q) 4) bad
    else rowOf sh m (packedElem sh.cls fun b => rd (spadOff d p i b) 1) (fun t => rd (spadOff d p i (sh.k / 2 + t)) 1) bad
  | .view h v x0 y0 => match s.handle? g.ctx h with
    | none => ⟨[], [], false⟩
    | some x =>
      let y := y0 + i + 32 * p
      rowOf sh m (fun k => viewElem s g.ctx h x v y (x0 + k)) (fun _ => 0)
        ((List.range sh.k).any fun k => viewBad s g.ctx h x y (x0 + k))

/-! ### One element of a product (R133) -/

/-- The sum of a K-group, with the scales of mx4. -/
def groupSum (cls : Nat) (a b : List Val × Nat) : Sum :=
  let t := sumProds (a.1.zip b.1)
  if cls ≠ 3 then t
  else if a.2 = 255 ∨ b.2 = 255 then .nan
  else match t with
    | .fin d => .fin (d.scale ((a.2 : Int) + b.2 - 254))
    | .nan => .nan
    | .inf n => .inf n

/-- An accumulator element after the K-groups. -/
def accElem (cls : Nat) (acc : Nat) (a b : MtxRow) : Res :=
  if cls ≥ 4 then
    ⟨(BitVec.ofInt 32 ((acc : Int) + ((a.ints.zip b.ints).map fun e => e.1 * e.2).sum)).toNat, 0⟩
  else (a.groups.zip b.groups).foldl (fun r e => (accumulate r.w (groupSum cls e.1 e.2)).add r.fl) ⟨acc, 0⟩

/-! ### Tiles -/

def tileIdx (t row col : Nat) : Nat := t * 16384 + row * 128 + col
def tileAt (g : Group) (t row col : Nat) : Word := get 0 g.mx.tiles (tileIdx t row col)
def setTiles (g : Group) (es : List (Nat × Word)) : Group :=
  { g with mx := { g.mx with tiles := puts 0 g.mx.tiles es } }

/-- What an uncorrectable row holds (R232, R266). -/
def badElem : Word := 0x7FE00000

/-- The rows of a tile that a list of lanes own (R260). -/
def rowsOfLanes (js : List Nat) : List Nat := js.flatMap fun j => (List.range 4).map (4 * j + ·)

/-- Whether row i of a tile is uncorrectable. -/
def rowBad (g : Group) (t row : Nat) : Bool := g.badRow.contains (t * 128 + row)

/-- Uncorrectable rows made readable: 0x7FE0_0000 throughout (R232). -/
def spoilRows (g : Group) (t : Nat) (rows : List Nat) : Group :=
  { setTiles g (rows.flatMap fun r => (List.range 128).map fun c => (tileIdx t r c, badElem)) with
    badRow := g.badRow.filter fun x => !(rows.map (t * 128 + ·)).contains x }

/-- An operation that joins the open batch (R262). -/
def joinBatch (g : Group) (t : Nat) : Group :=
  let b := g.mx.opening
  { g with mx := { g.mx with opening :=
      { b with ops := b.ops + 1, tiles := if b.tiles.contains t then b.tiles else b.tiles ++ [t] } } }

/-- A batch given the flags and the lanes to kill of an operation, if it is the one of a number. -/
def Batch.note (n : Word) (fl : Flags) (kills : Word) (b : Batch) : Batch :=
  if b.num = n then { b with flags := b.flags ||| fl, kills := b.kills ||| kills } else b

/-- What an operation of batch n raised. -/
def noteBatch (g : Group) (n : Word) (fl : Flags) (kills : Word) : Group :=
  { g with mx := { g.mx with opening := g.mx.opening.note n fl kills, closed := g.mx.closed.map (Batch.note n fl kills) } }

/-- What one product writes: product p, rows of A with the tile rows they feed, columns of B likewise. -/
structure Product where
  p : Nat
  rows : List (Nat × Nat)
  cols : List (Nat × Nat)

/-- The products of an operation, for its active lanes (R258, R259). -/
def productsOf (g : Group) (sh : MtxShape) : List Product :=
  let owned := rowsOfLanes g.activeLanes
  if sh.many then (List.range 16).map fun p =>
    { p := p, rows := ((List.range sh.m).map fun i => (i, 32 * (p / 4) + i)).filter fun e => owned.contains e.2,
      cols := (List.range sh.n).map fun n => (n, 32 * (p % 4) + n) }
  else [{ p := 0, rows := (owned.filter (· < sh.m)).map fun i => (i, i), cols := (List.range sh.n).map fun n => (n, n) }]

/-- The columns of B of a product, each with the column of the tile that it feeds. -/
def colsB (s : State) (g : Group) (sh : MtxShape) (b : MtxOpd) (pr : Product) : List (Nat × MtxRow) :=
  pr.cols.map fun n => (n.2, readRow s g sh b (fmtMb g.fmt) pr.p n.1)

/-- The lanes that consume an uncorrectable operand in a product (R266): of A the lane whose row it is, of B every lane
whose rows the operation writes. -/
def consumers (s : State) (g : Group) (sh : MtxShape) (a b : MtxOpd) (pr : Product) : List Nat :=
  let bBad := (colsB s g sh b pr).any fun e => e.2.bad
  (pr.rows.filter fun r => bBad || (readRow s g sh a (fmtMa g.fmt) pr.p r.1).bad).map (·.2 / 4)

/-- One product: what it writes and its flags. A consuming lane's rows take 0x7FE0_0000; a row that was uncorrectable
takes nothing here (R232). -/
def runProduct (s : State) (g : Group) (sh : MtxShape) (t : Nat) (a b : MtxOpd) (lost : List Nat) (pr : Product) :
    List (Nat × Word) × Flags :=
  let bs := colsB s g sh b pr
  pr.rows.foldl (fun out r =>
    if lost.contains (r.2 / 4) then (out.1 ++ bs.map (fun e => (tileIdx t r.2 e.1, badElem)), out.2)
    else if rowBad g t r.2 then out
    else
      let row := readRow s g sh a (fmtMa g.fmt) pr.p r.1
      let es := bs.map fun e => (e.1, accElem sh.cls (tileAt g t r.2 e.1).toNat row e.2)
      (out.1 ++ es.map (fun e => (tileIdx t r.2 e.1, BitVec.ofNat 32 e.2.w)),
        es.foldl (fun f e => f ||| e.2.fl) out.2)) ([], 0)

/-- An operation performed on the group as it stood at the issue but for its tiles: the elements written, the flags, the
rows found uncorrectable, the lanes to kill. -/
def runProducts (s : State) (g : Group) (sh : MtxShape) (t : Nat) (a b : MtxOpd) :
    List (Nat × Word) × Flags × List Nat × Word :=
  let ps := productsOf g sh
  let lost := ps.flatMap (consumers s g sh a b)
  let outs := ps.map (runProduct s g sh t a b lost)
  let spoiled := (ps.flatMap fun p => p.rows.map (·.2)).filter (rowBad g t)
  (outs.flatMap (·.1), outs.foldl (fun f o => f ||| o.2) 0, spoiled, maskOf (lost ++ spoiled.map (· / 4)))

/-! ### The queue of a core (R248, R262, R264) -/

def snapOf (g : Group) : MatrixSnap :=
  { fmt := g.fmt, mshape := g.mx.mshape, amask := g.amask, lmask := g.lmask, wb := g.wb, v := g.v, s := g.s, badV := g.badV }

/-- The group as an operation sees it: registers, masks and formats of its issue, tiles of now. -/
def asIssued (g : Group) (p : MatrixSnap) : Group :=
  { g with fmt := p.fmt, mx := { g.mx with mshape := p.mshape }, amask := p.amask, lmask := p.lmask, wb := p.wb, v := p.v,
           s := p.s, badV := p.badV }

/-- An operation takes effect on its group's tiles and is noted in its batch. -/
def performOn (s : State) (g : Group) (e : MatrixOp) : Group :=
  match e.act with
  | .product many t a b p =>
    let h := asIssued g p
    let r := runProducts s h (shapeOf h many) t (operandOf h (BitVec.ofNat 7 a)) (operandOf h (BitVec.ofNat 7 b))
    noteBatch (spoilRows (setTiles g r.1) t r.2.2.1) e.batch r.2.1 r.2.2.2
  | .zero t rows =>
    let g := setTiles g (rows.flatMap fun r => (List.range 128).map fun c => (tileIdx t r c, 0))
    { g with badRow := g.badRow.filter fun x => !(rows.map (t * 128 + ·)).contains x }
  | .write cells => setTiles g cells

/-- The handles, by key, that an operation in a queue is still to read (R257). -/
def handlesRead (s : State) (e : MatrixOp) : List Nat :=
  match s.group? e.gid, e.act with
  | some g, .product _ _ a b p => [a, b].filterMap fun c => match operandOf (asIssued g p) (BitVec.ofNat 7 c) with
    | .view h .. => some (g.ctx * 4096 + h)
    | .regs _ | .spad _ | .bad => none
  | _, _ => []

/-- A queued operation is still to read a handle. -/
def operandsQueued (s : State) (key : Nat) : Bool := s.cores.any fun e => e.2.mq.any fun q => (handlesRead s q).contains key

/-- One engine cycle of a core: the operation at the head of its queue takes it, and takes effect with its last. -/
def engineCycle (s : State) (core : Nat) : State :=
  let k := s.coreAt core
  match k.mq with
  | [] => s
  | e :: rest =>
    if e.left > 1 then s.setCore core { k with mq := { e with left := e.left - 1 } :: rest }
    else
      let s := s.setCore core { k with mq := rest }
      match s.group? e.gid with
      | none => s
      | some g => ((handlesRead s e).foldl touchKey s).setGroup e.gid (performOn s g e)

/-- The queue of the group's core is full (R248). -/
def queueFull (s : State) (g : Group) : Bool := decide (Config.matrixQueue ≤ (s.coreAt g.core).mq.length)

/-- An operation of the group put in the queue of its core, in the open batch. -/
def enqueue (s : State) (gid : Nat) (g : Group) (t left : Nat) (act : MatrixAct) : State :=
  let k := s.coreAt g.core
  (s.setCore g.core { k with mq := k.mq ++ [⟨gid, g.mx.mbopen, left, act⟩] }).setGroup gid (joinBatch g t)

/-- An operation of a batch is still in the queue. -/
def batchQueued (s : State) (gid : Nat) (g : Group) (n : Word) : Bool :=
  (s.coreAt g.core).mq.any fun e => e.gid == gid && e.batch == n

end Sys2Proof.Machine
end

