-- ==== Sys2Proof/Machine/Order.lean ====
section
/-! DEFINITION. Ordering instructions, stream attributes, cache range operations and residency requests: major 30, FN 0
to 2 and 4 to 7 (R146, R147, R154, R168, R178, R179, R321, R367, R378, R412, R448, R454); and the completion of
outstanding loads and stores (R182, R417). -/

namespace Sys2Proof.Machine

open Assoc Bits

/-- A fence issued: it completes at once where no access of its streams is outstanding; else it holds back the later
accesses of those streams only (R178). -/
def fenceIssued (s : State) (gid : Nat) (streams : Word) (scope : Nat) : State :=
  s.updGroup gid fun g => settleFences gid { g with fences := g.fences ++ [⟨streams, scope⟩] }

/-- `fence stK, scope` (R178). -/
def execFence (st : BitVec 4) (scope : BitVec 3) (s : State) : Outcome :=
  issue (.fence st scope) (fun s gid _ => .plain (fenceIssued s gid (maskOf [st.toNat]) scope.toNat)) s

/-- `xfence sA, scope` (R179): the streams of sA[15:0]. -/
def execXfence (scope : BitVec 3) (a : Code) (s : State) : Outcome :=
  issue (.xfence scope a) (fun s gid g => .plain (fenceIssued s gid (srcS s g a &&& 0xFFFF) scope.toNat)) s

/-- `sattr stK, sA` (R168). -/
def execSattr (st : BitVec 4) (a : Code) (s : State) : Outcome :=
  issue (.sattr st a) (fun s gid g =>
    .plain (s.setGroup gid { g with sattr := put 0 g.sattr st.toNat (field (srcS s g a) 0 4) })) s

/-! ### Range operations (R146, R147, R367) -/

/-- The first byte of a range that lies outside the global apertures, or outside the half that the mode may reach. -/
def rangeOut (priv : Bool) (a n : Nat) : Option Nat :=
  if a < 2 ^ 51 then (if a + n ≤ 2 ^ 51 then none else some (2 ^ 51))
  else if priv ∧ 2 ^ 64 - 2 ^ 51 ≤ a ∧ a < 0xFFFFFD0000000000 then
    (if a + n ≤ 0xFFFFFD0000000000 then none else some 0xFFFFFD0000000000)
  else some a

/-- The parts of a byte range by 64 KiB page: first byte and length. -/
def pageParts : Nat → Nat → Nat → List (Nat × Nat)
  | 0, _, _ => []
  | k + 1, a, e =>
    if a ≥ e then []
    else
      let n := min e ((a / 65536 + 1) * 65536)
      (a, n - a) :: pageParts k n e

def rangePages (a n : Nat) : List (Nat × Nat) := pageParts (n / 65536 + 2) a (a + n)

/-- The hits of the pages, or the fault of the first that fails. -/
def rangeHits (s : State) (ag : Agent) (acc : Access) : List (Nat × Nat) → Except AccFault (List (Hit × Nat))
  | [] => .ok []
  | (a, n) :: ps =>
    match resolve s ag acc (BitVec.ofNat 64 a) 1 with
    | .error c => .error ⟨c, BitVec.ofNat 64 a⟩
    | .ok h => match rangeHits s ag acc ps with
      | .error f => .error f
      | .ok hs => .ok ((h, n) :: hs)

/-- The lines that a page's part of a range touches, as places. -/
def partPlaces (h : Hit) (n : Nat) : List Nat :=
  if h.nonres then []
  else (List.range ((h.place % 128 + n + 127) / 128)).map fun k => h.place / 128 * 128 + 128 * k

/-- The lines where the bytes of such a line have their homes (R160, R170). -/
def homeLines (s : State) (p : Nat) : List Nat :=
  if p < surfBase then [homeOf s p / 128] else ((List.range 128).map fun i => homeOf s (p + i) / 128).eraseDups

def partLines (s : State) (h : Hit) (n : Nat) : List Nat := (partPlaces h n).flatMap (homeLines s)

def rangeLines (s : State) (hs : List (Hit × Nat)) : List Nat := hs.flatMap fun e => partLines s e.1 e.2

/-- Dirty data of some lines in the L1 of a core goes home (R144, R146). -/
def writeBack (s : State) (core : Nat) (lines : List Nat) : State :=
  (residentOn s core).foldl (fun s e => reachHome s e.1 fun w =>
    w.dirty && overlaps ((storePlaces w).map fun p => homeOf s p / 128) lines) s

/-- Dirty lines of the LLC written to GDDR 7; they stay valid. -/
def cleanLlc (s : State) (lines : List Nat) : State :=
  { s with llc := s.llc.map fun e => if lines.contains e.1 then (e.1, { e.2 with dirty := false }) else e }

/-- Lines that leave the L1 of a core. -/
def invalidateL1 (s : State) (core : Nat) (lines : List Nat) : State := lines.foldl (fun s l => dropCopy s core l) s

/-- The three range operations. -/
inductive RangeKind where
  | flush | inv | zero
  deriving DecidableEq, Repr

/-- Zeros at the lines of a page's part, under the policy of the access. -/
def zeroPart (s : State) (gid : Nat) (g : Group) (st : Nat) (h : Hit) (n : Nat) : State :=
  let w : Writer := { core := some g.core, carries := carriesOf gid g st false, uncached := policyOf g st h == some 3 }
  (partPlaces h n).foldl (zeroPlaces w) s

/-- The writes numbered from n on are the group's own in a stream, made with what a store of it follows (R172). -/
def ownWrites (s : State) (gid st n : Nat) : State :=
  s.updGroup gid fun g =>
    wroteIn s (joinSeen (prune s (carriesOf gid g st false)) ((List.range (s.writes - n)).map fun k => (.all, n + k))) st
      (audOf gid g.core (streamScope g st)) g

/-- What a range operation does to its lines (R146). -/
def rangeEffect (k : RangeKind) (s : State) (gid : Nat) (g : Group) (st : Nat) (hs : List (Hit × Nat)) : State :=
  let ls := rangeLines s hs
  match k with
  | .flush => cleanLlc (writeBack s g.core ls) ls
  | .inv => invalidateL1 (writeBack s g.core ls) g.core ls
  | .zero => ownWrites (hs.foldl (fun s' e => zeroPart s' gid g st e.1 e.2) (invalidateL1 (writeBack s g.core ls) g.core ls)) gid st (writeBack s g.core ls).writes

/-- A range operation waits as a plain store of its stream does (R147, R180); `czero` for every store of the group, and it
sends dirty data of its lines home first. -/
def rangeWaits (k : RangeKind) (g : Group) (st : Nat) : Bool :=
  !g.loads.isEmpty || fenceHolds g st || (g.wbuf.any fun w => k == .zero || follows w st) ||
  g.ahead.any fun a => k == .zero || a.stream == st

/-- One range operation: the checks of R367 in order, then the effect on each line. -/
def rangeOp (k : RangeKind) (st : BitVec 4) (a b : Code) (s : State) (gid : Nat) (g : Group) : Effect :=
  let base := srcSP s g a
  let n := (srcS s g b).toNat
  if n = 0 then .plain s
  else match rangeOut g.priv base.toNat n with
  | some a => .fault .aper 0 (BitVec.ofNat 64 a)
  | none =>
  if k == .zero && (base.toNat % 128 != 0 || n % 128 != 0) then .fault .align 0 base
  else match rangeHits s (agentOf s g none) (if k = .zero then .czero else .flush) (rangePages base.toNat n) with
  | .error f => .fault f.cause 0 f.addr
  | .ok hs =>
    if rangeWaits k g st.toNat then .stall
    else
      let s := markHits s ((hs.map (·.1)).filter fun h => !h.nonres)
      .plain (rangeEffect k ((hs.flatMap fun e => partPlaces e.1 e.2).foldl touchPlace s) gid g st.toNat hs)

/-- `cflush` (R146): dirty data of the lines goes to GDDR 7. -/
def execCflush (st : BitVec 4) (a b : Code) (s : State) : Outcome := issue (.cflush st a b) (rangeOp .flush st a b) s
/-- `cinv` (R146): the lines leave this core's L1. -/
def execCinv (st : BitVec 4) (a b : Code) (s : State) : Outcome := issue (.cinv st a b) (rangeOp .inv st a b) s
/-- `czero` (R146): zeros in every byte of the range. -/
def execCzero (st : BitVec 4) (a b : Code) (s : State) : Outcome := issue (.czero st a b) (rangeOp .zero st a b) s

/-! ### Residency requests (R154, R321) -/

/-- A page posted; a full queue drops it, and its number stays used. -/
def postPage (s : State) (ctx core : Nat) (page : Nat) : State :=
  let q := if s.resq.length < Config.residencyQueue then s.resq ++ [⟨ctx, page, core, s.resSeq⟩] else s.resq
  { s with resq := q, resSeq := s.resSeq + 1 }

def isGlobal (va : DWord) : Bool :=
  match aperture va with
  | .user | .privileged => true
  | .spad _ | .lane _ | .shaft _ | .none => false

/-- The active lanes among those that a `vpreq` uses whose offset or address is uncorrectable (R230). -/
def pageKills (g : Group) (d a b : Code) : Word :=
  maskOf ((lanesOf (g.maskAt 7 &&& g.amask)).filter fun j =>
    (oprsOf g.fmt (.vpreq d a b)).any fun o => o.role != .dst && badAt g o j)

/-- The pages of the lanes in `m7` and LMASK, those that die of their offsets apart. -/
def requestPages (s : State) (g : Group) (dead : Word) (a b : Code) : List Nat :=
  distinct (((lanesOf (g.maskAt 7 &&& g.lmask &&& ~~~dead)).map (laneAddr s g a b)).filter isGlobal |>.map fun va => fieldNat va 16 48)

/-- `vpreq` (R154): issues once every load has returned (R396). A lane that it does not use reads nothing. -/
def execVpreq (d a b : Code) (s : State) : Outcome :=
  issue (.vpreq d a b) (fun s gid g =>
    if !g.loads.isEmpty then .stall
    else
      let dead := pageKills g d a b
      let ps := requestPages s g dead a b
      let s := ps.foldl (fun s p => postPage s g.ctx g.core p) s
      .plain (uceLanes (s.updGroup gid fun g => g.setS d.toNat (BitVec.ofNat 32 ps.length)) gid dead g.pc)) s

/-- RESIDENCY_REQUEST_FORWARD (R321): the oldest request goes to the control node. -/
def execResidencyRequestForward (s : State) : Outcome :=
  match s.resq with
  | [] => .next s
  | r :: rs => .next (report { s with resq := rs } (.residency r))

/-! ### Outstanding accesses (R182, R417) -/

/-- LOAD_RETURN (R417): load k returns. Those outstanding together share no stream and no byte, but for the lanes of one
instruction, which are unordered (R186) except where atomics of one word act in lane order (R165). A group whose last lane
dies of it ends (R75, R230). -/
def execLoadReturn (gid k : Nat) (s : State) : Outcome :=
  match s.group? gid with
  | none => .next s
  | some g => match g.loads[k]? with
    | none => .next s
    | some l =>
      if isAtomic l && (g.loads.take k).any fun e => isAtomic e && sameBytes s (loadPlaces e) (loadPlaces l) then .next s
      else .next (lanesGone ((returnLoad (s.setGroup gid { g with loads := g.loads.eraseIdx k }) gid l).updGroup gid
        (settleFences gid)) gid)

/-- WRITE_REACHES_HOME (R182): store k is applied. Those outstanding together share no stream and no byte, but for the
lanes of one instruction. -/
def execWriteReachesHome (gid k : Nat) (s : State) : Outcome :=
  match s.group? gid with
  | none => .next s
  | some g => match g.wbuf[k]? with
    | none => .next s
    | some w =>
      .next ((applyWrite (s.setGroup gid { g with wbuf := g.wbuf.eraseIdx k }) gid w).updGroup gid (settleFences gid))

end Sys2Proof.Machine
end

