-- ==== Sys2Proof/Machine/Matrix.lean ====
section
/-! DEFINITION. The instructions of major 33 (R249 to R268, R397, R398, R423) and the completion of batches (R262). An
operation joins the queue of its core with the registers of its issue; the engine performs it in a later core cycle
(log 9). -/

namespace Sys2Proof.Machine

open Assoc Bits Sys2Proof.Machine.Float

/-! ### Shapes -/

/-- MSHAPE for a request (R249). -/
def grantShape (fmt w : Word) : Word :=
  let m := fieldNat w 0 8
  let n := fieldNat w 8 8
  let k := fieldNat w 16 16
  let cls := mtxClass (fmtMa fmt)
  if cls = 0 ∨ cls ≠ mtxClass (fmtMb fmt) ∨ m = 0 ∨ n = 0 ∨ k = 0 then 0
  else
    let g := groupSize cls
    BitVec.ofNat 32 (min (8 * ((m + 7) / 8)) 128 + min (8 * ((n + 7) / 8)) 128 * 2 ^ 8 +
      min ((k + g - 1) / g) 512 * 2 ^ 16 + cls * 2 ^ 29)

/-- `tshape` (R249, R423). -/
def execTshape (d a : Code) (s : State) : Outcome :=
  issue (.tshape d a) (fun s gid g =>
    let w := grantShape g.fmt (srcS s g a)
    .plain (s.setGroup gid { g.setS d.toNat w with mx := { g.mx with mshape := w } })) s

/-! ### Waiting for registers -/

/-- A load is still to write one of n registers from code c on. -/
def awaitsRun (g : Group) (c n : Nat) : Bool :=
  !g.loads.isEmpty && (List.range n).any fun i => (loadRegs g).contains (true, g.wb + c + i)

/-- OPND or WINDOW for n registers from code c on. -/
def runFault (g : Group) (c n : Nat) : Option Cause :=
  if c + n > 96 then some .opnd else if g.wb + c + n > g.vregs then some .window else none

/-! ### Products (R258, R259) -/

/-- Token cost (R109): charged up to the capacity. -/
def tokenCost (sh : MtxShape) : Nat := sh.k / groupSize sh.cls * (if sh.cls = 4 then sh.bpn + 1 else 1)

def tokenCap (k : Cluster) : Nat := max 1 k.mtcap.toNat

/-- The faults of `mma` and `mmab` after decode, in order (R258). -/
def productFault (s : State) (g : Group) (sh : MtxShape) (t : Nat) (a b : MtxOpd) : Option Cause :=
  let spad := match s.block? g.block with | some x => x.spad | none => 0
  let ps := productsOf g sh
  let rowsA := fun p => (ps.filter (·.p == p)).flatMap fun x => x.rows.map (·.1)
  let rowsB := fun _ => List.range sh.n
  if shapeKg g.mx.mshape = 0 ∨ mtxClass (fmtMa g.fmt) ≠ sh.cls ∨ mtxClass (fmtMb g.fmt) ≠ sh.cls then some .mtxshape
  else if sh.cls = 4 ∧ sh.bpn = 0 then some .mtxshape
  else if shapeBad sh a (fmtMa g.fmt) || shapeBad sh b (fmtMb g.fmt) then some .mtxshape
  else if t ≥ g.accs then some .accalloc
  else match scaleRegs g sh a, scaleRegs g sh b with
    | some c, _ => some c
    | none, some c => some c
    | none, none =>
      if spaddescBad g spad sh a rowsA || spaddescBad g spad sh b rowsB then some .spaddesc
      else if surfOpdBad s g a || surfOpdBad s g b then some .surfbad
      else none

/-- SECV of a view (R333): the address of the first pixel that the operation reads in a secure region. -/
def viewSecv (s : State) (g : Group) (sh : MtxShape) (o : MtxOpd) (rows : List (Nat × Nat)) : Option DWord :=
  match o with
  | .regs _ | .spad _ | .bad => none
  | .view h _ x0 y0 =>
    if s.secRegions.isEmpty || g.secure then none
    else (s.handle? g.ctx h).bind fun x => rows.findSome? fun r => (List.range sh.k).findSome? fun k =>
      let c := (viewPixel x (x0 + k)).1
      let y := y0 + r.2 + 32 * r.1
      if !inSurface x c y then none
      else match pixelHit s g h x c y 0 with | .error f => some f.addr | .ok _ => none

/-- SECV of both operands. -/
def productSecv (s : State) (g : Group) (sh : MtxShape) (a b : MtxOpd) : Option DWord :=
  let ps := productsOf g sh
  match viewSecv s g sh a (ps.flatMap fun p => p.rows.map fun r => (p.p, r.1)) with
  | some x => some x
  | none => viewSecv s g sh b (ps.flatMap fun p => p.cols.map fun c => (p.p, c.1))

/-- A load is still to write a register of the operand. -/
def awaitsOpd (g : Group) (o : MtxOpd) : Bool :=
  match o with
  | .regs n => awaitsRun g n 34
  | .spad _ | .view .. | .bad => false

/-- The quarter of a group in its cluster, from 1: core first, then quarter (R109). -/
def serviceNo (g : Group) : Nat := g.core % 4 * 4 + quarterIn g + 1

/-- The tokens that `mma` or `mmab` is charged: its cost, up to the capacity. -/
def tokensFor (s : State) (g : Group) (many : Bool) : Nat :=
  min (tokenCost (shapeOf g many)) (tokenCap (s.clusterAt (clusterOfCore g.core)))

/-- The tokens may be taken: the bucket holds them, and no later quarter has been served in this cycle (R109). -/
def tokensReady (s : State) (g : Group) (many : Bool) : Bool :=
  let k := s.clusterAt (clusterOfCore g.core)
  decide (tokensFor s g many ≤ k.mtbal.toNat) && decide (k.served ≤ serviceNo g)

/-- `mma` or `mmab`: the checks, the tokens, a place in the queue. It waits for the group's earlier accesses in stream
MSTRM (R265), and for room in the queue before it is charged (R398). SECV of a view in a secure region comes after SURFBAD and
before the tokens, with the address of the first such pixel in TADDR (log 29; DESIGN CHOICE: R258's order does not name it). -/
def matrixOp (many : Bool) (d a b : Code) (s : State) (gid : Nat) (g : Group) : Effect :=
  let sh := shapeOf g many
  let x := operandOf g a
  let y := operandOf g b
  match productFault s g sh d.toNat x y with
  | some c => .fault c 0 0
  | none => match productSecv s g sh x y with
  | some addr => .fault .secv 0 addr
  | none =>
    let cl := clusterOfCore g.core
    let k := s.clusterAt cl
    if awaitsOpd g x || awaitsOpd g y || streamBusy g (· == g.mx.mstrm.toNat) || queueFull s g ||
        !tokensReady s g many then .stall
    else
      let s := s.setCluster cl
        { k with mtbal := k.mtbal - BitVec.ofNat 20 (tokensFor s g many), served := serviceNo g }
      .plain (enqueue s gid g d.toNat (tokenCost sh) (.product many d.toNat a.toNat b.toNat (snapOf g)))

/-- `mma` (R258). -/
def execMma (d a b : Code) (s : State) : Outcome := issue (.mma d a b) (matrixOp false d a b) s
/-- `mmab` (R259). -/
def execMmab (d a b : Code) (s : State) : Outcome := issue (.mmab d a b) (matrixOp true d a b) s

/-! ### Tiles and registers (R260, R261) -/

/-- `mzero` (R261). -/
def execMzero (d : Code) (s : State) : Outcome :=
  issue (.mzero d) (fun s gid g =>
    let t := d.toNat
    if t ≥ g.accs then .fault .accalloc 0 0
    else if queueFull s g then .stall
    else .plain (enqueue s gid g t 1 (.zero t (rowsOfLanes g.activeLanes)))) s

/-- MTXSHAPE of sB in `mrd` and `mwr` (R260). -/
def columnBad (v : Word) (mwr : Bool) : Bool :=
  fieldNat v 8 24 != 0 || fieldNat v 0 7 % 8 != 0 || mwr && bit v 7

/-- Active lanes that read an uncorrectable element of n registers from code c on (R230). -/
def badLanes (g : Group) (c n : Nat) : Word :=
  maskOf (g.activeLanes.filter fun j => (List.range n).any fun i => g.badV.contains (elemOf (g.wb + c + i) j))

/-- `mwr` (R261): its registers are read at issue, so that a lane with an uncorrectable one dies there, zeros in its elements
of the tile (R230; log 28). The checks of sB come before that of the register range (log 28; DESIGN CHOICE: R260, R261 and R57
put neither first). -/
def execMwr (d a b : Code) (s : State) : Outcome :=
  issue (.mwr d a b) (fun s gid g =>
    let t := d.toNat
    let v := srcS s g b
    if t ≥ g.accs then .fault .accalloc 0 0
    else if columnBad v true then .fault .mtxshape 0 0
    else match runFault g a.toNat 32 with
    | some c => .fault c 0 0
    | none =>
      if awaitsRun g a.toNat 32 || queueFull s g then .stall
      else
        let bad := badLanes g a.toNat 32
        let cells := g.activeLanes.flatMap fun j => (List.range 32).map fun i =>
          (tileIdx t (4 * j + i / 8) (fieldNat v 0 7 + i % 8), if bad.getLsbD j then 0 else g.vcode (a.toNat + i) j)
        let s := uceLanes s gid bad g.pc
        match s.group? gid with
        | none => .plain s
        | some g => .plain (enqueue s gid g t 1 (.write cells))) s

/-- The registers that `mrd` writes in a lane: 32 raw words, or the packed narrow elements. -/
def mrdWords (g : Group) (t c0 : Nat) (conv : Bool) (j : Nat) : List Word × Flags :=
  let e := (List.range 32).map fun i => tileAt g t (4 * j + i / 8) (c0 + i % 8)
  if !conv then (e, 0)
  else
    let f := match fmtNr g.fmt with | 0 => bf16 | 1 => f16 | 2 => e4m3 | 3 => e5m2 | _ => mx4
    let r := e.map fun w => narrowRne f w.toNat
    let n := r.foldr (fun x a => x.w + 2 ^ f.bits * a) 0
    ((List.range f.bits).map fun i => BitVec.ofNat 32 (n / 2 ^ (32 * i)), r.foldl (fun a x => a ||| x.fl) 0)

/-- Registers that `mrd` writes. -/
def mrdCount (fmt v : Word) : Nat :=
  if bit v 7 then (match fmtNr fmt with | 0 | 1 => 16 | 2 | 3 => 8 | _ => 4) else 32

/-- A batch that is not complete holds an operation on the tile. -/
def tileBusy (g : Group) (t : Nat) : Bool := g.mx.closed.any fun b => b.tiles.contains t

/-- The rows of the active lanes read out of a tile into registers, with their flags. -/
def readOut (g : Group) (d t c0 : Nat) (conv : Bool) : Group :=
  let rs := g.activeLanes.map fun j => (j, mrdWords g t c0 conv j)
  let g := rs.foldl (fun g r => r.2.1.zipIdx.foldl (fun g w => g.setElem (d + w.2) r.1 w.1) g) g
  mergeFst g (rs.foldl (fun f r => f ||| r.2.2) 0)

/-- `mrd` (R261, R398), its checks in the order of `mwr`: it closes the open batch if that holds an operation on the tile,
and stands Stalled, its operands read, until the tile's batches are complete. -/
def execMrd (d a b : Code) (s : State) : Outcome :=
  issue (.mrd d a b) (fun s gid g =>
    let t := a.toNat
    let v := srcS s g b
    let n := mrdCount g.fmt v
    if t ≥ g.accs then .fault .accalloc 0 0
    else if columnBad v false then .fault .mtxshape 0 0
    else match runFault g d.toNat n with
    | some c => .fault c 0 0
    | none =>
      if g.mx.opening.tiles.contains t then
        .hold (s.setGroup gid { g with mx := closeBatch g.mx, status := .parked .stalled })
      else if tileBusy g t then .hold (s.setGroup gid { g with status := .parked .stalled })
      else if awaitsRun g d.toNat n then .stall
      else
        let bad := (rowsOfLanes g.activeLanes).filter (rowBad g t)
        let g := readOut (spoilRows g t bad) d.toNat t (fieldNat v 0 7) (bit v 7)
        .plain (uceLanes (s.setGroup gid g) gid (maskOf (bad.map (· / 4))) g.pc)) s

/-! ### Batches (R262, R263) -/

/-- `mfence` (R262). -/
def execMfence (d : Code) (s : State) : Outcome :=
  issue (.mfence d) (fun s gid g =>
    .plain (s.setGroup gid { g.setS d.toNat g.mx.mbopen with mx := closeBatch g.mx })) s

/-- a ≥ b among 32-bit serial numbers. -/
def serialGe (a b : Word) : Bool := decide ((a - b).toNat < 2 ^ 31)

/-- The batch that `mwait` waits for. After MBOPEN has wrapped to 1, MBOPEN - 1 is taken as 0, a number that no batch has
(log 27; DESIGN CHOICE: R263 does not say which batch is meant). -/
def waitBatch (m : MatrixRegs) (v : Word) : Word := if serialGe (m.mbopen - 1) v then v else m.mbopen - 1

/-- `mwait` (R263): with sA = 0 it returns at once. A return joins the batches up to the one waited for (R183): none then. -/
def execMwait (a : Code) (s : State) : Outcome :=
  issue (.mwait a) (fun s gid g =>
    let t := waitBatch g.mx (srcS s g a)
    if srcS s g a = 0 then .plain s
    else if serialGe g.mx.mbdone t then .plain (s.setGroup gid (seeAll s .all g))
    else .park (s.setGroup gid { g with status := .parked (.mwait t) })) s

/-- A forced save takes the group where it waits (R234). -/
def forcedDue (s : State) (gid : Nat) (g : Group) : Bool :=
  preemptDue s gid g && match s.launch? g.launch with
    | some l => match l.preempt with | some r => r.forced.contains gid | none => false
    | none => false

/-- What the completion of its oldest closed batch gives a group: MBDONE, flags, the event of kind 6, the end of a wait,
unless a forced save takes the group at its `mwait` (R398). The return of the `mwait` joins the batch (R183); `mrd` does not
(R261). -/
def finishBatch (s : State) (held : Bool) (g : Group) (b : Batch) : Group :=
  let g := { g with
    mx := { g.mx with mbdone := b.num, closed := g.mx.closed.drop 1 }, fst := g.fst ||| b.flags,
    ev := pendSlots g.ev fun d => evKind d == 6 && evArg d == b.num.toNat % 2 ^ 28 }
  match parkedIn g with
  | some (.mwait t) => if serialGe b.num t && !held then unpark (seeAll s .all g) else g
  | _ => g

/-- MATRIX_BATCH_COMPLETE (R262, R266): the oldest closed batch of a group completes once each of its operations has taken
effect, and the lanes that found uncorrectable values in it die; not while the core is being scanned (R322). -/
def execMatrixBatchComplete (gid : Nat) (s : State) : Outcome :=
  match s.group? gid with
  | none => .next s
  | some g => match g.mx.closed with
    | [] => .next s
    | b :: _ =>
      if batchQueued s gid g b.num || (s.coreAt g.core).scanning then .next s
      else .next (lanesGone (uceLanes ((ranHere s g).setGroup gid (finishBatch s (forcedDue s gid g) g b)) gid b.kills g.pc) gid)

/-- `msurf` (R256). -/
def execMsurf (d a b : Code) (s : State) : Outcome :=
  issue (.msurf d a b) (fun s gid g =>
    let v := srcS s g a
    let view := fieldNat v 12 2
    if fieldNat v 14 18 ≠ 0 ∨ view = 3 then .fault .spaddesc 0 0
    else match s.handle? g.ctx (fieldNat v 0 12) with
      | none => .fault .surfbad 0 0
      | some h =>
        if viewOf h ≠ some view then .fault .surfbad 0 0
        else .plain (s.setGroup gid (g.setSPair d.toNat (BitVec.ofNat 64
          (0x20 * 2 ^ 58 + view * 2 ^ 56 + fieldNat v 0 12 * 2 ^ 44 + (srcS s g b).toNat))))) s

end Sys2Proof.Machine
end

