-- ==== Sys2Proof/Machine/Pixels.lean ====
section
/-! DEFINITION. Surface access by coordinates: `sfld`, `sfst` and `tsmp` (R302, R303, R413, R414, R424, R425). -/

namespace Sys2Proof.Machine

open Assoc Bits Sys2Proof.Machine.Float

/-- SURFBAD of sA: bits [31:18], the sample, the handle. -/
def surfaceArg (s : State) (g : Group) (v : Word) : Option Sfte :=
  if fieldNat v 18 14 ≠ 0 then none
  else match s.handle? g.ctx (fieldNat v 0 12) with
    | none => none
    | some h => if isRaw h then none else some h

def sampleOk (h : Sfte) (v : Word) : Bool := h.ms4 || fieldNat v 12 2 == 0

def coordX (w : Word) : Nat := fieldNat w 0 16
def coordY (w : Word) : Nat := fieldNat w 16 16

/-- OPND, then WINDOW, of the registers of D, which the pixel size counts (R41, R57, R413). -/
def pixelRegs (g : Group) (h : Sfte) (d : Nat) : Option Cause :=
  if pixelBytes h.fmt ≠ 8 then (if g.wb + d ≥ g.vregs then some .window else none)
  else if d % 2 = 1 || d > 94 then some .opnd
  else if g.wb + d + 1 ≥ g.vregs then some .window
  else none

/-- The lanes inside a surface with their hits. -/
def pixelHits (s : State) (g : Group) (hn : Nat) (h : Sfte) (m : Nat) (b : Code) (js : List Nat) :
    Except (AccFault × Word) (List (Nat × Hit)) :=
  joinLanes ((js.filter fun j => inSurface h (coordX (srcV g b j)) (coordY (srcV g b j))).map fun j =>
    (j, pixelHit s g hn h (coordX (srcV g b j)) (coordY (srcV g b j)) m))

/-- `sfld` (R302, R413). -/
def execSfld (d a b : Code) (s : State) : Outcome :=
  issue (.sfld d a b) (fun s gid g =>
    let v := srcS s g a
    let hn := fieldNat v 0 12
    match surfaceArg s g v with
    | none => .fault .surfbad 0 0
    | some h =>
      if !sampleOk h v then .fault .surfbad 0 0
      else match pixelRegs g h d.toNat with
      | some c => .fault c 0 0
      | none => match pixelHits s g hn h (fieldNat v 12 2) b g.activeLanes with
        | .error f => laneFault f
        | .ok hs =>
          let n := pixelBytes h.fmt
          let part : Nat → LoadPart := fun j =>
            { lane := some j, reg := g.wb + d.toNat, signed := false, cp := none, atom := none, texel := none,
              places := (match find hs j with | some x => hitPlaces x n | none => []),
              known := if (find hs j).isSome then none else some 0 }
          let l := loadOf s g (fieldNat v 14 4) false (n == 8) (g.activeLanes.map part) 0
          if loadWaits s g l.stream false (loadPlaces l) || n == 8 && awaitsRun g d.toNat 2 then .stall
          else .plain (issueLoad s gid l (hs.map (·.2)))) s

/-- The value that lane j of `sfst` stores. -/
def pixelData (g : Group) (d n : Nat) (j : Nat) : DWord :=
  if n = 8 then join32 (g.vcode (d + 1) j) (g.vcode d j) else (g.vcode d j).setWidth 64

/-- `sfst` (R302, R413). -/
def execSfst (d a b : Code) (s : State) : Outcome :=
  issue (.sfst d a b) (fun s gid g =>
    let v := srcS s g a
    let hn := fieldNat v 0 12
    match surfaceArg s g v with
    | none => .fault .surfbad 0 0
    | some h =>
      if !sampleOk h v then .fault .surfbad 0 0
      else match pixelRegs g h d.toNat with
      | some c => .fault c 0 0
      | none =>
        let n := pixelBytes h.fmt
        let dead := if n = 8 then badLanes g (d.toNat + 1) 1 else 0
        match pixelHits s g hn h (fieldNat v 12 2) b (lanesOf (g.amask &&& ~~~dead)) with
        | .error f => laneFault f
        | .ok hs =>
          let st := fieldNat v 14 4
          let ws := laneStores s gid g st false n hs (pixelData g d.toNat n)
          if storeWaits s g st (ws.flatMap storePlaces) || n == 8 && awaitsRun g d.toNat 2 then .stall
          else .plain (uceLanes (issueStores s gid ws (hs.map (·.2))) gid dead g.pc)) s

/-! ### Texture samples (R303, R425) -/

/-- An index brought into 0 .. n - 1. -/
def wrapIndex (wrap : Bool) (n : Nat) (i : Int) : Nat :=
  if wrap then (i % n).toNat else (max 0 (min i (n - 1))).toNat

/-- The texels of a sample with their weights, in 1/65536: one, or four. -/
def texels (h : Sfte) (nearest wrap : Bool) (u v : Val) : List (Nat × Nat × Nat) :=
  let w := h.wm1 + 1
  let ht := h.hm1 + 1
  let half : Dyad := ⟨-1, -1⟩
  let x := (u.dyad.mul (Dyad.ofInt w)).add half
  let y := (v.dyad.mul (Dyad.ofInt ht)).add half
  let px := wrapIndex wrap w
  let py := wrapIndex wrap ht
  if nearest then [(px (x.add ⟨1, -1⟩).floor, py (y.add ⟨1, -1⟩).floor, 65536)]
  else
    let i := x.floor
    let j := y.floor
    let fx := (((x.add (Dyad.ofInt (-i))).scale 8).floor).toNat
    let fy := (((y.add (Dyad.ofInt (-j))).scale 8).floor).toNat
    [(px i, py j, (256 - fx) * (256 - fy)), (px (i + 1), py j, fx * (256 - fy)),
     (px i, py (j + 1), (256 - fx) * fy), (px (i + 1), py (j + 1), fx * fy)]

def isFinite (v : Val) : Bool := match v with | .fin .. => true | .nan .. | .inf _ => false

/-- The texels that lane j of `tsmp` samples, with their weights: none where a coordinate is not finite. -/
def laneTexels (g : Group) (h : Sfte) (v : Word) (a j : Nat) : List (Nat × Nat × Nat) :=
  let x := unpack f32 (g.vcode a j).toNat
  let y := unpack f32 (g.vcode (a + 1) j).toNat
  if !isFinite x || !isFinite y then [] else texels h (bit v 12) (bit v 13) x y

/-- What lane j of `tsmp` loads: the bytes of its texels, and what they come to; (0, 0, 0, 0) without any. -/
def samplePart (g : Group) (hn : Nat) (h : Sfte) (v : Word) (d a j : Nat) : LoadPart :=
  let ts := laneTexels g h v a j
  { lane := some j, reg := g.wb + d, signed := false, cp := none, atom := none,
    places := ts.flatMap fun t => (List.range (pixelBytes h.fmt)).map (pixelPlace g.ctx hn h t.1 t.2.1 0 + ·),
    texel := some ⟨h.fmt, if bit v 12 then none else some (ts.map (·.2.2))⟩, known := if ts.isEmpty then some 0 else none }

/-- The pixels that an active lane samples lie in no secure region of the other world. -/
def sampleHits (s : State) (g : Group) (hn : Nat) (h : Sfte) (v : Word) (a : Nat) :
    Except (AccFault × Word) (List (Nat × Hit)) :=
  joinLanes (g.activeLanes.flatMap fun j => (laneTexels g h v a j).map fun t => (j, pixelHit s g hn h t.1 t.2.1 0))

/-- `tsmp` (R303, R424, R425): its texel reads are plain loads of the stream that sB names. -/
def execTsmp (d a b : Code) (s : State) : Outcome :=
  issue (.tsmp d a b) (fun s gid g =>
    let v := srcS s g b
    let hn := fieldNat v 0 12
    match surfaceArg s g v with
    | none => .fault .surfbad 0 0
    | some h => match sampleHits s g hn h v a.toNat with
      | .error f => laneFault f
      | .ok hs =>
        let l := loadOf s g (fieldNat v 14 4) false false (g.activeLanes.map (samplePart g hn h v d.toNat a.toNat)) 0
        if loadWaits s g l.stream false (loadPlaces l) then .stall
        else .plain (issueLoad s gid l (hs.map (·.2)))) s

end Sys2Proof.Machine
end

