-- ==== Sys2Proof/Machine/Blocks.lean ====
section
/-! DEFINITION. The blocks of a launch (R81 to R83, R103) and the groups created in one (R88, R104). -/

namespace Sys2Proof.Machine

open Assoc Bits

/-- Fields of the WID from field `k` on: offset and count (R81). -/
def widFields (h : Header) : List (Nat × Nat) :=
  (List.range 6).map fun k => (((h.widths.take k).foldl (· + ·) 0), h.counts.getD k 1)

/-- The WID whose fields take the digits of a number, the first field the least significant. -/
def widOfIndex : List (Nat × Nat) → Nat → Nat
  | [], _ => 0
  | (o, n) :: fs, k => k % n * 2 ^ o + widOfIndex fs (k / n)

def product (ns : List Nat) : Nat := ns.foldl (· * ·) 1

/-- Blocks of the launch. -/
def numBlocks (h : Header) : Nat := product (h.counts.drop h.plvl)
/-- Groups of a block. -/
def blockSize (h : Header) : Nat := product (h.counts.take h.plvl)

/-- The WID of block k, in cursor order (R82, R83). -/
def blockWid (h : Header) (k : Nat) : DWord := BitVec.ofNat 64 (widOfIndex ((widFields h).drop h.plvl) k)
/-- The WID of group k of a block. -/
def groupWid (h : Header) (bw : DWord) (k : Nat) : DWord :=
  bw + BitVec.ofNat 64 (widOfIndex ((widFields h).take h.plvl) k)

/-- One group created on a core: the lowest free slot of its best quarter, the lowest free stack number. -/
def createOn (s : State) (l : Launch) (lid bid core : Nat) (wid entry : DWord) (f : Group → Group) : State :=
  match pickSlot (slotGroups s core) with
  | none => s
  | some slot =>
    addGroup s (f (newGroup l lid bid core slot (get 0 (s.coreAt core).gens slot) wid entry
      (freeStack (stacksHeld s lid))))

/-- Stack numbers of a launch (R138). -/
def stackPool : Nat := 73728

end Sys2Proof.Machine
end

