-- ==== Sys2Proof/Machine/Headers.lean ====
section
/-! DEFINITION. Launch headers: the 256 bytes of R100, and the refusals of R101. -/

namespace Sys2Proof.Machine

open Assoc Bits

/-- Bits [lo + n - 1 : lo] of a structure in memory. -/
def memField (bs : List Byte) (lo n : Nat) : Nat := natOfBytes bs / 2 ^ lo % 2 ^ n

/-- The header in 256 bytes; counts and sizes as they count, VREGS in registers. -/
def readHeader (bs : List Byte) : Header :=
  { entry := BitVec.ofNat 64 (memField bs 0 64),
    widths := (List.range 6).map fun k => memField bs (64 + 8 * k) 8, plvl := memField bs 112 3,
    counts := (List.range 6).map fun k => memField bs (128 + 32 * k) 32 + 1, blkg := memField bs 320 8,
    vregs := memField bs 328 6 * 16, accs := memField bs 334 5, spad := memField bs 352 22,
    pri := memField bs 374 2, priv := memField bs 376 1 == 1, sec := memField bs 377 1 == 1,
    conf := memField bs 378 1 == 1, tvec := BitVec.ofNat 64 (memField bs 384 64),
    live := BitVec.ofNat 64 (memField bs 448 64), save := BitVec.ofNat 64 (memField bs 512 64),
    dsattr := BitVec.ofNat 64 (memField bs 576 64), deadline := BitVec.ofNat 64 (memField bs 640 64),
    podid := memField bs 704 32, lsbase := BitVec.ofNat 64 (memField bs 768 64), lslane := memField bs 832 32,
    dies := memField bs 864 4 }

/-- A reserved field is not zero. -/
def headerReserved (bs : List Byte) : Bool :=
  memField bs 868 1180 != 0 || memField bs 736 32 != 0 || memField bs 379 5 != 0 || memField bs 339 13 != 0 ||
  memField bs 115 13 != 0

/-- A die that a launch may use (R100). -/
def dieAllowed (h : Header) (die : Nat) : Bool := h.dies == 0 || h.dies / 2 ^ die % 2 == 1

/-- Groups of the header that an empty core in service holds. -/
def emptyRoom (s : State) (h : Header) (core : Nat) : Nat := if (s.coreAt core).oos then 0 else roomFor [] h

/-- Some cluster of DIES could hold the block when empty (R101). -/
def fitsSomewhere (s : State) (h : Header) : Bool :=
  (List.range Config.numClusters).any fun cl =>
    dieAllowed h (dieOfCluster cl) && decide (h.blkg ≤ ((coresOfCluster cl).map (emptyRoom s h)).sum)

/-- The save-area header (R238): HDR and STATE. -/
structure SaveHeader where
  hdr : DWord
  state : Nat

/-- A launch of which some count is 0 (R99). -/
def emptyLaunch (h : Header) : Bool := h.counts.contains 0

/-- The conditions of R101 in order; `save` is the save-area header where SAVE is not zero. -/
def headerConditions (s : State) (bs : List Byte) (h : Header) (privq : Bool) (addr0 : DWord)
    (save : Option SaveHeader) : List Bool :=
  let checked := !emptyLaunch h
  [ h.entry &&& 3 != 0,
    headerReserved bs,
    (h.widths.any fun w => w > 32) || decide (h.widths.sum > 64),
    checked && (h.counts.zip h.widths).any fun e => e.1 > 2 ^ e.2,
    decide (h.plvl > 6),
    checked && (decide (blockSize h > 64) || blockSize h == 0 || blockSize h != h.blkg),
    h.vregs == 0 || decide (h.vregs > 512) || decide (h.accs > 16),
    decide (h.spad > 2097152) || h.spad % 128 != 0,
    (h.priv || h.sec) && !privq,
    checked && !fitsSomewhere s h,
    match save with
    | some v => decide (v.state > 1) || v.state == 1 && v.hdr != addr0
    | none => false ]

/-- The first condition of R101 that holds, counting from 1. -/
def refusedFor (s : State) (bs : List Byte) (h : Header) (privq : Bool) (addr0 : DWord) (save : Option SaveHeader) :
    Option Nat :=
  ((headerConditions s bs h privq addr0 save).findIdx? id).map (· + 1)

/-! ### Reading under a context -/

/-- The accesses to n bytes from an address on, page by page; none where a page does not translate (R97), one with RES = 0
included. -/
def spanHits (s : State) (ag : Agent) (acc : Access) : Nat → DWord → Nat → Option (List (Hit × Nat))
  | _, _, 0 => some []
  | 0, _, _ + 1 => none
  | k + 1, va, n + 1 =>
    let m := min (n + 1) (65536 - va.toNat % 65536)
    match resolve s ag acc va m with
    | .error _ => none
    | .ok h => if h.nonres then none else (spanHits s ag acc k (va + BitVec.ofNat 64 m) (n + 1 - m)).map ((h, m) :: ·)

/-- The same, with a number of pages that is enough. -/
def ctxSpan (s : State) (ag : Agent) (acc : Access) (va : DWord) (n : Nat) : Option (List (Hit × Nat)) :=
  spanHits s ag acc (n / 65536 + 2) va n

/-- n bytes; none where an address does not translate (R97). -/
def ctxRead (s : State) (ag : Agent) (va : DWord) (n : Nat) : Option (State × List Byte) :=
  (ctxSpan s ag .load va n).map fun hs =>
    (hs.foldl (fun s e => readMark s e.1.cp e.1 e.2) s, hs.flatMap fun e => (hitLocs s e.1 e.2).map (readByte s))

/-- A value of n bytes written under a context, by the policy of its first page; one whose address fails is dropped. -/
def ctxStore (s : State) (ag : Agent) (va : DWord) (n v : Nat) : State :=
  match ctxSpan s ag .store va n with
  | some hs => markHits (storeUnder s (hs.head?.bind (·.1.cp)) (((hs.flatMap fun e => hitPlaces e.1 e.2).zip (bytesOfNat n v)).map fun e => (homeOf s e.1, e.2)))
      (hs.map (·.1))
  | none => s

/-- The save-area header of a header whose SAVE is not zero: none where it does not translate. Its reserved bytes are not
judged (log 26; DESIGN CHOICE: no chapter names what the device does where one of R238's is not zero). -/
def readSave (s : State) (ag : Agent) (h : Header) : Option (State × Option SaveHeader) :=
  if h.save = 0 then some (s, none)
  else match ctxRead s ag h.save 64 with
    | none => none
    | some (s, bs) => some (s, some ⟨BitVec.ofNat 64 (memField bs 128 64), memField bs 192 32⟩)

end Sys2Proof.Machine
end

