-- ==== Sys2Proof/Machine/Placement.lean ====
section
/-! DEFINITION. Placement: where a block fits (R104), scratchpad slices, the groups of a block on their cores, the
restore of a saved block (R241), and the choice among launches (R103, R105). -/

namespace Sys2Proof.Machine

open Assoc Bits

/-! ### What a cluster offers (R104) -/

/-- A core that takes new groups: no gate requested or taken, in service, not under assay (R112, R322, R324). -/
def offers (s : State) (core : Nat) : Bool :=
  let k := s.coreAt core
  !k.gateReq.isSome && !k.gated && !k.oos &&
  match (s.dieAt (dieOfCore core)).assay with | some a => a.core != core | none => true

def roomOn (s : State) (h : Header) (core : Nat) : Nat := if offers s core then roomFor (slotGroups s core) h else 0

/-- Slices in use in a cluster, until the last group of the block retires and its rings detach, or the block is saved (R87,
R313): first byte and the byte after. -/
def slicesOf (s : State) (cl : Nat) : List (Nat × Nat) :=
  (s.blocks.filter fun e =>
    e.2.cluster == cl && !e.2.saved && (!(groupsOfBlock s e.1).isEmpty || ringAttached s e.1)).map fun e =>
    (e.2.spadBase, e.2.spadBase + e.2.spad)

/-- The lowest free slice of n bytes (log 6). -/
def freeSlice (s : State) (cl n : Nat) : Option Nat :=
  let used := slicesOf s cl
  let ok := fun b => decide (b + n ≤ Config.spadBytes) && used.all fun u => u.2 ≤ b || b + n ≤ u.1
  ((0 :: used.map (·.2)).filter ok).foldl (fun m b => match m with | some x => some (min x b) | none => some b) none

/-- A restored block needs its buffers and barriers free (R366, R219). -/
def numbersFree (s : State) (cl : Nat) (cbs : Map CbDesc) (bars : Map Barrier) : Bool :=
  let k := s.clusterAt cl
  (cbs.all fun c => !(get CbDesc.reset k.cbs c.1).en) && bars.all fun b => !(get Barrier.idle k.bars b.1).isOpen

/-- A block of n groups fits a cluster. -/
def fitsCluster (s : State) (h : Header) (n : Nat) (cl : Nat) : Bool :=
  dieAllowed h (dieOfCluster cl) && (s.dieAt (dieOfCluster cl)).vfs.isEmpty &&
  decide (n ≤ ((coresOfCluster cl).map (roomOn s h)).sum) && (freeSlice s cl h.spad).isSome

/-- The groups resident in a cluster, migrants among them (log 26; DESIGN CHOICE: R104 does not say whether they count). -/
def residentIn (s : State) (cl : Nat) : Nat := ((coresOfCluster cl).map fun c => (residentOn s c).length).sum

/-- A cluster that ranks before another of a higher number (R104). -/
def ranksBefore (s : State) (a b : Nat) : Bool :=
  let ta := (s.tallowOf (dieOfCluster a)).toNat
  let tb := (s.tallowOf (dieOfCluster b)).toNat
  ta > tb || ta == tb && residentIn s a ≤ residentIn s b

/-- The first in rank of a list in increasing order. -/
def firstRanked (s : State) : List Nat → Option Nat
  | [] => none
  | c :: cs => match firstRanked s cs with
    | none => some c
    | some b => if ranksBefore s c b then some c else some b

/-- The fitting cluster that ranks first, among those of a test. -/
def bestCluster (s : State) (h : Header) (n : Nat) (p : Nat → Bool) : Option Nat :=
  firstRanked s ((List.range Config.numClusters).filter fun cl => p cl && fitsCluster s h n cl)

/-- The core of a cluster for the next group: the most free slots among those with room, the lowest on a tie. -/
def coreFor (s : State) (h : Header) (cl : Nat) : Option Nat :=
  ((coresOfCluster cl).filter fun c => roomOn s h c > 0).foldl (fun b c => match b with
    | none => some c
    | some x => if freeSlots (slotGroups s c) > freeSlots (slotGroups s x) then some c else some x) none

/-! ### A new block -/

def Block.fresh (lid cluster base : Nat) (wid : DWord) (spad : Nat) (pixel : Bool) : Block :=
  { launch := lid, wid := wid, cluster := cluster, spadBase := base, spad := spad, savedCbs := [], savedBars := [],
    savedSpad := [], savedBad := [], ranges := [], fullSave := false, saved := false, pixel := pixel }

/-- Groups k to n - 1 of a block created on its cluster. -/
def createGroups (l : Launch) (lid bid cl : Nat) (bw : DWord) : Nat → Nat → State → State
  | 0, _, s => s
  | n + 1, k, s =>
    createGroups l lid bid cl bw n (k + 1) (match coreFor s l.hdr cl with
      | none => s
      | some core => createOn s l lid bid core (groupWid l.hdr bw k) l.hdr.entry id)

/-- A status word of a launch (R102). -/
def launchStatus (s : State) (lid v : Nat) : State :=
  match s.launch? lid with
  | none => s
  | some l => (statusWord s l.status v).updLaunch lid fun l => { l with statusWas := v }

/-- The next block of the cursor placed on a cluster (R83, R103). -/
def placeNew (s : State) (lid : Nat) (l : Launch) (cl : Nat) : State :=
  match freeSlice s cl l.hdr.spad with
  | none => s
  | some base =>
    let bw := blockWid l.hdr l.cursor
    let (bid, s) := s.freshId
    let s := s.setBlock bid (Block.fresh lid cl base bw l.hdr.spad false)
    let s := s.updLaunch lid fun l => { l with cursor := l.cursor + 1 }
    let s := createGroups l lid bid cl bw (blockSize l.hdr) 0 s
    if l.statusWas = 1 ∨ l.statusWas = 5 then s else launchStatus s lid 1

/-! ### Restoring a block (R241, R405, R366, R218) -/

/-- A group of a restored block on its new core, in the state its save left; events bound to mailboxes and levels are
looked at again (R218), and all that has been done precedes what it does next (R187). One that waited in an instruction
executes it again, with the values it had read from latches (R48, R366, R398, R405); one at `bar` waits on. -/
def resumeGroup (s : State) (gid : Nat) : State :=
  match s.group? gid with
  | none => s
  | some g =>
    let g := { g with ev := pendSlots g.ev fun d => evKind d == 3 && match s.block? g.block with
      | some b => readNat s (spadLoc b.cluster (b.spadBase + 4 * evArg d)) 4 != 0
      | none => false }
    let g := seeAll s .all (refreshLevels s g)
    let again := { g with
      status := .ready, chain := { g.chain with specials := [] }, dbg := { g.dbg with passed := none } }
    match g.status with
    | .saved was true => s.setGroup gid { g with status := .halted was }
    | .saved none false => s.setGroup gid { g with status := .ready }
    | .saved (some p) false =>
      match p with
      | .save (some _) => goToNext s gid g
      | .transition | .resume => goOn s gid { g with status := .parked p }
      | .cbbad => raiseCbbad (s.setGroup gid { g with status := .parked p }) gid
      | .bar _ | .exit => s.setGroup gid { g with status := .parked p }
      | .save none | .mwait _ | .cbget .. | .waitany _ | .rejoin | .stalled | .room | .hop => s.setGroup gid again
    | .ready | .parked _ | .halted _ => s

/-- A saved group given a core, a slot and a new generation. -/
def seatGroup (h : Header) (cl : Nat) (s : State) (gid : Nat) : State :=
  match coreFor s h cl with
  | none => s
  | some core => match pickSlot (slotGroups s core) with
    | none => s
    | some slot => resumeGroup (s.updGroup gid fun g =>
        { g with core := core, slot := slot, gen := get 0 (s.coreAt core).gens slot }) gid

/-- A saved block placed whole on a cluster, its open phases reopened (R219). The 100 ms of STALL count anew from here
(log 28; DESIGN CHOICE: R219 and R220 say nothing of the count across a save). -/
def placeSaved (s : State) (lid : Nat) (l : Launch) (bid : Nat) (b : Block) (cl : Nat) : State :=
  match freeSlice s cl b.spad with
  | none => s
  | some base =>
    let k := s.clusterAt cl
    let s := s.setCluster cl { k with
      cbs := b.savedCbs.foldl (fun m c => put CbDesc.reset m c.1 c.2) k.cbs,
      bars := b.savedBars.foldl (fun m c => put Barrier.idle m c.1 { c.2 with since := s.ntime (dieOfCluster cl), stall := false }) k.bars }
    let s := s.setBlock bid { b with
      cluster := cl, spadBase := base, savedCbs := [], savedBars := [], savedSpad := [], savedBad := [], ranges := [],
      fullSave := false, saved := false }
    let s := zeroRange s (spadLoc cl base) b.spad
    let s := writeCells s (b.savedSpad.map fun e => (spadLoc cl (base + e.1), e.2))
    let s := poison s (b.savedBad.map fun o => spadLoc cl (base + o))
    let s := s.updLaunch lid fun l => { l with savedBlocks := l.savedBlocks.filter (· != bid) }
    let s := (keys (groupsOfBlock s bid)).foldl (seatGroup l.hdr cl) s
    if l.statusWas = 1 ∨ l.statusWas = 5 then s else launchStatus s lid 1

/-! ### The distributor (R103, R105) -/

/-- What a launch has to place next. -/
inductive NextPlace where
  | restore (bid : Nat) (b : Block)
  | fresh

def nextPlace (s : State) (l : Launch) : Option NextPlace :=
  if l.phase != .running then none
  else match l.savedBlocks with
    | bid :: _ => (s.block? bid).map fun b => .restore bid b
    | [] => if l.cursor < numBlocks l.hdr then some .fresh else none

/-- The cluster for it, if it fits one. -/
def placeAt (s : State) (l : Launch) : Option Nat :=
  match nextPlace s l with
  | none => none
  | some .fresh => bestCluster s l.hdr (blockSize l.hdr) fun _ => true
  | some (.restore bid b) =>
    bestCluster s l.hdr (groupsOfBlock s bid).length fun cl => numbersFree s cl b.savedCbs b.savedBars

/-- A launch that a distributor considers. -/
structure Bid where
  lid : Nat
  l : Launch
  /-- the cluster where its next block goes -/
  cl : Option Nat
  passed : Nat

def bidsOf (s : State) (die : Nat) : List Bid :=
  s.launches.filterMap fun e =>
    if (nextPlace s e.2).isSome && dieAllowed e.2.hdr die then
      some ⟨e.1, e.2, placeAt s e.2, get 0 (s.dieAt die).passed e.1⟩
    else none

/-- Of two launches of one priority, the first became held first. -/
def heldBefore (h b : Bid) : Bool := decide (b.passed < h.passed) || h.passed == b.passed && decide (h.lid < b.lid)

/-- A held launch keeps back every launch of lower priority, and those of its own that are not held or became held later
(R105, log 6). -/
def heldOut (bs : List Bid) (b : Bid) : Bool :=
  bs.any fun h => h.lid != b.lid && decide (64 ≤ h.passed) &&
    (decide (b.l.hdr.pri < h.l.hdr.pri) || b.l.hdr.pri == h.l.hdr.pri && heldBefore h b)

/-- The bid that is served: the highest PRI, then the one passed over most, then the earliest. -/
def serveBid (die : Nat) (bs : List Bid) : Option Bid :=
  (bs.filter fun b => (match b.cl with | some cl => dieOfCluster cl == die | none => false) && !heldOut bs b).foldl
    (fun best b => match best with
      | none => some b
      | some x =>
        if b.l.hdr.pri > x.l.hdr.pri || b.l.hdr.pri == x.l.hdr.pri && b.passed > x.passed then some b else some x) none

/-- A launch's next block placed. -/
def placeBid (s : State) (b : Bid) : State :=
  match b.cl, nextPlace s b.l with
  | some cl, some .fresh => placeNew s b.lid b.l cl
  | some cl, some (.restore bid x) => placeSaved s b.lid b.l bid x cl
  | _, _ => s

/-- A launch whose block has been placed is passed over nowhere. -/
def clearPassed (s : State) (lid : Nat) : State :=
  { s with dies := s.dies.map fun e => (e.1, { e.2 with passed := erase e.2.passed lid }) }

/-- BLOCK_PLACEMENT (R103 to R105): one placement step of a distributor. -/
def execBlockPlacement (die : Nat) (s : State) : Outcome :=
  let bs := bidsOf s die
  match serveBid die bs with
  | none => .next s
  | some b =>
    let d := s.dieAt die
    let passed := bs.foldl (fun m x => put 0 m x.lid (x.passed + 1)) d.passed
    .next (placeBid (clearPassed (s.setDie die { d with passed := passed }) b.lid) b)

end Sys2Proof.Machine
end

