-- ==== Sys2Proof/Machine/Draws.lean ====
section
/-! DEFINITION. Draws: the draw descriptor and `vtxout` (R288, R289, R291, R450), the order of draws (R290), and the
splitting of primitives into pixel groups (R292 to R295). -/

namespace Sys2Proof.Machine

open Assoc Bits Sys2Proof.Machine.Float

/-! ### The draw descriptor (R288, R289, R299) -/

def ddBlend (bs : List Byte) (k : Nat) : Nat := memField bs (288 + 32 * k) 32
def blMode (w : Nat) : Nat := w % 8
def blFs (w : Nat) : Nat := w / 2 ^ 6 % 8
def blFd (w : Nat) : Nat := w / 2 ^ 9 % 8
def blMask (w : Nat) : Nat := w / 2 ^ 12 % 16
def blStop (w : Nat) : Nat := w / 2 ^ 16 % 65536

/-- A blend word that R299 does not allow on a format. -/
def blendBad (w fmt : Nat) : Bool :=
  w / 8 % 8 != 0 || decide (blMode w > 5) || decide (blFs w > 5) || decide (blFd w > 5) ||
  blMode w == 5 && !hasAlpha fmt

/-- The draw in 128 bytes. -/
def readDraw (bs : List Byte) (va : DWord) (g : Group) (hdr : Header) : Draw :=
  { ddAddr := va, pixHdr := hdr, priv := g.priv, secure := g.secure, pbuf := BitVec.ofNat 64 (memField bs 64 64),
    nprim := memField bs 128 32, next := memField bs 160 32, dseq := none, zh := memField bs 192 12,
    zfunc := memField bs 204 3, zen := memField bs 207 1 == 1, zwr := memField bs 208 1 == 1,
    zdefer := memField bs 209 1 == 1, cull := memField bs 210 2, nattr := memField bs 212 4, nrt := memField bs 216 3,
    rts := (List.range 4).map fun k => memField bs (224 + 12 * k) 12, blends := (List.range 4).map (ddBlend bs),
    miss := memField bs 272 16, ended := false }

/-- The handles a draw uses: its targets, and its depth surface with ZEN = 1. -/
def drawTargets (d : Draw) : List Nat := d.rts.take d.nrt
def drawHandles (d : Draw) : List Nat := drawTargets d ++ (if d.zen then [d.zh] else [])

/-- What R289 checks of the handles. -/
def drawSurfacesBad (s : State) (ctx : Nat) (d : Draw) : Bool :=
  let hs := (drawHandles d).map fun n => s.handle? ctx n
  let size := fun (h : Sfte) => (h.wm1, h.hm1, h.ms4)
  (hs.any fun h => match h with | some x => isRaw x | none => true) ||
  ((drawTargets d).any fun n => match s.handle? ctx n with | some x => isDepthFmt x.fmt | none => true) ||
  (d.zen && match s.handle? ctx d.zh with | some x => !isDepthFmt x.fmt | none => true) ||
  (match hs.filterMap id with
    | [] => false
    | h :: rest => rest.any fun x => size x != size h)

/-- What R289 and R299 check of the blend words. -/
def drawBlendsBad (s : State) (ctx : Nat) (d : Draw) : Bool :=
  d.blends.zipIdx.any fun e =>
    if e.2 ≥ d.nrt then e.1 != 0
    else match (d.rts[e.2]?).bind (s.handle? ctx) with
      | some h => blendBad e.1 h.fmt
      | none => true

/-- Both compute dies of some stack are left out of DIES (R289). -/
def stackOmitted (h : Header) : Bool :=
  (List.range 2).any fun k => !dieAllowed h (2 * k) && !dieAllowed h (2 * k + 1)

/-- A draw descriptor read and checked: none raises SURFBAD (R289). -/
def checkDraw (s : State) (g : Group) (l : Launch) (va : DWord) : Option (State × Draw) :=
  let ag := ctxAgent l.root g.priv g.secure
  if va.toNat % 128 ≠ 0 then none
  else match ctxRead s ag va 128 with
    | none => none
    | some (s, bs) =>
      let ph := BitVec.ofNat 64 (memField bs 0 64)
      if ph.toNat % 256 ≠ 0 then none
      else match ctxRead s ag ph 256 with
        | none => none
        | some (s, hb) =>
          let hdr := readHeader hb
          match readSave s ag hdr with
          | none => none
          | some (s, sv) =>
            let d := readDraw bs va g hdr
            if memField bs 416 608 != 0 || memField bs 219 5 != 0 || decide (d.nrt > 4) || decide (d.nattr > 8) ||
              d.cull == 3 || d.pbuf.toNat % 256 != 0 || drawSurfacesBad s g.ctx d || drawBlendsBad s g.ctx d ||
              (refusedFor s hb hdr l.privq ph sv).isSome || stackOmitted hdr then none
            else some (s, d)

/-- The draw of a launch at a `vtxout`: bound at the first, and the same ever after. -/
def bindDraw (s : State) (g : Group) (va : DWord) : Option (State × Draw) :=
  match s.launch? g.launch with
  | none => none
  | some l => match l.draw with
    | some d => if d.ddAddr = va then some (s, d) else none
    | none => checkDraw s g l va

/-! ### vtxout (R291, R450) -/

/-- The record of primitive p. -/
def primAddr (d : Draw) (p : Nat) : DWord := d.pbuf + BitVec.ofNat 64 (256 * p)

/-- Registers of a triangle. -/
def triRegs (d : Draw) : Nat := 12 + 3 * d.nattr

/-- The same with the most attributes (R289). -/
def longestTri : Nat := 36

/-- The lanes that emit, with their primitives. -/
def emitting (g : Group) (d : Draw) (b : Code) : List (Nat × Nat) :=
  (g.activeLanes.map fun j => (j, (srcV g b j).toNat)).filter fun e => e.2 < d.nprim

/-- The records of the emitting lanes, translated as stores (R152). -/
def recordHits (s : State) (g : Group) (d : Draw) (es : List (Nat × Nat)) : Except (AccFault × Word) (List (Nat × Hit)) :=
  joinLanes (es.map fun e =>
    let va := primAddr d e.2
    (e.1, if !isGlobal va then .error ⟨.aper, va⟩
      else match resolve s (agentOf s g (some e.1)) .store va 256 with
        | .error c => .error ⟨c, va⟩
        | .ok h => .ok h))

/-- The bytes of a record: the words of the triangle, and LNUM in word 63, written last. -/
def recordCells (s : State) (g : Group) (d : Draw) (lnum c : Nat) (e : Nat × Hit) : List (Nat × Byte) :=
  (((List.range (triRegs d)).flatMap fun w => cellsAt (e.2.place + 4 * w) (bytesOfNat 4 (g.vcode (c + w) e.1).toNat)) ++
    cellsAt (e.2.place + 252) (bytesOfNat 4 lnum)).map fun x => (homeOf s x.1, x.2)

/-- The group as it writes a record: every earlier access, in every stream, precedes the write, as after an `xfence` of all
streams at package scope (R291). -/
def recordWriter (gid : Nat) (g : Group) (h : Hit) : Writer :=
  { core := some g.core, carries := (viewAt (fenceEdges gid g ⟨0xFFFF, 3⟩) 0).held, uncached := h.cp == some 3 }

/-- The records of some lanes written. -/
def writeRecords (s : State) (gid : Nat) (g : Group) (d : Draw) (lnum c : Nat) (hs : List (Nat × Hit)) : State :=
  hs.foldl (fun s e => storeBy (recordWriter gid g e.2) s (recordCells s g d lnum c e)) (markHits s (hs.map (·.2)))

/-- Another group of the core has dirty data in the L1 where a record lies (R144). -/
def recordsDirty (s : State) (g : Group) (hs : List (Nat × Hit)) : Bool :=
  (dirtyOn s g.core).any fun w => hs.any fun e => overlaps (storePlaces w.2) (hitPlaces e.2 256)

/-- `vtxout`. Every earlier access of the group is made first. Only lanes that emit read their triangles (R230, R291). -/
def execVtxout (d a b : Code) (s : State) : Outcome :=
  issue (.vtxout d a b) (fun s gid g =>
    let c := d.toNat
    match if isMigrant g then none else bindDraw s g (srcSP s g a) with
    | none => .fault .surfbad 0 0
    | some (s, dr) => match runFault g c (triRegs dr) with
      | some f => .fault f 0 0
      | none =>
        let dead := badLanes g c (triRegs dr) &&& maskOf ((emitting g dr b).map (·.1))
        match recordHits s g dr ((emitting g dr b).filter fun e => !dead.getLsbD e.1) with
        | .error f => laneFault f
        | .ok hs =>
          if !quiet g || awaitsRun g c (triRegs dr) || recordsDirty s g hs then .stall
          else
            let lnum := match s.launch? g.launch with | some l => l.lnum | none => 0
            let s := writeRecords s gid g dr lnum c hs
            let s := s.updLaunch g.launch fun l => { l with draw := some (l.draw.getD dr) }
            .plain (uceLanes s gid dead g.pc)) s

/-! ### The order of draws (R290) -/

/-- Words of a queue descriptor (R95): byte offset in the queue table. -/
def queueDesc (s : State) (q off n : Nat) : Nat := 
  valueAt s (homesFrom s (s.ctl.qtbase.toNat + 32 * q + off) n)
def queuePri (s : State) (q : Nat) : Nat := queueDesc s q 12 4 / 4 % 4

/-- Whether a launch no longer holds back the draws behind it. -/
def letsDraw (l : Launch) : Bool :=
  l.phase == .complete || match l.draw with | some d => d.ended | none => false

/-- A draw whose turn may come. -/
def startable (s : State) (lid : Nat) (l : Launch) : Bool :=
  match l.draw with
  | none => false
  | some d => d.dseq.isNone && !d.ended && l.phase == .running &&
      s.launches.all fun e => !(e.1 < lid && e.2.queue == l.queue) || letsDraw e.2

/-- The draw being rasterised. -/
def drawNow (s : State) : Option (Nat × Launch × Draw) :=
  s.launches.findSome? fun e => match e.2.draw with
    | some d => if d.dseq.isSome && !d.ended then some (e.1, e.2, d) else none
    | none => none

/-- The startable draw of the highest queue PRI, then the earliest. -/
def nextDraw (s : State) : Option (Nat × Launch) :=
  (s.launches.filter fun e => startable s e.1 e.2).foldl (fun best e => match best with
    | none => some e
    | some b => if queuePri s e.2.queue > queuePri s b.2.queue then some e else some b) none

def setDraw (s : State) (lid : Nat) (f : Draw → Draw) : State :=
  s.updLaunch lid fun l => { l with draw := l.draw.map f }

/-- DRAW_START (R290). -/
def execDrawStart (s : State) : Outcome :=
  match drawNow s, nextDraw s with
  | none, some (lid, _) =>
    .next (setDraw { s with dseq := s.dseq + 1 } lid fun d => { d with dseq := some s.dseq })
  | _, _ => .next s

/-! ### Triangles (R293) -/

/-- A point of the screen. -/
abbrev Pt := Dyad × Dyad

def dsub (a b : Dyad) : Dyad := a.add b.negate
def cross (a b : Pt) : Dyad := dsub (a.1.mul b.2) (a.2.mul b.1)
def psub (a b : Pt) : Pt := (dsub a.1 b.1, dsub a.2 b.2)

/-- A vertex: its place, depth and q. -/
structure Vertex where
  p : Pt
  z : Dyad
  q : Dyad

/-- A word of a record as an exact value; none if it is not finite. -/
def recVal (rec : List Word) (k : Nat) : Option Dyad :=
  match unpack f32 (rec.getD k 0).toNat with
  | .fin n m e => some (Val.fin n m e).dyad
  | .nan .. | .inf _ => none

def readVertex (rec : List Word) (i : Nat) : Option Vertex :=
  match recVal rec (4 * i), recVal rec (4 * i + 1), recVal rec (4 * i + 2), recVal rec (4 * i + 3) with
  | some x, some y, some z, some q => some ⟨(x, y), z, q⟩
  | _, _, _, _ => none

/-- A triangle with positive area: its vertices, which of the record each is, the area, and whether the record's own
area was positive. -/
structure Tri where
  v0 : Vertex
  v1 : Vertex
  v2 : Vertex
  idx : List Nat
  area : Dyad
  front : Bool

/-- R293: the triangle of a record, or none where it is culled. -/
def triOf (cull : Nat) (rec : List Word) : Option Tri :=
  match readVertex rec 0, readVertex rec 1, readVertex rec 2 with
  | some a, some b, some c =>
    let area := cross (psub b.p a.p) (psub c.p a.p)
    if a.q.v ≤ 0 || b.q.v ≤ 0 || c.q.v ≤ 0 || area.v == 0 || cull == 1 && decide (area.v < 0) ||
        cull == 2 && decide (area.v > 0) then none
    else if area.v > 0 then some ⟨a, b, c, [0, 1, 2], area, true⟩
    else some ⟨a, c, b, [0, 2, 1], area.negate, false⟩
  | _, _, _ => none

/-- E of the edge from u to w at a point. -/
def edge (u w p : Pt) : Dyad := cross (psub w u) (psub p u)

/-- E_0 to E_2 at a point: edge i runs from vertex i + 1 to vertex i + 2. -/
def edges (t : Tri) (p : Pt) : List Dyad := [edge t.v1.p t.v2.p p, edge t.v2.p t.v0.p p, edge t.v0.p t.v1.p p]

def inclusive (u w : Pt) : Bool :=
  let d := psub w u
  d.2.v < 0 || d.2.v == 0 && decide (d.1.v > 0)

/-- Whether a sample point is covered. -/
def covers (t : Tri) (p : Pt) : Bool :=
  let inc := [inclusive t.v1.p t.v2.p, inclusive t.v2.p t.v0.p, inclusive t.v0.p t.v1.p]
  ((edges t p).zip inc).all fun e => e.1.v > 0 || e.1.v == 0 && e.2

/-- Eighths of a pixel where a sample lies (R293). -/
def sampleOffset (ms4 : Bool) (m : Nat) : Nat × Nat :=
  if !ms4 then (4, 4) else match m with | 0 => (3, 1) | 1 => (7, 3) | 2 => (1, 5) | _ => (5, 7)

def samplePoint (ms4 : Bool) (x y m : Nat) : Pt :=
  let o := sampleOffset ms4 m
  (⟨8 * x + o.1, -3⟩, ⟨8 * y + o.2, -3⟩)

def samplesOf (ms4 : Bool) : List Nat := if ms4 then [0, 1, 2, 3] else [0]

/-- Covered samples of a pixel, one bit each. -/
def coverage (t : Tri) (h : Sfte) (x y : Nat) : Nat :=
  if !inSurface h x y then 0
  else ((samplesOf h.ms4).filter fun m => covers t (samplePoint h.ms4 x y m)).foldl (fun a m => a + 2 ^ m) 0

/-! ### Pixel groups (R294, R295) -/

/-- The pixel of lane j of a region. -/
def lanePixel (x0 y0 j : Nat) : Nat × Nat :=
  let q := j / 4
  let k := j % 4
  (x0 + 2 * (q % 4) + k % 2, y0 + 2 * (q / 4) + k / 2)

/-- SCOV of every lane of a region. -/
def regionCover (t : Tri) (h : Sfte) (r : Nat × Nat) : List Nat :=
  (List.range 32).map fun j => let p := lanePixel r.1 r.2 j; coverage t h p.1 p.2

/-- The regions of a surface with a covered sample, by increasing y0 then x0. -/
def regionsOf (t : Tri) (h : Sfte) : List (Nat × Nat) :=
  ((List.range (h.hm1 / 4 + 1)).flatMap fun y => (List.range (h.wm1 / 8 + 1)).map fun x => (8 * x, 4 * y)).filter
    fun r => (regionCover t h r).any (· != 0)

/-- The surface that bounds a draw: the first target, or the depth surface. -/
def drawSurface (s : State) (ctx : Nat) (d : Draw) : Option Sfte := ((drawHandles d).head?).bind (s.handle? ctx)

/-- The stack of a region. -/
def regionStack (r : Nat × Nat) : Nat := (r.1 / 8 + r.2 / 8) % 2

/-- The depth of a sample, clamped to [0, 1]: a quotient. -/
def sampleDepth (t : Tri) (ms4 : Bool) (x y m : Nat) : Int × Nat :=
  let es := edges t (samplePoint ms4 x y m)
  let s := (es.zip [t.v0.z, t.v1.z, t.v2.z]).foldl (fun a e => a.add (e.1.mul e.2)) (⟨0, 0⟩ : Dyad)
  let num := s.num * t.area.den
  let den := s.den * t.area.num.natAbs
  if num ≤ 0 then (0, 1) else if num ≥ den then (1, 1) else (num, den)

/-- A depth as the surface stores it. -/
def storedDepth (fmt : Nat) (z : Int × Nat) : Nat :=
  if fmt = 10 then (roundAt .rne false (z.1.toNat * 65535) z.2 false 0).1
  else (roundQuo f32 .rne false z.1 z.2).w

/-- The depth of a sample as the depth surface of a draw would store it. -/
def depthOf (s : State) (ctx : Nat) (d : Draw) (t : Tri) (x y m : Nat) : Nat :=
  match s.handle? ctx d.zh with
  | some h => storedDepth h.fmt (sampleDepth t h.ms4 x y m)
  | none => 0

/-- The fragments of a pixel group: depth with ZEN = 1, then colour for each target. -/
def fragsOf (s : State) (lid ctx : Nat) (d : Draw) (t : Tri) (prim gid : Nat) (r : Nat × Nat) (cov : List Nat) : List Frag :=
  let surfs := (if d.zen then [(d.zh, none)] else []) ++ (drawTargets d).zipIdx.map fun e => (e.1, some e.2)
  cov.zipIdx.flatMap fun c => (List.range 4).flatMap fun m =>
    if c.1 / 2 ^ m % 2 = 0 then []
    else surfs.map fun (h, k) =>
      let p := lanePixel r.1 r.2 c.2
      { lid := lid, dseq := d.dseq.getD 0, prim := prim, gid := gid, lane := c.2, handle := ctx * 4096 + h, x := p.1, y := p.2,
        sample := m, target := k, colour := none, waits := false,
        depth := if k.isNone then depthOf s ctx d t p.1 p.2 m else 0, tests := [] }

/-- The banks that hold a quad: stack, channel and bank of its first and last bytes (R22). -/
def quadBanks (h : Sfte) (x y : Nat) : List Nat :=
  let p := samplesBytes h
  let (st, off) := pixelAt h (x / 2 * 2) (y / 2 * 2) 0
  distinct [st * 4096 + (h.base + off) / 64 % 4096, st * 4096 + (h.base + off + 4 * p - 1) / 64 % 4096]

/-- Window entries of a bank for some fragments: one for each quad that the bank holds in any surface (R294); it is free once the
quad's fragments in the surfaces of that bank are gone (log 29; DESIGN CHOICE: R300 does not say whether it waits for those in
other banks). -/
def windowUse (s : State) (fs : List Frag) (bank : Nat) : Nat :=
  ((fs.filter fun f => match find s.handles f.handle with
      | some h => (quadBanks h f.x f.y).contains bank
      | none => false).map fun f => (f.gid, f.x / 2, f.y / 2)).eraseDups.length

/-- Every window that the fragments need has room for all of them (log 28; DESIGN CHOICE: R294 stalls at 256 held entries
and does not say what a group that needs several entries of one window does). -/
def windowsFree (s : State) (fs : List Frag) : Bool :=
  fs.all fun f => match find s.handles f.handle with
    | some h => (quadBanks h f.x f.y).all fun b => windowUse s s.frags b + windowUse s fs b ≤ 256
    | none => true

/-- A pixel group in its initial state. -/
def pixelOf (g : Group) (d : Draw) (prim : Nat) (rec : List Word) (front : Bool) (r : Nat × Nat) (cov : List Nat) :
    Group :=
  let mask := maskOf ((List.range 32).filter fun j => cov.getD j 0 != 0)
  let info : PixelInfo :=
    { dseq := d.dseq.getD 0, prim := prim, record := rec, x0 := r.1, y0 := r.2,
      scov := (cov.zipIdx.filter fun c => c.1 != 0).map fun c => (c.2, c.1), ztDone := false, tested := 0, sent := [], zwritten := 0 }
  let v0 := (List.range 32).map fun j =>
    let p := lanePixel r.1 r.2 j
    (elemOf 0 j, BitVec.ofNat 32 (p.1 + p.2 * 65536))
  let v1 := cov.zipIdx.map fun c => (elemOf 1 c.2, BitVec.ofNat 32 c.1)
  { g with
    kind := .pixel info, amask := mask, lmask := mask, v := puts 0 [] (v0 ++ v1),
    s := puts 0 [] [(0, BitVec.ofNat 32 prim), (1, BitVec.ofNat 32 info.dseq), (2, if front then 1 else 0)] }

/-- The WID of a pixel group (R295). -/
def pixelWid (prim : Nat) (r : Nat × Nat) : DWord :=
  BitVec.ofNat 64 (r.1 / 8 + r.2 / 4 * 65536 + prim * 2 ^ 32)

/-- A pixel group created for a region, if it fits and its windows have room. What has been done, the emitters' accesses
among it, precedes its accesses (R291, log 4). -/
def createPixel (s : State) (lid : Nat) (l : Launch) (d : Draw) (prim : Nat) (rec : List Word) (t : Tri) (h : Sfte)
    (r : Nat × Nat) : Option State :=
  let lp := { l with hdr := d.pixHdr }
  let cov := regionCover t h r
  match bestCluster s d.pixHdr 1 fun cl => stackOfDie (dieOfCluster cl) == regionStack r with
  | none => none
  | some cl => match coreFor s d.pixHdr cl, freeSlice s cl d.pixHdr.spad with
    | some core, some base => match pickSlot (slotGroups s core) with
      | none => none
      | some slot =>
        let (bid, s) := s.freshId
        let s := s.setBlock bid (Block.fresh lid cl base (pixelWid prim r) d.pixHdr.spad true)
        let fs := fragsOf s lid l.ctx d t prim s.nextId r cov
        if !windowsFree s fs then none
        else
          let g := newGroup lp lid bid core slot (get 0 (s.coreAt core).gens slot) (pixelWid prim r) d.pixHdr.entry
            (freeStack (stacksHeld s lid))
          some (addGroup { s with frags := s.frags ++ fs } (seeAll s .all (pixelOf g d prim rec t.front r cov)))
    | _, _ => none

/-! ### Rasterisation (R292) -/

/-- A field of the draw descriptor written by the device; an address that fails drops it. -/
def drawWrite (s : State) (l : Launch) (d : Draw) (off n v : Nat) : State :=
  match resolve s (ctxAgent l.root d.priv d.secure) .store (d.ddAddr + BitVec.ofNat 64 off) n with
  | .error _ => s
  | .ok h => markHit (storeHit s h n v) h

/-- Every group of the launch but its pixel groups has retired, and none is to come. -/
def emittersGone (s : State) (lid : Nat) (l : Launch) : Bool :=
  decide (numBlocks l.hdr ≤ l.cursor) && l.savedBlocks.isEmpty &&
  (groupsOfLaunch s lid).all fun e => isPixel e.2

/-- The words of the record of a primitive, if its word 63 is LNUM. A record whose address no longer translates counts as
not emitted (log 27; DESIGN CHOICE: R292 does not say). The read is an access (R151, R159), whatever it finds. -/
def emitted (s : State) (l : Launch) (d : Draw) (p : Nat) : State × Option (List Word) :=
  match ctxRead s (ctxAgent l.root d.priv d.secure) (primAddr d p) 256 with
  | none => (s, none)
  | some (s, bs) =>
    (s, if memField bs 2016 32 = l.lnum then
      some ((List.range (triRegs d)).map fun k => BitVec.ofNat 32 (memField bs (32 * k) 32))
    else none)

/-- The end of rasterisation: NEXT := NPRIM, and the primitives never emitted in MISS. -/
def endRaster (s : State) (lid : Nat) (l : Launch) (d : Draw) : State :=
  let s := drawWrite (drawWrite s l d 34 2 d.miss) l d 20 4 d.nprim
  setDraw s lid fun d => { d with ended := true }

/-- What the front end of a stack has in hand. -/
def inHand (s : State) (st : Nat) : List RasterNow := get [] s.raster st
def setHand (s : State) (st : Nat) (rs : List RasterNow) : State := { s with raster := put [] s.raster st rs }

/-- A primitive given to the front ends, each its own stack's regions. -/
def giveFronts (s : State) (r : RasterNow) : State :=
  [0, 1].foldl (fun s st => match r.regions.filter fun x => regionStack x == st with
    | [] => s
    | rs => setHand s st (inHand s st ++ [{ r with regions := rs }])) s

/-- The next primitive of the draw; one that covers no sample of any surface makes no pixel group, nor does any of a draw with
NRT = 0 and ZEN = 0, which names no surface (log 29; DESIGN CHOICE: R289 lets it pass, R294 gives it no bounds). For a front end that has none in hand; a pre-emption stops rasterisation before it, and
the draw starts anew later (R295). Rasterisation ends once both front ends are done. -/
def nextPrimitive (s : State) (lid : Nat) (l : Launch) (d : Draw) : State :=
  if l.phase = .preempting then
    if s.raster.isEmpty then setDraw (drawWrite s l d 20 4 d.next) lid fun d => { d with dseq := none } else s
  else if d.next ≥ d.nprim then (if s.raster.isEmpty then endRaster s lid l d else s)
  else
    let on := fun (s : State) => setDraw s lid fun d => { d with next := d.next + 1 }
    match emitted s l d d.next with
    | (s, none) =>
      if emittersGone s lid l then
        on (setDraw s lid fun d => { d with miss := min 65535 (d.miss + 1) })
      else s
    | (s, some rec) => match triOf d.cull rec, drawSurface s l.ctx d with
      | some t, some h => match regionsOf t h with
        | [] => on s
        | rs => on (giveFronts s ⟨lid, d.next, rec, rs⟩)
      | _, _ => on s

/-- The next pixel group of what the front end of a stack has in hand: none where it has nothing, or stalls. -/
def advanceFront (s : State) (lid : Nat) (l : Launch) (d : Draw) (st : Nat) : Option State :=
  match inHand s st with
  | [] => none
  | r :: more => match r.regions, triOf d.cull r.record, drawSurface s l.ctx d with
    | reg :: rest, some t, some h => (createPixel s lid l d r.prim r.record t h reg).map fun s =>
        setHand s st (if rest.isEmpty then more else { r with regions := rest } :: more)
    | _, _, _ => some (setHand s st more)

/-- PRIMITIVE_RASTERISE (R292 to R295): the next pixel group of a front end, or, while one has nothing in hand, the next
primitive. -/
def execPrimitiveRasterise (s : State) : Outcome :=
  match drawNow s with
  | none => .next s
  | some (lid, l, d) => match [0, 1].findSome? (advanceFront s lid l d) with
    | some s' => .next s'
    | none => .next (if [0, 1].all fun st => !(inHand s st).isEmpty then s else nextPrimitive s lid l d)

end Sys2Proof.Machine
end

