-- ==== Sys2Proof/Machine/Spills.lean ====
section
/-! DEFINITION. Surface memory as it is given out (R158 to R161, R281, R282, R304, R457): victims and room, spilling
and restoring a handle (R160, R286, R287), the LLC partition (R24, R25), and GDDR 7 frames on the move (R157). -/

namespace Sys2Proof.Machine

open Assoc Bits

/-! ### Room (R24, R159, R161) -/

/-- The first stack offset of the LLC rows under a size (R24). -/
def llcStart (k : BitVec 3) : Nat := (16384 - 2048 * k.toNat) * 2 ^ 18

/-- The first offset of the LLC rows of a stack; while a size change is in progress, under the larger size (log 14). -/
def llcLimit (s : State) (stack : Nat) : Nat :=
  let k := s.stackAt stack
  if k.busy then min (llcStart k.llcsz) (llcStart k.target) else llcStart k.llcsz

/-- An alignment of BASE (R284, R285). -/
def baseAlign (h : Sfte) : Nat := if isRaw h then 2 ^ 18 else 256

/-- Two extents share no byte. -/
def apart (a b : Sfte) : Bool := a.base + handleBytes a ≤ b.base || b.base + handleBytes b ≤ a.base

/-- The rows of a handle lie below the LLC rows of both stacks, and share none with a handle of a list. -/
def rowsFree (s : State) (h : Sfte) (hs : List (Nat × Sfte)) : Bool :=
  h.base + handleBytes h ≤ llcLimit s 0 && h.base + handleBytes h ≤ llcLimit s 1 && hs.all fun e => apart h e.2

/-- Handles whose rows are taken: all but the spilled ones. -/
def takers (s : State) : List (Nat × Sfte) := s.handles.filter fun e => e.2.state != .spilled

/-- A BASE within the bounds of R159. -/
def baseOk (s : State) (h : Sfte) (base : Nat) : Bool :=
  base % baseAlign h == 0 && rowsFree s { h with base := base } (takers s)

/-- The lowest such BASE (log 6). -/
def lowestBase (s : State) (h : Sfte) : Option Nat :=
  let a := baseAlign h
  let ends := (takers s).map fun e => (e.2.base + handleBytes e.2 + a - 1) / a * a
  ((0 :: ends).filter (baseOk s h)).foldl (fun m b => match m with | some x => some (min x b) | none => some b) none

/-! ### Pins and victims (R159, R281, R304) -/

/-- A near-bank or Prospector command names the handle. -/
def pinned (s : State) (key : Nat) : Bool := s.ops.any fun e => e.2.pins.contains key

/-- A draw that has not completed is bound to the handle. -/
def drawn (s : State) (key : Nat) : Bool :=
  s.launches.any fun e => e.2.phase != .complete && match e.2.draw with
    | some d => (drawHandles d).any fun h => e.2.ctx * 4096 + h == key
    | none => false

/-- A handle goes before another: lower priority, then less recently used, then the lower context and handle. -/
def spillsBefore (a b : Nat × Sfte) : Bool :=
  a.2.pri < b.2.pri || a.2.pri == b.2.pri &&
    (a.2.lastUse < b.2.lastUse || a.2.lastUse == b.2.lastUse && a.1 < b.1)

/-- The first of some handles in that order. -/
def firstToGo : List (Nat × Sfte) → Option (Nat × Sfte)
  | [] => none
  | e :: es => match firstToGo es with
    | none => some e
    | some b => if spillsBefore b e then some b else some e

/-- The victim of an allocation. -/
def victim (s : State) (pri : Nat) : Option Nat :=
  (firstToGo (s.handles.filter fun e => e.2.state == .resident && !pinned s e.1 && decide (e.2.pri ≤ pri))).map (·.1)

def setHandleState (s : State) (key : Nat) (st : HandleState) : State :=
  { s with handles := upd s.handles key fun h => { h with state := st } }

/-! ### Spilling and restoring (R160, R161) -/

/-- SPILL_FLIP (R160): every tile has been copied, and the handle flips to spilled. -/
def execSpillFlip (ctx hn : Nat) (s : State) : Outcome :=
  match s.handle? ctx hn with
  | none => .next s
  | some h =>
    if h.state ≠ .spilling then .next s
    else .next (setHandleState (forgetCopies (toCompressor s (ctx * 4096 + hn) h)) (ctx * 4096 + hn) .spilled)

/-- RESTORE_FLIP (R161): every tile has been copied back, and the handle flips to resident. -/
def execRestoreFlip (ctx hn : Nat) (s : State) : Outcome :=
  match s.handle? ctx hn with
  | none => .next s
  | some h =>
    if h.state ≠ .restoring then .next s
    else .next (setHandleState (forgetCopies (toBanks s (ctx * 4096 + hn) h)) (ctx * 4096 + hn) .resident)

/-! ### Restores (R161) -/

/-- A handle is restored before another: higher priority, then the lower context and handle. -/
def restoresBefore (a b : Nat × Sfte) : Bool := a.2.pri > b.2.pri || a.2.pri == b.2.pri && a.1 < b.1

/-- Spilled handles in the order in which they are restored. -/
def insertRestore (e : Nat × Sfte) : List (Nat × Sfte) → List (Nat × Sfte)
  | [] => [e]
  | b :: bs => if restoresBefore e b then e :: b :: bs else b :: insertRestore e bs

def restoreOrder (s : State) : List (Nat × Sfte) :=
  (s.handles.filter fun e => e.2.state == .spilled).foldl (fun l e => insertRestore e l) []

/-- Spilled handles that fit begin to be restored, as after each SFFREE and each launch completion. -/
def startRestores (s : State) : State :=
  (restoreOrder s).foldl (fun s e =>
    if rowsFree s e.2 ((takers s).filter fun x => x.1 != e.1) then setHandleState s e.1 .restoring else s) s

/-! ### Allocation and freeing (R159, R282, R457) -/

/-- The entry of an image of 32 bytes (R282). -/
def readSfte (bs : List Byte) : Sfte :=
  { spill := memField bs 192 64, rmap := memField bs 128 64, base := 0, hm1 := memField bs 82 14, wm1 := memField bs 68 14,
    pri := memField bs 64 4, fmt := memField bs 59 5, ms4 := memField bs 58 1 == 1, layout := memField bs 56 2,
    comp := memField bs 54 2, state := .resident, serial := 0, lastUse := 0 }

/-- An image that stops its queue (R282). -/
def sfteBad (bs : List Byte) : Bool :=
  let h := readSfte bs
  memField bs 0 54 != 0 || decide (h.fmt ≥ 12) || decide (h.layout ≥ 2) || decide (h.comp ≥ 2) ||
  (h.layout == 1) != (h.fmt == 11) || (h.layout == 1 && (h.wm1 != 0 || h.ms4)) || h.spill % 65536 != 0 ||
  h.rmap % 64 != 0

/-- BASE written into the image; a mapping that has changed drops it. -/
def writeBase (s : State) (r : AllocReq) (base : Nat) : State :=
  match resolve s (ctxAgent (contextRoot s r.ctx) r.priv false) .store (r.image + 12) 4 with
  | .ok h => markHit (storeHit s h 4 base) h
  | .error _ => s

/-- The handle allocated at a BASE, its status written. -/
def allocateAt (s : State) (r : AllocReq) (base : Nat) : State :=
  let (n, s) := s.freshId
  let s := s.setHandle r.ctx r.handle { r.entry with base := base, serial := n }
  statusWord (writeBase s r base) r.status (if r.spilled then 2 else 1)

/-- What an allocation comes to for now. -/
inductive AllocStep where
  | done (s : State)
  | waits (s : State) (r : AllocReq)

/-- One act of an allocation (R159): the BASE that the device proposes if the bounds admit it, else the lowest; where no
BASE fits, a restore is abandoned, or a spill in progress awaited, or a victim spilled. -/
def allocAct (s : State) (r : AllocReq) (base : Nat) : AllocStep :=
  if (s.handle? r.ctx r.handle).isSome then .done (statusWord s r.status 4)
  else if baseOk s r.entry base then .done (allocateAt s r base)
  else match lowestBase s r.entry with
  | some b => .done (allocateAt s r b)
  | none => match firstToGo (s.handles.filter fun e => e.2.state == .restoring) with
    | some e => .waits (setHandleState s e.1 .spilled) r
    | none =>
      if s.handles.any fun e => e.2.state == .spilling then .waits s r
      else match victim s r.entry.pri with
        | some k => .waits (setHandleState s k .spilling) { r with spilled := true }
        | none => .done (statusWord s r.status 3)

/-- The handle freed in whatever state (R457); then restores begin (R161). -/
def freeHandle (s : State) (key : Nat) : State :=
  let s := { s with handles := erase s.handles key }
  startRestores (zeroRange (zeroRange s (shadowLoc key 0 0) (2 ^ 33)) (shadowLoc key 1 0) (2 ^ 33))

/-! ### The LLC partition (R24, R25) -/

/-- SMCFG as it reads (R24). -/
def smcfg (k : Stack) : Word :=
  BitVec.ofNat 32 ((if k.refused then 512 else 0) + (if k.busy then 256 else 0) + k.llcsz.toNat)

/-- Handles with bytes in rows that join the LLC spill (R25); a pinned one waits (R281). A restore into such rows is
abandoned at once (log 28; DESIGN CHOICE: R25 names resident handles only, and R161 abandons a restore for an allocation). -/
def clearLlcRows (s : State) (stack : Nat) : State :=
  let lim := llcStart (s.stackAt stack).target
  { s with handles := s.handles.map fun e =>
      if e.2.base + handleBytes e.2 ≤ lim then e
      else match e.2.state with
        | .resident => if pinned s e.1 then e else (e.1, { e.2 with state := .spilling })
        | .restoring => (e.1, { e.2 with state := .spilled })
        | .spilling | .spilled => e }

/-- SMCFG written (R24, R25). -/
def writeSmcfg (s : State) (stack : Nat) (v : Word) : State :=
  let k := s.stackAt stack
  let n := field v 0 3
  let k := { k with refused := (k.refused && !bit v 9) || decide (n.toNat > 4) }
  if n.toNat > 4 ∨ k.busy ∨ n = k.llcsz then s.setStack stack k
  else clearLlcRows (s.setStack stack { k with busy := true, target := n }) stack

/-- LLCSZ_WRITE (R25). -/
def execLlcszWrite (stack : Nat) (v : Word) (s : State) : Outcome :=
  .next (if stack < 2 then writeSmcfg s stack v else s)

/-- LLC_RESIZE_COMPLETE (R25): once no handle lies in rows that join the LLC; its lines are written back and go. -/
def execLlcResizeComplete (stack : Nat) (s : State) : Outcome :=
  let k := s.stackAt stack
  if !k.busy then .next s
  else
    let s := clearLlcRows s stack
    if (takers s).any fun e => e.2.base + handleBytes e.2 > llcStart k.target then .next s
    else .next ({ s with llc := s.llc.filter fun e => stackOfLine e.1 != stack }.setStack stack
      { k with busy := false, llcsz := k.target })

/-! ### Frames on the move (R157) -/

/-- Where a frame lies now. -/
def frameAt (s : State) (f : Nat) : Nat := get f s.frames f

/-- A frame of GDDR 7. -/
def isFrame (f : Nat) : Bool := decide (f < gddrEnd / 65536)

/-- FRAME_MIGRATION (R157): the controller of frame `src` begins to move it to frame `dst` of the same device. From
here on writes apply to both copies. -/
def execFrameMigration (src dst : Nat) (s : State) : Outcome :=
  if !isFrame src || !isFrame dst || src % 32 != dst % 32 || dst == frameAt s src ||
      s.moves.any fun m => m.1 == src || m.2 == dst then .next s
  else .next { copyRange s (frameAt s src * 65536) (dst * 65536) 65536 with moves := s.moves ++ [(src, dst)] }

/-- FRAME_MIGRATION_FLIP (R157): the entry flips in one step; no cache keeps a line of the old frame. -/
def execFrameMigrationFlip (src : Nat) (s : State) : Outcome :=
  match s.moves.find? fun m => m.1 == src with
  | none => .next s
  | some (_, dst) => .next { forgetCopies s with
      llc := s.llc.filter fun e => e.1 / 512 != frameAt s src,
      moves := s.moves.filter (·.1 != src),
      frames := if dst = src then erase s.frames src else set s.frames src dst }

end Sys2Proof.Machine
end

