-- ==== Sys2Proof/Machine/Completion.lean ====
section
/-! DEFINITION. The end of a launch (R87, R102, R325): completion, confirmation and suspicion, the deadline. -/

namespace Sys2Proof.Machine

open Assoc Bits

/-- A record of the launch is at a landing or on its way to one. -/
def recordsOf (s : State) (lid : Nat) : Bool :=
  (s.conts.any fun c => c.launch == lid && c.fromPkg == s.pkgid) ||
  s.cores.any fun e => e.2.pools.any fun p => p.launch == lid

/-- Every ROP write of a draw has reached its home, and its rasterisation has ended (R292). -/
def drawDone (s : State) (lid : Nat) (l : Launch) : Bool :=
  match l.draw with
  | none => true
  | some d => d.ended && s.frags.all (·.lid != lid)

/-- Nothing of a launch is left to run or to save: its last group has retired, every block has been placed, and a draw
has been split to its end. -/
def allExited (s : State) (lid : Nat) (l : Launch) : Bool :=
  decide (numBlocks l.hdr ≤ l.cursor) && l.savedBlocks.isEmpty && (groupsOfLaunch s lid).isEmpty && l.draw.all (·.ended)

/-- R87: what a launch must have finished. -/
def launchDone (s : State) (lid : Nat) (l : Launch) : Bool :=
  (l.phase == .running || l.phase == .preempting) && allExited s lid l && !(s.ops.any fun e => e.2.launch == lid && e.2.group.isSome) && !recordsOf s lid &&
  drawDone s lid l

/-- The status of a launch that has completed (R102, R325): none while CONF = 1 awaits confirmation. A suspect launch is
reported if CONF = 0. -/
def finalLaunchStatus (l : Launch) : Option Nat :=
  if l.suspect then some 3 else if l.confirmed || !l.hdr.conf then some 2 else none

def writeFinal (s : State) (lid : Nat) : State :=
  match s.launch? lid with
  | none => s
  | some l => match finalLaunchStatus l with
    | none => s
    | some v =>
      let s := if v = l.statusWas then s else launchStatus s lid v
      if v = 3 && l.statusWas != 3 && !l.hdr.conf then report s (.suspect lid) else s

/-- LAUNCH_COMPLETE (R87, R242, R325): completion is signalled once; a pre-emption of the launch reports that nothing
was saved; spilled handles that fit now are restored. -/
def execLaunchComplete (lid : Nat) (s : State) : Outcome :=
  match s.launch? lid with
  | none => .next s
  | some l =>
    if !launchDone s lid l then .next s
    else
      let s := match l.preempt with
        | some p => dropRef (statusWord s p.status 4) (.preempt lid)
        | none => s
      let s := s.setLaunch lid { l with
        phase := .complete, preempt := none, confirmed := l.ranOn.isEmpty && !l.suspect }
      .next (startRestores (dropRef (writeFinal s lid) (.launch lid)))

/-- DEADLINE_PASSED (R102): status 5, and the launch continues. A deadline that passes before the first block is resident
writes 5 as well, and then no 1 (log 26; DESIGN CHOICE: R102 does not say). -/
def execDeadlinePassed (lid : Nat) (s : State) : Outcome :=
  match s.launch? lid with
  | none => .next s
  | some l =>
    if (l.phase != .running && l.phase != .preempting) || l.hdr.deadline == 0 || l.pastDeadline ||
        decide (s.primaryTime.toNat ≤ l.hdr.deadline.toNat) then .next s
    else .next ((launchStatus s lid 5).updLaunch lid fun l => { l with pastDeadline := true })

/-- A core has passed a scan: no launch waits for it any more, and those complete that wait for none are confirmed
(R325). -/
def corePassed (s : State) (core : Nat) : State :=
  let s := { s with launches := s.launches.map fun e =>
    let ran := e.2.ranOn.filter (· != core)
    (e.1, { e.2 with ranOn := ran, confirmed := e.2.confirmed || (e.2.phase == .complete && ran.isEmpty && !e.2.suspect) }) }
  (keys s.launches).foldl (fun s lid => match s.launch? lid with
    | some l => if l.phase = .complete then writeFinal s lid else s
    | none => s) s

/-- A core has failed its scan: every launch that still waited for it is suspect (R325). -/
def coreSuspect (s : State) (core : Nat) : State :=
  let s := { s with launches := s.launches.map fun e =>
    if e.2.ranOn.contains core then (e.1, { e.2 with suspect := true }) else e }
  (keys s.launches).foldl (fun s lid => match s.launch? lid with
    | some l => if l.phase = .complete then writeFinal s lid else s
    | none => s) s

end Sys2Proof.Machine
end

