-- ==== Sys2Proof/Machine/Hops.lean ====
section
/-! DEFINITION. Owners and the sending of lanes (R188 to R196, R207, R208), and the instructions of major 32: `hop`,
`hopx`, `owner`, `hopcfg`, `hopback` and `rejoin` (R202, R205, R382 to R386, R400, R404). -/

namespace Sys2Proof.Machine

open Assoc Bits

/-! ### Owners (R188, R189) -/

/-- The core that owns a physical address of a package. -/
def ownerCore (pa : Nat) : Nat :=
  if surfBase ≤ pa ∧ pa < surfEnd then
    (2 * surfStack pa + 1) * 144 + surfOff pa / 2048 % 128
  else
    let c := pa / 65536 % 32
    (if c < 16 then 0 else 288) + 9 * (c % 16) + pa / 2 ^ 21 % 65536 % 9

/-- An owner identifier. -/
def ownerWord (s : State) (g : Group) (nres : Bool) (pkg core : Nat) : Word :=
  BitVec.ofNat 32 ((if nres then 2 ^ 29 else 0) + (if pkg = s.pkgid ∧ core = g.core then 2 ^ 28 else 0) +
    pkg % 2 ^ 18 * 1024 + core % 1024)

/-- The owner of a global address: steps 1 and 7 of R151 alone. -/
def globalOwner (s : State) (g : Group) (va : DWord) : Except Cause Word :=
  match walk s (agentOf s g none).root va with
  | none => .error .nomap
  | some (_, e, big) =>
    let pa := leafPa e big va
    if !entRes e then .ok (ownerWord s g true s.pkgid g.core)
    else if entFab e then
      .ok (ownerWord s g false (entNode e) (if populated pa then ownerCore pa else Config.strayOwner (entNode e) pa))
    else if !populated pa || surfBase ≤ pa && inLlc s (surfStack pa) (surfOff pa) then .error .nomap
    else .ok (ownerWord s g false s.pkgid (ownerCore pa))

/-- The owner identifier of an address (R188): the steering of R135 and R136, then the walk. No access is made, so the
bounds of R137 and R138 do not apply (log 10). -/
def ownerOf (s : State) (g : Group) (va : DWord) : Except Cause Word :=
  match aperture va with
  | .spad _ | .lane _ | .shaft _ => .ok (ownerWord s g false s.pkgid g.core)
  | .user => globalOwner s g va
  | .privileged => if g.priv then globalOwner s g va else .error .aper
  | .none => .error .aper

/-- The owners of the active lanes; R152 if any fails. -/
def laneOwners (s : State) (g : Group) (a : Code) : Except (AccFault × Word) (List (Nat × Word)) :=
  let rs := g.activeLanes.map fun j => (j, srcVP g a j, ownerOf s g (srcVP g a j))
  let bad := rs.filterMap fun e => match e.2.2 with | .error c => some (e.1, AccFault.mk c e.2.1) | .ok _ => none
  match bad with
  | [] => .ok (rs.filterMap fun e => match e.2.2 with | .ok w => some (e.1, w) | .error _ => none)
  | (_, f) :: _ => .error (f, maskOf ((bad.filter fun e => e.2.cause == f.cause).map (·.1)))

def ownNres (w : Word) : Bool := bit w 29
def ownPkg (w : Word) : Nat := fieldNat w 10 18
def ownCore (w : Word) : Nat := fieldNat w 0 10

/-- `owner` (R190, R400). -/
def execOwner (d a : Code) (nw : Bool) (s : State) : Outcome :=
  issue (.owner d a nw) (fun s gid g => match laneOwners s g a with
    | .error f => .fault f.1.cause f.2 f.1.addr
    | .ok os =>
      let f := get (0 : Word) os
      .done (s.setGroup gid (writeV g d nw f)) (vecLatch g f) 0 0) s

/-! ### Sending (R193 to R196) -/

/-- HOPMAX as it counts (R191): 0 reads as 1; in a migrant, the HMAX of the lowest live lane. -/
def hopLimit (g : Group) : Nat :=
  match g.kind with
  | .home | .pixel _ => if g.cont.hopmax = 0 then 1 else g.cont.hopmax.toNat
  | .migrant .. => match lowestOrigin g with
    | some o => o.hmax
    | none => 0

def podOf (s : State) (lid : Nat) : Nat := match s.launch? lid with | some l => l.hdr.podid | none => 0

/-- The origin of a lane that leaves: its home, the registers it carries, one hop more. What the counters of CLK count the
spec leaves to the device (R196): a free value (log 10). -/
def originFor (s : State) (g : Group) (j : Nat) : Origin :=
  match find (originsOf g) j with
  | some o => { o with carry := g.cont.hopcfg, hops := o.hops + 1, clock := Config.clkCounters s.ctr j }
  | none =>
    { carry := g.cont.hopcfg, hops := 1, hmax := hopLimit g, hwid := g.wid, hpkg := s.pkgid, hcore := g.core,
      hslot := g.slot, hlane := j, gen := g.gen, podid := podOf s g.launch, ltag := g.launch % 65536,
      priv := g.priv, pix := isPixel g, clock := Config.clkCounters s.ctr j }

/-- The carried registers of a lane under the group's window (R195). -/
def carried (g : Group) (carry : BitVec 16) (j : Nat) : List Word :=
  (List.range 16).map fun i => if carry.getLsbD i then g.vcode i j else 0

def carriedBad (g : Group) (carry : BitVec 16) (j : Nat) : List Nat :=
  (List.range 16).filter fun i => carry.getLsbD i && g.badV.contains (elemOf (g.wb + i) j)

/-- A lane refused at once at its sender (R193, R207, R386): the KIND of its return. -/
def refusedAt (s : State) (o : Origin) (pkg core : Nat) : Option Nat :=
  if o.hops > o.hmax then some 5
  else if core > 575 then some 4
  else if pkg = s.pkgid then (if (s.coreAt core).oos then some 4 else none)
  else if o.podid = 0 || unreachable s pkg then some 4
  else none

/-- An entry in the return store of a home lane (R204). -/
def addEntry (g : Group) (j : Nat) (e : RetEntry) : Group :=
  { g with cont := { g.cont with rets := set g.cont.rets j e } }

/-- What a group's accesses were and followed, as the lanes that leave it take it along: every access of a stream precedes
every access that the lane makes next in that stream (R185); a migrant's, what its lanes do at home after their return too. -/
def viewsAlong (g : Group) : Map View :=
  let away := isMigrant g
  (g.view.map fun e => (e.1, { View.none with
    came := joinSeen (if away then e.2.came else []) e.2.along, mine := joinSeen (if away then e.2.mine else []) e.2.did,
    along := if away then e.2.along else [], did := if away then e.2.did else [] })).filter (·.2 != View.none)

/-- The record of a lane. -/
def contFor (s : State) (g : Group) (o : Origin) (j pkg core : Nat) : Cont :=
  { pkg := pkg, core := core, fromPkg := s.pkgid, fromCore := g.core,
    fromSlot := match g.kind with | .migrant k _ => some k | .home | .pixel _ => none,
    launch := g.launch, rpc := g.pc + 4, key := (List.range 4).map g.scalar, fmt := g.fmt,
    vals := carried g o.carry j, bad := carriedBad g o.carry j, clk := viewsAlong g, pkey := s.key, org := o }

/-- One lane sent. A migrant that sends a lane to another package tells the lane's home first (R208). -/
def sendLane (g : Group) (gid : Nat) (s : State) (e : Nat × Word) : State :=
  let j := e.1
  let pkg := ownPkg e.2
  let o := originFor s g j
  match refusedAt s o pkg (ownCore e.2) with
  | some kind =>
    if isMigrant g then sendReturn s (bareReturn s kind g.view o)
    else s.updGroup gid fun g => addEntry g j (.bare kind)
  | none =>
    let s := if isMigrant g && pkg != s.pkgid then
      { s with notices := s.notices ++ [⟨o.hpkg, o.hcore, o.hslot, o.gen, o.hlane, pkg, s.key⟩] } else s
    let s := { s with conts := s.conts ++ [contFor s g o j pkg (ownCore e.2)] }
    if isMigrant g then s
    else s.updGroup gid fun g => { g with cont := { g.cont with sites := set g.cont.sites j pkg } }

/-- The lanes that have left, after they were sent. -/
def leaveLanes (g : Group) (out : Word) : Group :=
  let g := { g with amask := g.amask &&& ~~~out }
  if isMigrant g then { g with lmask := g.lmask &&& ~~~out } else { g with away := g.away ||| out }

/-- The owner is this core: the lane stays. -/
def staysHere (s : State) (g : Group) (w : Word) : Bool := ownPkg w == s.pkgid && ownCore w == g.core

/-- Lanes for which a record is queued: those that no rule refuses at once. -/
def queuedLanes (s : State) (g : Group) (out : List (Nat × Word)) : List (Nat × Word) :=
  out.filter fun e => (refusedAt s (originFor s g e.1) (ownPkg e.2) (ownCore e.2)).isNone

/-- Records in the outbound buffer of a core, of its home groups (R193). -/
def outbound (s : State) (core : Nat) : List Cont :=
  s.conts.filter fun c => c.fromPkg == s.pkgid && c.fromCore == core && c.fromSlot.isNone

/-- The lanes sent, once the group's accesses are made: a home group then stands Stalled until its records have left. -/
def sendOut (out : List (Nat × Word)) (m7 : Word) (s : State) (gid : Nat) (g : Group) : Effect :=
  let out := out.filter fun e => g.live e.1
  let s' := { out.foldl (sendLane g gid) s with ctr := s.ctr + 1 }
  let s' := s'.updGroup gid fun g => refreshLevels s' (leaveLanes (g.orM7 m7) (maskOf (out.map (·.1))))
  if isMigrant g || (queuedLanes s g out).isEmpty then .plain s'
  else .park (s'.updGroup gid fun g => { g with status := .parked .hop })

/-- R193, the owners being known. A home group waits for room for its records in the outbound buffer, in `hop` (R383). The earlier accesses of
the lanes are made first (log 10). -/
def sendLanes (os : List (Nat × Word)) (nres : Bool) (s : State) (gid : Nat) (g : Group) : Effect :=
  if (List.range 16).any fun i => g.cont.hopcfg.getLsbD i && g.wb + i ≥ g.vregs then .fault .window 0 0
  else
    let out := os.filter fun e => !staysHere s g e.2
    let m7 := if nres then maskOf ((os.filter fun e => staysHere s g e.2 && ownNres e.2).map (·.1)) else 0
    if out.isEmpty then .plain (s.setGroup gid (g.orM7 m7))
    else if !isMigrant g && Config.outbound < (outbound s g.core).length + (queuedLanes s g out).length then
      .hold (s.setGroup gid { g with status := .parked .room })
    else
      let s := quiesce s gid
      match s.group? gid with
      | none => .gone s
      | some g => if g.status == .ready then sendOut out m7 s gid g else .gone s

/-- `hop` (R193, R382, R383). -/
def execHop (a : Code) (s : State) : Outcome :=
  issue (.hop a) (fun s gid g => match laneOwners s g a with
    | .error f => .fault f.1.cause f.2 f.1.addr
    | .ok os => sendLanes os true s gid g) s

/-- `hopx` (R193, R386). -/
def execHopx (a : Code) (s : State) : Outcome :=
  issue (.hopx a) (fun s gid g => sendLanes (g.activeLanes.map fun j => (j, srcV g a j)) false s gid g) s

/-- `hopcfg` (R192, R385). -/
def execHopcfg (a : Code) (s : State) : Outcome :=
  issue (.hopcfg a) (fun s gid g =>
    .plain (s.setGroup gid { g with cont := { g.cont with hopcfg := field (srcS s g a) 0 16 } })) s

/-! ### Coming home (R202 to R206) -/

/-- Every live lane of a migrant returned with its values. -/
def returnValues (s : State) (g : Group) : State :=
  (lanesOf g.lmask).foldl (fun s j => match find (originsOf g) j with
    | some o => sendReturn s { bareReturn s 1 g.view o with
        vals := carried g o.carry j, bad := carriedBad g o.carry j }
    | none => s) s

/-- `hopback` (R202, R384). -/
def execHopback (s : State) : Outcome :=
  issue .hopback (fun s gid g =>
    if !isMigrant g then .plain s
    else if !quiet g then .stall
    else .gone (retire (returnValues s g) gid)) s

/-- The entries of the away lanes, by lane. -/
def awayEntries (g : Group) : List (Nat × RetEntry) :=
  (lanesOf g.away).filterMap fun j => (find g.cont.rets j).map fun e => (j, e)

/-- WINDOW at `rejoin` (R205): a returned register that the window does not hold. -/
def rejoinWindow (g : Group) : Bool :=
  (awayEntries g).any fun e => e.2.kind == 1 &&
    (List.range 16).any fun i => e.2.carry.getLsbD i && g.wb + i ≥ g.vregs

/-- Value i of an entry written to its lane. -/
def applyValue (j : Nat) (e : RetEntry) (g : Group) (i : Nat) : Group :=
  if e.carry.getLsbD i then
    let g := g.setElem i j (e.vals.getD i 0)
    if e.bad.contains i then { g with badV := g.badV ++ [elemOf (g.wb + i) j] } else g
  else g

/-- One entry applied. -/
def applyEntry (g : Group) (e : Nat × RetEntry) : Group :=
  let j := e.1
  let g := if e.2.kind = 1 then (List.range 16).foldl (applyValue j e.2) g else g
  let g := if e.2.kind = 3 then { g with lmask := setBit g.lmask j false } else g
  { g with away := setBit g.away j false, amask := if g.lmask.getLsbD j then setBit g.amask j true else g.amask,
           cont := { g.cont with rets := erase g.cont.rets j, sites := erase g.cont.sites j } }

def refusedLanes (es : List (Nat × RetEntry)) : Word := maskOf ((es.filter fun e => e.2.kind ≥ 4).map (·.1))
def spentLanes (es : List (Nat × RetEntry)) : Word := maskOf ((es.filter fun e => e.2.kind == 5).map (·.1))

/-- The entries applied (R205), every away lane having one: the group, and the trap that follows. -/
def applyEntries (g : Group) : Group × Option (Cause × Word) :=
  let es := awayEntries g
  let r := refusedLanes es
  let t := spentLanes es
  let g := es.foldl (fun g e => seeViews (applyEntry g e) e.2.clk) g
  ({ g with cont := { g.cont with hopref := r, hopttl := t } },
    if r &&& ~~~t ≠ 0 then some (.migref, r &&& ~~~t) else if t ≠ 0 then some (.migttl, t) else none)

/-- `rejoin` (R205, R404, R405). -/
def execRejoin (s : State) : Outcome :=
  issue .rejoin (fun s gid g =>
    if isMigrant g || g.away == 0 then .plain s
    else if !allReturned g then .park (s.setGroup gid { g with status := .parked .rejoin })
    else if rejoinWindow g then .fault .window 0 0
    else match applyEntries g with
      | (g', none) => .plain (s.setGroup gid g')
      | (g', some (c, ls)) => .thenTrap (s.setGroup gid g') c ls) s

/-- REJOIN_APPLY (R205): every away lane of a group parked in `rejoin` has its entry. With a pre-emption due it is
saved instead, its entries unapplied (R405). -/
def execRejoinApply (gid : Nat) (s : State) : Outcome :=
  match s.group? gid with
  | none => .next s
  | some g =>
    if g.status != .parked .rejoin || !allReturned g || preemptDue s gid g || (s.coreAt g.core).scanning then .next s
    else if rejoinWindow g then .next (parkedFault s gid g .window 0)
    else
      let s := ranHere s g
      match applyEntries g with
      | (g', none) => .next (boundary (s.setGroup gid (unpark g')) gid)
      | (g', some (c, ls)) =>
        .next (haltTrapped (trapBoundary (s.setGroup gid g') gid ⟨c, false, g.pc, g.pc + 4, ls, 0, g.ins⟩) gid)

/-- EXIT_AWAY_RETIRE (R86, R206): a group parked at `exit`, or killed, retires once nothing is outstanding for it. -/
def execExitAwayRetire (gid : Nat) (s : State) : Outcome :=
  match s.group? gid with
  | none => .next s
  | some g =>
    .next (if g.status == .parked .exit && mayRetire g && !(s.coreAt g.core).scanning then retire s gid else s)

end Sys2Proof.Machine
end

