-- ==== Sys2Proof/Machine/EngineOps.lean ====
section
/-! DEFINITION. What the engines' operations share (R270 to R273, R305, R306, R362): the record read at issue, the
translation of an operation's addresses, final statuses. -/

namespace Sys2Proof.Machine

open Assoc Bits

/-! ### The record (R362) -/

/-- A record as its instruction reads it. -/
structure RecordRead where
  bytes : List Byte
  hits : List Hit
  parts : List LoadPart
  nonres : Bool
  bad : Bool

/-- The load that reads parts of a record: a plain scalar one of the stream (R270). -/
def recordLoad (s : State) (g : Group) (st : Nat) (nonres : Bool) (ps : List LoadPart) : PendLoad :=
  loadOf s g st false false ps (if nonres then 1 else 0)

/-- n bytes of a record within one page. -/
def recordPart (s : State) (gid : Nat) (g : Group) (st : Nat) (va : DWord) (n : Nat) : Except AccFault RecordRead :=
  match resolve s (agentOf s g none) .load va n with
  | .error c => .error ⟨c, va⟩
  | .ok h =>
    let p := loadPart s g st none 0 n false h
    if h.nonres then .ok ⟨List.replicate n 0, [h], [p], true, false⟩
    else
      let bs := partBytes s gid g (recordLoad s g st false [p]) p
      .ok ⟨bs.map (·.1), [h], [p], false, bs.any (·.2)⟩

/-- The parts of a record, in order; the first that fails stops it. -/
def recordParts (s : State) (gid : Nat) (g : Group) (st : Nat) : List (DWord × Nat) → Except AccFault RecordRead
  | [] => .ok ⟨[], [], [], false, false⟩
  | (va, n) :: ps => match recordPart s gid g st va n with
    | .error f => .error f
    | .ok r => match recordParts s gid g st ps with
      | .error f => .error f
      | .ok q => .ok ⟨r.bytes ++ q.bytes, r.hits ++ q.hits, r.parts ++ q.parts, r.nonres || q.nonres, r.bad || q.bad⟩

/-- The operation does not issue yet: accesses of its stream come first (R183), writes of a copy that the group has joined
(R308), or those that a plain scalar load of its record waits for (R270). -/
def recordWaits (s : State) (g : Group) (st : Nat) (r : RecordRead) : Bool :=
  streamBusy g (· == st) || g.wbuf.any (·.joined) || loadWaits s g st false (r.parts.flatMap (·.places))

/-- What the reading of a record leaves, as any load of the stream that has returned. -/
def noteRecord (s : State) (gid st : Nat) (r : RecordRead) : State :=
  match s.group? gid with
  | none => s
  | some g =>
    let l := recordLoad s g st r.nonres r.parts
    let s := (markHits s r.hits).updGroup gid fun g =>
      takeOwn s st (audOf gid g.core l.scope) (loadPlaces l) (g.orM7 l.m7)
    l.parts.foldl (fun s p => afterRead s gid l p) s

def recAddr (bs : List Byte) (lo : Nat) : DWord := BitVec.ofNat 64 (recField bs lo 64)

/-! ### Statuses (R271, R306) -/

/-- Whether a CODE means that the operation stopped before its end. -/
def codeErr (code : Nat) : Bool := !(code == 0 || code == 0x81 || code == 0x82)

/-- A final status word. -/
def finalStatus (code count : Nat) (fl : BitVec 5) : Word :=
  BitVec.ofNat 32 (2 ^ 31 + (if codeErr code then 2 ^ 30 else 0) + fl.toNat * 2 ^ 24 + code * 2 ^ 16 + count % 65536)

/-- The operation is one of a copy engine. -/
def ofCopyEngine (k : OpKind) : Bool :=
  match k with
  | .copy _ | .ring _ | .cpred _ => true
  | .ivsld _ | .bmac _ | .embw _ => false

/-- A final status in a scalar of a group: a slot of kind 2 or 8 on the scalar pends, whichever instruction issued the
operation (R272, R374). -/
def giveStatus (g : Group) (d : Nat) (w : Word) : Group :=
  let g := g.setS d w
  { g with pending := g.pending.erase d, ev := pendSlots g.ev fun x => (evKind x == 2 || evKind x == 8) && evArg x == d }

/-- An operation ends: its final status goes to the group, which may have gone (R86), or to the queue's status word. The
group joins it where it reads the status, or takes the event (R183). -/
def finishOp (s : State) (oid : Nat) (w : Word) : State :=
  match s.op? oid with
  | none => s
  | some o =>
    let s := { s with ops := erase s.ops oid }
    match o.group with
    | some gid => s.updGroup gid fun g => let g := giveStatus g o.scalar w; { g with unread := g.unread ++ [o.scalar] }
    | none => dropRef (statusWord s o.status w.toNat) (.op oid)

/-- Writes of an earlier copy with its status in a scalar that another operation takes: to read that joins them no more. -/
def laterOp (d : Nat) (w : PendStore) : PendStore := if w.maker = .copy d false then { w with maker := .copy d true } else w

/-- An operation queued: its scalar is pending (R272). -/
def startOp (s : State) (gid : Nat) (o : EngineOp) : State :=
  let (oid, s) := s.freshId
  (s.setOp oid o).updGroup gid fun g =>
    { g with pending := g.pending ++ [o.scalar], wbuf := g.wbuf.map (laterOp o.scalar) }

/-- An operation that does nothing completes at once. -/
def endAtOnce (s : State) (gid : Nat) (d : Nat) (code count : Nat) : State :=
  s.updGroup gid fun g => giveStatus g d (finalStatus code count 0)

/-- An operation of a group. -/
def opOf (s : State) (gid : Nat) (g : Group) (kind : OpKind) (d : Nat) (st : BitVec 4) : EngineOp :=
  { kind := kind, launch := g.launch, group := some gid, scalar := d,
    block := if isMigrant g then none else some g.block, core := g.core, ctx := g.ctx, root := (agentOf s g none).root,
    priv := g.priv, secure := g.secure, stream := st.toNat, cp := (get 0 g.sattr st.toNat).toNat / 4, engine := 0, channels := [], pins := [],
    status := ⟨0, 0, false⟩, rows := 0, poisoned := false, bufferGone := false }

/-! ### Addresses of an operation (R273, R306, R308) -/

/-- The engine as the agent of an access: it reaches the slice of the issuing block, if there is one. -/
def opAgent (o : EngineOp) : Agent :=
  { priv := o.priv, secure := o.secure, migrant := o.block.isNone, root := o.root, core := o.core, block := o.block,
    held := [], tlb := none, lane := none }

/-- The CODE of a cause; a page with RES = 0 has a code of its own. -/
def codeOf (c : Cause) : Nat := if c = .nrst then 0x85 else (causeCode c).toNat

/-- Where an access of an engine goes, or its CODE. -/
def opHit (s : State) (o : EngineOp) (acc : Access) (va : DWord) (n : Nat) : Except Nat Hit :=
  match resolve s (opAgent o) acc va n with
  | .error c => .error (codeOf c)
  | .ok h => if h.nonres then .error 0x85 else if h.cb.isSome then .error (codeOf .aper) else .ok h

/-- The same for the near-bank units: global addresses of this package only. -/
def bankHit (s : State) (o : EngineOp) (acc : Access) (va : DWord) (n : Nat) : Except Nat Hit :=
  if !isGlobal va then .error (codeOf .aper)
  else match opHit s o acc va n with
    | .error c => .error c
    | .ok h => if h.cp.isNone then .error 0x86 else .ok h

/-- The policy of an access of an engine: the less-caching of the leaf's and its stream's (R144). -/
def opPolicy (o : EngineOp) (h : Hit) : Option Nat := h.cp.map (max o.cp)

/-- What a read of an engine leaves. -/
def opRead (o : EngineOp) (s : State) (h : Hit) (n : Nat) : State := readMark s (opPolicy o h) h n

/-- Uncorrectable data an engine met (R273, R306), in the pit log of the issuing core's die, with no core and no slot; DETAIL
holds the location's number, for IVS bytes too, which have no physical address (log 29; DESIGN CHOICE: R281 and R336 name
neither). -/
def engineUce (s : State) (o : EngineOp) (loc : Nat) : State :=
  pitWrite s (dieOfCore o.core) 2 0 noCore noSlot (BitVec.ofNat 64 loc) 0 o.secure

/-- The entry for the first uncorrectable data that an operation meets, if it is at a location and none was met before. -/
def meet (s : State) (o : EngineOp) (seen : Bool) (loc : Option Nat) : State :=
  match seen, loc with
  | false, some l => engineUce s o l
  | _, _ => s

/-- The first uncorrectable location among some. -/
def firstBad (s : State) (locs : List Nat) : Option Nat := locs.find? (isBad s)

/-! ### Writing (R183, R341) -/

/-- Writes on their way of a copy with a status in some scalar: no stream of the group's is theirs. -/
def copyStore (d : Nat) (uncached : Bool) (cells : List (Nat × Byte)) : PendStore :=
  { stream := 16, aud := .all, also := [], acq := [], release := false, lane := none, maker := .copy d false,
    uncached := uncached, dirty := false, carries := [], bytes := cells }

/-- Bytes put to the writes of a copy that are on their way, the last in a list of outstanding stores. -/
def copyWrite (d : Nat) (uncached : Bool) (ws : List PendStore) (cells : List (Nat × Byte)) : List PendStore :=
  match ws.getLast? with
  | some w =>
    if w.maker = .copy d false ∧ w.uncached = uncached then ws.dropLast ++ [{ w with bytes := w.bytes ++ cells }]
    else ws ++ [copyStore d uncached cells]
  | none => [copyStore d uncached cells]

/-- The operation is a single copy, whose end may be reported before its writes are made (R183, log 3). -/
def isCopy (k : OpKind) : Bool :=
  match k with
  | .copy _ => true
  | .ring _ | .cpred _ | .ivsld _ | .bmac _ | .embw _ => false

/-- Bytes that an operation writes at a hit: at their homes, or, where the step leaves those of a copy on their way, among
the writes that its group's later accesses follow once it joins the operation (R183). Every other operation has made its
writes when it reports (R272, R279, R312). -/
def engineStore (o : EngineOp) (s : State) (h : Hit) (bs : List Byte) : State :=
  match (if s.late && isCopy o.kind then o.group else none) with
  | some gid =>
    if (s.group? gid).isSome then s.updGroup gid fun g => { g with wbuf := copyWrite o.scalar (opPolicy o h == some 3) g.wbuf (cellsAt h.place bs) }
    else storeUnder s (opPolicy o h) (hitCells s h bs)
  | none => storeUnder s (opPolicy o h) (hitCells s h bs)

end Sys2Proof.Machine
end

