-- ==== Sys2Proof/Machine/NearBank.lean ====
section
/-! DEFINITION. Compute at the banks: `ivsld`, `bmac` and `embw` (R269 to R281, R361, R373, R388, R389), and the
completion of their commands. -/

namespace Sys2Proof.Machine

open Assoc Bits Sys2Proof.Machine.Float

/-! ### Records (R274, R275, R277) -/

def ivNch (r : List Byte) : Nat := recField r 104 8
def ivStk (r : List Byte) : Nat := recField r 103 1
def ivCh0 (r : List Byte) : Nat := recField r 96 7
def ivOff (r : List Byte) : Nat := recField r 80 16
def ivUnits (r : List Byte) : Nat := recField r 64 16
def ivSrc (r : List Byte) : DWord := recAddr r 0

/-- CODE 0x80 of an `ivsld` record (R389). -/
def ivBad (r : List Byte) : Bool :=
  recField r 112 144 != 0 || ivNch r == 0 || decide (ivCh0 r + ivNch r > 128) || ivUnits r == 0 ||
  decide (ivOff r + ivUnits r > 1024) || (ivSrc r).toNat % 64 != 0

def bmOut (r : List Byte) : DWord := recAddr r 128
def bmIvOff (r : List Byte) : Nat := recField r 64 16
def bmObf (r : List Byte) : Bool := recField r 62 1 == 1
def bmAcc (r : List Byte) : Bool := recField r 61 1 == 1
def bmKs (r : List Byte) : Nat := recField r 50 11
def bmM (r : List Byte) : Nat := recField r 34 16
def bmRow0 (r : List Byte) : Nat := recField r 20 14
def bmStk (r : List Byte) : Nat := recField r 19 1
def bmCh (r : List Byte) : Nat := recField r 12 7
def bmHandle (r : List Byte) : Nat := recField r 0 12

/-- CODE 0x80 of a `bmac` record (R275). -/
def bmBad (r : List Byte) : Bool :=
  recField r 192 64 != 0 || recField r 80 48 != 0 || recField r 63 1 != 0 || bmObf r && bmAcc r ||
  bmKs r == 0 || decide (bmKs r > 1024) || bmM r == 0 || decide (64 * bmIvOff r + 64 * bmKs r > 65536) ||
  (bmOut r).toNat % 64 != 0

def emOut (r : List Byte) : DWord := recAddr r 320
def emWgt (r : List Byte) : DWord := recAddr r 256
def emStk (r : List Byte) : Nat := recField r 227 1
def emCh (r : List Byte) : Nat := recField r 220 7
def emHandle (r : List Byte) : Nat := recField r 208 12
def emTv (r : List Byte) : Bool := recField r 205 1 == 1
def emObf (r : List Byte) : Bool := recField r 204 1 == 1
def emEtype (r : List Byte) : Nat := recField r 202 2
def emPool (r : List Byte) : Nat := recField r 200 2
def emRowU (r : List Byte) : Nat := recField r 192 8
def emNrows (r : List Byte) : Nat := recField r 160 32
def emTbl (r : List Byte) : DWord := recAddr r 96
def emNidx (r : List Byte) : Nat := recField r 64 16
def emIdx (r : List Byte) : DWord := recAddr r 0

/-- CODE 0x80 of an `embw` record (R277). -/
def emBad (r : List Byte) : Bool :=
  recField r 384 128 != 0 || recField r 228 28 != 0 || recField r 206 2 != 0 || recField r 80 16 != 0 ||
  emEtype r == 3 || emPool r == 3 || emRowU r == 0 || decide (emRowU r > 128) || (emTbl r).toNat % 64 != 0 ||
  (emOut r).toNat % 64 != 0 || (emWgt r).toNat % 4 != 0 || (emIdx r).toNat % 4 != 0

/-! ### Issue (R270) -/

/-- Package number of a channel of a stack. -/
def channelOf (stk ch : Nat) : Nat := stk * 128 + ch

/-- A command as its record names it: the channels, the handle, whether the record is in order. -/
structure BankCmd where
  kind : OpKind
  channels : List Nat
  handle : Option Nat
  bad : Bool

def ivCmd (r : List Byte) : BankCmd :=
  ⟨.ivsld r, (List.range (ivNch r)).map fun k => channelOf (ivStk r) (ivCh0 r + k), none, ivBad r⟩
def bmCmd (r : List Byte) : BankCmd := ⟨.bmac r, [channelOf (bmStk r) (bmCh r)], some (bmHandle r), bmBad r⟩
def emCmd (r : List Byte) : BankCmd :=
  ⟨.embw r, [channelOf (emStk r) (emCh r)], if emTv r then some (emHandle r) else none, emBad r⟩

/-- SURFBAD of a command (R270): its handle must be resident. -/
def handleAway (s : State) (ctx : Nat) (h : Option Nat) : Bool :=
  match h with
  | none => false
  | some n => match s.handle? ctx n with
    | some x => x.state != .resident
    | none => true

/-- The channels at which an operation has not completed. -/
def channelsLeft (o : EngineOp) : List Nat := o.channels.drop o.rows

/-- Commands queued at a channel. -/
def queuedAt (s : State) (ch : Nat) : Nat := (s.ops.filter fun e => (channelsLeft e.2).contains ch).length

/-- One near-bank instruction: the record of n bytes, the checks of R362, the wait for room. -/
def bankIssue (n : Nat) (cmd : List Byte → BankCmd) (d a : Code) (st : BitVec 4) (s : State) (gid : Nat)
    (g : Group) : Effect :=
  let va := srcSP s g a
  if va.toNat % n ≠ 0 then .fault .align 0 va
  else match recordPart s gid g st.toNat va n with
  | .error f => .fault f.cause 0 f.addr
  | .ok r =>
    if r.bad then .gone (uceKill s gid g.pc)
    else
      let c := cmd r.bytes
      if handleAway s g.ctx c.handle then .fault .surfbad 0 0
      else if recordWaits s g st.toNat r then .stall
      else if c.bad then .plain (endAtOnce (noteRecord s gid st.toNat r) gid d.toNat 0x80 0)
      else if c.channels.any fun ch => queuedAt s ch ≥ Config.channelQueue then .stall
      else .plain (startOp (noteRecord s gid st.toNat r) gid { opOf s gid g c.kind d.toNat st with
        channels := c.channels, pins := (c.handle.map fun h => g.ctx * 4096 + h).toList })

/-- `ivsld` (R270, R274, R388). -/
def execIvsld (d a : Code) (st : BitVec 4) (s : State) : Outcome :=
  issue (.ivsld d a st) (bankIssue 32 ivCmd d a st) s
/-- `bmac` (R270, R275, R361). -/
def execBmac (d a : Code) (st : BitVec 4) (s : State) : Outcome :=
  issue (.bmac d a st) (bankIssue 32 bmCmd d a st) s
/-- `embw` (R270, R277, R373). -/
def execEmbw (d a : Code) (st : BitVec 4) (s : State) : Outcome :=
  issue (.embw d a st) (bankIssue 64 emCmd d a st) s

/-! ### What a command makes of the state -/

/-- The outcome of a command: the state, its CODE, its COUNT and its flags. -/
structure BankOut where
  s : State
  code : Nat
  count : Nat
  fl : Flags

/-- A channel of the other world (R333). -/
def otherWorld (s : State) (o : EngineOp) (ch : Nat) : Bool := s.secChannels.contains ch != o.secure

/-- Bytes read in pieces of 64 that lie in one page each: the state, the bytes and which are uncorrectable, and the CODE of
a failure. `seen`: uncorrectable data has been met before. -/
def bankRead (o : EngineOp) : Nat → DWord → Bool → State → State × List (Byte × Bool) × Option Nat
  | 0, _, _, s => (s, [], none)
  | k + 1, va, seen, s => match bankHit s o .load va 64 with
    | .error c => (s, [], some c)
    | .ok h =>
      let bs := (hitLocs s h 64).map fun l => (readByte s l, isBad s l)
      let r := bankRead o k (va + 64) (seen || bs.any (·.2)) (meet (opRead o s h 64) o seen (firstBad s (hitLocs s h 64)))
      (r.1, bs ++ r.2.1, r.2.2)

/-- IVS bytes of a channel written, the uncorrectable ones poisoned (R274). -/
def ivsWrite (s : State) (ch off : Nat) (bs : List (Byte × Bool)) : State :=
  let at_ := ivsLoc ch off
  poison (writeCells s (cellsAt at_ (bs.map (·.1)))) ((bs.zipIdx.filter (·.1.2)).map fun e => at_ + e.2)

/-- How far a step takes a command: to its end, or to its next channel. -/
inductive BankEnd where
  | ends (r : BankOut)
  | goes (s : State) (o : EngineOp)

/-- `ivsld` at its next channel, for which it reads SRC anew (R389): the channels come in increasing number (log 27), up to
the first that fails. -/
def ivStep (o : EngineOp) (r : List Byte) (s : State) : BankEnd :=
  match channelsLeft o with
  | [] => .ends ⟨s, if o.poisoned then 0x82 else 0, o.rows, 0⟩
  | ch :: chs =>
    if otherWorld s o ch then .ends ⟨s, 0x18, o.rows, 0⟩
    else match bankRead o (ivUnits r) (ivSrc r) o.poisoned s with
      | (s, _, some c) => .ends ⟨s, c, o.rows, 0⟩
      | (s, bs, none) =>
        let s := ivsWrite s ch (64 * ivOff r) bs
        let o := { o with rows := o.rows + 1, poisoned := o.poisoned || bs.any (·.2) }
        if chs.isEmpty then .ends ⟨s, if o.poisoned then 0x82 else 0, o.rows, 0⟩ else .goes s o

/-- Offset in the stack of slice t of matrix row i (R276). -/
def sliceOff (r : List Byte) (i t : Nat) : Nat :=
  (bmRow0 r + i / 32 * bmKs r + t) * 2 ^ 18 + bmCh r * 2048 + i % 32 * 64

/-- CODE 0x84: a slice outside the handle or in the LLC rows. -/
def slicesBad (s : State) (h : Sfte) (r : List Byte) : Bool :=
  (List.range (bmM r)).any fun i => (List.range (bmKs r)).any fun t =>
    let off := sliceOff r i t
    !(h.base ≤ off && off + 64 ≤ h.base + handleBytes h) || off ≥ 2 ^ 32 || inLlc s (bmStk r) off

/-- One row of a product: its bits and flags, and where uncorrectable data went into it. -/
def bmRow (s : State) (r : List Byte) (acc : Nat) (i : Nat) : Res × Option Nat :=
  let ch := channelOf (bmStk r) (bmCh r)
  (List.range (bmKs r)).foldl (fun out t =>
    let la := surfPa (bmStk r) (sliceOff r i t)
    let lx := ivsLoc ch (64 * bmIvOff r + 64 * t)
    let a := fun k => unpack bf16 (readNat s (la + 2 * k) 2)
    let x := fun k => unpack bf16 (readNat s (lx + 2 * k) 2)
    let v := accumulate out.1.w (sumProds ((List.range 32).map fun k => (a k, x k)))
    (v.add out.1.fl, out.2.or (firstBad s ((List.range 64).map (la + ·) ++ (List.range 64).map (lx + ·))))) (⟨acc, 0⟩, none)

/-- An f32 result as it is written: f32, or rounded to bf16; of 0x7FE0_0000 that is 0x7FE0 (log 28; DESIGN CHOICE: R273
gives the 32 bits only). -/
def outWord (bf : Bool) (w : Res) : Res := if bf then (cvtFF f32 bf16 .rne w.w).add w.fl else w

/-- A row has a slice in a secure region that the command may not read (R333). -/
def rowSecret (s : State) (o : EngineOp) (r : List Byte) (i : Nat) : Bool :=
  !o.secure && (List.range (bmKs r)).any fun t => inSecure s (surfPa (bmStk r) (sliceOff r i t))

/-- The accumulator that a row starts from: +0, or the word at an address. -/
def bmOld (o : EngineOp) (r : List Byte) (va : DWord) (s : State) : Except Nat (State × Nat × Option Nat) :=
  if !bmAcc r then .ok (s, 0, none)
  else match bankHit s o .load va 4 with
    | .error c => .error c
    | .ok h => .ok (opRead o s h 4, hitNat s h 4, firstBad s (hitLocs s h 4))

/-- `bmac`: rows from i on; row i is written before row i + 1 is read, where OUT overlaps the matrix (log 29; DESIGN CHOICE: R276
has the banks work in parallel). A row that uncorrectable data went into raises no flags (log 28; DESIGN CHOICE: R271 does not
say). -/
def bmRun (o : EngineOp) (r : List Byte) : Nat → Nat → Bool → Flags → State → BankOut
  | 0, i, bad, fl, s => ⟨s, if bad then 0x82 else 0, i, fl⟩
  | n + 1, i, bad, fl, s =>
    if rowSecret s o r i then ⟨s, 0x18, i, fl⟩
    else
    let size := if bmObf r then 2 else 4
    let out := bmOut r + BitVec.ofNat 64 (size * i)
    match bmOld o r out s, bankHit s o .store out size with
    | .error c, _ => ⟨s, c, i, fl⟩
    | .ok (s, _, _), .error c => ⟨s, c, i, fl⟩
    | .ok (s, acc, accBad), .ok h =>
      let (v, vBad) := bmRow s r acc i
      let at_ := accBad.or vBad
      let v := outWord (bmObf r) (if at_.isSome then ⟨0x7FE00000, 0⟩ else v)
      bmRun o r n (i + 1) (bad || at_.isSome) (fl ||| v.fl)
        (engineStore o (markHit (meet s o bad at_) h) h (bytesOfNat size v.w))

def bmDo (o : EngineOp) (r : List Byte) (s : State) : BankOut :=
  if otherWorld s o (channelOf (bmStk r) (bmCh r)) then ⟨s, 0x18, 0, 0⟩
  else match s.handle? o.ctx (bmHandle r) with
    | none => ⟨s, 0x84, 0, 0⟩
    | some h =>
      if slicesBad s h r then ⟨s, 0x84, 0, 0⟩
      else bmRun o r (bmM r) 0 false 0 (touchHandle s o.ctx (bmHandle r))

/-! ### Embedding walks (R278) -/

def emBytes (r : List Byte) : Nat := if emEtype r = 0 then 4 else if emEtype r = 1 then 2 else 1
def emElems (r : List Byte) : Nat := 64 * emRowU r / emBytes r

/-- The f32 value of an element. -/
def emValue (r : List Byte) (w : Nat) : Nat :=
  if emEtype r = 0 then w else if emEtype r = 1 then w * 65536 else widenTo32 e4m3 w

/-- Table rows: in GDDR 7, or in the handle (R278). Their reads go through the LLC as any of an engine does (R144). -/
def rowPlace (s : State) (o : EngineOp) (r : List Byte) (h : Hit) : Bool :=
  if emTv r then
    surfBase ≤ h.place && h.place < surfEnd && match s.handle? o.ctx (emHandle r) with
      | some x => coversOff x (surfOff h.place) && coversOff x (surfOff h.place + 63)
      | none => false
  else h.place < surfBase

/-- The 64-byte pieces of a table row, as `bankRead` gives them. -/
def rowRead (o : EngineOp) (r : List Byte) : Nat → DWord → Bool → State → State × List (Byte × Bool) × Option Nat
  | 0, _, _, s => (s, [], none)
  | k + 1, va, seen, s => match bankHit s o .load va 64 with
    | .error c => (s, [], some c)
    | .ok h =>
      if !rowPlace s o r h then (s, [], some 0x83)
      else
        let bs := (hitLocs s h 64).map fun l => (readByte s l, isBad s l)
        let t := rowRead o r k (va + 64) (seen || bs.any (·.2)) (meet (opRead o s h 64) o seen (firstBad s (hitLocs s h 64)))
        (t.1, bs ++ t.2.1, t.2.2)

/-- An accumulator of a walk: its value, its flags, whether uncorrectable data went into it. -/
structure EmAcc where
  v : Nat
  fl : Flags
  bad : Bool

/-- max with a canonical NaN, and +0 above -0. -/
def maxCanon (a b : Nat) : Nat :=
  if (unpack f32 a).isNan || (unpack f32 b).isNan then f32.nanBits
  else if below true (unpack f32 a) (unpack f32 b) then b else a
/-- min likewise. -/
def minCanon (a b : Nat) : Nat :=
  if (unpack f32 a).isNan || (unpack f32 b).isNan then f32.nanBits
  else if below true (unpack f32 b) (unpack f32 a) then b else a

/-- One element of one row folded in. -/
def emStep (r : List Byte) (first : Bool) (w x : Nat) (bad : Bool) (a : EmAcc) : EmAcc :=
  if emPool r = 2 then
    let p := fmul env32 x w
    ⟨if first then p.w else maxCanon a.v p.w, a.fl ||| p.fl, a.bad || bad⟩
  else
    let p := ffma env32 false x w a.v
    ⟨p.w, a.fl ||| p.fl, a.bad || bad⟩

/-- Element e of a row. -/
def emElem (r : List Byte) (bs : List (Byte × Bool)) (e : Nat) : Nat × Bool :=
  let n := emBytes r
  let part := (bs.drop (n * e)).take n
  (emValue r (natOfBytes (part.map (·.1))), part.any (·.2))

/-- A 32-bit word of a list at an address. -/
def emWord (s : State) (o : EngineOp) (va : DWord) (seen : Bool) : Except Nat (State × Nat × Bool) :=
  match bankHit s o .load va 4 with
  | .error c => .error c
  | .ok h => .ok (meet (opRead o s h 4) o seen (firstBad s (hitLocs s h 4)), hitNat s h 4, hitBad s h 4)

/-- The weight of index i. -/
def emWeight (s : State) (o : EngineOp) (r : List Byte) (i : Nat) (seen : Bool) : Except Nat (State × Nat × Bool) :=
  if emWgt r = 0 then .ok (s, 0x3F800000, false) else emWord s o (emWgt r + BitVec.ofNat 64 (4 * i)) seen

/-- How far a walk is. -/
structure EmWalk where
  used : Nat
  skipped : Bool
  accs : List EmAcc

/-- The indices from i on. The spec does not say what an index word does that is itself uncorrectable (R278): it is passed
over and not counted, and every output element is marked (log 27; DESIGN CHOICE). -/
def emWalk (o : EngineOp) (r : List Byte) : Nat → Nat → EmWalk → State → Except (Nat × Nat × State) (EmWalk × State)
  | 0, _, k, s => .ok (k, s)
  | n + 1, i, k, s => match emWord s o (emIdx r + BitVec.ofNat 64 (4 * i)) (k.accs.any (·.bad)) with
    | .error c => .error (c, k.used, s)
    | .ok (s, ix, ixBad) =>
      if ixBad then emWalk o r n (i + 1) { k with accs := k.accs.map fun a => { a with bad := true } } s
      else if ix ≥ emNrows r then emWalk o r n (i + 1) { k with skipped := true } s
      else match emWeight s o r i (k.accs.any (·.bad)) with
        | .error c => .error (c, k.used, s)
        | .ok (s, w, wBad) =>
          match rowRead o r (emRowU r) (emTbl r + BitVec.ofNat 64 (64 * emRowU r * ix)) (wBad || k.accs.any (·.bad)) s with
          | (s, _, some c) => .error (c, k.used, s)
          | (s, bs, none) =>
            emWalk o r n (i + 1) { k with
              used := k.used + 1,
              accs := k.accs.zipIdx.map fun a =>
                let x := emElem r bs a.2
                emStep r (k.used == 0) w x.1 (x.2 || wBad) a.1 } s

/-- An accumulator as it is written. -/
def emFinal (r : List Byte) (used : Nat) (a : EmAcc) : Res :=
  let v : Res := ⟨a.v, a.fl⟩
  let v := if emPool r = 1 ∧ 0 < used then
      (fdiv env32 v.w (roundDyad f32 .rne false (Dyad.ofInt used)).w).add v.fl else v
  outWord (emObf r) (if a.bad then ⟨0x7FE00000, 0⟩ else v)

/-- The output written in increasing address, up to a failure. -/
def emOutput (o : EngineOp) (r : List Byte) : Nat → List Res → Flags → State → State × Flags × Option Nat
  | _, [], fl, s => (s, fl, none)
  | e, v :: vs, fl, s =>
    let size := if emObf r then 2 else 4
    match bankHit s o .store (emOut r + BitVec.ofNat 64 (size * e)) size with
    | .error c => (s, fl, some c)
    | .ok h => emOutput o r (e + 1) vs (fl ||| v.fl) (engineStore o (markHit s h) h (bytesOfNat size v.w))

/-- `embw`. Of 0x81 and 0x82 the status holds 0x82; a walk that stops reports no flags, nor does an element that
uncorrectable data went into (R271, R273 say neither; log 27; DESIGN CHOICE). -/
def emDo (o : EngineOp) (r : List Byte) (s : State) : BankOut :=
  if otherWorld s o (channelOf (emStk r) (emCh r)) then ⟨s, 0x18, 0, 0⟩
  else
    let s := if emTv r then touchHandle s o.ctx (emHandle r) else s
    match emWalk o r (emNidx r) 0 ⟨0, false, List.replicate (emElems r) ⟨0, 0, false⟩⟩ s with
    | .error (c, n, s) => ⟨s, c, n, 0⟩
    | .ok (k, s) =>
      let bad := k.accs.any (·.bad)
      match emOutput o r 0 (k.accs.map (emFinal r k.used)) 0 s with
      | (s, fl, some c) => ⟨s, c, k.used, fl⟩
      | (s, fl, none) => ⟨s, if bad then 0x82 else if k.skipped then 0x81 else 0, k.used, fl⟩

/-! ### Completion (R271, R279) -/

/-- An earlier command of the same group and stream has not completed at the next channel of a command (R279). -/
def bankBehind (s : State) (oid : Nat) (o : EngineOp) : Bool :=
  s.ops.any fun e => e.1 < oid && e.2.group == o.group && e.2.stream == o.stream &&
    overlaps (channelsLeft e.2) ((channelsLeft o).take 1)

def bankDo (o : EngineOp) (s : State) : Option BankEnd :=
  match o.kind with
  | .ivsld r => some (ivStep o r s)
  | .bmac r => some (.ends (bmDo o r s))
  | .embw r => some (.ends (emDo o r s))
  | .copy _ | .ring _ | .cpred _ => none

/-- NEARBANK_COMPLETE (R271 to R281): a command that nothing before it holds back does its work, an `ivsld` at one channel,
and at its end its final status is written. -/
def execNearbankComplete (oid : Nat) (s : State) : Outcome :=
  match s.op? oid with
  | none => .next s
  | some o =>
    if bankBehind s oid o then .next s
    else match bankDo o s with
      | none => .next s
      | some (.ends r) => .next (finishOp r.s oid (finalStatus r.code r.count r.fl))
      | some (.goes s o) => .next (s.setOp oid o)

end Sys2Proof.Machine
end

