-- ==== Sys2Proof/Machine/Copies.lean ====
section
/-! DEFINITION. Copy engines and combining: `cpa`, `cpa.ring` and `cpred` (R305 to R319, R333, R368), and the steps of
their operations. -/

namespace Sys2Proof.Machine

open Assoc Bits Sys2Proof.Machine.Float

/-! ### Descriptors (R307, R310, R316) -/

def cdEsz (r : List Byte) : Nat := recField r 384 3
def cdSize (r : List Byte) : Nat := 2 ^ cdEsz r
def cdFill (r : List Byte) : Bool := recField r 387 1 == 1
def cdFillv (r : List Byte) : Nat := recField r 320 32
def cdSrc (r : List Byte) : DWord := recAddr r 0
def cdDst (r : List Byte) : DWord := recAddr r 64
def cdNx (r : List Byte) : Nat := recField r 128 32
def cdNy (r : List Byte) : Nat := recField r 160 16
def cdNz (r : List Byte) : Nat := recField r 176 16
/-- A signed stride. -/
def cdStride (r : List Byte) (lo : Nat) : DWord := sext64 (BitVec.ofNat 32 (recField r lo 32))
def cdSsy (r : List Byte) : DWord := cdStride r 192
def cdSsz (r : List Byte) : DWord := cdStride r 224
def cdDsy (r : List Byte) : DWord := cdStride r 256
def cdDsz (r : List Byte) : DWord := cdStride r 288

/-- CODE 0x80 of a copy descriptor (R307). -/
def cdBad (r : List Byte) : Bool :=
  recField r 398 114 != 0 || recField r 389 3 != 0 || recField r 352 32 != 0 || decide (cdEsz r > 4) ||
  cdCb r && cdDst r != 0 || cdFill r && (cdSrc r != 0 || decide (cdEsz r > 2)) ||
  cdNx r == 0 || cdNy r == 0 || cdNz r == 0 ||
  [cdSrc r, cdDst r, cdSsy r, cdSsz r, cdDsy r, cdDsz r].any fun x => x.toNat % cdSize r != 0

def cpType (r : List Byte) : Nat := recField r 258 2
def cpOp (r : List Byte) : Nat := recField r 256 2
def cpNsrc (r : List Byte) : Nat := recField r 208 16
def cpLenu (r : List Byte) : Nat := recField r 192 16
def cpGid (r : List Byte) : Nat := recField r 160 32
def cpNode (r : List Byte) : Nat := recField r 110 18
def cpSrc (r : List Byte) : DWord := recAddr r 0
def cpDst (r : List Byte) : DWord := recAddr r 512
def cpDonew (r : List Byte) : DWord := recAddr r 576

/-- CODE 0x80 of a combine descriptor (R316). -/
def cpBad (r : List Byte) : Bool :=
  recField r 260 252 != 0 || cpType r ≥ 2 || cpOp r == 3 || recField r 224 32 != 0 || cpNsrc r == 0 ||
  cpLenu r == 0 || decide (cpLenu r > 64) || recField r 128 32 != 0 || recField r 64 46 != 0 ||
  (cpSrc r).toNat % 64 != 0

def rhLog (r : List Byte) : Nat := recField r 152 4
def rhBase (r : List Byte) : Nat := recField r 128 21
def rhNotify (r : List Byte) : Nat := recField r 0 32

/-- CODE 0x80 of a ring header (R310). -/
def rhBad (spad : Nat) (r : List Byte) : Bool :=
  recField r 156 100 != 0 || recField r 149 3 != 0 || recField r 96 32 != 0 || decide (rhLog r < 4) ||
  decide (rhLog r > 12) || rhBase r % 32 != 0 || decide (rhBase r + 32 * 2 ^ rhLog r > spad)

/-! ### Engines (R305, R333) -/

/-- Engines of a die that serve a world. -/
def enginesOf (s : State) (die : Nat) (secure : Bool) : List Nat :=
  ((List.range Config.enginesPerDie).map (die * Config.enginesPerDie + ·)).filter fun e =>
    s.secEngines.contains e == secure

/-- Operations queued at a copy engine. -/
def queuedOn (s : State) (e : Nat) : Nat :=
  (s.ops.filter fun x => x.2.engine == e && ofCopyEngine x.2.kind).length

/-- The engine with the fewest operations, the lowest number on a tie. -/
def leastBusy (s : State) : List Nat → Option Nat
  | [] => none
  | e :: es => match leastBusy s es with
    | none => some e
    | some b => if queuedOn s b < queuedOn s e then some b else some e

def ringsOn (s : State) (e : Nat) : Nat :=
  (s.ops.filter fun x => x.2.engine == e && match x.2.kind with | .ring _ => true | _ => false).length

/-- An operation given to an engine of the issuing die (R305), or ended at once: no engine of its world, wrong fields
(`bad`: their CODE), a fifth ring. A COUNT is 0, but for `cpred` the engine's number (R306, R333). -/
def engineIssue (s : State) (gid : Nat) (g : Group) (r : RecordRead) (o : EngineOp) (bad : Option Nat)
    (begin_ : State → State) : Effect :=
  let finish := fun code count => Effect.plain (endAtOnce (noteRecord s gid o.stream r) gid o.scalar code count)
  match leastBusy s (enginesOf s (dieOfCore g.core) g.secure) with
  | none => finish 0x18 0
  | some e => match bad with
    | some c => finish c (match o.kind with | .cpred _ => e | _ => 0)
    | none =>
      let ring := match o.kind with | .ring _ => true | _ => false
      if queuedOn s e ≥ Config.copyQueue then .stall
      else if ring && ringsOn s e ≥ 4 then finish 0x88 0
      else .plain (startOp (begin_ (noteRecord s gid o.stream r)) gid { o with engine := e })

/-- `cpa` (R305, R307). -/
def execCpa (d a : Code) (st : BitVec 4) (s : State) : Outcome :=
  issue (.cpa d a st) (fun s gid g =>
    let va := srcSP s g a
    if va.toNat % 64 ≠ 0 then .fault .align 0 va
    else match recordPart s gid g st.toNat va 64 with
    | .error f => .fault f.cause 0 f.addr
    | .ok r =>
      if r.bad then .gone (uceKill s gid g.pc)
      else if recordWaits s g st.toNat r then .stall
      else engineIssue s gid g r (opOf s gid g (.copy r.bytes) d.toNat st) (if cdBad r.bytes then some 0x80 else none)
        id) s

/-- The part of the slice of the block where its ring header lies. -/
def sliceOf (s : State) (o : EngineOp) : Nat × Nat :=
  match o.block.bind s.block? with
  | some b => (spadLoc b.cluster b.spadBase, b.spad)
  | none => (0, 0)

/-- A ring as it is attached: DONE = NOTIFY. -/
def attach (va : DWord) (r : List Byte) : RingInfo :=
  { header := va.toNat - 0xFFFFFF0000000000, base := rhBase r, log2n := rhLog r, notify := rhNotify r,
    done := rhNotify r, start := rhNotify r, finished := [], detaching := false }

/-- `cpa.ring` (R305, R310). -/
def execCpaRing (d a : Code) (st : BitVec 4) (s : State) : Outcome :=
  issue (.cpa_ring d a st) (fun s gid g =>
    let va := srcSP s g a
    if va.toNat % 32 ≠ 0 then .fault .align 0 va
    else if va.toNat < 0xFFFFFF0000000000 then .fault .aper 0 va
    else match recordPart s gid g st.toNat va 32 with
    | .error f => .fault f.cause 0 f.addr
    | .ok r =>
      let ring := attach va r.bytes
      let o := opOf s gid g (.ring ring) d.toNat st
      let (at_, spad) := sliceOf s o
      if r.bad then .gone (uceKill s gid g.pc)
      else if recordWaits s g st.toNat r then .stall
      else engineIssue s gid g r o (if rhBad spad r.bytes then some 0x80 else none)
        fun s => storeNat s (at_ + ring.header + 4) 4 ring.done) s

/-- `cpred` (R305, R316, R317). -/
def execCpred (d a : Code) (st : BitVec 4) (s : State) : Outcome :=
  issue (.cpred d a st) (fun s gid g =>
    let va := srcSP s g a
    if va.toNat % 64 ≠ 0 then .fault .align 0 va
    else match recordParts s gid g st.toNat [(va, 64), (va + 64, 16)] with
    | .error f => .fault f.cause 0 f.addr
    | .ok r =>
      if r.bad then .gone (uceKill s gid g.pc)
      else if recordWaits s g st.toNat r then .stall
      else engineIssue s gid g r (opOf s gid g (.cpred r.bytes) d.toNat st)
        (if cpBad r.bytes then some 0x80 else if podOf s g.launch = 0 || !s.fabric then some 0x8A else none) id) s

/-! ### Moving bytes (R308) -/

/-- Bytes of an element at their destination: in a slot of a buffer, at a hit, or poisoned (R306). -/
def putElem (o : EngineOp) (slot : Bool) (h : Hit) (bs : List Byte) (bad : Bool) (s : State) : State :=
  if bad then poison (storeUnder s (opPolicy o h) (hitCells s h bs)) ((hitCells s h bs).map (·.1))
  else if slot then store s (hitCells s h bs)
  else engineStore o s h bs

/-- An element read: a fill value, or the bytes at an address, with the first location that is uncorrectable. -/
def readElem (o : EngineOp) (size : Nat) (src : Except Nat DWord) (s : State) :
    Except Nat (State × List Byte × Option Nat) :=
  match src with
  | .error v => .ok (s, bytesOfNat size v, none)
  | .ok va => match opHit s o .load va size with
    | .error c => .error c
    | .ok h => .ok (opRead o s h size, (hitLocs s h size).map (readByte s), firstBad s (hitLocs s h size))

/-- The elements of a row from x on read: what that leaves, and the code of the first address that fails. -/
def sourceRow (o : EngineOp) (size : Nat) (src : Nat → Except Nat DWord) : Nat → Nat → Bool → State → State × Option Nat
  | 0, _, _, s => (s, none)
  | n + 1, x, seen, s => match readElem o size (src x) s with
    | .error c => (s, some c)
    | .ok (s, _, bad) => sourceRow o size src n (x + 1) (seen || bad.isSome) (meet s o seen bad)

/-- One element moved; none of its bytes moves if an address fails, though it may have been read. `seen`: uncorrectable data has been met before. One
uncorrectable byte poisons the whole element (log 28; DESIGN CHOICE: R306 says the affected bytes). -/
def moveElem (o : EngineOp) (size : Nat) (seen : Bool) (src : Except Nat DWord) (dst : Except DWord Nat) (s : State) :
    Except (Nat × State) (State × Bool) :=
  match readElem o size src s with
  | .error c => .error (c, s)
  | .ok (s, bs, bad) =>
    let s := meet s o seen bad
    match dst with
    | .ok loc => .ok (putElem o true (hitAt loc) bs bad.isSome s, bad.isSome)
    | .error va => match opHit s o .store va size with
      | .error c => .error (c, s)
      | .ok h => .ok (putElem o false h bs bad.isSome (markHit s h), bad.isSome)

/-- The elements of a row from x on: the first failure stops it. -/
def moveRow (o : EngineOp) (size : Nat) (src : Nat → Except Nat DWord) (dst : Nat → Except DWord Nat) :
    Nat → Nat → Bool → State → State × Bool × Option Nat
  | 0, _, bad, s => (s, bad, none)
  | n + 1, x, bad, s => match moveElem o size bad (src x) (dst x) s with
    | .error (c, s) => (s, bad, some c)
    | .ok (s, b) => moveRow o size src dst n (x + 1) (bad || b) s

def rowSrc (r : List Byte) (row x : Nat) : Except Nat DWord :=
  if cdFill r then .error (cdFillv r % 256 ^ cdSize r)
  else .ok (cdSrc r + BitVec.ofNat 64 (row / cdNy r) * cdSsz r + BitVec.ofNat 64 (row % cdNy r) * cdSsy r +
    BitVec.ofNat 64 (x * cdSize r))

def rowDst (r : List Byte) (row x : Nat) : DWord :=
  cdDst r + BitVec.ofNat 64 (row / cdNy r) * cdDsz r + BitVec.ofNat 64 (row % cdNy r) * cdDsy r +
    BitVec.ofNat 64 (x * cdSize r)

/-- A slot of the buffer of a copy (R309): the state with the slot acquired, its first location and what is released;
none while no slot is free. Groups parked for a slot have been served before it is free, so they come first, whenever they
parked (log 26; DESIGN CHOICE: R141 orders parked waiters only). -/
def copySlot (s : State) (o : EngineOp) (r : List Byte) : Except Nat (Option (State × Nat × HeldSlot)) :=
  let len := cdNx r * cdSize r
  if cdCbd r = 63 then
    let fc := partnerOf o.core
    let k := s.coreAt fc
    if o.block.isNone || k.oos then .error 0x87
    else if len > 128 then .error 0x80
    else if k.inbound.free = 0 then .ok none
    else
      let a := shaftAcquire k.inbound true
      .ok (some (s.setCore fc { k with inbound := a.1 }, shaftLoc fc (128 * a.2), ⟨63, true, a.2⟩))
  else
    let cl := clusterOfCore o.core
    let k := s.clusterAt cl
    let c := get CbDesc.reset k.cbs (cdCbd r)
    if o.bufferGone || !c.en || some c.owner != o.block then .error 0x87
    else if len > slotBytes c then .error 0x80
    else if c.free = 0 then .ok none
    else
      let a := cbAcquire c true
      let base := (sliceOf s o).1
      .ok (some (s.setCluster cl { k with cbs := put CbDesc.reset k.cbs (cdCbd r) a.1 },
        base + c.base.toNat + a.2 * slotBytes c, ⟨cdCbd r, true, a.2⟩))

/-- The outcome of a run of rows. -/
inductive CopyEnd where
  | code (c : Nat)
  /-- waits for a slot -/
  | waits

/-- The rows of a copy from `row` on: the state, rows completed, whether data was uncorrectable, how it ended. A row for a
slot is read before the slot is acquired, so that one which an address stops takes no slot (log 16). Where source and
destination overlap, the elements move in increasing z, y, x (log 28; DESIGN CHOICE: R308 leaves the order open). -/
def copyRows (o : EngineOp) (r : List Byte) : Nat → Nat → Bool → State → State × Nat × Bool × CopyEnd
  | 0, row, bad, s => (s, row, bad, .code (if bad then 0x82 else 0))
  | n + 1, row, bad, s =>
    if cdCb r then
      match copySlot s o r with
      | .error c => (s, row, bad, .code c)
      | .ok none => (s, row, bad, .waits)
      | .ok (some (s1, loc, h)) => match sourceRow o (cdSize r) (rowSrc r row) (cdNx r) 0 bad s with
        | (s, some c) => (s, row, bad, .code c)
        | (_, none) => match moveRow o (cdSize r) (rowSrc r row) (fun x => .ok (loc + x * cdSize r)) (cdNx r) 0 bad s1 with
        | (s, bad, some c) => (s, row, bad, .code c)
        | (s, bad, none) => copyRows o r n (row + 1) bad (cbRelease s o.core h)
    else
      match moveRow o (cdSize r) (rowSrc r row) (fun x => .error (rowDst r row x)) (cdNx r) 0 bad s with
      | (s, bad, some c) => (s, row, bad, .code c)
      | (s, bad, none) => copyRows o r n (row + 1) bad s

/-- n consecutive bytes reach the scratchpad aperture (R135). -/
def reachesSpad (va : DWord) (n : Nat) : Bool := decide (0xFFFFFF0000000000 < va.toNat + n)

/-- A scratchpad address in a copy that has no block: at any row (R308). -/
def noSlice (o : EngineOp) (r : List Byte) : Bool :=
  o.group.isNone && (cdCb r || (List.range (cdNy r * cdNz r)).any fun row =>
    reachesSpad (rowDst r row 0) (cdNx r * cdSize r) ||
    match rowSrc r row 0 with | .ok va => reachesSpad va (cdNx r * cdSize r) | .error _ => false)

/-- A ring detached with its final status; its block's slice is free with the last (R313). -/
def endRing (s : State) (oid : Nat) (o : EngineOp) (w : Word) : State :=
  let s := finishOp s oid w
  match o.block with
  | some b => scrubSlice s b
  | none => s

/-- Entries completed since the attachment. -/
def ringCount (r : RingInfo) : Nat := (r.done + 2 ^ 32 - r.start) % 2 ^ 32

/-- COPY_COMPLETE (R306, R308, R309, R313): a copy moves its rows, up to a slot that is not free; a detached ring that
has caught up ends. -/
def execCopyComplete (oid : Nat) (s : State) : Outcome :=
  match s.op? oid with
  | none => .next s
  | some o => match o.kind with
    | .copy r =>
      if noSlice o r then .next (finishOp s oid (finalStatus 0x80 0 0))
      else match copyRows o r (cdNy r * cdNz r - o.rows) o.rows o.poisoned s with
        | (s, n, _, .code c) => .next (finishOp s oid (finalStatus c n 0))
        | (s, n, bad, .waits) => .next (s.setOp oid { o with rows := n, poisoned := bad })
    | .ring r =>
      .next (if r.detaching && r.done == r.notify then endRing s oid o (finalStatus 0 (ringCount r) 0) else s)
    | .cpred _ | .ivsld _ | .bmac _ | .embw _ => .next s

/-! ### Copy rings (R310 to R313) -/

/-- Entries published and not completed, modulo 2^32. -/
def ringLag (r : RingInfo) (notify : Nat) : Nat := (notify + 2 ^ 32 - r.done) % 2 ^ 32

/-- RING_NOTIFY_READ (R312): NOTIFY read; too large a distance stops the ring. -/
def execRingNotifyRead (oid : Nat) (s : State) : Outcome :=
  match s.op? oid with
  | none => .next s
  | some o => match o.kind with
    | .ring r =>
      if r.detaching then .next s
      else
        let n := readNat s ((sliceOf s o).1 + r.header) 4
        if ringLag r n > 2 ^ r.log2n then .next (endRing s oid o (finalStatus 0x80 (ringCount r) 0))
        else .next (s.setOp oid { o with kind := .ring { r with notify := n } })
    | .copy _ | .cpred _ | .ivsld _ | .bmac _ | .embw _ => .next s

/-- DONE after the completed entries, in index order (k at most). -/
def advanceDone : Nat → RingInfo → RingInfo
  | 0, r => r
  | k + 1, r =>
    if r.finished.contains r.done then
      advanceDone k { r with done := (r.done + 1) % 2 ^ 32, finished := r.finished.filter (· != r.done) }
    else r

/-- An entry copied: the state, whether data was uncorrectable, the CODE of a failure. -/
def ringCopy (o : EngineOp) (e : List Byte) (s : State) : State × Bool × Option Nat :=
  if recField e 162 94 ≠ 0 then (s, false, some 0x80)
  else
    let fill := recField e 161 1 = 1
    moveRow o 1 (fun x => if fill then .error (recField e 0 8) else .ok (recAddr e 0 + BitVec.ofNat 64 x))
      (fun x => .error (recAddr e 64 + BitVec.ofNat 64 x)) (recField e 128 32) 0 false s

/-- Bytes of entry `idx` of a ring. -/
def ringEntry (s : State) (o : EngineOp) (r : RingInfo) (idx : Nat) : List Byte :=
  readBytes s ((sliceOf s o).1 + r.base + 32 * (idx % 2 ^ r.log2n)) 32

/-- Entry `idx` has not started: entries start in index order, and one with FENCE once every earlier one is complete. -/
def notStarted (s : State) (o : EngineOp) (r : RingInfo) (idx : Nat) : Bool :=
  (List.range ((idx + 2 ^ 32 - r.done) % 2 ^ 32 + 1)).any fun k =>
    let j := (r.done + k) % 2 ^ 32
    k != 0 && !r.finished.contains j && recField (ringEntry s o r j) 160 1 == 1

/-- DONE written with each of n new values, after `done` (R312). -/
def writeDones (s : State) (loc done : Nat) (n : Nat) : State :=
  (List.range n).foldl (fun s k => storeNat s loc 4 ((done + k + 1) % 2 ^ 32)) s

/-- RING_ENTRY_COMPLETE (R311, R312): entry `idx` copies, having started. Where it fails, it waits until every earlier entry
has completed. An entry whose source is uncorrectable poisons its bytes and counts as completed, and no status tells of it
(log 29; DESIGN CHOICE: R306 gives 0x82, R313 has no status for it). -/
def execRingEntryComplete (oid idx : Nat) (s : State) : Outcome :=
  match s.op? oid with
  | none => .next s
  | some o => match o.kind with
    | .ring r =>
      let at_ := (sliceOf s o).1
      let e := ringEntry s o r idx
      if (idx + 2 ^ 32 - r.done) % 2 ^ 32 ≥ ringLag r r.notify || r.finished.contains idx then .next s
      else if notStarted s o r idx then .next s
      else match ringCopy o e s with
        | (s', _, some c) =>
          if r.done ≠ idx then .next s
          else .next (endRing (storeNat s' (at_ + r.header + 8) 4 idx) oid o (finalStatus c (ringCount r) 0))
        | (s', _, none) =>
          let r' := advanceDone (2 ^ r.log2n) { r with finished := r.finished ++ [idx] }
          .next (writeDones (s'.setOp oid { o with kind := .ring r' }) (at_ + r.header + 4) r.done
            ((r'.done + 2 ^ 32 - r.done) % 2 ^ 32))
    | .copy _ | .cpred _ | .ivsld _ | .bmac _ | .embw _ => .next s

/-! ### Combining (R316 to R319) -/

/-- A tile as f32 values (R319). -/
def tileVals (bf : Bool) (bs : List Byte) : List Word :=
  if bf then (List.range (bs.length / 2)).map fun i => BitVec.ofNat 32 (natOfBytes ((bs.drop (2 * i)).take 2) * 65536)
  else (List.range (bs.length / 4)).map fun i => BitVec.ofNat 32 (natOfBytes ((bs.drop (4 * i)).take 4))

/-- Elements of a tile that hold an uncorrectable byte. -/
def tileBad (bf : Bool) (bs : List Bool) : List Nat :=
  (List.range (bs.length / if bf then 2 else 4)).filter fun i =>
    if bf then ((bs.drop (2 * i)).take 2).any id else ((bs.drop (4 * i)).take 4).any id

/-- The units of 64 bytes of a tile: the state, the bytes and which are uncorrectable, and the CODE of a failure. -/
def tileRead (o : EngineOp) : Nat → DWord → Bool → State → State × List (Byte × Bool) × Option Nat
  | 0, _, _, s => (s, [], none)
  | k + 1, va, seen, s => match (if isGlobal va then opHit s o .load va 64 else .error (codeOf .aper)) with
    | .error c => (s, [], some c)
    | .ok h =>
      let bs := (hitLocs s h 64).map fun l => (readByte s l, isBad s l)
      let r := tileRead o k (va + 64) (seen || bs.any (·.2)) (meet (opRead o s h 64) o seen (firstBad s (hitLocs s h 64)))
      (r.1, bs ++ r.2.1, r.2.2)

/-- CPRED_SEND_COMPLETE (R318): the tile is read and leaves the package; COUNT is the engine's number. -/
def execCpredSendComplete (oid : Nat) (s : State) : Outcome :=
  match s.op? oid with
  | none => .next s
  | some o => match o.kind with
    | .cpred r => match tileRead o (cpLenu r) (cpSrc r) false s with
      | (s, _, some c) => .next (finishOp s oid (finalStatus c o.engine 0))
      | (s, bs, none) =>
        if unreachable s (cpNode r) then .next (finishOp s oid (finalStatus 0x1A o.engine 0))
        else
          let bad := bs.any (·.2)
          let p : CombinePart :=
            { podid := podOf s o.launch, gid := cpGid r, dst := cpDst r, donew := cpDonew r, op := cpOp r,
              bf16 := cpType r == 1, nsrc := cpNsrc r, count := 1, vals := tileVals (cpType r == 1) (bs.map (·.1)),
              bad := tileBad (cpType r == 1) (bs.map (·.2)), pkey := s.key }
          let s := { s with parts := s.parts ++ [(cpNode r, p)] }
          .next (finishOp s oid (finalStatus (if bad then 0x82 else 0) o.engine 0))
    | .copy _ | .ring _ | .ivsld _ | .bmac _ | .embw _ => .next s

/-- Two values combined (R319). -/
def combineVal (op : Nat) (a b : Word) : Word :=
  BitVec.ofNat 32 (if op = 0 then (fp32Add a.toNat b.toNat).w
    else if op = 1 then minCanon a.toNat b.toNat else maxCanon a.toNat b.toNat)

/-- Contributions of one combine (R317). -/
def sameCombine (a b : CombinePart) : Bool := a.podid == b.podid && a.gid == b.gid && a.dst == b.dst

/-- The agent that writes a result: the launch with the same PODID that runs in this package (R317, log 26). -/
def combineOp (s : State) (podid : Nat) : Option EngineOp :=
  (s.launches.find? fun e => e.2.hdr.podid == podid && podid != 0 && launchLives e.2).map fun e =>
    { kind := .cpred [], launch := e.1, group := none, scalar := 0, block := none, core := 0, ctx := e.2.ctx,
      root := e.2.root, priv := e.2.hdr.priv, secure := e.2.hdr.sec, stream := 0, cp := 0, engine := 0, channels := [],
      pins := [], status := ⟨0, 0, false⟩, rows := 0, poisoned := false, bufferGone := false }

/-- Values written at an address, element by element, those made from uncorrectable data poisoned; a translation that fails
drops the rest. -/
def writeVals (o : EngineOp) (bf : Bool) : DWord → List (Word × Bool) → State → State
  | _, [], s => s
  | va, v :: vs, s =>
    let size := if bf then 2 else 4
    let w := if bf then (cvtFF f32 bf16 .rne v.1.toNat).w else v.1.toNat
    match opHit s o .store va size with
    | .error _ => s
    | .ok h => writeVals o bf (va + BitVec.ofNat 64 size) vs (putElem o true h (bytesOfNat size w) v.2 (markHit s h))

/-- A result written: the tile, then DONEW. -/
def combineWrite (s : State) (p : CombinePart) (done : Nat) : State :=
  match combineOp s p.podid with
  | none => s
  | some o =>
    let s := writeVals o p.bf16 p.dst (p.vals.zipIdx.map fun v => (v.1, p.bad.contains v.2)) s
    match opHit s o .store p.donew 4 with
    | .error _ => s
    | .ok h => storeHit (markHit s h) h 4 done

/-- COMBINE_ARRIVAL (R318): a contribution, or a partial that switches formed, reaches this package. -/
def execCombineArrival (p : CombinePart) (s : State) : Outcome :=
  let s := { s with parts := s.parts.erase (s.pkgid, p) }
  match s.combines.findIdx? fun c => sameCombine c.part p with
  | none =>
    if p.count ≥ p.nsrc then .next (combineWrite s p p.nsrc)
    else .next { s with combines := s.combines ++ [⟨p, s.primaryTime⟩] }
  | some k => match s.combines[k]? with
    | none => .next s
    | some c =>
      let q := { c.part with count := c.part.count + p.count,
                             vals := (c.part.vals.zip p.vals).map fun v => combineVal p.op v.1 v.2,
                             bad := distinct (c.part.bad ++ p.bad) }
      if q.count ≥ q.nsrc then .next (combineWrite { s with combines := s.combines.eraseIdx k } q q.nsrc)
      else .next { s with combines := s.combines.set k { c with part := q } }

/-- COMBINE_TIMEOUT (R318): 10 ms after its first arrival, the partial is written with its count. -/
def execCombineTimeout (k : Nat) (s : State) : Outcome :=
  match s.combines[k]? with
  | none => .next s
  | some c =>
    if since s.primaryTime c.since < 10000000 then .next s
    else .next (combineWrite { s with combines := s.combines.eraseIdx k } c.part (c.part.count + 2 ^ 31))

end Sys2Proof.Machine
end

