-- ==== Sys2Proof/Machine/Queues.lean ====
section
/-! DEFINITION. The command processors (R93 to R99, R458): queue descriptors, records, what stops a queue, and the
commands of control flow, waiting and signalling. -/

namespace Sys2Proof.Machine

open Assoc Bits

/-! ### Descriptors and records (R95, R98) -/

structure Desc where
  base : DWord
  size : Nat
  en : Bool
  privq : Bool
  pri : Nat
  ctx : Nat
  tail : Nat
  head : Nat
  /-- a reserved bit is not zero -/
  rsv : Bool

/-- The descriptor of a queue, as its command processor reads it. -/
def readDesc (s : State) (q : Nat) : Desc :=
  let w := queueDesc s q 12 4
  { base := BitVec.ofNat 64 (queueDesc s q 0 8), size := queueDesc s q 8 4, en := w % 2 == 1, privq := w / 2 % 2 == 1,
    pri := w / 4 % 4, ctx := w / 16 % 65536, tail := queueDesc s q 16 4, head := queueDesc s q 20 4,
    rsv := w / 2 ^ 20 != 0 || queueDesc s q 28 4 != 0 }

/-- Error 0x08 (R97). -/
def descBad (d : Desc) : Bool :=
  decide (d.ctx ≥ 4096) || !((List.range 25).any fun k => decide (4 ≤ k) && d.size == 2 ^ k) || d.base.toNat % 4096 != 0

/-- A word of a queue's descriptor written. -/
def writeDesc (s : State) (q off v : Nat) : State :=
  store s ((homesFrom s (s.ctl.qtbase.toNat + 32 * q + off) 4).zip (bytesOfNat 4 v))

/-- A record at HEAD, with what its addresses go through. -/
structure Cmd where
  q : Nat
  d : Desc
  bytes : List Byte
  ag : Agent

def Cmd.fld (c : Cmd) (lo n : Nat) : Nat := memField c.bytes lo n
def Cmd.op (c : Cmd) : Nat := c.fld 0 8
def Cmd.flags (c : Cmd) : Nat := c.fld 16 8
def Cmd.imm (c : Cmd) : Nat := c.fld 32 32
def Cmd.addr0 (c : Cmd) : DWord := BitVec.ofNat 64 (c.fld 64 64)
def Cmd.addr1 (c : Cmd) : DWord := BitVec.ofNat 64 (c.fld 128 64)
def Cmd.tmo (c : Cmd) : Nat := c.fld 224 32
/-- The status word of the command (R458). -/
def Cmd.status (c : Cmd) : StatusAddr := ⟨c.d.ctx, c.addr1, c.d.privq⟩

/-- What a queue has at its HEAD. -/
inductive Fetch where
  | nothing
  | bad (code : Nat)
  | cmd (s : State) (c : Cmd)

/-- The record at HEAD: a queue that is stopped, not in service or without work has none. -/
def fetchCmd (s : State) (q : Nat) : Fetch :=
  if s.ctl.qtbase = 0 ∨ q ≥ 64 ∨ (s.queueAt q).stopped then .nothing
  else
    let d := readDesc s q
    if !d.en then .nothing
    else if descBad d then .bad 8
    else if d.head = d.tail then .nothing
    else
      let ag := ctxAgent (contextRoot s d.ctx) d.privq false
      match ctxRead s ag (d.base + BitVec.ofNat 64 (32 * (d.head % d.size))) 32 with
      | none => .bad (if d.rsv then 2 else 5)
      | some (s, bs) => .cmd s ⟨q, d, bs, ag⟩

/-! ### Stopping and going on (R97) -/

def updQueue (s : State) (q : Nat) (f : Queue → Queue) : State := s.setQueue q (f (s.queueAt q))

/-- The queue stops at its HEAD with a code, and the control node hears of it. -/
def stopQueue (s : State) (q code : Nat) : State :=
  let d := readDesc s q
  let idx := if code = 8 then d.head % 2 ^ 24 else d.head % d.size
  let s := writeDesc s q 24 (code * 2 ^ 24 + idx)
  report (updQueue s q fun k => { k with stopped := true, heldSince := none }) (.queueStop q code idx)

/-- HEAD set to a counter; the next command is no longer held. -/
def setHead (s : State) (q n : Nat) : State := updQueue (writeDesc s q 20 (n % 2 ^ 32)) q fun k => { k with heldSince := none }

/-- On to the next record. -/
def nextRecord (s : State) (c : Cmd) : State := setHead s c.q (c.d.head + 1)

/-- The command at HEAD waits: it has started now, if it had not. -/
def holdCmd (s : State) (c : Cmd) : State :=
  updQueue s c.q fun k => { k with heldSince := some (k.heldSince.getD s.primaryTime) }

def addRef (s : State) (q : Nat) (r : CmdRef) : State := updQueue s q fun k => { k with running := k.running ++ [r] }

/-- A stopped queue restarts from its HEAD (R97). -/
def restartQueue (s : State) (q : Nat) : State :=
  if (s.queueAt q).stopped then updQueue (writeDesc s q 24 0) q fun k => { k with stopped := false } else s

/-- QUEUE_TAIL_WRITE (R97): the control node writes TAIL. -/
def execQueueTailWrite (q : Nat) (tail : Word) (s : State) : Outcome :=
  if s.ctl.qtbase = 0 ∨ q ≥ 64 then .next s else .next (restartQueue (writeDesc s q 16 tail.toNat) q)

/-- Stopped queues whose descriptor a write of the control node touched restart. -/
def restartTouched (s : State) (loc n : Nat) : State :=
  (List.range 64).foldl (fun s q =>
    if s.ctl.qtbase != 0 && (homesFrom s (s.ctl.qtbase.toNat + 32 * q) 32).any fun x => decide (loc ≤ x ∧ x < loc + n) then
      restartQueue s q else s) s

/-! ### Which queue is served (R96) -/

/-- The queue holds a command that has not started. -/
def mayStart (s : State) (q : Nat) : Bool :=
  let d := readDesc s q
  d.en && !(s.queueAt q).stopped && (s.queueAt q).heldSince.isNone && (descBad d || d.head != d.tail)

/-- The command processor of a queue: 0 on CD0, 1 on CD2 (R93). -/
def processorOf (q : Nat) : Nat := q / 32

/-- The queue that a command processor serves: of the highest PRI, and there the next in rotation. -/
def servedQueue (s : State) (cp : Nat) : Option Nat :=
  [3, 2, 1, 0].findSome? fun p =>
    ((List.range 32).map fun k => 32 * cp + (get 0 s.rota (4 * cp + p) + k) % 32).find? fun q =>
      queuePri s q == p && mayStart s q

/-- The command at HEAD may go on: it has started and holds its queue, or its queue is served. -/
def mayServe (s : State) (q : Nat) : Bool :=
  (s.queueAt q).heldSince.isSome || servedQueue s (processorOf q) == some q

/-- The rotation goes on behind the queue that is served; a command that has started takes no turn. -/
def serve (s : State) (q : Nat) : State :=
  if (s.queueAt q).heldSince.isSome then s
  else { s with rota := put 0 s.rota (4 * processorOf q + queuePri s q) ((q + 1) % 32) }

/-! ### What a record may hold (R97 to R99) -/

/-- The fields that a command uses. -/
structure Uses where
  tmo : Bool
  mask : Bool
  cmp : Bool
  addr0 : Bool
  addr1 : Bool
  imm : Word
  flags : Nat

/-- No field but OP. -/
def Uses.bare : Uses := ⟨false, false, false, false, false, 0, 0⟩
/-- The fields of a condition. -/
def Uses.cond : Uses := ⟨false, true, true, true, false, 0xFFFFFFFF, 0⟩

/-- Error 0x02: a field that is not used, a reserved CMP, or a reserved bit of the descriptor (R95), is not zero. -/
def reservedBad (c : Cmd) (u : Uses) : Bool :=
  c.d.rsv || c.fld 24 8 != 0 || (!u.tmo && c.tmo != 0) || (!u.mask && c.fld 192 32 != 0) || (!u.addr1 && c.addr1 != 0) ||
  (!u.addr0 && c.addr0 != 0) || (BitVec.ofNat 32 c.imm &&& ~~~u.imm) != 0 || c.flags > u.flags ||
  (if u.cmp then decide (c.fld 8 8 > 5) else c.fld 8 8 != 0)

/-- A status address that fails; it is judged when the command starts (R97). -/
def statusBad (s : State) (c : Cmd) : Bool :=
  (s.queueAt c.q).heldSince.isNone && c.addr1 != 0 && (c.addr1.toNat % 4 != 0 || match resolve s c.ag .store c.addr1 4 with | .ok _ => false | .error _ => true)

/-- The word of a condition: none where it does not translate or is misaligned. -/
def condWord (s : State) (c : Cmd) : Option (State × Word) :=
  if c.addr0.toNat % 4 ≠ 0 then none
  else (ctxRead s c.ag c.addr0 4).map fun r => (r.1, BitVec.ofNat 32 (natOfBytes r.2))

/-- R98: whether the condition is true of a word. -/
def condHolds (c : Cmd) (w : Word) : Bool :=
  let a := w &&& BitVec.ofNat 32 (c.fld 192 32)
  let b := BitVec.ofNat 32 c.imm
  match c.fld 8 8 with
  | 0 => a == b
  | 1 => a != b
  | 2 => decide (a.toNat < b.toNat)
  | 3 => decide (a.toNat ≥ b.toNat)
  | 4 => decide (a.toInt < b.toInt)
  | _ => decide (a.toInt ≥ b.toInt)

/-! ### Nesting (R99) -/

def isLoop : CmdOpen → Bool
  | .loop .. | .skipLoop => true
  | .arm _ | .skipThen | .skipIf _ => false

/-- The next record is passed over. -/
def skipping (os : List CmdOpen) : Bool :=
  match os with
  | .skipThen :: _ | .skipIf _ :: _ | .skipLoop :: _ => true
  | .arm _ :: _ | .loop .. :: _ | [] => false

/-- One more LOOP, or IF, would exceed the nesting. -/
def loopsFull (os : List CmdOpen) : Bool := decide ((os.filter isLoop).length ≥ 4)
def ifsFull (os : List CmdOpen) : Bool := decide ((os.filter fun o => !isLoop o).length ≥ 8)

/-- What a record that is passed over leaves open; none for error 0x03. -/
def skipOpens (op : Nat) (os : List CmdOpen) : Option (List CmdOpen) :=
  match op, os with
  | 3, _ => if loopsFull os then none else some (.skipLoop :: os)
  | 5, _ => if ifsFull os then none else some (.skipIf false :: os)
  | 4, .skipLoop :: rest => some rest
  | 4, _ => none
  | 6, .skipThen :: rest => some (.arm true :: rest)
  | 6, .skipIf false :: rest => some (.skipIf true :: rest)
  | 6, _ => none
  | 7, .skipThen :: rest => some rest
  | 7, .skipIf _ :: rest => some rest
  | 7, _ => none
  | _, _ => some os

def setOpens (s : State) (q : Nat) (os : List CmdOpen) : State := updQueue s q fun k => { k with opens := os }

/-- A record in an arm or a body that does not run. -/
def passOver (s : State) (c : Cmd) : State :=
  match skipOpens c.op (s.queueAt c.q).opens with
  | none => stopQueue s c.q 3
  | some os => nextRecord (setOpens s c.q os) c

/-- The record at HEAD of a queue, if it satisfies a test (the step's own command): passed over, or checked (`errs` in
increasing order of code) and executed. A command that stops keeps what the reads (`reads`) that it completed leave: they are
accesses (R151, R159). -/
def withCmd (s : State) (q : Nat) (p : Cmd → Bool) (errs : State → Cmd → List (Nat × Bool)) (body : State → Cmd → State)
    (reads : State → Cmd → State := fun s _ => s) : Outcome :=
  match fetchCmd s q with
  | .cmd s' c =>
    if !p c || !mayServe s q then .next s
    else
      let s' := serve s' q
      if skipping (s'.queueAt q).opens then .next (passOver s' c)
      else match (errs s' c).find? (·.2) with
        | some e => .next (stopQueue (reads s' c) q e.1)
        | none => .next (body s' c)
  | .nothing | .bad _ => .next s

def opIs (n : Nat) (c : Cmd) : Bool := c.op == n

/-- UNDEFINED_COMMAND (R97): a queue that cannot go on: an invalid descriptor, a record that does not translate, or an
undefined OP. -/
def execUndefinedCommand (q : Nat) (s : State) : Outcome :=
  match fetchCmd s q with
  | .nothing => .next s
  | .bad code => .next (if mayServe s q then stopQueue (serve s q) q code else s)
  | .cmd s' c =>
    let s' := serve s' q
    if 1 ≤ c.op ∧ c.op ≤ 0x10 ∨ !mayServe s q then .next s
    else if skipping (s'.queueAt q).opens then .next (passOver s' c)
    else .next (stopQueue s' q 1)

/-! ### Control flow (R99) -/

/-- LOOP with a count. -/
def execLoopCounted (q : Nat) (s : State) : Outcome :=
  withCmd s q (fun c => opIs 3 c && c.flags % 2 == 0)
    (fun s c => [(2, reservedBad c { Uses.bare with imm := 0xFFFFFFFF }), (3, loopsFull (s.queueAt q).opens)])
    fun s c =>
      let o := if c.imm = 0 then .skipLoop else .loop ((c.d.head + 1) % 2 ^ 32) (some c.imm)
      nextRecord (setOpens s q (o :: (s.queueAt q).opens)) c

/-- LOOP with a condition. -/
def execLoopConditional (q : Nat) (s : State) : Outcome :=
  withCmd s q (fun c => opIs 3 c && c.flags % 2 == 1)
    (fun s c => [(2, reservedBad c { Uses.cond with flags := 1 }), (3, loopsFull (s.queueAt q).opens),
      (5, (condWord s c).isNone)])
    fun s c => match condWord s c with
      | none => s
      | some (s, w) =>
        let o := if condHolds c w then .loop ((c.d.head + 1) % 2 ^ 32) none else .skipLoop
        nextRecord (setOpens s q (o :: (s.queueAt q).opens)) c

/-- ENDLOOP: the body again, the condition again, or on. -/
def execEndloop (q : Nat) (s : State) : Outcome :=
  withCmd s q (opIs 4)
    (fun s c => [(2, reservedBad c Uses.bare),
      (3, match (s.queueAt q).opens with | .loop .. :: _ => false | _ => true)])
    fun s c => match (s.queueAt q).opens with
      | .loop body (some n) :: rest =>
        if n > 1 then setHead (setOpens s q (.loop body (some (n - 1)) :: rest)) q body
        else nextRecord (setOpens s q rest) c
      | .loop body none :: rest => setHead (setOpens s q rest) q (body + 2 ^ 32 - 1)
      | _ => s

/-- IF. -/
def execCmdIf (q : Nat) (s : State) : Outcome :=
  withCmd s q (opIs 5)
    (fun s c => [(2, reservedBad c Uses.cond), (3, ifsFull (s.queueAt q).opens), (5, (condWord s c).isNone)])
    fun s c => match condWord s c with
      | none => s
      | some (s, w) =>
        let o := if condHolds c w then .arm false else .skipThen
        nextRecord (setOpens s q (o :: (s.queueAt q).opens)) c

/-- ELSE after an arm that ran: the other is passed over. -/
def execCmdElse (q : Nat) (s : State) : Outcome :=
  withCmd s q (opIs 6)
    (fun s c => [(2, reservedBad c Uses.bare),
      (3, match (s.queueAt q).opens with | .arm false :: _ => false | _ => true)])
    fun s c => nextRecord (setOpens s q (.skipIf true :: (s.queueAt q).opens.tail)) c

/-- ENDIF. -/
def execCmdEndif (q : Nat) (s : State) : Outcome :=
  withCmd s q (opIs 7)
    (fun s c => [(2, reservedBad c Uses.bare),
      (3, match (s.queueAt q).opens with | .arm _ :: _ => false | _ => true)])
    fun s c => nextRecord (setOpens s q (s.queueAt q).opens.tail) c

/-! ### Waiting and signalling (R99, R325) -/

/-- The queue has been held by the WAITMEM at its HEAD for TMO (R99), by the primary die's NTIME whichever die serves the
queue (log 28; DESIGN CHOICE: R99 names no die). -/
def tmoPassed (s : State) (q : Nat) (c : Cmd) : Bool :=
  c.tmo != 0 && (s.queueAt q).heldSince.any fun t => decide (since s.primaryTime t ≥ c.tmo * 1000)

/-- WAITMEM: the queue is held until the condition holds. One held for TMO whose condition word no longer translates
qualifies for 0x04 and 0x05 (R97). -/
def execWaitmem (q : Nat) (s : State) : Outcome :=
  withCmd s q (opIs 8)
    (fun s c => [(2, reservedBad c { Uses.cond with tmo := true, addr1 := true }),
      (4, (condWord s c).isNone && tmoPassed s q c), (5, (condWord s c).isNone || statusBad s c)])
    fun s c => match condWord s c with
      | none => s
      | some (s, w) => if condHolds c w then nextRecord (statusWord s c.status 1) c else holdCmd s c

/-- WAITMEM_TIMEOUT: TMO has passed since the command started, and the condition does not hold or its word no longer
translates. -/
def execWaitmemTimeout (q : Nat) (s : State) : Outcome :=
  match fetchCmd s q with
  | .cmd s' c =>
    let holds := (condWord s' c).any fun w => condHolds c w.2
    if c.op == 8 && tmoPassed s q c && !holds && !skipping (s.queueAt q).opens then .next (stopQueue s' q 4) else .next s
  | .nothing | .bad _ => .next s

/-- A launch or a copy of the queue that started earlier has not completed. -/
def worksOn (k : Queue) : Bool :=
  k.running.any fun r => match r with
    | .launch _ | .op _ => true
    | .vf .. | .preempt _ | .gate _ | .alloc _ | .free .. => false

/-- IMM written to ADDR0, the completion reported, the status written. -/
def fireSignal (s : State) (c : Cmd) : State :=
  let s := match resolve s c.ag .store c.addr0 4 with
    | .ok h => markHit (storeHit s h 4 c.imm) h
    | .error _ => s
  nextRecord (report (statusWord s c.status 1) (.signal c.q (BitVec.ofNat 32 c.imm))) c

def signalUses : Uses := ⟨false, false, false, true, true, 0xFFFFFFFF, 1⟩

/-- The address of a signal, or the status address, fails. -/
def signalBad (s : State) (c : Cmd) : Bool :=
  statusBad s c || c.addr0.toNat % 4 != 0 ||
  match resolve s c.ag .store c.addr0 4 with | .ok _ => false | .error _ => true

/-- SIGNAL. -/
def execSignal (q : Nat) (s : State) : Outcome :=
  withCmd s q (fun c => opIs 9 c && c.flags % 2 == 0)
    (fun s c => [(2, reservedBad c signalUses), (5, signalBad s c)])
    fun s c => if worksOn (s.queueAt q) then holdCmd s c else fireSignal s c

/-- A launch of the queue is suspect (R325). -/
def queueSuspect (s : State) (q : Nat) : Bool := s.launches.any fun e => e.2.queue == q && e.2.suspect

/-- Every launch of the queue that has completed is confirmed. -/
def queueConfirmed (s : State) (q : Nat) : Bool :=
  s.launches.all fun e => e.2.queue != q || e.2.phase != .complete || e.2.confirmed

/-- SIGNAL that is confirmed (R325). -/
def execSignalConfirmed (q : Nat) (s : State) : Outcome :=
  withCmd s q (fun c => opIs 9 c && c.flags % 2 == 1)
    (fun s c => [(2, reservedBad c signalUses), (5, signalBad s c), (6, queueSuspect s q)])
    fun s c => if worksOn (s.queueAt q) || !queueConfirmed s q then holdCmd s c else fireSignal s c

/-- FENCE: the queue is held until every earlier command has completed. -/
def execFenceCmd (q : Nat) (s : State) : Outcome :=
  withCmd s q (opIs 16) (fun _ c => [(2, reservedBad c Uses.bare)])
    fun s c => if (s.queueAt q).running.isEmpty then nextRecord s c else holdCmd s c

end Sys2Proof.Machine
end

