-- ==== Sys2Proof/Machine/Commands.lean ====
section
/-! DEFINITION. The commands that start something: launches and restores (R99 to R102, R241, R289), surfaces (R159,
R457), copies (R308), VFSET (R111) and CPGATE (R112, R113). -/

namespace Sys2Proof.Machine

open Assoc Bits

/-- A command that completes as it starts: its status, then the next record. -/
def endCmd (s : State) (c : Cmd) (v : Nat) : State := nextRecord (statusWord s c.status v) c

/-- A command that goes on after it has started. -/
def runCmd (s : State) (c : Cmd) (r : CmdRef) : State := nextRecord (addRef s c.q r) c

/-! ### Launches (R99 to R102) -/

/-- The counts at an address, of which each is a word (R99), and what reading them leaves; none where one does not
translate. -/
def readCounts (ag : Agent) (va : DWord) : Nat → State → State × Option (List Nat)
  | 0, s => (s, some [])
  | n + 1, s =>
    if va.toNat % 4 ≠ 0 then (s, none)
    else match ctxRead s ag va 4 with
      | none => (s, none)
      | some (s, bs) => let r := readCounts ag (va + 4) n s; (r.1, r.2.map (natOfBytes bs :: ·))

/-- What a launch command reads: its header and bytes, and the save-area header. -/
structure LaunchRead where
  bytes : List Byte
  hdr : Header
  save : Option SaveHeader

/-- The header, with the counts of LAUNCHI, and what the reads that completed leave; none where an address does not translate
or is misaligned. -/
def readLaunch (s : State) (c : Cmd) (counted : Bool) : State × Option LaunchRead :=
  if c.addr0.toNat % 256 ≠ 0 then (s, none)
  else match ctxRead s c.ag c.addr0 256 with
    | none => (s, none)
    | some (s, bs) =>
      let h := readHeader bs
      match readSave s c.ag h with
      | none => (s, none)
      | some (s, sv) =>
        if counted then
          let r := readCounts c.ag (BitVec.ofNat 64 (c.fld 192 64)) 6 s
          (r.1, r.2.map fun ns => ⟨bs, { h with counts := ns }, sv⟩)
        else (s, some ⟨bs, h, sv⟩)

/-- A restore (R241): the save area holds STATE = 1 with this header. -/
def isRestore (c : Cmd) (r : LaunchRead) : Bool :=
  match r.save with | some v => v.state == 1 && v.hdr == c.addr0 | none => false

/-- The saved launch of a header and save area. -/
def savedLaunch (s : State) (c : Cmd) (save : DWord) : Option (Nat × Launch) :=
  s.launches.find? fun e =>
    e.2.phase == .saved && e.2.addr0 == c.addr0 && e.2.ctx == c.d.ctx && e.2.hdr.save == save

/-- A saved launch that software has given up (R238) goes, as a fresh launch of its header starts. -/
def giveUpSaved (s : State) (c : Cmd) (save : DWord) : State :=
  match savedLaunch s c save with
  | none => s
  | some (lid, _) => dropRef { s with
      launches := erase s.launches lid, blocks := s.blocks.filter fun e => e.2.launch != lid,
      groups := s.groups.filter fun e => e.2.launch != lid } (.launch lid)

/-- The number of the next launch (R289). -/
def nextLnum (n : Nat) : Nat := n % (2 ^ 32 - 1) + 1

def newLaunch (s : State) (c : Cmd) (h : Header) : Launch :=
  { lnum := nextLnum s.lnum, hdr := h, ctx := c.d.ctx, root := contextRoot s c.d.ctx, queue := c.q, privq := c.d.privq,
    addr0 := c.addr0, status := c.status, phase := .running, cursor := 0, statusWas := 0, suspect := false,
    confirmed := false, ranOn := [], debugger := false, preempt := none, draw := none, savedBlocks := [],
    pastDeadline := false, liveLogged := false }

/-- A launch started; an empty one completes at once, confirmed (R99, R325). -/
def startLaunch (s : State) (c : Cmd) (l : Launch) : State :=
  let (lid, s) := s.freshId
  let s := { s with lnum := l.lnum }
  if emptyLaunch l.hdr then
    startRestores (endCmd (s.setLaunch lid { l with phase := .complete, confirmed := true, statusWas := 2 }) c 2)
  else runCmd (s.setLaunch lid l) c (.launch lid)

/-- Blocks of a launch that are saved. -/
def blocksSaved (s : State) (lid : Nat) : List Nat :=
  (s.blocks.filter fun e => e.2.launch == lid && e.2.saved).map (·.1)

/-- STATE := 0 in the save area, as a restore starts (R241). -/
def clearSaveState (s : State) (c : Cmd) (h : Header) : State :=
  ctxStore s c.ag (h.save + 24) 4 0

/-- A saved launch goes on: PRI, DIES, DEADLINE and CONF from the header as it stands. -/
def restoreLaunch (s : State) (c : Cmd) (h : Header) : State :=
  let s := clearSaveState s c h
  match savedLaunch s c h.save with
  | some (lid, l) =>
    let hdr := { l.hdr with pri := h.pri, dies := h.dies, deadline := h.deadline, conf := h.conf }
    let s := s.setLaunch lid { l with
      hdr := hdr, root := contextRoot s c.d.ctx, queue := c.q, privq := c.d.privq, status := c.status,
      phase := .running, statusWas := 0, preempt := none, savedBlocks := blocksSaved s lid, pastDeadline := false }
    if (s.queueAt c.q).running.contains (.launch lid) then nextRecord s c else runCmd s c (.launch lid)
  | none => startLaunch s c { newLaunch s c h with cursor := numBlocks h }

/-- The header that R101 judges: a restore ignores the counts and the WID fields (R241). -/
def judged (s : State) (c : Cmd) (r : LaunchRead) : Header :=
  if isRestore c r then match savedLaunch s c r.hdr.save with
    | some (_, l) =>
      { r.hdr with widths := l.hdr.widths, plvl := l.hdr.plvl, counts := l.hdr.counts, blkg := l.hdr.blkg }
    | none => r.hdr
  else r.hdr

/-- LAUNCH and LAUNCHI once every address has been read: refused, restored or started (R101). -/
def launchCmd (s : State) (c : Cmd) (counted : Bool) : State :=
  match readLaunch s c counted with
  | (s, none) => s
  | (s, some r) => match refusedFor s r.bytes (judged s c r) c.d.privq c.addr0 r.save with
    | some n => endCmd s c (0x100 + n)
    | none => if isRestore c r then restoreLaunch s c r.hdr
      else
        let s := giveUpSaved s c r.hdr.save
        startLaunch s c (newLaunch s c r.hdr)

def launchErrs (counted : Bool) (s : State) (c : Cmd) : List (Nat × Bool) :=
  [(2, reservedBad c ⟨counted, counted, false, true, true, 0, 0⟩), (5, statusBad s c || (readLaunch s c counted).2.isNone)]

/-- What a launch command has read when it stops: a status address that fails stops it before it acts (R97). -/
def launchReads (counted : Bool) (s : State) (c : Cmd) : State :=
  if reservedBad c ⟨counted, counted, false, true, true, 0, 0⟩ || statusBad s c then s else (readLaunch s c counted).1

/-- LAUNCH (R99, R101). -/
def execLaunch (q : Nat) (s : State) : Outcome :=
  withCmd s q (opIs 1) (launchErrs false) (fun s c => launchCmd s c false) (launchReads false)

/-- LAUNCHI (R99, R101). -/
def execLaunchi (q : Nat) (s : State) : Outcome :=
  withCmd s q (opIs 2) (launchErrs true) (fun s c => launchCmd s c true) (launchReads true)

/-! ### Surfaces (R159, R457) -/

/-- The image of SFALLOC; none where it does not translate or is misaligned. -/
def readImage (s : State) (c : Cmd) : Option (State × List Byte) :=
  if c.addr0.toNat % 32 ≠ 0 then none else ctxRead s c.ag c.addr0 32

def allocOf (c : Cmd) (bs : List Byte) : AllocReq :=
  { ctx := c.d.ctx, handle := c.imm, image := c.addr0, priv := c.d.privq, entry := readSfte bs, status := c.status,
    spilled := false }

/-- Error 0x02 of the record of SFALLOC itself. -/
def sfallocBad (c : Cmd) : Bool := reservedBad c ⟨false, false, false, true, true, 0xFFF, 0⟩

/-- What SFALLOC has read when it stops: its image decides whether 0x02 is the code (R97, R282). -/
def sfallocReads (s : State) (c : Cmd) : State :=
  if sfallocBad c then s else match readImage s c with | some r => r.1 | none => s

/-- SFALLOC at HEAD (R159, R282). -/
def sfallocHead (q base : Nat) (s : State) : Outcome :=
  withCmd s q (opIs 10)
    (fun s c => [(2, sfallocBad c || match readImage s c with | some r => sfteBad r.2 | none => false),
      (5, statusBad s c || (readImage s c).isNone), (7, !c.d.privq)])
    (fun s c => match readImage s c with
      | none => s
      | some (s, bs) => match allocAct s (allocOf c bs) base with
        | .done s => nextRecord s c
        | .waits s r => runCmd s c (.alloc r))
    sfallocReads

/-- The allocation of a queue in progress. -/
def allocOn (k : Queue) : Option AllocReq :=
  k.running.findSome? fun r => match r with | .alloc a => some a | _ => none

/-- SFALLOC (R159): one act of the queue's allocation in progress, or, where that waits, the command at HEAD. -/
def execSfalloc (q base : Nat) (s : State) : Outcome :=
  match allocOn (s.queueAt q) with
  | none => sfallocHead q base s
  | some r => match allocAct s r base with
    | .done s => .next (dropRef s (.alloc r))
    | .waits s' r' =>
      if r' = r ∧ s'.handles = s.handles then sfallocHead q base s
      else .next (updQueue s' q fun k => { k with running := k.running.map fun x => if x = .alloc r then .alloc r' else x })

/-- The places of a handle. -/
def inHandle (key p : Nat) : Bool := handlePlace key 0 0 ≤ p && p < handlePlace (key + 1) 0 0

/-- An access that names the handle is outstanding (R414). -/
def reached (s : State) (key : Nat) : Bool :=
  s.groups.any fun e => (e.2.loads.any fun l => (loadPlaces l).any (inHandle key)) ||
    e.2.wbuf.any fun w => (storePlaces w).any (inHandle key)

/-- No command, no draw and no outstanding access holds the handle (R281, R304, R414). -/
def mayFree (s : State) (key : Nat) : Bool := !pinned s key && !drawn s key && !reached s key && !operandsQueued s key

/-- SFFREE at HEAD (R457). -/
def sffreeHead (q : Nat) (s : State) : Outcome :=
  withCmd s q (opIs 11)
    (fun s c => [(2, reservedBad c ⟨false, false, false, false, true, 0xFFF, 0⟩), (5, statusBad s c), (7, !c.d.privq)])
    fun s c =>
      if (s.handle? c.d.ctx c.imm).isNone then endCmd s c 2
      else if mayFree s (c.d.ctx * 4096 + c.imm) then endCmd (freeHandle s (c.d.ctx * 4096 + c.imm)) c 1
      else runCmd s c (.free c.d.ctx c.imm c.status)

/-- A free of the queue that waited and may go on. -/
def freeOn (s : State) (k : Queue) : Option CmdRef :=
  k.running.find? fun r => match r with
    | .free ctx h _ => mayFree s (ctx * 4096 + h)
    | .launch _ | .op _ | .vf .. | .preempt _ | .gate _ | .alloc _ => false

/-- SFFREE (R457): a free that has waited, or the command at HEAD. -/
def execSffree (q : Nat) (s : State) : Outcome :=
  match freeOn s (s.queueAt q) with
  | some (.free ctx h st) =>
    let s := dropRef s (.free ctx h st)
    .next (if (s.handle? ctx h).isNone then statusWord s st 2 else statusWord (freeHandle s (ctx * 4096 + h)) st 1)
  | _ => sffreeHead q s

/-! ### Copies (R308) -/

/-- The copy engines that COPY may use: the one named, or any; a non-secure one (R308, R333). -/
def copyEngines (s : State) (n : Nat) : List Nat :=
  ((if n = 127 then List.range 96 else [n])).filter fun e => !s.secEngines.contains e

def copyOp (s : State) (c : Cmd) (bs : List Byte) (e : Nat) : EngineOp :=
  { kind := .copy bs, launch := 0, group := none, scalar := 0, block := none,
    core := e / Config.enginesPerDie * Config.coresPerDie, ctx := c.d.ctx, root := contextRoot s c.d.ctx,
    priv := c.d.privq, secure := false, stream := 0, engine := e, channels := [], pins := [], status := c.status,
    cp := 0, rows := 0, poisoned := false, bufferGone := false }

def readCopy (s : State) (c : Cmd) : Option (State × List Byte) :=
  if c.addr0.toNat % 64 ≠ 0 then none else ctxRead s c.ag c.addr0 64

/-- COPY (R99, R308). -/
def execCopy (q : Nat) (s : State) : Outcome :=
  withCmd s q (opIs 12)
    (fun s c => [(2, reservedBad c ⟨false, false, false, true, true, 0x7F, 0⟩ || decide (96 ≤ c.imm ∧ c.imm < 127)),
      (5, statusBad s c || (readCopy s c).isNone)])
    fun s c => match readCopy s c with
      | none => s
      | some (s', bs) => match leastBusy s' (copyEngines s' c.imm) with
        | none => endCmd s' c (finalStatus 0x18 0 0).toNat
        | some e =>
          if cdBad bs then endCmd s' c (finalStatus 0x80 0 0).toNat
          else if queuedOn s' e ≥ Config.copyQueue then holdCmd s c
          else
            let (oid, s) := s'.freshId
            runCmd (s.setOp oid (copyOp s c bs e)) c (.op oid)

/-! ### VFSET (R110, R111) -/

/-- The blocks of a die with a resident group. -/
def blocksOn (s : State) (die : Nat) : List Nat :=
  (s.blocks.filter fun e => dieOfCluster e.2.cluster == die && blockHasResident s e.1).map (·.1)

/-- VFSET result in the pit log (R336). -/
def vfLog (s : State) (die v : Nat) : State := pitWrite s die 5 v noCore noSlot 0 0 false

/-- A die asked for a frequency: at once where it has no block and no request, else after those before it. -/
def askFrequency (id mhz : Nat) (s : State) (die : Nat) : State :=
  let d := s.dieAt die
  if d.vfs.isEmpty && (blocksOn s die).isEmpty then vfLog (s.setDie die { d with mhz := mhz }) die 2
  else s.setDie die { d with vfs := d.vfs ++ [⟨id, mhz, s.primaryTime⟩] }

/-- Some die still has the request. -/
def vfPending (s : State) (id : Nat) : Bool :=
  (List.range Config.numDies).any fun d => (s.dieAt d).vfs.any fun r => r.id == id

/-- A frequency change resolved at every die: its status, 2 or 3. -/
def resolveVf (s : State) (id : Nat) : State :=
  if vfPending s id then s
  else (List.range 64).foldl (fun s q => (s.queueAt q).running.foldl (fun s r => match r with
    | .vf i st late => if i = id then dropRef (statusWord s st (if late then 3 else 2)) r else s
    | _ => s) s) s

/-- VFSET. -/
def execVfset (q : Nat) (s : State) : Outcome :=
  withCmd s q (opIs 14)
    (fun s c => [(2, reservedBad c ⟨false, false, false, false, true, 0x03FF000F, 0⟩), (5, statusBad s c), (7, !c.d.privq)])
    fun s c =>
      let mhz := c.imm / 65536
      let mask := c.imm % 16
      if mask = 0 ∨ mhz < 350 ∨ mhz > 840 ∨ mhz % 5 ≠ 0 then endCmd s c 4
      else
        let (id, s) := s.freshId
        let s := ((List.range 4).filter fun d => mask / 2 ^ d % 2 == 1).foldl (askFrequency id mhz) s
        if vfPending s id then runCmd (statusWord s c.status 1) c (.vf id c.status false) else endCmd s c 2

/-! ### CPGATE (R112, R113) -/

/-- Groups resident on the core, migrants included. -/
def coreBusy (s : State) (core : Nat) : Bool := !(residentOn s core).isEmpty

/-- The status of a gate request now: 1 or 2 while it is deferred, 3 once gated; an assay slot changes nothing (R326).
An entry that a consumer has acquired counts too (R344); its holder is then resident. -/
def gateState (s : State) (core : Nat) : Nat :=
  if coreBusy s core then 1 else if (s.coreAt core).inbound.filled > 0 then 2
  else if (match (s.dieAt (dieOfCore core)).assay with | some a => a.core == core | none => false) then
    (s.coreAt core).gateStat
  else 3

/-- A gate request judged again: its status where that changes, and the gate once it is taken (R112, R113). -/
def settleGate (s : State) (core : Nat) : State :=
  let k := s.coreAt core
  match k.gateReq with
  | none => s
  | some a =>
    let v := gateState s core
    if k.gated || v = k.gateStat then s
    else
      let s := statusWord (s.setCore core { k with gateStat := v, gated := v == 3 }) a v
      if v = 3 then dropRef s (.gate core) else s

def gateErrs (s : State) (c : Cmd) : List (Nat × Bool) :=
  [(2, reservedBad c ⟨false, false, false, false, true, 0x000103FF, 0⟩), (5, statusBad s c), (7, !c.d.privq)]

/-- The core of a CPGATE, and whether R113 refuses it. -/
def gateCore (c : Cmd) : Nat := c.imm % 1024
def gateRefused (s : State) (c : Cmd) : Bool := decide (gateCore c ≥ Config.numCores) || (s.coreAt (gateCore c)).oos

/-- CPGATE with IMM[16] = 1: a request, which replaces one that the core has. -/
def execCpgateGate (q : Nat) (s : State) : Outcome :=
  withCmd s q (fun c => opIs 15 c && c.imm / 65536 % 2 == 1) gateErrs fun s c =>
    if gateRefused s c then endCmd s c 6
    else
      let core := gateCore c
      let s := dropRef s (.gate core)
      let k := s.coreAt core
      if k.gated then endCmd (s.setCore core { k with gateReq := some c.status, gateStat := 3 }) c 3
      else settleGate (runCmd (s.setCore core { k with gateReq := some c.status, gateStat := 0 }) c (.gate core)) core

/-- CPGATE with IMM[16] = 0: the core wakes, and the status word is the command's own (log 19). -/
def execCpgateUngate (q : Nat) (s : State) : Outcome :=
  withCmd s q (fun c => opIs 15 c && c.imm / 65536 % 2 == 0) gateErrs fun s c =>
    if gateRefused s c then endCmd s c 6 else endCmd (wakeCore s (gateCore c)) c 4

end Sys2Proof.Machine
end

