-- ==== Sys2Proof/Machine/Landing.lean ====
section
/-! DEFINITION. The landing of a core (R197 to R200), the return store (R204), site notices and fenced packages
(R207, R208). -/

namespace Sys2Proof.Machine

open Assoc Bits

/-! ### Arrival of a record (R197, R198) -/

/-- Records that a core's landing holds. -/
def landed (k : Core) : List PoolRec := k.pools.flatMap (·.recs)

/-- The open pool of a record's key, of records in its mode (log 29; DESIGN CHOICE: R31 gives a migrant one mode, and R198
names no mode in the key of a pool). -/
def openPool (k : Core) (lid : Nat) (c : Cont) : Option Nat :=
  k.pools.findIdx? fun p =>
    p.launch == lid && p.priv == c.org.priv && p.rpc == c.rpc && p.key == c.key && p.fmt == c.fmt && decide (p.recs.length < 32)

/-- A free entry: 64 of the 512 are for forwarded records. -/
def entryFree (k : Core) (c : Cont) : Bool :=
  decide ((landed k).length < 512) &&
    (decide (2 ≤ c.org.hops) || decide (((landed k).filter fun r => r.org.hops < 2).length < 448))

/-- The order that a record or a return brings: what its CLK stands for; of another package CLK is ignored, and what was done
before is visible to all (R208). -/
def orderOf (s : State) (fromPkg : Nat) (clk : Map View) : Map View := if fromPkg = s.pkgid then clk else allKnown s

/-- The landing with the record in its pool or in a new bay, under the order it brings; none where it has no room. -/
def admitRecord (k : Core) (lid : Nat) (c : Cont) (clk : Map View) : Option Core :=
  let r : PoolRec := ⟨c.vals, c.bad, clk, c.org⟩
  if !entryFree k c then none
  else match openPool k lid c with
    | some i => some { k with pools := k.pools.modify i fun p => { p with recs := p.recs ++ [r] } }
    | none =>
      if k.pools.length ≥ 16 then none
      else some { k with pools := k.pools ++ [⟨lid, c.org.priv, c.rpc, c.key, c.fmt, [r], k.cyc, false⟩] }

/-- An earlier record of the same sender to the same core is still on its way (R194). -/
def heldBack (cs : List Cont) (k : Nat) (c : Cont) : Bool :=
  (cs.take k).any fun e => e.pkg == c.pkg && e.core == c.core && e.fromPkg == c.fromPkg && e.fromCore == c.fromCore &&
    e.fromSlot == c.fromSlot && (e.fromSlot.isSome || e.org.hslot == c.org.hslot)

/-- The home group of a lane, if its slot still has that generation. -/
def homeGroup (s : State) (hcore hslot gen : Nat) : Option (Nat × Group) :=
  s.groups.find? fun e =>
    !isMigrant e.2 && !isSaved e.2 && e.2.core == hcore && e.2.slot == hslot && e.2.gen == gen

/-- Two records of one instruction of a home group, or of one after another. -/
def sameSender (c e : Cont) : Bool :=
  e.fromPkg == c.fromPkg && e.fromCore == c.fromCore && e.fromSlot.isNone && e.org.hslot == c.org.hslot && e.org.gen == c.org.gen

/-- A record has left its sender's buffer: the `hop` of a home group is complete with its last one (R193). -/
def recordGone (s : State) (c : Cont) : State :=
  if c.fromPkg != s.pkgid || c.fromSlot.isSome || s.conts.any (sameSender c) then s
  else match homeGroup s c.fromCore c.org.hslot c.org.gen with
    | none => s
    | some e =>
      if parkedIn e.2 != some .hop then s
      else goOn s e.1 e.2

/-- The site notice of a record that leaves for a third package has not left yet (R208). -/
def noticeFirst (s : State) (c : Cont) : Bool :=
  s.notices.any fun n => n.hpkg == c.org.hpkg && n.hcore == c.org.hcore && n.hslot == c.org.hslot && n.gen == c.org.gen &&
    n.hlane == c.org.hlane && n.pkg == c.pkg

/-- The launch that a record runs in here: its own, or for a record of another package that of its PODID (R208). -/
def landingLaunch (s : State) (c : Cont) : Option Nat :=
  if c.fromPkg = s.pkgid then some c.launch
  else if c.org.podid = 0 then none
  else (s.launches.find? fun e => e.2.hdr.podid == c.org.podid && launchLives e.2).map (·.1)

/-- The record as it runs here. A record of another package says nothing of its home group's mode and kind: it runs in the
mode of the launch here, and its WID has that launch's fields (log 28; DESIGN CHOICE: R31 and R36 say the home group's,
which no record holds). -/
def homeMode (s : State) (lid : Nat) (c : Cont) : Cont :=
  if c.fromPkg = s.pkgid then c
  else { c with org := { c.org with priv := (match s.launch? lid with | some l => l.hdr.priv | none => false), pix := false } }

/-- CONTINUATION_ARRIVAL (R198, R207, R208): record k reaches its core and joins a pool, waits for room, goes on to
another package, or is refused. -/
def execContinuationArrival (k : Nat) (s : State) : Outcome :=
  match s.conts[k]? with
  | none => .next s
  | some c =>
    let rest := recordGone { s with conts := s.conts.eraseIdx k } c
    let refuse := sendReturn rest (bareReturn s 4 (orderOf s c.fromPkg c.clk) c.org)
    if heldBack s.conts k c then .next s
    else if c.pkg ≠ s.pkgid then
      .next (if unreachable s c.pkg then refuse else if noticeFirst s c then s else rest)
    else match landingLaunch s c with
      | none => .next refuse
      | some lid =>
        if (s.coreAt c.core).oos || c.core > 575 then .next refuse
        else
          let rest := wakeGated rest c.core
          match admitRecord (rest.coreAt c.core) lid (homeMode s lid c) (orderOf s c.fromPkg c.clk) with
          | none => .next s
          | some core => .next (rest.setCore c.core core)

/-! ### Launching a pool (R198 to R200) -/

/-- The landing timer of a core (R191, R372): values below 16 count as 16. -/
def landingTimer (k : Core) : Nat := max 16 k.ldtmo.toNat

/-- Whether a pool is due. -/
def poolDue (k : Core) (p : Pool) : Bool :=
  decide (p.recs.length = 32) || decide (landingTimer k ≤ since k.cyc p.since)

/-- POOL_DUE (R198, R372): a pool compared with the present LDTMO. -/
def execPoolDue (core k : Nat) (s : State) : Outcome :=
  let c := s.coreAt core
  .next (s.setCore core { c with pools := c.pools.modify k fun p => { p with due := poolDue c p } })

/-- The landing once it has compared every pool with the present LDTMO, as it does in each cycle (R372). -/
def refreshDue (k : Core) : Core := { k with pools := k.pools.map fun p => { p with due := poolDue k p } }

/-- The oldest record of a pool was forwarded. -/
def forwardedPool (p : Pool) : Bool := match p.recs with | r :: _ => decide (2 ≤ r.org.hops) | [] => false

/-- The pool that launches first: forwarded ones before the others, then the oldest arrival; list order is age. -/
def nextPool (ps : List Pool) : Option Nat :=
  match ps.findIdx? fun p => p.due && forwardedPool p with
  | some i => some i
  | none => ps.findIdx? fun p => p.due

/-- `v0` to `v15` of lane i, from record i. -/
def migrantRegs (recs : List PoolRec) : List (Nat × Word) :=
  recs.zipIdx.flatMap fun r => r.1.vals.zipIdx.map fun v => (elemOf v.2 r.2, v.1)

def migrantBad (recs : List PoolRec) : List Nat :=
  recs.zipIdx.flatMap fun r => r.1.bad.map fun i => elemOf i r.2

/-- The migrant group of a pool (R200), in the mode of its lanes' home groups (R31). TVEC and SATTR come from the header of
the launch itself, for lanes of pixel groups too (log 29; DESIGN CHOICE: R200 says the launch header's). -/
def migrantOf (l : Launch) (core slot : Nat) (p : Pool) : Group :=
  let n := p.recs.length
  let base := newGroup l p.launch 0 core slot 0 (match p.recs with | r :: _ => r.org.hwid | [] => 0) p.rpc 0
  { base with
    kind := .migrant slot (p.recs.zipIdx.map fun r => (r.2, r.1.org)), priv := p.priv, vregs := 32, accs := 0, fmt := p.fmt,
    v := puts 0 [] (migrantRegs p.recs), badV := migrantBad p.recs,
    s := puts 0 [] (p.key.zipIdx.map fun k => (k.2, k.1)),
    amask := BitVec.ofNat 32 (2 ^ n - 1), lmask := BitVec.ofNat 32 (2 ^ n - 1),
    view := p.recs.foldl (fun v r => joinViews v r.clk) [],
    cont := { ContRegs.initial with hopcfg := p.recs.foldl (fun w r => w ||| r.org.carry) 0 } }

/-- A core whose landing launches no pool: under assay, out of service or gated (R210, R112). A core that gates while pools
wait in its landing gates all the same, and they wait for the next wake (log 26; DESIGN CHOICE: R112 does not name them). -/
def landingHeld (s : State) (core : Nat) : Bool :=
  (s.coreAt core).oos || (s.coreAt core).gated ||
  match (s.dieAt (dieOfCore core)).assay with | some a => a.core == core | none => false

/-- MIGRANT_LAUNCH (R198, R200). -/
def execMigrantLaunch (core : Nat) (s : State) : Outcome :=
  let k := refreshDue (s.coreAt core)
  match nextPool k.pools, (List.range Config.landingSlots).find? (landingSlotFree s core) with
  | some i, some slot => match k.pools[i]? with
    | none => .next s
    | some p => match s.launch? p.launch with
      | none => .next s
      | some l =>
        if landingHeld s core then .next s
        else .next (addGroup (s.setCore core { k with pools := k.pools.eraseIdx i }) (migrantOf l core slot p))
  | _, _ => .next s

/-! ### Returns (R204) -/

/-- An entry made for an away lane that has none; the level event of kind 5 follows. -/
def returnTo (s : State) (gid j : Nat) (e : RetEntry) : State :=
  s.updGroup gid fun g =>
    if g.away.getLsbD j && (find g.cont.rets j).isNone then refreshLevels s (addEntry g j e) else g

/-- RETURN_ARRIVAL (R204, R208): return k reaches its home core, leaves the package, or is dropped. -/
def execReturnArrival (k : Nat) (s : State) : Outcome :=
  match s.rets[k]? with
  | none => .next s
  | some r =>
    let s := { s with rets := s.rets.eraseIdx k }
    if r.org.hpkg ≠ s.pkgid || s.fenced.contains r.fromPkg then .next s
    else match homeGroup s r.org.hcore r.org.hslot r.org.gen with
      | none => .next s
      | some e => .next (returnTo s e.1 r.org.hlane ⟨r.kind, if r.kind = 1 then r.org.carry else 0, r.vals, r.bad, orderOf s r.fromPkg r.clk⟩)

/-- The entry of a lane away at a package that is fenced (R208): what it did at earlier sites of this package is visible to
all, since it has left. -/
def fencedEntry (s : State) : RetEntry := { RetEntry.bare 4 with clk := allKnown s }

/-- SITE_NOTICE (R208): the home core learns where a lane now lies; at a package that is fenced it is refused. -/
def execSiteNotice (k : Nat) (s : State) : Outcome :=
  match s.notices[k]? with
  | none => .next s
  | some n =>
    let s := { s with notices := s.notices.eraseIdx k }
    match if n.hpkg = s.pkgid then homeGroup s n.hcore n.hslot n.gen else none with
    | none => .next s
    | some e =>
      let s := s.updGroup e.1 fun g =>
        if g.away.getLsbD n.hlane then { g with cont := { g.cont with sites := set g.cont.sites n.hlane n.pkg } } else g
      .next (if s.fenced.contains n.pkg then returnTo s e.1 n.hlane (fencedEntry s) else s)

/-- The away lanes of a group that lie at a package. -/
def lanesAt (g : Group) (pkg : Nat) : List Nat := (lanesOf g.away).filter fun j => find g.cont.sites j == some pkg

/-- PACKAGE_FENCED (R207, R208, R315): every lane away at the package is refused. -/
def execPackageFenced (pkg : Nat) (s : State) : Outcome :=
  let s := if s.fenced.contains pkg then s else { s with fenced := s.fenced ++ [pkg] }
  .next (s.groups.foldl (fun s e => (lanesAt e.2 pkg).foldl (fun s j => returnTo s e.1 j (fencedEntry s)) s) s)

end Sys2Proof.Machine
end

