-- ==== Sys2Proof/Machine/Sync.lean ====
section
/-! DEFINITION. Barriers, events and work: `bar` (R219 to R221), the event forms and `waitany` (R211 to R218), `fetchw`
(R89 to R91) and `spawn` (R88), with the steps of the device that belong to them. -/

namespace Sys2Proof.Machine

open Assoc Bits

/-! ### Barriers -/

/-- The groups of a block that a new phase expects: neither Retired nor killed. -/
def expectedOf (s : State) (bid : Nat) : List Nat := ((groupsOfBlock s bid).filter fun e => !e.2.killed).map (·.1)

/-- Those that count as arrived when the phase opens: at their end, without a live lane (R233). -/
def deadIn (s : State) (bid : Nat) : List Nat :=
  ((groupsOfBlock s bid).filter fun e => !e.2.killed && e.2.lmask == 0 && e.2.status == .parked .exit).map (·.1)

/-- The object as an arrival of the group leaves it, before the phase is tested. -/
def barArrive (s : State) (gid : Nat) (g : Group) (o : Barrier) : Barrier :=
  let o := if o.isOpen then o else
    { isOpen := true, owner := g.block, expected := expectedOf s g.block, arrived := deadIn s g.block,
      since := s.ntime (dieOfCore g.core), stall := false }
  if o.arrived.contains gid then o else { o with arrived := o.arrived ++ [gid] }

/-- A group past its `bar` with a pre-emption due (R234) stands there for the save engine. -/
def atPoint (g : Group) : Group := if g.status = .ready then { g with status := .parked (.save none) } else g

/-- An FP trap is due at the end of the chain whose last instruction the group executes: it comes before a save (R50,
R242). -/
def fpFirst (g : Group) (i : Instr) : Bool := (chainAt g (oprsOf g.fmt i)).fpFlags != 0

/-- `bar` (R219, R234, R359). At another block's phase it stands Stalled, its operand read (R48). It releases over every
stream, so it arrives once the group's accesses are made. -/
def execBar (a : Code) (s : State) : Outcome :=
  issue (.bar a) (fun s gid g =>
    let v := srcS s g a
    let cl := clusterOfCore g.core
    let b := fieldNat v 0 6
    let k := s.clusterAt cl
    let o := get Barrier.idle k.bars b
    if isMigrant g || fieldNat v 9 23 != 0 || fieldNat v 6 2 != 0 then .fault .evtbad 0 0
    else if o.isOpen && o.owner != g.block then .hold (s.setGroup gid { g with status := .parked .stalled })
    else if !quiet g then .stall
    else
      let s := s.setCluster cl { k with bars := put Barrier.idle k.bars b (barArrive s gid g o) }
      if bit v 8 then
        if preemptDue s gid g && !fpFirst g (.bar a) then
          .park (barCheck (s.setGroup gid { advance g with status := .parked (.save none) }) cl b)
        else .plain (barCheck s cl b)
      else
        let s' := barCheck (s.setGroup gid { g with status := .parked (.bar b) }) cl b
        .park (if preemptDue s gid g && !fpFirst g (.bar a) then s'.updGroup gid atPoint else s')) s

/-- R220: an expected group that has not arrived is Halted. -/
def barDbgBlk (s : State) (o : Barrier) : Bool :=
  o.expected.any fun gid => !o.arrived.contains gid && match s.group? gid with
    | some g => match g.status with
      | .halted _ => true
      | .ready | .parked _ | .saved .. => false
    | none => false

/-- BARST (R220); ARRIVED stops at 64 (log 27; DESIGN CHOICE). -/
def barst (s : State) (g : Group) : Word :=
  let o := get Barrier.idle (s.clusterAt (clusterOfCore g.core)).bars g.ev.barsel.toNat
  if o.isOpen then
    BitVec.ofNat 32 (2 ^ 31 + (if o.owner = g.block ∧ !isMigrant g then 2 ^ 30 else 0) + (if barDbgBlk s o then 2 ^ 29 else 0) +
      (if o.stall && !barDbgBlk s o then 2 ^ 28 else 0) + o.expected.length * 2 ^ 16 + min 64 o.arrived.length * 2 ^ 8)
  else 0

/-- BARRIER_STALL (R221): 100 ms of NTIME, counted anew while DBGBLK is 1. -/
def execBarrierStall (cluster b : Nat) (s : State) : Outcome :=
  let k := s.clusterAt cluster
  let o := get Barrier.idle k.bars b
  let die := dieOfCluster cluster
  if !o.isOpen then .next s
  else if barDbgBlk s o then
    .next (s.setCluster cluster { k with bars := put Barrier.idle k.bars b { o with since := s.ntime die, stall := false } })
  else if o.stall then .next s
  else if since (s.ntime die) o.since < 100000000 then .next s
  else
    let s := s.setCluster cluster { k with bars := put Barrier.idle k.bars b { o with stall := true } }
    .next (report (pitWrite s die 8 0 noCore noSlot 0 0 false) (.barStall cluster b))

/-! ### Event slots (R211 to R216) -/

/-- The ARG bits that a kind uses (R213). -/
def argWidth : Nat → Nat
  | 1 | 2 | 7 | 8 => 6
  | 3 => 19
  | 6 => 28
  | _ => 0

/-- R215: a descriptor that raises EVTBAD. -/
def descriptorBad (s : State) (g : Group) (d : Word) : Bool :=
  evKind d > 8 || evArg d ≥ 2 ^ argWidth (evKind d) ||
  evKind d == 3 && match s.block? g.block with | some b => 4 * evArg d + 4 > b.spad | none => true

/-- A bound word that is not zero pends at the bind (R213), as the group reads it: its own outstanding stores come before what is
at the home (R171). -/
def boundMailbox (s : State) (g : Group) (d : Word) : Bool :=
  evKind d == 3 && match s.block? g.block with
    | some b => (List.range 4).any fun i => (readOwn s g (spadLoc b.cluster (b.spadBase + 4 * evArg d) + i)).1 != 0
    | none => false

def slotBit (k : Nat) : BitVec 8 := BitVec.ofNat 8 (2 ^ k)

/-- `evbind` (R215, R374). -/
def execEvbind (d a b : Code) (s : State) : Outcome :=
  issue (.evbind d a b) (fun s gid g =>
    let desc := srcS s g a
    let k := d.toNat
    if isMigrant g || descriptorBad s g desc then .fault .evtbad 0 0
    else
      let ev := { g.ev with pend := g.ev.pend &&& ~~~(slotBit k), slots := erase g.ev.slots k }
      let ev := if evKind desc = 0 then ev else
        { ev with slots := set ev.slots k ⟨desc, srcSP s g b⟩,
                  pend := if boundMailbox s g desc then ev.pend ||| slotBit k else ev.pend }
      .plain (s.setGroup gid { g with ev := ev })) s

/-- `evmask` (R216, R375). -/
def execEvmask (a : Code) (s : State) : Outcome :=
  issue (.evmask a) (fun s gid g =>
    .plain (s.setGroup gid { g with ev := { g.ev with mask := field (srcS s g a) 0 8 } })) s

/-- Pending bits cleared (R214, R216). -/
def clearPending (g : Group) (v : Word) : Group :=
  { g with ev := { g.ev with pend := g.ev.pend &&& ~~~(field v 0 8) } }

/-- `evclr` (R216, R375). -/
def execEvclr (a : Code) (s : State) : Outcome :=
  issue (.evclr a) (fun s gid g => .plain (s.setGroup gid (clearPending g (srcS s g a)))) s

/-- `evpend` (R216): EVPEND as it stands in its cycle. -/
def execEvpend (d : Code) (s : State) : Outcome :=
  issue (.evpend d) (fun s gid g =>
    let g := refreshLevels s g
    let v := g.ev.pend.setWidth 32
    .done (s.setGroup gid (g.setS d.toNat v)) (.sca v) 0 0) s

/-- EVPEND_WRITE (R371): a write of EVPEND by the group that executes clears the bits written 1; on a core that is being
scanned none executes (R322). -/
def execEvpendWrite (v : Word) (s : State) : Outcome :=
  .next (if (s.group? s.cur).any fun g => (s.coreAt g.core).scanning then s
    else s.updGroup s.cur fun g => clearPending g v)

/-- GROUP_TIMER_MATCH (R213): the level kinds of a resident group are sampled. -/
def execGroupTimerMatch (gid : Nat) (s : State) : Outcome :=
  match s.group? gid with
  | none => .next s
  | some g => .next (if isSaved g then s else s.setGroup gid (refreshLevels s g))

/-! ### waitany (R217, R218) -/

/-- EVBOUND (R211). -/
def evbound (e : EventRegs) : BitVec 8 := e.slots.foldl (fun w k => w ||| slotBit k.1) 0

/-- The pending, unmasked slots of a set. -/
def takeable (g : Group) (es : BitVec 8) : BitVec 8 := g.ev.pend &&& es &&& ~~~g.ev.mask

def lowestSlot (p : BitVec 8) : Nat := ((List.range 8).find? p.getLsbD).getD 0

def handlerOf (g : Group) (k : Nat) : DWord := match find g.ev.slots k with | some e => e.handler | none => 0

/-- A slot taken, its handler being aligned: the link in `sp62`, or on to the next word under a null handler. -/
def takeSlot (g : Group) (k : Nat) : Group :=
  let h := handlerOf g k
  let g := { g with ev := { g.ev with pend := g.ev.pend &&& ~~~(slotBit k) } }
  if h = 0 then { g with pc := g.pc + 4 } else { g.setSPair 62 (g.pc + 4) with pc := h }

/-- What taking a slot joins or acquires (R183, R217), under a null handler too: an operation, or at cluster scope what precedes
the mailbox word. A status that a later operation of the scalar is still to write is not the event's. -/
def acquireSlot (s : State) (g : Group) (k : Nat) : Group :=
  match find g.ev.slots k with
  | none => g
  | some e => match evKind e.src with
    | 3 => seeAll s (.cluster (clusterOfCore g.core)) g
    | 6 => seeAll s .all g
    | 2 | 8 =>
      if g.pending.contains (evArg e.src) then seeAll s .all { g with wbuf := g.wbuf.map (joinOver (evArg e.src)) }
      else joinOps s [evArg e.src] true g
    | _ => g

/-- `waitany` (R217, R451, R452): a pre-emption due is taken before the test (R234). The level bits that the test has sampled
stay, a misaligned handler's too (R214). -/
def execWaitany (a : Code) (s : State) : Outcome :=
  issue (.waitany a) (fun s gid g =>
    let v := srcS s g a
    let es := field v 0 8
    if isMigrant g || fieldNat v 8 24 != 0 || es == 0 || es &&& ~~~(evbound g.ev) != 0 then .fault .evtbad 0 0
    else
      let g := refreshLevels s g
      let p := takeable g es
      if p = 0 || preemptDue s gid g then .park (s.setGroup gid { g with status := .parked (.waitany es) })
      else if handlerOf g (lowestSlot p) &&& 3 ≠ 0 then
        .gone (raise s gid g (joins (oprsOf g.fmt (.waitany a))) .align 0 (handlerOf g (lowestSlot p)) (insWord (.waitany a)))
      else .jump (s.setGroup gid (takeSlot (acquireSlot s g (lowestSlot p)) (lowestSlot p)))) s

/-- WAITANY_WAKE (R217): a parked group takes the lowest slot that has become pending. -/
def execWaitanyWake (gid : Nat) (s : State) : Outcome :=
  match s.group? gid with
  | none => .next s
  | some g => match g.status with
    | .parked (.waitany es) =>
      let g := refreshLevels s g
      let p := takeable g es
      let h := handlerOf g (lowestSlot p)
      if p = 0 || preemptDue s gid g || (s.coreAt g.core).scanning then .next s
      else if h &&& 3 ≠ 0 then .next (parkedFault s gid g .align h)
      else
        let g := takeSlot (acquireSlot s g (lowestSlot p)) (lowestSlot p)
        .next ((ranHere s g).setGroup gid { g with
          status := .ready, chain := g.chain.close, dbg := { g.dbg with haltDue := g.dbg.haltDue || g.dbg.step } })
    | .ready | .parked _ | .halted _ | .saved .. => .next s

/-! ### fetchw (R89 to R91) -/

/-- An address in the scratchpad aperture. -/
def spadVa (off : Nat) : DWord := BitVec.ofNat 64 (0xFFFFFF0000000000 + off)

/-- A store of the group to its mailbox is outstanding: the request, whose answer overwrites it, waits for it (log 29; DESIGN CHOICE:
no rule orders the delivery after such a store). -/
def mailboxBusy (g : Group) (at_ : Nat) : Bool :=
  g.wbuf.any fun w => w.known && w.bytes.any fun e => decide (at_ ≤ e.1 ∧ e.1 < at_ + 16)

/-- `fetchw` (R89): a request for a block. ALIGN and APER put the address of the offset in the scratchpad aperture in TADDR
(log 27; DESIGN CHOICE: R89 names none). The fifth outstanding one waits (R91). While a PREEMPT is in progress it makes
no request: it is a pre-emption point (R234, R380), and a group whose save has failed waits for the end of the PREEMPT. -/
def execFetchw (a : Code) (s : State) : Outcome :=
  issue (.fetchw a) (fun s gid g =>
    let off := (srcS s g a).toNat
    if off % 16 ≠ 0 then .fault .align 0 (spadVa off)
    else match if isMigrant g then none else s.block? g.block with
    | none => .fault .aper 0 (spadVa off)
    | some b =>
      if off + 16 > b.spad then .fault .aper 0 (spadVa off)
      else if preemptDue s gid g then .hold (s.setGroup gid { g with status := .parked (.save none) })
      else if preempting s g && !isPixel g then .stall
      else if g.fetches.length ≥ 4 || mailboxBusy g (spadLoc b.cluster (b.spadBase + off)) then .stall
      else .plain (s.setGroup gid { g with fetches := g.fetches ++ [off] })) s

/-- The next block of the cursor, for a group whose launch has one: pixel groups do not (R379). -/
def nextBlock (s : State) (g : Group) : Option (Launch × DWord) :=
  if isPixel g then none else match s.launch? g.launch with
    | none => none
    | some l => if l.cursor < numBlocks l.hdr then some (l, blockWid l.hdr l.cursor) else none

/-- FETCHW_DELIVERY (R90): the block of the lowest WID withdrawn, or none left; FLAG is written last. -/
def execFetchwDelivery (gid : Nat) (s : State) : Outcome :=
  match s.group? gid with
  | none => .next s
  | some g => match g.fetches, s.block? g.block with
    | off :: rest, some b =>
      let at_ := spadLoc b.cluster (b.spadBase + off)
      let s := s.setGroup gid { g with fetches := rest }
      let (flag, wid, s) := match nextBlock s g with
        | some (l, w) => (1, w.toNat, s.setLaunch g.launch { l with cursor := l.cursor + 1 })
        | none => (2, 0, s)
      .next (storeNat (storeNat s (at_ + 4) 12 (wid * 2 ^ 32)) at_ 4 flag)
    | _, _ => .next s

/-! ### spawn (R88, R420) -/

/-- The core takes no new group now (R112, R322, R420). -/
def closedToGroups (s : State) (core : Nat) : Bool :=
  (s.coreAt core).gateReq.isSome || (s.coreAt core).oos ||
  match (s.dieAt (dieOfCore core)).assay with | some a => a.core == core | none => false

/-- How many groups `spawn` creates for a request of n. -/
def spawnCount (s : State) (gid : Nat) (g : Group) (l : Launch) (n : Nat) : Nat :=
  if isMigrant g || isPixel g || closedToGroups s g.core || preemptDue s gid g || l.phase == .preempting then 0
  else min (min n (roomFor (slotGroups s g.core) l.hdr))
    (min (64 - (groupsOfBlock s g.block).length) (stackPool - (stacksHeld s g.launch).length))

/-- The spawned groups i to i + k - 1, each with what its spawner has done before it (R184). -/
def spawnGroups (g : Group) (l : Launch) (entry base : DWord) : Nat → Nat → State → State
  | 0, _, s => s
  | k + 1, i, s =>
    spawnGroups g l entry base k (i + 1)
      (createOn s l g.launch g.block g.core (base + BitVec.ofNat 64 i) entry fun n =>
        seeAll s (.cluster (clusterOfCore g.core)) ((List.range 4).foldl (fun n r => n.setS r (g.scalar r)) n))

/-- The groups that a `spawn` by a group creates. -/
def spawnable (s : State) (gid : Nat) (g : Group) (n : Nat) : Nat :=
  match s.launch? g.launch with
  | some l => spawnCount s gid g l n
  | none => 0

/-- The groups created, and sD. -/
def spawnNow (c : Nat) (d : Code) (entry base : DWord) (s : State) (gid : Nat) (g : Group) : State :=
  match s.launch? g.launch with
  | some l => (spawnGroups g l entry base c 0 s).updGroup gid fun g => g.setS d.toNat (BitVec.ofNat 32 c)
  | none => s

/-- `spawn` (R88, R419): it never waits. Where it creates a group it releases over every stream (R184), so that the accesses
that are outstanding are made first (log 29; DESIGN CHOICE: they could also be made later, before the new groups' own). -/
def execSpawn (d a b : Code) (s : State) : Outcome :=
  issue (.spawn d a b) (fun s gid g =>
    let entry := srcSP s g a
    let c := spawnable s gid g (g.scalar d.toNat).toNat
    if entry &&& 3 ≠ 0 then .fault .align 0 entry
    else if c = 0 then .plain (s.setGroup gid (g.setS d.toNat 0))
    else
      let t := quiesce s gid
      match t.group? gid with
      | none => .gone t
      | some g' => if g'.status == .ready then .plain (spawnNow c d entry (srcSP s g b) t gid g') else .gone t) s

end Sys2Proof.Machine
end

