-- ==== Sys2Proof/Machine/SysRegs.lean ====
section
/-! DEFINITION. System registers: what `csrr` reads and `csrw` leaves, field by field (R7, R8, R58 to R60, R369 to R372,
and the maps that R371 names), and the writes that have a step of their own. -/

namespace Sys2Proof.Machine

open Assoc Bits

/-! ### Reading (R370, R371) -/

/-- One half of a 64-bit register (R59). -/
def half (x : DWord) (odd : Bool) : Word := if odd then hi32 x else lo32 x

/-- AWAYR is AWAY; RETM, the lanes with an entry (R191). -/
def retm (g : Group) : Word := maskOf (keys g.cont.rets)

/-- LDSTAT (R191): continuations held, slots in use, pools. -/
def ldstat (s : State) (core : Nat) : Word :=
  let ps := (s.coreAt core).pools
  let slots := ((List.range Config.landingSlots).filter fun k => !landingSlotFree s core k).length
  BitVec.ofNat 32 ((ps.map (·.recs.length)).sum * 2 ^ 16 + slots * 2 ^ 8 + ps.length)

/-- BPCTL (R243). -/
def bpctl (k : Core) : Word := BitVec.ofNat 32 (k.bpHit.toNat * 16 + k.bpEn.toNat)

/-- A slot of the assay is in progress at a core (R332). -/
def draining (s : State) (core : Nat) : Bool :=
  match (s.dieAt (dieOfCore core)).assay with | some a => a.core == core | none => false

/-- ASTAT (R332). -/
def astat (s : State) (core : Nat) : Word :=
  let k := s.coreAt core
  BitVec.ofNat 32 ((if k.oos then 2 ^ 31 else 0) + (if draining s core then 2 ^ 30 else 0) + k.skip.toNat * 2 ^ 16 +
    k.passes.toNat)

/-- VFSTAT (R332): the present frequency of the die, and the steps of its voltage domain. -/
def vfstat (s : State) (die : Nat) : Word := BitVec.ofNat 32 ((s.dieAt die).mhz * 2 ^ 16 + (s.domainAt die).steps)

/-- EVSRCk (R211); 0 for a slot that is not bound. -/
def evsrc (g : Group) (k : Nat) : Word := match find g.ev.slots k with | some e => e.src | none => 0

/-- The trap range (R222) and FSTR (R127). -/
def readTrap (g : Group) (n : Nat) : Word :=
  match n with
  | 0x00 | 0x01 => half g.trap.tvec (n == 0x01)
  | 0x02 => BitVec.ofNat 32 ((if g.trap.inchain then 256 else 0) + g.trap.cause.toNat)
  | 0x03 => BitVec.ofNat 32 (g.trap.lbase.toNat * 2 + if g.trap.intrap then 1 else 0)
  | 0x04 | 0x05 => half g.trap.tpc (n == 0x05)
  | 0x06 | 0x07 => half g.trap.tnext (n == 0x07)
  | 0x08 => g.trap.tlanes
  | 0x0A | 0x0B => half g.trap.taddr (n == 0x0B)
  | 0x0C => g.trap.tins
  | 0x0E => g.fst.setWidth 32
  | _ => 0

/-- The continuation range (R191). -/
def readCont (s : State) (g : Group) (n : Nat) : Word :=
  match n with
  | 0x10 => g.cont.hopcfg.setWidth 32
  | 0x11 => BitVec.ofNat 32 (hopLimit g)
  | 0x12 => BitVec.ofNat 32 (landingTimer (s.coreAt g.core))
  | 0x13 => g.away
  | 0x14 => retm g
  | 0x15 => g.cont.hopref
  | 0x16 => g.cont.hopttl
  | 0x17 => ldstat s g.core
  | _ => 0

/-- The event range (R211, R220). -/
def readEvent (s : State) (g : Group) (n : Nat) : Word :=
  match n with
  | 0x30 => g.ev.pend.setWidth 32
  | 0x31 => g.ev.mask.setWidth 32
  | 0x32 => (evbound g.ev).setWidth 32
  | 0x33 => g.ev.gtcmp
  | 0x34 => g.ev.barsel.setWidth 32
  | 0x35 => barst s g
  | _ => evsrc g (n - 0x36)

/-- The matrix and debug ranges (R247, R243). -/
def readDebug (s : State) (g : Group) (n : Nat) : Word :=
  let k := s.coreAt g.core
  match n with
  | 0x40 => g.mx.mshape
  | 0x41 => g.mx.mstrm.setWidth 32
  | 0x42 => g.mx.mbopen
  | 0x43 => g.mx.mbdone
  | 0x50 | 0x51 => half k.bpa0 (n == 0x51)
  | 0x52 | 0x53 => half k.bpa1 (n == 0x53)
  | 0x54 | 0x55 => half k.bpa2 (n == 0x55)
  | 0x56 | 0x57 => half k.bpa3 (n == 0x57)
  | 0x58 => bpctl k
  | 0x59 => if g.dbg.step then 1 else 0
  | 0x5A => g.dbg.ucelanes
  | 0x5B => g.dbg.ttcmp
  | 0x5C => if g.dbg.tten then 1 else 0
  | _ => 0

/-- The privileged range (R108, R332). -/
def readPower (s : State) (g : Group) (n : Nat) : Word :=
  let k := s.clusterAt (clusterOfCore g.core)
  match n with
  | 0x60 => BitVec.ofNat 32 (tokenCap k)
  | 0x61 => k.mtfill.setWidth 32
  | 0x62 => k.mtbal.setWidth 32
  | 0x63 => astat s g.core
  | 0x64 => (s.tallowOf (dieOfCore g.core)).setWidth 32
  | 0x65 => vfstat s (dieOfCore g.core)
  | _ => 0

/-- System register n as a group reads it. -/
def sysRead (s : State) (g : Group) (n : Nat) : Word :=
  if n < 0x10 then readTrap g n
  else if n < 0x20 then readCont s g n
  else if n < 0x30 then (get 0 g.sattr (n - 0x20)).setWidth 32
  else if n < 0x40 then readEvent s g n
  else if n < 0x60 then readDebug s g n
  else readPower s g n

/-! ### Writing (R370 to R372) -/

/-- A 64-bit register with one half replaced (R59, R372). -/
def setHalf (x : DWord) (odd : Bool) (v : Word) : DWord := if odd then join32 v (lo32 x) else join32 (hi32 x) v

def writeFstr (g : Group) (v : Word) : Group := { g with fst := field v 0 5 }
def writeTstat (g : Group) (v : Word) : Group := { g with trap := { g.trap with intrap := bit v 0 } }
def writeTtcmp (g : Group) (v : Word) : Group := { g with dbg := { g.dbg with ttcmp := v } }

/-- The registers that a group holds itself; `priv`: a write that may change DBGST (R243). -/
def writeGroup (priv : Bool) (g : Group) (n : Nat) (v : Word) : Group :=
  match n with
  | 0x00 | 0x01 => { g with trap := { g.trap with tvec := setHalf g.trap.tvec (n == 0x01) v } }
  | 0x03 => writeTstat g v
  | 0x06 | 0x07 => { g with trap := { g.trap with tnext := setHalf g.trap.tnext (n == 0x07) v } }
  | 0x0E => writeFstr g v
  | 0x10 => { g with cont := { g.cont with hopcfg := field v 0 16 } }
  | 0x11 => if isMigrant g then g else { g with cont := { g.cont with hopmax := field v 0 8 } }
  | 0x30 => clearPending g v
  | 0x31 => { g with ev := { g.ev with mask := field v 0 8 } }
  | 0x33 => { g with ev := { g.ev with gtcmp := v } }
  | 0x34 => { g with ev := { g.ev with barsel := field v 0 6 } }
  | 0x41 => { g with mx := { g.mx with mstrm := field v 0 4 } }
  | 0x59 => if priv then { g with dbg := { g.dbg with step := bit v 0 } } else g
  | 0x5A => { g with dbg := { g.dbg with ucelanes := g.dbg.ucelanes &&& ~~~v } }
  | 0x5B => writeTtcmp g v
  | 0x5C => if isMigrant g then g else { g with dbg := { g.dbg with tten := bit v 0 } }
  | _ => g

/-- The registers of a core (R191, R243). -/
def writeCore (k : Core) (n : Nat) (v : Word) : Core :=
  match n with
  | 0x12 => { k with ldtmo := field v 0 16 }
  | 0x50 | 0x51 => { k with bpa0 := setHalf k.bpa0 (n == 0x51) v }
  | 0x52 | 0x53 => { k with bpa1 := setHalf k.bpa1 (n == 0x53) v }
  | 0x54 | 0x55 => { k with bpa2 := setHalf k.bpa2 (n == 0x55) v }
  | 0x56 | 0x57 => { k with bpa3 := setHalf k.bpa3 (n == 0x57) v }
  | 0x58 => { k with bpHit := k.bpHit &&& ~~~(field v 4 4), bpEn := field v 0 4 }
  | _ => k

/-- MTCAP written: the balance falls to the new capacity (R109). -/
def writeMtcap (k : Cluster) (v : Word) : Cluster :=
  let k := { k with mtcap := field v 0 20 }
  { k with mtbal := BitVec.ofNat 20 (min k.mtbal.toNat (tokenCap k)) }

/-- The registers of a cluster (R108). -/
def writeCluster (k : Cluster) (n : Nat) (v : Word) : Cluster :=
  match n with
  | 0x60 => writeMtcap k v
  | 0x61 => { k with mtfill := field v 0 8 }
  | _ => k

/-- Whether a number names a register of a core that R371 lets only privileged writes change. -/
def coreRegister (n : Nat) : Bool := n == 0x12 || 0x50 ≤ n && n ≤ 0x58

/-- System register n written by a group; `priv`: the write comes from a privileged group or the debugger. -/
def sysWrite (s : State) (gid : Nat) (g : Group) (priv : Bool) (n : Nat) (v : Word) : State :=
  if 0x20 ≤ n && n < 0x30 then s.setGroup gid { g with sattr := put 0 g.sattr (n - 0x20) (field v 0 4) }
  else if coreRegister n then (if priv then s.setCore g.core (writeCore (s.coreAt g.core) n v) else s)
  else if n = 0x60 ∨ n = 0x61 then
    (if priv then s.setCluster (clusterOfCore g.core) (writeCluster (s.clusterAt (clusterOfCore g.core)) n v) else s)
  else s.setGroup gid (writeGroup priv g n v)

/-- The group as a read of a system register finds it: the level bits that a read of EVPEND shows stay set (R213, R214). -/
def sampled (s : State) (g : Group) (n : Nat) : Group := if n = 0x30 then refreshLevels s g else g

/-- `csrr` (R370); NW under R47. -/
def execCsrr (d b : Code) (nw : Bool) (s : State) : Outcome :=
  issue (.csrr d b nw) (fun s gid g =>
    let g := sampled s g b.toNat
    let v := sysRead s g b.toNat
    .done (s.setGroup gid (if nw then g else g.setS d.toNat v)) (.sca v) 0 0) s

/-- `csrw` (R370, R371). -/
def execCsrw (a b : Code) (s : State) : Outcome :=
  issue (.csrw a b) (fun s gid g => .plain (sysWrite s gid g g.priv b.toNat (srcS s g a))) s

/-! ### Writes with a step of their own -/

/-- A write made by the group that executes, if there is one: on a core that is being scanned none executes (R322). -/
def byCurrent (s : State) (f : Nat → Group → State) : Outcome :=
  match s.group? s.cur with
  | some g => .next (if (s.coreAt g.core).scanning then s else f s.cur g)
  | none => .next s

/-- MTCAP_WRITE (R109): by the group that executes, in privileged mode. -/
def execMtcapWrite (v : Word) (s : State) : Outcome := byCurrent s fun gid g => sysWrite s gid g g.priv 0x60 v

/-- LDTMO_WRITE (R372): by the group that executes; ignored in user mode (R191). -/
def execLdtmoWrite (v : Word) (s : State) : Outcome := byCurrent s fun gid g => sysWrite s gid g g.priv 0x12 v

/-- TSTAT_WRITE (R226): INTRAP written by the group that executes; LBASE is read-only. -/
def execTstatWrite (v : Word) (s : State) : Outcome := byCurrent s fun gid g => s.setGroup gid (writeTstat g v)

/-- FSTR_WRITE (R127): the sticky flags replaced by the group that executes. -/
def execFstrWrite (v : Word) (s : State) : Outcome := byCurrent s fun gid g => s.setGroup gid (writeFstr g v)

end Sys2Proof.Machine
end

