-- ==== Sys2Proof/Machine/Power.lean ====
section
/-! DEFINITION. Core cycles and the token bucket (R109, R245), frequency changes and core gates (R111, R112), voltage,
droop and heat (R327 to R331), fatal errors (R338). -/

namespace Sys2Proof.Machine

open Assoc Bits

/-! ### A core cycle (R109, R245) -/

/-- Cores of a cluster that execute a cycle: a scanned one does not (R322). -/
def cycling (s : State) (cl : Nat) : List Nat := (coresOfCluster cl).filter fun c => !(s.coreAt c).scanning

/-- The timer of a group in a cycle of its core: it stands while the group is Saved or Halted. -/
def tickGroup (cs : List Nat) (g : Group) : Group :=
  if !cs.contains g.core then g
  else match g.status with
    | .ready | .parked _ => { g with gtim := g.gtim + 1 }
    | .halted _ | .saved .. => g

/-- MTBAL after a refill (R109). -/
def refill (k : Cluster) : Cluster :=
  { k with mtbal := BitVec.ofNat 20 (min (k.mtbal.toNat + k.mtfill.toNat) (tokenCap k)), served := 0 }

/-- TOKEN_REFILL (R109, R245): one core cycle of a cluster. CYC and the group timers advance, the bucket is refilled,
the matrix engines go on (R248), the level conditions are sampled. A stretched cycle counts once. -/
def execTokenRefill (cluster : Nat) (s : State) : Outcome :=
  let cs := cycling s cluster
  let s := cs.foldl (fun (s : State) c => s.setCore c { s.coreAt c with cyc := (s.coreAt c).cyc + 1 }) s
  let s : State := { s with groups := s.groups.map fun e => (e.1, tickGroup cs e.2) }
  let s := s.setCluster cluster (refill (s.clusterAt cluster))
  let s := cs.foldl engineCycle s
  .next (refreshWhere s fun g => cs.contains g.core)

/-! ### Frequency changes (R110, R111) -/

/-- A group at a transition point: Saved, or parked at `ppt` for the change, on a core that is not scanned (R326). -/
def atTransition (s : State) (g : Group) : Bool :=
  isSaved g || decide (parkedIn g = some .transition) && !(s.coreAt g.core).scanning

/-- Every resident block of a die is at a transition point. A resident block counts as started, whether or not a group of
it has issued (log 26; DESIGN CHOICE: R110 does not say when a block has started). -/
def dieReady (s : State) (die : Nat) : Bool :=
  (blocksOn s die).all fun b => (groupsOfBlock s b).all fun e => atTransition s e.2

/-- A group parked for a change of its die resumes, after a scan of its core. -/
def leaveTransition (s : State) (die : Nat) (g : Group) : Group :=
  if dieOfCore g.core = die ∧ !isSaved g ∧ parkedIn g = some .transition then
    if inScan s g then standBy g .resume else unpark g
  else g

/-- The requests of a die behind the first; the next one counts from now. -/
def requestsLeft (now : DWord) : List VfReq → List VfReq
  | [] | [_] => []
  | _ :: r :: rs => { r with since := now } :: rs

/-- The first request of a die goes, and the groups parked for it resume. -/
def endRequest (s : State) (die id : Nat) : State :=
  let d := s.dieAt die
  let s := s.setDie die { d with vfs := requestsLeft s.primaryTime d.vfs }
  resolveVf { s with groups := s.groups.map fun e => (e.1, leaveTransition s die e.2) } id

/-- FREQUENCY_CHANGE (R111). -/
def execFrequencyChange (die : Nat) (s : State) : Outcome :=
  match (s.dieAt die).vfs with
  | [] => .next s
  | r :: _ =>
    if !dieReady s die then .next s
    else .next (endRequest (vfLog (s.setDie die { s.dieAt die with mhz := r.mhz }) die 2) die r.id)

/-- A request of some VFSET has timed out at a die. -/
def markLate (s : State) (id : Nat) : State :=
  { s with queues := s.queues.map fun e => (e.1, { e.2 with running := e.2.running.map fun r => match r with
      | .vf i st _ => if i = id then .vf i st true else r
      | _ => r }) }

/-- VFSET_TIMEOUT (R111): the die was not ready within 1 ms. -/
def execVfsetTimeout (die : Nat) (s : State) : Outcome :=
  match (s.dieAt die).vfs with
  | [] => .next s
  | r :: _ =>
    if dieReady s die || decide (since s.primaryTime r.since < 1000000) then .next s
    else .next (endRequest (vfLog (markLate s r.id) die 3) die r.id)

/-! ### Core gates (R112, R113) -/

/-- CORE_GATE (R112): a requested gate is taken, or its deferral changes. -/
def execCoreGate (core : Nat) (s : State) : Outcome := .next (settleGate s core)

/-! ### Fatal errors (R338) -/

/-- Every ring freezes, issue stops, the control node is told. -/
def goFatal (s : State) (die : Nat) : State :=
  let s := pitWrite s die 10 0 noCore noSlot 0 0 false
  let s := (List.range Config.numDies).foldl (fun s d =>
    s.setDie d { s.dieAt d with pit := { (s.dieAt d).pit with frozen := true } }) s
  report { s with fatal := true } .fatal

/-- FATAL_ERROR (R338): an uncorrectable error in a command processor, the power controller, a distributor or a surface
table entry. -/
def execFatalError (s : State) : Outcome := .next (if s.fatal then s else goFatal s 0)

/-! ### Voltage (R327, R328) -/

/-- CANARY_WARNING (R328): one step up, at most 16; a warning at step 16 is logged and holds TALLOW at 0. -/
def execCanaryWarning (dom : Nat) (s : State) : Outcome :=
  if dom ≥ 8 then .next s
  else
    let d := s.domainAt dom
    let now := s.ntime (dieOfDomain dom)
    if d.steps < 16 then .next (s.setDomain dom { d with steps := d.steps + 1, lastWarn := now })
    else
      let (n, s) := s.freeIndex
      let s := pitWrite s (dieOfDomain dom) 7 0 noCore noSlot (Config.sensorReading n 0) (Config.sensorReading n 1) false
      .next (s.setDomain dom { d with lastWarn := now, since16 := some (d.since16.getD now) })

/-- VOLTAGE_STEP_DOWN (R328): one step down after 10 ms without a warning. -/
def execVoltageStepDown (dom : Nat) (s : State) : Outcome :=
  let d := s.domainAt dom
  let now := s.ntime (dieOfDomain dom)
  if dom ≥ 8 ∨ d.steps = 0 ∨ since now d.lastWarn < 10000000 then .next s
  else .next (s.setDomain dom { steps := d.steps - 1, lastWarn := now, since16 := none })

/-- CANARY_FATAL (R328): a warning has persisted at step 16 for 1 ms. -/
def execCanaryFatal (dom : Nat) (s : State) : Outcome :=
  match (s.domainAt dom).since16 with
  | none => .next s
  | some t => .next (if since (s.ntime (dieOfDomain dom)) t < 1000000 || s.fatal then s else goFatal s (dieOfDomain dom))

/-! ### Droop (R329, R336) -/

/-- DROOP_TRIP: the cluster's clock is stretched; at most one entry per ms, with the stretches since the last. -/
def execDroopTrip (cluster : Nat) (s : State) : Outcome :=
  let k := s.clusterAt cluster
  let now := s.ntime (dieOfCluster cluster)
  let n := k.stretches + 1
  match k.droopAt with
  | some t =>
    if since now t < 1000000 then .next (s.setCluster cluster { k with stretched := true, stretches := n })
    else .next (pitWrite (s.setCluster cluster { k with stretched := true, stretches := 0, droopAt := some now })
      (dieOfCluster cluster) 3 0 noCore noSlot 0 (BitVec.ofNat 64 n) false)
  | none => .next (pitWrite (s.setCluster cluster { k with stretched := true, stretches := 0, droopAt := some now })
      (dieOfCluster cluster) 3 0 noCore noSlot 0 (BitVec.ofNat 64 n) false)

/-- DROOP_END. -/
def execDroopEnd (cluster : Nat) (s : State) : Outcome :=
  .next (s.setCluster cluster { s.clusterAt cluster with stretched := false })

/-! ### Heat (R330, R331) -/

/-- A GDDR 7 device of a lower die is above 85 °C: controllers 0 to 15 lie on CD0, 16 to 31 on CD2 (R27). -/
def gddrHot (s : State) (die : Nat) : Bool :=
  isLowerDie die && (List.range 16).any fun k => decide ((s.gddrAt (die / 2 * 16 + k)).temp > 85000)

/-- TALLOW at a temperature in thousandths of a °C (R330). -/
def tallowAt (s : State) (die : Nat) (temp : Int) : Nat :=
  let v := (max 0 (min 255 (4 * (105000 - temp) / 1000))).toNat
  if gddrHot s die then v / 2 else v

/-- TALLOW_UPDATE (R330): from the die's hottest sensor, in thousandths of a °C (log 24). -/
def execTallowUpdate (die : Nat) (temp : Int) (s : State) : Outcome :=
  .next (s.setDie die { s.dieAt die with tallow := BitVec.ofNat 8 (tallowAt s die temp) })

/-- GDDR_OVERHEAT (R331): a device's temperature, in thousandths of a °C: refresh doubles above 85 and returns below 83; above 95 bandwidth
halves, with an entry in the pit log of the controller's die. -/
def execGddrOverheat (ctrl : Nat) (temp : Int) (s : State) : Outcome :=
  if ctrl ≥ 32 then .next s
  else
    let x := s.gddrAt ctrl
    let y : Gddr := { temp := temp, doubled := decide (temp > 85000) || x.doubled && decide (temp ≥ 83000),
                      halved := decide (temp > 95000) }
    let s := s.setGddr ctrl y
    if y.halved && !x.halved then
      let (n, s) := s.freeIndex
      .next (pitWrite s (ctrl / 16 * 2) 4 0 noCore noSlot (Config.sensorReading n 0) (Config.sensorReading n 1) false)
    else .next s

end Sys2Proof.Machine
end

