-- ==== Sys2Proof/Machine/Assay.lean ====
section
/-! DEFINITION. The assay (R322 to R326). -/

namespace Sys2Proof.Machine

open Assoc Bits

/-- The first core in service of a die from an index on, among the next n of the rotation. -/
def nextInService (s : State) (die : Nat) : Nat → Nat → Option Nat
  | 0, _ => none
  | n + 1, i =>
    let core := die * Config.coresPerDie + i % Config.coresPerDie
    if (s.coreAt core).oos then nextInService s die n (i + 1) else some core

/-- A gated core powered up for its slot; its gate request stands (R323). -/
def powerUp (s : State) (core : Nat) : State := s.setCore core { s.coreAt core with gated := false }

/-- The core gated again after its slot (R323), if nothing has woken it and no new request waits for the end of the slot
(R326). -/
def gateAgain (s : State) (core : Nat) : State :=
  let k := s.coreAt core
  s.setCore core { k with gated := k.gateReq.isSome && k.gateStat == 3 }

/-- ASSAY_SLOT_OPEN (R322): every 200 µs of NTIME, for the next core in service. -/
def execAssaySlotOpen (die : Nat) (s : State) : Outcome :=
  let d := s.dieAt die
  if d.assay.isSome || decide (d.ntime.toNat < d.nextSlot.toNat) then .next s
  else match nextInService s die Config.coresPerDie d.nextAssay with
    | none => .next s
    | some core => .next ((powerUp s core).setDie die { d with
        assay := some ⟨core, d.ntime, none⟩, nextAssay := core % Config.coresPerDie, nextSlot := d.nextSlot + 200000 })

/-- The group stands inside an instruction that waits in the core: `hop`, whose records have not left (R193, R383). -/
def inHop (g : Group) : Bool := parkedIn g == some .hop || parkedIn g == some .room

/-- The core has drained (R322): no migrant, no outstanding access, every group outside a chain and at a boundary. -/
def drained (s : State) (core : Nat) : Bool :=
  (residentOn s core).all fun e =>
    !isMigrant e.2 && quiet e.2 && !inHop e.2 && (e.2.status != .ready || atBoundary s e.2)

/-- ASSAY_SCAN_START (R322), within the 50 µs of R323. -/
def execAssayScanStart (die : Nat) (s : State) : Outcome :=
  let d := s.dieAt die
  match d.assay with
  | none => .next s
  | some a =>
    if a.scanFrom.isSome || !drained s a.core || decide (50000 < since d.ntime a.opened) then .next s
    else
      let s := s.setDie die { d with assay := some { a with scanFrom := some d.ntime } }
      .next (s.setCore a.core { s.coreAt a.core with scanning := true })

/-- An assay result in the pit log (R336). -/
def assayLog (s : State) (die core code : Nat) : State := pitWrite s die 6 code core noSlot 0 0 false

/-- A group of a core that resumes does what came due during the scan. -/
def catchUp (s : State) (e : Nat × Group) : State :=
  match parkedIn e.2 with
  | some .resume => goOn s e.1 e.2
  | some .cbbad => raiseCbbad s e.1
  | _ => s

/-- The slot ends, and the core resumes; the next one is for the core of this index. -/
def endSlot (s : State) (die core next : Nat) : State :=
  let s := s.setDie die { s.dieAt die with assay := none, nextAssay := next % Config.coresPerDie }
  let s := s.setCore core { s.coreAt core with scanning := false }
  settleGate (gateAgain ((residentOn s core).foldl catchUp s) core) core

/-- Every group of the core killed whole, reported with ASSAY (R324). -/
def killCore (s : State) (core : Nat) : State :=
  (residentOn s core).foldl (fun s e => killWhole (faultReport s e.2 .assay e.2.pc 0 0) e.1) s

/-- Every continuation in the landing and the forwarding buffer of the core returns with KIND 4 (R210, R324). -/
def emptyLanding (s : State) (core : Nat) : State :=
  let k := s.coreAt core
  let leaving := fun (c : Cont) => c.fromPkg == s.pkgid && c.fromCore == core && c.fromSlot.isSome
  let back := (k.pools.flatMap (·.recs)).map (fun r => (r.clk, r.org)) ++ (s.conts.filter leaving).map fun c => (c.clk, c.org)
  let s := { s.setCore core { k with pools := [] } with conts := s.conts.filter fun c => !leaving c }
  back.foldl (fun s e => sendReturn s (bareReturn s 4 e.1 e.2)) s

/-- A core that failed its scan is taken out of service (R324). -/
def failCore (s : State) (core : Nat) : State :=
  let s := s.setCore core { s.coreAt core with oos := true }
  coreSuspect (emptyLanding (killCore s core) core) core

/-- ASSAY_SCAN_END (R322, R324, R325): after 20 µs, with its result. -/
def execAssayScanEnd (die : Nat) (pass : Bool) (s : State) : Outcome :=
  match (s.dieAt die).assay with
  | none => .next s
  | some a => match a.scanFrom with
    | none => .next s
    | some t =>
      if since (s.ntime die) t < 20000 then .next s
      else
        let k := s.coreAt a.core
        let s := assayLog (s.setCore a.core { k with skip := 0, passes := if pass then k.passes + 1 else k.passes })
          die a.core (if pass then 0 else 1)
        let s := if pass then corePassed s a.core else failCore s a.core
        .next (endSlot s die a.core (a.core % Config.coresPerDie + 1))

/-- ASSAY_SKIP (R323): the drain has taken 50 µs; the same core is tried in the next slot. -/
def execAssaySkip (die : Nat) (s : State) : Outcome :=
  match (s.dieAt die).assay with
  | none => .next s
  | some a =>
    let t := since (s.ntime die) a.opened
    if a.scanFrom.isSome || decide (t < 50000) || drained s a.core && t == 50000 then .next s
    else
      let k := s.coreAt a.core
      let s := s.setCore a.core { k with skip := if k.skip = 255 then 255 else k.skip + 1 }
      .next (endSlot (assayLog s die a.core 2) die a.core (a.core % Config.coresPerDie))

end Sys2Proof.Machine
end

