-- ==== Sys2Proof/Machine/VectorMem.lean ====
section
/-! DEFINITION. Vector loads and stores: majors 1C to 27 (R162, R163, R446, R447). -/

namespace Sys2Proof.Machine

open Assoc Bits

/-- A gather: `vD[j] := extend(mem[addr j], size)`. -/
def gather (d : Code) (st : BitVec 4) (x : Bool) (size : Nat) (signed pair : Bool) (s : State)
    (gid : Nat) (g : Group) (hits : List (Nat × Hit)) : Effect :=
  let l := loadOf s g st.toNat x pair (hits.map fun e => loadPart s g st.toNat (some e.1) (g.wb + d.toNat) size signed e.2)
    (maskOf (hits.filterMap fun e => if e.2.nonres then some e.1 else none))
  if loadWaits s g st.toNat x (loadPlaces l) then .stall else .plain (issueLoad s gid l (hits.map (·.2)))

/-- `vld` (R162): the address of each lane, its checks, the access. -/
def vectorLoad (d a b : Code) (st : BitVec 4) (x : Bool) (size : Nat) (signed pair : Bool) (s : State) (gid : Nat)
    (g : Group) : Effect :=
  match laneHits s g .load size (laneAddr s g a b) with
  | .error f => laneFault f
  | .ok hits => gather d st x size signed pair s gid g hits

/-- What lane j of a store writes. -/
def storeData (g : Group) (d : Code) (pair : Bool) (j : Nat) : DWord :=
  if pair then srcVP g d j else (srcV g d j).setWidth 64

/-- `vst` (R162). -/
def vectorStore (d a b : Code) (st : BitVec 4) (x : Bool) (size : Nat) (pair : Bool) (s : State) (gid : Nat)
    (g : Group) : Effect :=
  match laneHits s g .store size (laneAddr s g a b) with
  | .error f => laneFault (storeFault s g size (laneAddr s g a b) (storeData g d pair) f)
  | .ok hits => storeLanes s gid g st.toNat x size (laneAddr s g a b) hits (storeData g d pair)

/-! ### Contiguous (R163) -/

/-- The address of `vldc` and `vstc`. -/
def lineAddr (s : State) (g : Group) (a b : Code) : DWord := srcSP s g a + 128 * sext64 b

def isLane : Aperture → Bool
  | .lane _ => true
  | .spad _ | .shaft _ | .user | .privileged | .none => false

/-- Lane j of a contiguous access, its share of the whole: the line is steered and translated as one (R163), and the
lane stack is no place for it (R447). -/
def lineHit (s : State) (g : Group) (acc : Access) (base : DWord) (j : Nat) : Except AccFault Hit :=
  if base.toNat % 128 ≠ 0 then .error ⟨.align, base⟩
  else if isLane (aperture base) then .error ⟨.aper, base + BitVec.ofNat 64 (4 * j)⟩
  else match resolve s (agentOf s g (some j)) acc base 128 with
    | .error c => .error ⟨c, base + BitVec.ofNat 64 (4 * j)⟩
    | .ok _ => checkedHit s (agentOf s g (some j)) acc (base + BitVec.ofNat 64 (4 * j)) 4

def lineHits (s : State) (g : Group) (acc : Access) (base : DWord) : Except (AccFault × Word) (List (Nat × Hit)) :=
  joinLanes (g.activeLanes.map fun j => (j, lineHit s g acc base j))

def laneOfLine (base : DWord) (j : Nat) : DWord := base + BitVec.ofNat 64 (4 * j)

/-- `vldc` (R163). -/
def execVldc (d a b : Code) (st : BitVec 4) (x : Bool) (s : State) : Outcome :=
  issue (.vldc d a b st x) (fun s gid g =>
    match lineHits s g .load (lineAddr s g a b) with
    | .error f => laneFault f
    | .ok hits => gather d st x 4 false false s gid g hits) s

/-- `vstc` (R163). -/
def execVstc (d a b : Code) (st : BitVec 4) (x : Bool) (s : State) : Outcome :=
  issue (.vstc d a b st x) (fun s gid g =>
    match lineHits s g .store (lineAddr s g a b) with
    | .error f => laneFault f
    | .ok hits =>
      storeLanes s gid g st.toNat x 4 (laneOfLine (lineAddr s g a b)) hits (storeData g d false)) s

/-! ### Gathers and scatters (R446) -/

/-- `vld.s8`. -/
def execVldS8 (d a b : Code) (st : BitVec 4) (x : Bool) (s : State) : Outcome :=
  issue (.vld_s8 d a b st x) (vectorLoad d a b st x 1 true false) s
/-- `vld.z8`. -/
def execVldZ8 (d a b : Code) (st : BitVec 4) (x : Bool) (s : State) : Outcome :=
  issue (.vld_z8 d a b st x) (vectorLoad d a b st x 1 false false) s
/-- `vld.s16`. -/
def execVldS16 (d a b : Code) (st : BitVec 4) (x : Bool) (s : State) : Outcome :=
  issue (.vld_s16 d a b st x) (vectorLoad d a b st x 2 true false) s
/-- `vld.z16`. -/
def execVldZ16 (d a b : Code) (st : BitVec 4) (x : Bool) (s : State) : Outcome :=
  issue (.vld_z16 d a b st x) (vectorLoad d a b st x 2 false false) s
/-- `vld.w`. -/
def execVldW (d a b : Code) (st : BitVec 4) (x : Bool) (s : State) : Outcome :=
  issue (.vld_w d a b st x) (vectorLoad d a b st x 4 false false) s
/-- `vld.d`: vpD. -/
def execVldD (d a b : Code) (st : BitVec 4) (x : Bool) (s : State) : Outcome :=
  issue (.vld_d d a b st x) (vectorLoad d a b st x 8 false true) s
/-- `vst.b`. -/
def execVstB (d a b : Code) (st : BitVec 4) (x : Bool) (s : State) : Outcome :=
  issue (.vst_b d a b st x) (vectorStore d a b st x 1 false) s
/-- `vst.h`. -/
def execVstH (d a b : Code) (st : BitVec 4) (x : Bool) (s : State) : Outcome :=
  issue (.vst_h d a b st x) (vectorStore d a b st x 2 false) s
/-- `vst.w`. -/
def execVstW (d a b : Code) (st : BitVec 4) (x : Bool) (s : State) : Outcome :=
  issue (.vst_w d a b st x) (vectorStore d a b st x 4 false) s
/-- `vst.d`: vpD. -/
def execVstD (d a b : Code) (st : BitVec 4) (x : Bool) (s : State) : Outcome :=
  issue (.vst_d d a b st x) (vectorStore d a b st x 8 true) s

end Sys2Proof.Machine
end

