-- ==== Sys2Proof/Machine/Atomics.lean ====
section
/-! DEFINITION. Vector atomics: majors 2C to 2F (R165, R431, R432). -/

namespace Sys2Proof.Machine

open Assoc Bits

/-- The atomic of a lane at its hit. -/
def atomPart (s : State) (g : Group) (st : Nat) (reg : Nat) (op : AtomOp) (x cmp : Nat → Word) (e : Nat × Hit) : LoadPart :=
  { loadPart s g st (some e.1) reg 4 false e.2 with
    atom := some { op := op, x := x e.1, cmp := cmp e.1, carries := (viewAt g st).held } }

/-- The atomics that a `vatom` makes. `cas` compares with the low half of vpD and writes the high one. -/
def atomicOf (op : AtomOp) (d : Code) (st : BitVec 4) (s : State) (g : Group) (hits : List (Nat × Hit)) : PendLoad :=
  let x := fun j => if op = .cas then hi32 (srcVP g d j) else srcV g d j
  loadOf s g st.toNat false false (hits.map (atomPart s g st.toNat (g.wb + d.toNat) op x fun j => lo32 (srcVP g d j))) 0

/-- `vatom` (R432): its atomics act at once, or each at a moment of its own (R176, R186). -/
def vectorAtomic (op : AtomOp) (d a b : Code) (st : BitVec 4) (s : State) (gid : Nat) (g : Group) : Effect :=
  match laneHits s g .atomic 4 (laneAddr s g a b) with
  | .error f => laneFault f
  | .ok hits =>
    let l := atomicOf op d st s g hits
    if atomicWaits s g st.toNat (loadPlaces l) then .stall else .plain (issueLoad s gid l (hits.map (·.2)))

/-- `vatom.iadd`. -/
def execVatomIadd (d a b : Code) (st : BitVec 4) (s : State) : Outcome :=
  issue (.vatom_iadd d a b st) (vectorAtomic .iadd d a b st) s
/-- `vatom.fadd`. -/
def execVatomFadd (d a b : Code) (st : BitVec 4) (s : State) : Outcome :=
  issue (.vatom_fadd d a b st) (vectorAtomic .fadd d a b st) s
/-- `vatom.and`. -/
def execVatomAnd (d a b : Code) (st : BitVec 4) (s : State) : Outcome :=
  issue (.vatom_and d a b st) (vectorAtomic .and d a b st) s
/-- `vatom.or`. -/
def execVatomOr (d a b : Code) (st : BitVec 4) (s : State) : Outcome :=
  issue (.vatom_or d a b st) (vectorAtomic .or d a b st) s
/-- `vatom.smin`. -/
def execVatomSmin (d a b : Code) (st : BitVec 4) (s : State) : Outcome :=
  issue (.vatom_smin d a b st) (vectorAtomic .smin d a b st) s
/-- `vatom.smax`. -/
def execVatomSmax (d a b : Code) (st : BitVec 4) (s : State) : Outcome :=
  issue (.vatom_smax d a b st) (vectorAtomic .smax d a b st) s
/-- `vatom.xchg`. -/
def execVatomXchg (d a b : Code) (st : BitVec 4) (s : State) : Outcome :=
  issue (.vatom_xchg d a b st) (vectorAtomic .xchg d a b st) s
/-- `vatom.cas`. -/
def execVatomCas (d a b : Code) (st : BitVec 4) (s : State) : Outcome :=
  issue (.vatom_cas d a b st) (vectorAtomic .cas d a b st) s

end Sys2Proof.Machine
end

