-- ==== Sys2Proof/Machine/Compare.lean ====
section
/-! DEFINITION. Compares: major 04 (R436 to R438). -/

namespace Sys2Proof.Machine

open Bits Sys2Proof.Machine.Float

/-- mD with the bits of the active lanes replaced. -/
def compareMask (g : Group) (d : Code) (f : Nat → Bool) : Group := g.setMaskLanes d.toNat g.activeLanes f

/-- An integer compare. -/
def intCompare (d a b : Code) (f : Word → Word → Bool) (s : State) (gid : Nat) (g : Group) : Effect :=
  .plain (s.setGroup gid (compareMask g d fun j => f (srcV g a j) (srcV g b j)))

/-! ### Float -/

/-- What a float compare tests (R437). -/
inductive FloatTest where
  | eq | ne | lt | le | un
  deriving DecidableEq, Repr

/-- The condition of a test on two values, and whether it is NV: by any NaN for `lt` and `le`, else by a signalling
one. -/
def floatTest (t : FloatTest) (v : Env) (a b : Nat) : Bool × Flags :=
  let a := v.rd a
  let b := v.rd b
  let x := unpack v.f a
  let y := unpack v.f b
  let un := x.isNan || y.isNan
  let snan := signalling v.f a || signalling v.f b
  let lt := !un && below false x y
  let eq := !un && !below false x y && !below false y x
  let sticky := fun (p : Bool) => if p then fNV else 0
  match t with
  | .eq => (eq, sticky snan)
  | .ne => (!eq, sticky snan)
  | .lt => (lt, sticky un)
  | .le => (lt || eq, sticky un)
  | .un => (un, sticky snan)

/-- The value that a compare reads of an element: value 0 of a packed one (R438). -/
def compareValue (g : Group) (c : Code) (j : Nat) : Nat :=
  if vfOf g.fmt = 0 ∨ vfOf g.fmt = 3 then fpSrc g c j else fpSrc g c j % 65536

def floatCompare (d a b : Code) (t : FloatTest) (s : State) (gid : Nat) (g : Group) : Effect :=
  let r := fun j => floatTest t (envOf g.fmt) (compareValue g a j) (compareValue g b j)
  laneFlags s gid g (compareMask g d fun j => (r j).1) .none fun j => (r j).2

/-- The class of a value, as a bit number (R437). -/
def classOf (v : Env) (a : Nat) : Nat :=
  match unpack v.f (v.rd a) with
  | .nan .. => 0
  | .inf n => if n then 1 else 6
  | .fin n m _ => if m = 0 then (if n then 3 else 4) else if n then 2 else 5

/-- `vcmp.eq` (R437): a = b. -/
def execVcmpEq (d a b : Code) (s : State) : Outcome :=
  issue (.vcmp_eq d a b) (intCompare d a b (fun x y => x == y)) s

/-- `vcmp.ne` (R437): a ≠ b. -/
def execVcmpNe (d a b : Code) (s : State) : Outcome :=
  issue (.vcmp_ne d a b) (intCompare d a b (fun x y => x != y)) s

/-- `vcmp.lt` (R437): a < b, signed. -/
def execVcmpLt (d a b : Code) (s : State) : Outcome :=
  issue (.vcmp_lt d a b) (intCompare d a b BitVec.slt) s

/-- `vcmp.le` (R437): a ≤ b, signed. -/
def execVcmpLe (d a b : Code) (s : State) : Outcome :=
  issue (.vcmp_le d a b) (intCompare d a b BitVec.sle) s

/-- `vcmp.ltu` (R437): a < b, unsigned. -/
def execVcmpLtu (d a b : Code) (s : State) : Outcome :=
  issue (.vcmp_ltu d a b) (intCompare d a b BitVec.ult) s

/-- `vcmp.leu` (R437): a ≤ b, unsigned. -/
def execVcmpLeu (d a b : Code) (s : State) : Outcome :=
  issue (.vcmp_leu d a b) (intCompare d a b BitVec.ule) s

/-- `vfcmp.eq` (R437). -/
def execVfcmpEq (d a b : Code) (s : State) : Outcome :=
  issue (.vfcmp_eq d a b) (floatCompare d a b .eq) s

/-- `vfcmp.ne` (R437). -/
def execVfcmpNe (d a b : Code) (s : State) : Outcome :=
  issue (.vfcmp_ne d a b) (floatCompare d a b .ne) s

/-- `vfcmp.lt` (R437). -/
def execVfcmpLt (d a b : Code) (s : State) : Outcome :=
  issue (.vfcmp_lt d a b) (floatCompare d a b .lt) s

/-- `vfcmp.le` (R437). -/
def execVfcmpLe (d a b : Code) (s : State) : Outcome :=
  issue (.vfcmp_le d a b) (floatCompare d a b .le) s

/-- `vfcmp.un` (R437). -/
def execVfcmpUn (d a b : Code) (s : State) : Outcome :=
  issue (.vfcmp_un d a b) (floatCompare d a b .un) s

/-- `vfclass` (R437): whether the class of a is among the bits of the immediate. -/
def execVfclass (d a : Code) (imm : BitVec 7) (s : State) : Outcome :=
  issue (.vfclass d a imm) (fun s gid g =>
    .plain (s.setGroup gid (compareMask g d fun j => bit imm (classOf (envOf g.fmt) (compareValue g a j))))) s

end Sys2Proof.Machine
end

