-- ==== Sys2Proof/Machine/Convert.lean ====
section
/-! DEFINITION. Conversions: `vcvt` (R54, R117, R130, R439) and `vcvtef` (R131). -/

namespace Sys2Proof.Machine

open Bits Sys2Proof.Machine.Float

/-- A type of R54: a float format, or an integer type by sign and width. -/
inductive CvtType where
  | flt (f : Fmt)
  | int (sg : Bool) (n : Nat)
  deriving DecidableEq, Repr

/-- The types by code (R54). -/
def cvtType : Nat → CvtType
  | 0 => .flt f32
  | 1 => .flt f16
  | 2 => .flt bf16
  | 3 => .flt f64
  | 4 => .flt e4m3
  | 5 => .flt e5m2
  | 6 => .int true 32
  | 7 => .int false 32
  | 8 => .int true 16
  | 9 => .int false 16
  | 10 => .int true 8
  | 11 => .int false 8
  | 12 => .int true 64
  | 13 => .int false 64
  | _ => .flt mx4

def CvtType.width : CvtType → Nat
  | .flt f => f.bits
  | .int _ n => n

/-- Formats that flush applies to (R129). -/
def flushes (f : Fmt) : Bool := f == f64 || f == f32 || f == f16 || f == bf16

/-- An integer of n bits read. -/
def readInt (sg : Bool) (n w : Nat) : Int := if sg ∧ 2 ^ (n - 1) ≤ w then (w : Int) - 2 ^ n else w

/-- The low n bits of an integer. -/
def lowInt (n : Nat) (x : Int) : Nat := (x % 2 ^ n).toNat

/-- R130 on values of the two types, by code: the bits of the result. -/
def cvt (rm : Rm) (dz : Bool) (src dst : Nat) (x : Nat) : Res :=
  let x := x % 2 ^ (cvtType src).width
  match cvtType src, cvtType dst with
  | .flt f, .flt t =>
    let x := Env.rd ⟨f, rm, dz && flushes f⟩ x
    if src = dst then (if signalling f x then ⟨Float.quiet f x, fNV⟩ else ⟨x, 0⟩)
    else Env.wr ⟨t, rm, dz && flushes t⟩ (cvtFF f t rm x)
  | .flt f, .int sg n =>
    let r := cvtFI f sg n rm (Env.rd ⟨f, rm, dz && flushes f⟩ x)
    ⟨lowInt n r.1, r.2⟩
  | .int sg n, .flt t => Env.wr ⟨t, rm, dz && flushes t⟩ (cvtIF t rm (readInt sg n x))
  | .int sg n, .int tg m => ⟨lowInt m (if tg then satS m (readInt sg n x) else satU m (readInt sg n x)), 0⟩

/-- A result placed in an element (R117): s8 and s16 sign-extended to 32 bits. -/
def placeCvt (dst : Nat) (w : Nat) : Nat :=
  match cvtType dst with
  | .int true n => if n < 32 then lowInt 32 (readInt true n w) else w
  | .int false _ | .flt _ => w

/-- The rounding that B[6:4] selects (R54). -/
def cvtRm (fmt : Word) (rnd : BitVec 3) : Rm := if rnd = 0 then fmtRm fmt else rmOf (rnd.toNat - 1)

def cvtWide (t : Nat) : Bool := (cvtType t).width == 64

/-- `vcvt` (R130, R439). -/
def execVcvt (d a : Code) (rnd : BitVec 3) (src : BitVec 4) (nw : Bool) (dst : BitVec 4) (s : State) : Outcome :=
  issue (.vcvt d a rnd src nw dst) (fun s gid g =>
    let x := fun j => if cvtWide src.toNat then (srcVP g a j).toNat else (srcV g a j).toNat
    let r := fun j =>
      let r := cvt (cvtRm g.fmt rnd) (fmtDz g.fmt) src.toNat dst.toNat (x j)
      (⟨placeCvt dst.toNat r.w, r.fl⟩ : Res)
    floatResult s gid g d nw (cvtWide dst.toNat) r) s

/-! ### Error-feedback narrowing (R131) -/

/-- The type of FMT.NR. -/
def nrFmt (fmt : Word) : Fmt :=
  match fieldNat fmt 19 3 with | 0 => bf16 | 1 => f16 | 2 => e4m3 | 3 => e5m2 | _ => mx4

/-- One lane: the narrow value, the companion, the flags. -/
def errorFeedback (f : Fmt) (a c : Nat) : Nat × Nat × Flags :=
  let t := fp32Add a c
  match unpack f32 t.w with
  | .nan n _ =>
    if f.top = .normal then (0, 0, t.fl ||| fNV) else (signed f n f.nanBits, 0, t.fl)
  | .inf _ =>
    let d := narrowRne f t.w
    (d.w, 0, t.fl ||| d.fl)
  | .fin .. =>
    let d := narrowRne f t.w
    let r := fp32Sub t.w (widenTo32 f d.w)
    (d.w, r.w, t.fl ||| d.fl ||| r.fl)

/-- `vcvtef` (R131): vD the narrow value, vC its companion. -/
def execVcvtef (d a b : Code) (s : State) : Outcome :=
  issue (.vcvtef d a b) (fun s gid g =>
    let r := fun j => errorFeedback (nrFmt g.fmt) (srcV g a j).toNat (srcV g b j).toNat
    let f := fun j => BitVec.ofNat 32 (r j).1
    let g' := (g.setLanes d.toNat g.activeLanes f).setLanes b.toNat g.activeLanes fun j => BitVec.ofNat 32 (r j).2.1
    laneFlags s gid g g' (vecLatch g f) fun j => (r j).2.2) s

end Sys2Proof.Machine
end

