-- ==== Sys2Proof/Machine/CrossLane.lean ====
section
/-! DEFINITION. Cross-lane forms, reductions and selection: majors 06 and 07 (R132, R433 to R435, R449). -/

namespace Sys2Proof.Machine

open Bits Sys2Proof.Machine.Float

/-- A vector result that raises nothing. -/
def crossLane (d : Code) (nw : Bool) (f : Nat → Word) (s : State) (gid : Nat) (g : Group) : Effect :=
  .done (s.setGroup gid (writeV g d nw f)) (vecLatch g f) 0 0

/-- A scalar result that raises nothing. -/
def crossScalar (d : Code) (nw : Bool) (w : Word) (s : State) (gid : Nat) (g : Group) : Effect :=
  .done (s.setGroup gid (writeS g d nw w)) (.sca w) 0 0

/-! ### Moves between lanes (R434) -/

/-- The plane word that lane 8c + p receives. -/
def planeWord (src : Nat → Word) (j : Nat) : Word :=
  maskOf ((List.range 32).filter fun k => bit (src k) (8 * (j / 8) + (7 - j % 8)))

/-- The bytes that lane j receives back. -/
def unplaneWord (src : Nat → Word) (j : Nat) : Word :=
  maskOf ((List.range 32).filter fun b => bit (src (8 * (b / 8) + (7 - b % 8))) j)

/-! ### Reductions (R132, R435) -/

/-- One level of the tree over lane numbers: neighbours joined, an absent child leaving the other as it is. -/
def treeLevel (op : Res → Res → Res) : List (Option Res) → List (Option Res)
  | a :: b :: rest =>
    (match a, b with
      | some x, some y => some (op x y)
      | some x, none => some x
      | none, y => y) :: treeLevel op rest
  | xs => xs

/-- The five levels over the active lanes. -/
def treeOf (op : Res → Res → Res) (js : List Nat) (f : Nat → Nat) : Option Res :=
  let leaves := (List.range 32).map fun j => if js.contains j then some (⟨f j, 0⟩ : Res) else none
  ((List.range 5).foldl (fun l _ => treeLevel op l) leaves).getD 0 none

/-- A node: the operation on its children, their flags kept. -/
def node (f : Nat → Nat → Res) (x y : Res) : Res := (f x.w y.w).add (x.fl ||| y.fl)

/-- A float reduction of whole elements, each half alone. -/
def floatReduce (g : Group) (a : Code) (op : Env → Nat → Nat → Res) (empty : Fmt → Nat) : Res :=
  let v := envKeep g.fmt
  let one := fun (part : Nat → Nat) =>
    (treeOf (node (op v)) g.activeLanes fun j => part (fpSrc g a j)).getD ⟨empty v.f, 0⟩
  if vfOf g.fmt = 0 ∨ vfOf g.fmt = 3 then one id
  else
    let l := one (· % 65536)
    let h := one (· / 65536)
    ⟨h.w * 65536 + l.w, h.fl ||| l.fl⟩

def floatReduction (d a : Code) (nw : Bool) (op : Env → Nat → Nat → Res) (empty : Fmt → Nat) (s : State) (gid : Nat)
    (g : Group) : Effect :=
  let r := floatReduce g a op empty
  if vfOf g.fmt = 3 then
    let w := BitVec.ofNat 64 r.w
    groupFlags s gid g (writeS64 g d nw w) (.sca64 w) r.fl
  else
    let w := BitVec.ofNat 32 r.w
    groupFlags s gid g (writeS g d nw w) (.sca w) r.fl

def intReduction (d a : Code) (nw : Bool) (op : Word → Word → Word) (empty : Word) (s : State) (gid : Nat)
    (g : Group) : Effect :=
  crossScalar d nw ((g.activeLanes.map (srcV g a)).foldl op empty) s gid g

/-- The scan of floats: the results of the active lanes in increasing order, with the flags of each sum. -/
def floatScanGo (v : Env) : Option Nat → List (Nat × Nat) → List (Nat × Res)
  | _, [] => []
  | none, (j, x) :: rest => (j, ⟨x, 0⟩) :: floatScanGo v (some x) rest
  | some p, (j, x) :: rest => (j, fadd v p x) :: floatScanGo v (some (fadd v p x).w) rest

def scanAt (rs : List (Nat × Res)) (j : Nat) : Res := ((rs.find? fun e => e.1 == j).map (·.2)).getD ⟨0, 0⟩

/-- `vscan.f` of each lane, each half alone. -/
def floatScan (g : Group) (a : Code) : Nat → Res :=
  let v := envKeep g.fmt
  let scan := fun (part : Nat → Nat) => floatScanGo v none (g.activeLanes.map fun j => (j, part (fpSrc g a j)))
  if vfOf g.fmt = 0 ∨ vfOf g.fmt = 3 then
    let rs := scan id
    fun j => scanAt rs j
  else
    let ls := scan (· % 65536)
    let hs := scan (· / 65536)
    fun j => ⟨(scanAt hs j).w * 65536 + (scanAt ls j).w, (scanAt hs j).fl ||| (scanAt ls j).fl⟩

/-- `vscan.i` of lane j. -/
def intScan (g : Group) (a : Code) (j : Nat) : Word :=
  ((g.activeLanes.filter (· ≤ j)).map (srcV g a)).foldl (· + ·) 0

/-! ### The forms -/

/-- `vplane` (R434). -/
def execVplane (d a : Code) (nw : Bool) (s : State) : Outcome :=
  issue (.vplane d a nw) (fun s gid g => crossLane d nw (planeWord (srcLane g a)) s gid g) s

/-- `vunpl` (R434). -/
def execVunpl (d a : Code) (nw : Bool) (s : State) : Outcome :=
  issue (.vunpl d a nw) (fun s gid g => crossLane d nw (unplaneWord (srcLane g a)) s gid g) s

/-- `vshfl` (R434). -/
def execVshfl (d a b : Code) (nw : Bool) (s : State) : Outcome :=
  issue (.vshfl d a b nw) (fun s gid g => crossLane d nw (fun j => srcLane g a ((srcV g b j).toNat % 32)) s gid g) s

/-- `vshfx` (R434). -/
def execVshfx (d a b : Code) (nw : Bool) (s : State) : Outcome :=
  issue (.vshfx d a b nw) (fun s gid g => 
    crossLane d nw (fun j => srcLane g a (BitVec.ofNat 5 j ^^^ (srcV g b j).setWidth 5).toNat) s gid g) s

/-- `vbcl` (R434). -/
def execVbcl (d a b : Code) (nw : Bool) (s : State) : Outcome :=
  issue (.vbcl d a b nw) (fun s gid g => 
    crossLane d nw (fun _ => srcLane g a ((srcS s g b).toNat % 32)) s gid g) s

/-- `vmov` (R434). -/
def execVmov (d a : Code) (nw : Bool) (s : State) : Outcome :=
  issue (.vmov d a nw) (fun s gid g => crossLane d nw (srcV g a) s gid g) s

/-- `vfirst` (R435): the lowest active lane's element, or 0; a lane whose element is uncorrectable dies, and gives 0
(R230). -/
def execVfirst (d a : Code) (nw : Bool) (s : State) : Outcome :=
  issue (.vfirst d a nw) (fun s gid g =>
    match g.activeLanes.head? with
    | none => crossScalar d nw 0 s gid g
    | some j =>
      if badAt g (osrc .vec a) j then
        .done (uceLanes (s.setGroup gid (writeS g d nw 0)) gid (maskOf [j]) g.pc) (.sca 0) 0 0
      else crossScalar d nw (srcV g a j) s gid g) s

/-- `vballot` (R435): the active lanes with a non-zero element. -/
def execVballot (d a : Code) (nw : Bool) (s : State) : Outcome :=
  issue (.vballot d a nw) (fun s gid g => 
    crossScalar d nw (maskOf (g.activeLanes.filter fun j => srcV g a j != 0)) s gid g) s

/-- `vredadd.i` (R435). -/
def execVredaddI (d a : Code) (nw : Bool) (s : State) : Outcome :=
  issue (.vredadd_i d a nw) (intReduction d a nw (· + ·) 0) s

/-- `vredmin.s` (R435). -/
def execVredminS (d a : Code) (nw : Bool) (s : State) : Outcome :=
  issue (.vredmin_s d a nw) (intReduction d a nw minS 0x7FFFFFFF) s

/-- `vredmin.u` (R435). -/
def execVredminU (d a : Code) (nw : Bool) (s : State) : Outcome :=
  issue (.vredmin_u d a nw) (intReduction d a nw minU 0xFFFFFFFF) s

/-- `vredmax.s` (R435). -/
def execVredmaxS (d a : Code) (nw : Bool) (s : State) : Outcome :=
  issue (.vredmax_s d a nw) (intReduction d a nw maxS 0x80000000) s

/-- `vredmax.u` (R435). -/
def execVredmaxU (d a : Code) (nw : Bool) (s : State) : Outcome :=
  issue (.vredmax_u d a nw) (intReduction d a nw maxU 0) s

/-- `vredadd.f` (R132, R435). -/
def execVredaddF (d a : Code) (nw : Bool) (s : State) : Outcome :=
  issue (.vredadd_f d a nw) (floatReduction d a nw fadd (fun _ => 0)) s

/-- `vredmin.f` (R132, R435). -/
def execVredminF (d a : Code) (nw : Bool) (s : State) : Outcome :=
  issue (.vredmin_f d a nw) (floatReduction d a nw (fun v => fminmax v false) Fmt.infBits) s

/-- `vredmax.f` (R132, R435). -/
def execVredmaxF (d a : Code) (nw : Bool) (s : State) : Outcome :=
  issue (.vredmax_f d a nw) (floatReduction d a nw (fun v => fminmax v true) (fun f => signed f true f.infBits)) s

/-- `vscan.i` (R435). -/
def execVscanI (d a : Code) (nw : Bool) (s : State) : Outcome :=
  issue (.vscan_i d a nw) (fun s gid g => crossLane d nw (intScan g a) s gid g) s

/-- `vscan.f` (R132): its exceptions belong to the whole group (R435). -/
def execVscanF (d a : Code) (nw : Bool) (s : State) : Outcome :=
  issue (.vscan_f d a nw) (fun s gid g =>
    let r := floatScan g a
    let fl := flagsOf g.activeLanes fun j => (r j).fl
    if vfOf g.fmt = 3 then
      let f := fun j => BitVec.ofNat 64 (r j).w
      groupFlags s gid g (writeV64 g d nw f) (vecLatch64 g f) fl
    else
      let f := fun j => BitVec.ofNat 32 (r j).w
      groupFlags s gid g (writeV g d nw f) (vecLatch g f) fl) s

/-- `vsel` (R449): vA where the mask is set, else vB. -/
def execVsel (d a b : Code) (nw : Bool) (m : BitVec 3) (s : State) : Outcome :=
  issue (.vsel d a b nw m) (fun s gid g =>
    crossLane d nw (fun j => if bit (g.maskAt m.toNat) j then srcV g a j else srcV g b j) s gid g) s

end Sys2Proof.Machine
end

