-- ==== Sys2Proof/Machine/Crypto.lean ====
section
/-! DEFINITION. What boot and attestation compute (R334, R335): SHA-512, and the keys, the signing and the verification of
Ed25519 in its pure form (RFC 8032), over bytes least significant first as they lie in memory. -/

namespace Sys2Proof.Machine.Crypto

open Bits

/-! ### SHA-512 -/

/-- The largest a with a ^ k at most n, bit by bit: b bits are left to try, and those above them are in a. -/
def rootFrom (k n : Nat) : Nat → Nat → Nat
  | 0, a => a
  | b + 1, a => rootFrom k n b (if (a + 2 ^ b) ^ k ≤ n then a + 2 ^ b else a)

/-- The first 64 bits of the fraction of the k-th root of a number below 2 ^ 12. -/
def rootFraction (k p : Nat) : BitVec 64 := BitVec.ofNat 64 (rootFrom k (p * 2 ^ (64 * k)) 70 0)

/-- The primes below 410: the first 80. -/
def primes : List Nat := (List.range 410).filter fun n => 2 ≤ n && (List.range 21).all fun d => d < 2 || n ≤ d || n % d != 0

/-- A constant for each round: of the cube roots of the first 80 primes. The hash starts from the square roots of the first
eight. -/
def roundConstants : List (BitVec 64) := primes.map (rootFraction 3)
def startHash : List (BitVec 64) := (primes.take 8).map (rootFraction 2)

/-- A big-endian word of 8 bytes. -/
def wordBE (bs : List Byte) : BitVec 64 := BitVec.ofNat 64 (natOfBytes bs.reverse)

/-- The message padded to blocks of 128 bytes. -/
def padded (m : List Byte) : List Byte :=
  m ++ 0x80#8 :: List.replicate ((239 - m.length % 128) % 128) 0#8 ++ (bytesOfNat 16 (8 * m.length)).reverse

/-- A word mixed with itself: turned right by each of some amounts, over a word that stands already. -/
def turned (rs : List Nat) (x y : BitVec 64) : BitVec 64 := rs.foldl (fun y r => y ^^^ x.rotateRight r) y

/-- The schedule of a block, newest word first, with n more words. -/
def schedule : Nat → List (BitVec 64) → List (BitVec 64)
  | 0, ws => ws
  | n + 1, ws =>
    let late := ws.getD 1 0
    let early := ws.getD 14 0
    let new := ws.getD 15 0 + turned [1, 8] early (early >>> 7) + ws.getD 6 0 + turned [19, 61] late (late >>> 6)
    schedule n (new :: ws)

/-- One round on the eight working words. -/
def round (h : List (BitVec 64)) (kw : BitVec 64) : List (BitVec 64) :=
  match h with
  | [a, b, c, d, e, f, g, x] =>
    let new := kw + x + turned [14, 18, 41] e 0 + (g ^^^ e &&& (f ^^^ g))
    [new + turned [28, 34, 39] a 0 + (a &&& b ||| c &&& (a ||| b)), a, b, c, d + new, e, f, g]
  | _ => h

/-- The hash after one block of 128 bytes. -/
def block (h : List (BitVec 64)) (bs : List Byte) : List (BitVec 64) :=
  let ws := (schedule 64 ((List.range 16).map fun i => wordBE ((bs.drop (8 * i)).take 8)).reverse).reverse
  h.zipWith (· + ·) ((roundConstants.zipWith (· + ·) ws).foldl round h)

/-- SHA-512 of a message. -/
def sha512 (m : List Byte) : List Byte :=
  let p := padded m
  ((List.range (p.length / 128)).foldl (fun h i => block h ((p.drop (128 * i)).take 128)) startHash).flatMap
    fun w => (bytesOfNat 8 w.toNat).reverse

/-! ### Ed25519 -/

/-- The prime of the field, and the order of the group. -/
def prime : Nat := 2 ^ 255 - 19
def order : Nat := 2 ^ 252 + 27742317777372353535851937790883648493

/-- b ^ e modulo the prime, e below 2 ^ n. -/
def powMod (b e : Nat) : Nat → Nat
  | 0 => 1
  | n + 1 =>
    let r := powMod b (e / 2) n
    r * r % prime * (if e % 2 = 1 then b else 1) % prime

def inverse (x : Nat) : Nat := powMod x (prime - 2) 255
/-- The constant of the curve. -/
def curveD : Nat := (prime - 121665) * inverse 121666 % prime

/-- A point in extended coordinates. -/
structure Point where
  x : Nat
  y : Nat
  z : Nat
  t : Nat

def zeroPoint : Point := ⟨0, 1, 1, 0⟩

def Point.add (p q : Point) : Point :=
  let a := (p.y + prime - p.x) * (q.y + prime - q.x) % prime
  let b := (p.y + p.x) * (q.y + q.x) % prime
  let c := 2 * p.t * q.t % prime * curveD % prime
  let d := 2 * p.z * q.z % prime
  let e := b + prime - a
  let f := d + prime - c
  let g := d + c
  let h := b + a
  ⟨e * f % prime, g * h % prime, f * g % prime, e * h % prime⟩

/-- k times a point, k below 2 ^ n. -/
def Point.mul (p : Point) (k : Nat) : Nat → Point
  | 0 => zeroPoint
  | n + 1 =>
    let r := p.mul (k / 2) n
    let r := r.add r
    if k % 2 = 1 then r.add p else r

def Point.same (p q : Point) : Bool :=
  p.x * q.z % prime == q.x * p.z % prime && p.y * q.z % prime == q.y * p.z % prime

/-- The point that 32 bytes code, if they code one. -/
def decodePoint (bs : List Byte) : Option Point :=
  let n := natOfBytes bs
  let y := n % 2 ^ 255
  let sign := n / 2 ^ 255 % 2
  let x2 := (y * y + prime - 1) * inverse (curveD * y % prime * y + 1) % prime
  let r := powMod x2 ((prime + 3) / 8) 255
  let r := if r * r % prime = x2 then r else r * powMod 2 ((prime - 1) / 4) 255 % prime
  if y ≥ prime ∨ r * r % prime ≠ x2 ∨ r = 0 ∧ sign = 1 then none
  else
    let x := if r % 2 = sign then r else prime - r
    some ⟨x, y, 1, x * y % prime⟩

/-- The 32 bytes that code a point. -/
def encodePoint (p : Point) : List Byte :=
  let w := inverse p.z
  bytesOfNat 32 (p.y * w % prime + p.x * w % prime % 2 * 2 ^ 255)

/-- The base point. -/
def basePoint : Point :=
  let x := 15112221349535400772501151409588531511454012693041857206046113283949847762202
  let y := 46316835694926478169428394003475163141307993866256225615783033603165251855960
  ⟨x, y, 1, x * y % prime⟩

/-- A signature of 64 bytes over a message verifies under a public key of 32 bytes. -/
def verifies (key m sig : List Byte) : Bool :=
  let s := natOfBytes (sig.drop 32)
  let k := natOfBytes (sha512 (sig.take 32 ++ key ++ m)) % order
  match decodePoint key, decodePoint (sig.take 32) with
  | some a, some r =>
    key.length == 32 && sig.length == 64 && decide (s < order) && (basePoint.mul s 253).same (r.add (a.mul k 253))
  | _, _ => false

/-- The scalar of a private key of 32 bytes, and the 32 bytes that go into the nonces of its signatures. -/
def secretScalar (seed : List Byte) : Nat :=
  let n := natOfBytes ((sha512 seed).take 32)
  2 ^ 254 + n % 2 ^ 254 / 8 * 8
def noncePrefix (seed : List Byte) : List Byte := (sha512 seed).drop 32

/-- The public key of a private key. -/
def publicKey (seed : List Byte) : List Byte := encodePoint (basePoint.mul (secretScalar seed) 255)

/-- The signature of 64 bytes of a message under a private key. -/
def sign (seed m : List Byte) : List Byte :=
  let r := natOfBytes (sha512 (noncePrefix seed ++ m)) % order
  let rs := encodePoint (basePoint.mul r 253)
  let k := natOfBytes (sha512 (rs ++ publicKey seed ++ m)) % order
  rs ++ bytesOfNat 32 ((r + k * secretScalar seed) % order)

end Sys2Proof.Machine.Crypto
end

