-- ==== Sys2Proof/Machine/Saves.lean ====
section
/-! DEFINITION. PREEMPT, and the saving of groups and blocks (R234 to R240, R267, R313, R366, R402). -/

namespace Sys2Proof.Machine

open Assoc Bits

/-! ### What a save writes (R236, R237, R402) -/

/-- What a save keeps: registers, scalars and tiles by number, ranges of the slice; `full`: everything. -/
structure SavePlan where
  full : Bool
  vecs : List Nat
  scalars : List Nat
  tiles : List Nat
  ranges : List (Nat × Nat)

def fullPlan (g : Group) : SavePlan :=
  { full := true, vecs := List.range g.vregs, scalars := List.range 64, tiles := List.range g.accs, ranges := [] }

/-- Set bits of a field. -/
def bitsOf (bs : List Byte) (lo n : Nat) : List Nat := (List.range n).filter fun k => memField bs (lo + k) 1 == 1

/-- The plan of a liveness entry. -/
def entryPlan (bs : List Byte) : SavePlan :=
  { full := false, vecs := bitsOf bs 0 512, scalars := bitsOf bs 512 64, tiles := bitsOf bs 576 16,
    ranges := ((List.range 4).map fun k => (memField bs (608 + 64 * k) 32, memField bs (640 + 64 * k) 32)).filter
      fun r => r.2 != 0 }

/-- R236: an entry that a full save replaces. -/
def entryBad (g : Group) (spad : Nat) (bs : List Byte) : Bool :=
  let p := entryPlan bs
  memField bs 864 160 != 0 || memField bs 593 15 != 0 || (p.vecs.any fun v => decide (v ≥ g.vregs)) ||
  (p.tiles.any fun t => decide (t ≥ g.accs)) || p.ranges.any fun r => decide (r.1 + r.2 > spad)

/-- How a save goes. -/
inductive PlanOf where
  | plan (s : State) (p : SavePlan)
  | fault

/-- An entry in the pit log for a save event (R336). -/
def saveEvent (s : State) (g : Group) (code : Nat) : State := pitWrite s (dieOfCore g.core) 9 code g.core (slotOf g) 0 0 g.secure

/-- The plan of a group's save: the entry that its `ppt` names, or everything (R235, R402). -/
def planOf (s : State) (g : Group) (l : Launch) (spad : Nat) : PlanOf :=
  match parkedIn g, g.status with
  | some (.save (some n)), .parked _ =>
    if l.hdr.live = 0 then .plan s (fullPlan g)
    else if l.hdr.live.toNat % 128 ≠ 0 then
      .plan ((if l.liveLogged then s else saveEvent s g 0).updLaunch g.launch fun l => { l with liveLogged := true })
        (fullPlan g)
    else match ctxRead s (ctxAgent l.root g.priv g.secure) (l.hdr.live + BitVec.ofNat 64 (128 * n)) 128 with
      | none => .fault
      | some (s, bs) =>
        if entryBad g spad bs then .plan (saveEvent s g 0) (fullPlan g)
        else if memField bs 592 1 = 1 then .plan s (fullPlan g)
        else .plan s (entryPlan bs)
  | _, _ => .plan s (fullPlan g)

/-- Bytes of a group record, and of a block record (R238). -/
def groupRecord (p : SavePlan) : Nat := 4096 + 128 * p.vecs.length + 65536 * p.tiles.length
def blockRecord (n : Nat) : Nat := 128 + n

/-! ### The save area (R238, R239) -/

/-- A record in a layout of the device's own: its bytes are free values. -/
def writeRecord (s : State) : List (Hit × Nat) → State
  | [] => s
  | (h, m) :: rest =>
    let bs := (List.range m).map fun i => Config.freeByte (s.ctr + i)
    writeRecord (markHit (store { s with ctr := s.ctr + m } (hitCells s h bs)) h) rest

/-- The head of the save area read: USED and the places of n bytes after it, or none on a page fault, or past LIMIT. -/
def saveRoom (s : State) (l : Launch) (n : Nat) : State × Option (Nat × List (Hit × Nat)) :=
  let ag := ctxAgent l.root l.privq false
  match if l.hdr.save = 0 then none else ctxRead s ag l.hdr.save 16 with
  | none => (s, none)
  | some (s, bs) =>
    let used := memField bs 64 64
    if (ctxSpan s ag .store (l.hdr.save + 8) 8).isNone || decide (used + n > memField bs 0 64) then (s, none)
    else (s, (ctxSpan s ag .store (l.hdr.save + BitVec.ofNat 64 used) n).map fun hs => (used, hs))

/-- A record of n bytes appended after USED, if there is room; whether it has been. -/
def appendRecord (s : State) (l : Launch) (n : Nat) : State × Bool :=
  match saveRoom s l n with
  | (s, none) => (s, false)
  | (s, some (used, hs)) =>
    (ctxStore (writeRecord s hs) (ctxAgent l.root l.privq false) (l.hdr.save + 8) 8 (used + n), true)

/-! ### When a group may be saved (R234, R237, R210, R380) -/

/-- PRETMO in nanoseconds (R234). -/
def forcedAfter (s : State) : Nat := max 1 s.ctl.pretmo.toNat * 1000

/-- The group stands where the save engine takes it. -/
def atSavePoint (s : State) (gid : Nat) (g : Group) : Bool :=
  match g.status with
  | .ready => false
  | .halted _ => true
  | .saved .. => false
  | .parked p => match p with
    | .save _ | .waitany _ | .bar _ | .rejoin => true
    | .exit => false
    | .hop | .room | .resume | .cbbad => false
    | .cbget .. | .mwait _ | .transition | .stalled => forcedDue s gid g

/-- Nothing is outstanding that the save waits for, but batches. -/
def saveReady (s : State) (gid : Nat) (g : Group) : Bool :=
  preemptDue s gid g && atSavePoint s gid g && quiet g && g.fetches.isEmpty && allReturned g &&
  !(s.coreAt g.core).scanning

/-- FORCED_SAVE (R234): PRETMO after the command, a group that has reached no point is taken at its next boundary
outside a chain. -/
def execForcedSave (gid : Nat) (s : State) : Outcome :=
  match s.group? gid with
  | none => .next s
  | some g => match s.launch? g.launch with
    | none => .next s
    | some l => match l.preempt with
      | none => .next s
      | some r =>
        if !preemptDue s gid g || decide (since s.primaryTime r.since < forcedAfter s) || (s.coreAt g.core).scanning then
          .next s
        else match g.status with
          | .ready =>
            if g.chain.fpFlags != 0 || !atBoundary s g then .next s
            else .next (s.setGroup gid { g with
                status := .parked (.save none), chain := g.chain.stop, dbg := { g.dbg with haltDue := haltOwed g } })
          | .parked (.cbget ..) | .parked (.mwait _) | .parked .transition | .parked .stalled =>
            if r.forced.contains gid then .next s
            else .next (s.setLaunch g.launch { l with preempt := some { r with forced := r.forced ++ [gid] } })
          | .parked _ | .halted _ | .saved .. => .next s

/-! ### Saving -/

/-- Entries of a register file whose register is in a list. -/
def keepRegs (width : Nat) (regs : List Nat) (m : Map Word) : Map Word := m.filter fun e => regs.contains (e.1 / width)

/-- The group as its save leaves it: what is not saved reads zero (R237), a status that it has not read with it. -/
def savedGroup (g : Group) (p : SavePlan) : Group :=
  let was := match g.status with | .parked p => some p | .halted p => p | .ready | .saved .. => none
  let halted := match g.status with | .halted _ => true | .ready | .parked _ | .saved .. => false
  { g with
    status := .saved was halted, v := keepRegs 32 p.vecs g.v, s := keepRegs 1 p.scalars g.s,
    badV := g.badV.filter fun x => p.vecs.contains (x / 32), badS := g.badS.filter p.scalars.contains,
    unread := g.unread.filter fun d => p.scalars.contains d,
    badRow := g.badRow.filter fun x => p.tiles.contains (x / 128),
    mx := { g.mx with tiles := keepRegs 16384 p.tiles g.mx.tiles }, held := g.held.filter fun h => h.desc != 63 }

/-- Special scalars whose values a save reads, with the control state (R237): `gtim`, AMASK, LMASK, FMT and `fst`. -/
def savedSpecial (c : Nat) : Bool := decide (82 ≤ c ∧ c ≤ 86)

/-- What the engine finds uncorrectable in what it reads (R232, R239): lanes die, rows are spoiled; a scalar, or a special
one, kills the group. -/
def saveErrors (s : State) (gid : Nat) (g : Group) (p : SavePlan) : State :=
  if g.badS.any p.scalars.contains || g.badSp.any savedSpecial then uceKill s gid g.pc
  else
    let lanes := (g.badV.filter fun x => p.vecs.contains (x / 32)).map (· % 32)
    let rows := g.badRow.filter fun x => p.tiles.contains (x / 128)
    let s := s.setGroup gid (rows.foldl (fun g x => spoilRows g (x / 128) [x % 128]) g)
    uceLanes s gid (maskOf (lanes ++ rows.map fun x => x % 128 / 4)) g.pc

/-- The slot, registers and tiles of a group freed; its shaft slots released, oldest first (R237, R366). -/
def vacate (s : State) (gid : Nat) (g : Group) : State :=
  let s := (g.held.filter fun h => h.desc == 63).foldl (fun s h => cbRelease s g.core h) s
  let s := leaveWaits s gid
  let k := s.coreAt g.core
  s.setCore g.core { k with gens := put 0 k.gens g.slot ((get 0 k.gens g.slot + 1) % 256) }

/-- The copy rings of a block: none lags behind NOTIFY as read now, or the save waits (R313). -/
def ringsOf (s : State) (bid : Nat) : List (Nat × EngineOp × RingInfo) :=
  s.ops.filterMap fun e => match e.2.kind with
    | .ring r => if e.2.block = some bid then some (e.1, e.2, r) else none
    | .copy _ | .cpred _ | .ivsld _ | .bmac _ | .embw _ => none

def ringsDone (s : State) (bid : Nat) : Bool :=
  (ringsOf s bid).all fun e => readNat s ((sliceOf s e.2.1).1 + e.2.2.header) 4 == e.2.2.done

def detachSaved (s : State) (bid : Nat) : State :=
  (ringsOf s bid).foldl (fun s e => finishOp s e.1 (finalStatus 0x89 (ringCount e.2.2) 0)) s

/-- Bytes of the slice that a block record keeps: all, or those in a range. -/
def keptBytes (b : Block) : List Nat :=
  (List.range b.spad).filter fun o => b.fullSave || b.ranges.any fun r => r.1 ≤ o && o < r.1 + r.2

/-- The block saved with its last group: its slice, the descriptors it owns and its barriers (R237, R366, R219). -/
def saveBlock (s : State) (bid : Nat) (b : Block) : State :=
  let at_ := spadLoc b.cluster b.spadBase
  let s := detachSaved s bid
  let k := s.clusterAt b.cluster
  let cbs := k.cbs.filter fun e => e.2.en && e.2.owner == bid
  let bars := k.bars.filter fun e => e.2.isOpen && e.2.owner == bid
  let kept := keptBytes b
  let s := s.setBlock bid { b with
    saved := true, savedCbs := cbs, savedBars := bars,
    savedSpad := kept.map fun o => (o, readByte s (at_ + o)), savedBad := kept.filter fun o => isBad s (at_ + o) }
  let s := s.setCluster b.cluster { k with
    cbs := (keys cbs).foldl (fun m n => put CbDesc.reset m n CbDesc.reset) k.cbs,
    bars := (keys bars).foldl (fun m n => put Barrier.idle m n Barrier.idle) k.bars }
  match s.launch? b.launch with
  | some l => if l.hdr.sec then zeroRange s at_ b.spad else s
  | none => s

/-- The block as a group's save leaves it: its ranges, or the whole slice. -/
def notePlan (b : Block) (p : SavePlan) : Block :=
  { b with ranges := b.ranges ++ p.ranges, fullSave := b.fullSave || p.full }

/-- A save that cannot finish (R239): the group stays and runs on. -/
def failSave (s : State) (gid : Nat) (g : Group) : State :=
  let s := report (saveEvent s g (causeCode .savef).toNat) (.savef gid)
  let s := s.updLaunch g.launch fun l => { l with preempt := l.preempt.map fun r => { r with failed := r.failed ++ [gid] } }
  match g.status with
  | .parked (.save (some _)) => goToNext s gid g
  | .parked (.save none) | .parked (.mwait _) => s.setGroup gid { g with status := .ready }
  | .ready | .parked _ | .halted _ | .saved .. => s

/-- Whether the group is the last of its block that is resident. -/
def lastOfBlock (s : State) (gid : Nat) (bid : Nat) : Bool :=
  (groupsOfBlock s bid).all fun e => e.1 == gid || isSaved e.2

/-- Bytes of the records that a group's save appends: its own, and its block's if it is the last. -/
def recordBytes (last : Bool) (b : Block) (p : SavePlan) : Nat :=
  groupRecord p + if last then blockRecord (keptBytes b).length else 0

/-- The records appended and the group saved, its block with it if it is the last. -/
def saveNow (s : State) (gid : Nat) (g : Group) (l : Launch) (b : Block) (p : SavePlan) (last : Bool) : State :=
  let s := (appendRecord s l (recordBytes last b p)).1
  let s := if isHalted g then barRecount s gid g else s
  let s := vacate (s.setGroup gid (savedGroup g p)) gid g
  if last then saveBlock s g.block b else s

/-- A group's save: it fails where its records have no room. A group that its errors kill is not the last of its block to be
saved: the block's record is written once nothing of the block is left to save (R239). -/
def saveGroup (s : State) (gid : Nat) (g : Group) (l : Launch) (b : Block) (p : SavePlan) : State :=
  let b := notePlan b p
  let last := lastOfBlock s gid g.block
  match saveRoom s l (recordBytes last b p) with
  | (s, none) => failSave s gid g
  | (s, some _) =>
    let s := saveErrors (s.setBlock g.block b) gid g p
    match s.group? gid with
    | none => s
    | some g' => if g'.lmask = 0 then endGroup s gid else saveNow s gid g' l b p last

/-- The open batch closed for the group's save (R267). -/
def shutBatch (s : State) (gid : Nat) (g : Group) : State :=
  (s.setGroup gid { g with mx := closeBatch g.mx }).updLaunch g.launch fun l =>
    { l with preempt := l.preempt.map fun r => { r with shut := r.shut ++ [gid] } }

/-- The group's open batch has been closed for the pre-emption in progress. -/
def batchShut (s : State) (gid : Nat) (g : Group) : Bool :=
  match s.launch? g.launch with
  | some l => match l.preempt with | some r => r.shut.contains gid | none => true
  | none => true

/-- GROUP_SAVE (R237, R267): the open batch is closed, an empty one too, and once every batch is complete the group is
saved. -/
def execGroupSave (gid : Nat) (s : State) : Outcome :=
  match s.group? gid with
  | none => .next s
  | some g =>
    if !saveReady s gid g then .next s
    else if !batchShut s gid g || g.mx.opening.ops ≠ 0 then .next (shutBatch s gid g)
    else if !g.mx.closed.isEmpty then .next s
    else match s.launch? g.launch, s.block? g.block with
      | some l, some b =>
        if lastOfBlock s gid g.block && !ringsDone s g.block then .next s
        else match planOf s g l b.spad with
          | .fault => .next (failSave s gid g)
          | .plan s' p => .next (saveGroup s' gid g l b p)
      | _, _ => .next s

/-! ### PREEMPT (R234, R240) -/

/-- The launch that a header address names among those that run. -/
def runningLaunch (s : State) (c : Cmd) : Option (Nat × Launch) :=
  s.launches.find? fun e =>
    (e.2.phase == .running || e.2.phase == .preempting) && e.2.addr0 == c.addr0 && e.2.ctx == c.d.ctx

/-- A group of the launch that a pre-emption still waits for: a home group that may yet be saved or retire, or any other
(R210, R295). -/
def awaitsPreempt (p : PreemptRun) (e : Nat × Group) : Bool :=
  match e.2.kind with
  | .home => !isSaved e.2 && !p.failed.contains e.1
  | .migrant .. | .pixel _ => true

/-- Rasterisation of the launch is at an end for now: NEXT is written, and a restored launch is a new draw (R295). -/
def parkDraw (s : State) (lid : Nat) (l : Launch) : State :=
  match l.draw with
  | some d =>
    if d.ended || d.dseq.isNone then s
    else setDraw (drawWrite s l d 20 4 d.next) lid fun d => { d with dseq := none }
  | none => s

/-- The save area of a launch that is saved: STATE and HDR (R238). -/
def markSaved (s : State) (l : Launch) : State :=
  let ag := ctxAgent l.root l.privq false
  match ctxSpan s ag .store (l.hdr.save + 16) 12 with
  | some _ => ctxStore (ctxStore s ag (l.hdr.save + 16) 8 l.addr0.toNat) ag (l.hdr.save + 24) 4 1
  | none => s

/-- Blocks whose groups have all been saved or have retired, with no record yet: the last to go retired. -/
def orphans (s : State) (lid : Nat) : List (Nat × Block) :=
  s.blocks.filter fun e => e.2.launch == lid && !e.2.saved && !(groupsOfBlock s e.1).isEmpty && !blockHasResident s e.1

def orphansReady (s : State) (lid : Nat) : Bool := (orphans s lid).all fun e => ringsDone s e.1

/-- A primitive of the launch is being split into pixel groups. -/
def rastering (s : State) (lid : Nat) : Bool := s.raster.any fun e => e.2.any (·.lid == lid)

/-- SAVEF for a block's record: of its first group (log 29; DESIGN CHOICE: R239 speaks of a group's save only). -/
def blockFails (s : State) (bid : Nat) : State :=
  match groupsOfBlock s bid with
  | [] => s
  | (gid, g) :: _ => report (saveEvent s g (causeCode .savef).toNat) (.savef gid)

/-- Their records written; whether one could not be. -/
def saveOrphans (s : State) (l : Launch) (lid : Nat) : State × Bool :=
  (orphans s lid).foldl (fun r e => match appendRecord r.1 l (blockRecord (keptBytes e.2).length) with
    | (s, true) => (saveBlock s e.1 e.2, r.2)
    | (s, false) => (blockFails s e.1, true)) (s, false)

/-- A pre-emption that has nothing left to wait for: everything is saved, or some saves have failed (R240). A group whose save
failed and that has retired since leaves nothing unsaved: 0x2 (log 29; DESIGN CHOICE: R240 lets 0x3 stand too). -/
def finishPreempt (s : State) (lid : Nat) (l : Launch) (p : PreemptRun) : State :=
  let (s, bad) := saveOrphans (dropRef s (.preempt lid)) l lid
  if bad || (groupsOfLaunch s lid).any fun e => p.failed.contains e.1 then
    (statusWord s p.status 3).updLaunch lid fun l => { l with phase := .running, preempt := none }
  else
    let s := markSaved (statusWord (parkDraw s lid l) p.status 2) l
    (launchStatus s lid 4).updLaunch lid fun l => { l with phase := .saved, preempt := none }

/-- A pre-emption of the queue that may finish; one whose launch has nothing left to save ends with the launch, when that
completes (R87, R242). -/
def finishedOn (s : State) (q : Nat) : Option (Nat × Launch × PreemptRun) :=
  (s.queueAt q).running.findSome? fun r => match r with
    | .preempt lid => match s.launch? lid with
      | some l => match l.preempt with
        | some p =>
          if (groupsOfLaunch s lid).any (awaitsPreempt p) || allExited s lid l || rastering s lid ||
              !orphansReady s lid then none
          else some (lid, l, p)
        | none => none
      | none => none
    | .launch _ | .op _ | .vf .. | .gate _ | .alloc _ | .free .. => none

/-- PREEMPT: one of the queue's that is in progress finishes; else that at HEAD freezes its launch. Where a
pre-emption of the launch is in progress, it waits for its end. -/
def execPreempt (q : Nat) (s : State) : Outcome :=
  match finishedOn s q with
  | some (lid, l, p) => .next (finishPreempt s lid l p)
  | none => withCmd s q (opIs 13)
    (fun s c => [(2, reservedBad c ⟨false, false, false, true, true, 0, 0⟩),
      (5, statusBad s c || c.addr0.toNat % 256 != 0 || (ctxRead s c.ag c.addr0 256).isNone)])
    fun s c => match runningLaunch s c with
      | none => endCmd s c 5
      | some (lid, l) =>
        if l.phase = .preempting then holdCmd s c
        else
          let s := s.setLaunch lid { l with
            phase := .preempting, preempt := some ⟨c.status, s.primaryTime, [], [], []⟩ }
          runCmd (statusWord s c.status 1) c (.preempt lid)

end Sys2Proof.Machine
end

