-- ==== Sys2Proof/Machine/Package.lean ====
section
/-! DEFINITION. The package as a whole: its control blocks (R94, R156, R336, R337), other packages (R15, R314), the quote
(R335) and package reset (R9, R333, R334, R338). -/

namespace Sys2Proof.Machine

open Assoc Bits

/-! ### Control blocks (R94) -/

/-- TLBINV's words (R156): ignored while an invalidation is in progress. -/
def writeTlbinvLo (c : ControlBlock) (v : DWord) : ControlBlock := if c.tlbinvDone then { c with tlbinvLo := v } else c

def writeTlbinvHi (c : ControlBlock) (v : DWord) : ControlBlock :=
  if !c.tlbinvDone then c
  else
    let bad := decide (fieldNat c.tlbinvLo 0 16 ≥ 4096)
    { c with tlbinvCount := lo32 v, tlbinvErr := bad, tlbinvDone := bad }

/-- TLBINV_WRITE (R156): the upper word starts an invalidation, or is refused. -/
def execTlbinvWrite (v : DWord) (s : State) : Outcome := .next { s with ctl := writeTlbinvHi s.ctl v }

/-- A TLB entry that the invalidation in progress names: of its context, with a page of its range; all with COUNT = 0. -/
def tlbinvHits (c : ControlBlock) (e : TlbEntry) : Bool :=
  let page := fieldNat c.tlbinvLo 16 48
  let n := c.tlbinvCount.toNat
  e.ctx == fieldNat c.tlbinvLo 0 16 &&
    (n == 0 || decide (e.page < page + n) && decide (page < e.page + if e.big then 4096 else 1))

/-- Every TLB without the entries that the invalidation names. -/
def tlbinvClear (s : State) : State :=
  { s with
    cores := s.cores.map fun e => (e.1, { e.2 with tlb := e.2.tlb.filter fun x => !tlbinvHits s.ctl x }),
    clusters := s.clusters.map fun e => (e.1, { e.2 with tlb := e.2.tlb.filter fun x => !tlbinvHits s.ctl x }) }

/-- TLBINV_DONE (R156): every access of the context that was made has completed, and no TLB holds a matching entry. -/
def execTlbinvDone (s : State) : Outcome :=
  let ctx := fieldNat s.ctl.tlbinvLo 0 16
  .next (if s.groups.all fun e => e.2.ctx != ctx || quiet e.2 then
      { tlbinvClear s with ctl := { s.ctl with tlbinvDone := true } }
    else s)

/-- PITHEAD written (R337): a 1 to FROZEN resumes logging. -/
def writePithead (s : State) (die : Nat) (v : Word) : State :=
  if die ≥ Config.numDies || !bit v 31 then s
  else s.setDie die { s.dieAt die with pit := { (s.dieAt die).pit with frozen := false } }

/-- FROZEN_CLEAR (R338). -/
def execFrozenClear (die : Nat) (v : Word) (s : State) : Outcome := .next (writePithead s die v)

/-- A register of a control block written by the control node; every other offset ignores it. -/
def writeControl (s : State) (block off : Nat) (v : DWord) : State :=
  if off = 0x40 then (if block < 2 then writeSmcfg s block (lo32 v) else s)
  else if block ≠ 0 then s
  else match off with
    | 0x80 => { s with ctl := { s.ctl with qtbase := v } }
    | 0x88 => { s with ctl := { s.ctl with ctxbase := v } }
    | 0x90 => { s with ctl := writeTlbinvLo s.ctl v }
    | 0x98 => { s with ctl := writeTlbinvHi s.ctl v }
    | 0xA0 => { s with ctl := { s.ctl with pretmo := lo32 v } }
    | 0xC0 => writePithead s 0 (lo32 v)
    | 0xC8 => writePithead s 1 (lo32 v)
    | 0xD0 => writePithead s 2 (lo32 v)
    | 0xD8 => writePithead s 3 (lo32 v)
    | _ => s

/-- The 256 bits of an entry of a pit log as the control node reads them (R336): a non-secure read, which shows no DETAIL
of an entry that concerns a secure group. Of two items, DETAIL holds the first in bits [127:64] (log 24). -/
def pitWord (e : PitEntry) : Nat :=
  e.time.toNat * 2 ^ 192 + e.kind % 2 ^ 8 * 2 ^ 184 + e.code % 2 ^ 8 * 2 ^ 176 + e.core % 2 ^ 10 * 2 ^ 166 +
  e.slot % 2 ^ 7 * 2 ^ 159 + (if e.secure then 0 else e.detail0.toNat * 2 ^ 64 + e.detail1.toNat)

/-- PITHEAD (R337). -/
def pithead (p : PitLog) : Nat :=
  (if p.frozen then 2 ^ 31 else 0) + (if p.wrapped then 2 ^ 30 else 0) + p.next % 4096

/-- Bits [127:64] of TLBINV (R156). -/
def tlbinvHi (c : ControlBlock) : Nat :=
  c.tlbinvCount.toNat + (if c.tlbinvDone then 2 ^ 32 else 0) + (if c.tlbinvErr then 2 ^ 33 else 0)

/-- The offsets that show a pit log: its entries, and PITHEAD. -/
def pitOffset (off : Nat) : Bool := decide (0x10000 ≤ off ∧ off < 0x90000) || [0xC0, 0xC8, 0xD0, 0xD8].contains off

/-- The register at an offset of a control block (R94), or 64 bits of an entry of a pit log; zero at every other offset. -/
def controlWord (s : State) (block off : Nat) : Nat :=
  if off = 0x40 then (if block < 2 then (smcfg (s.stackAt block)).toNat else 0)
  else if block ≠ 0 then 0
  else if 0x10000 ≤ off ∧ off < 0x90000 then
    match find (s.dieAt ((off - 0x10000) / 0x20000)).pit.entries ((off - 0x10000) % 0x20000 / 32) with
    | some e => pitWord e / 2 ^ (8 * (off % 32)) % 2 ^ 64
    | none => 0
  else match off with
    | 0x80 => s.ctl.qtbase.toNat
    | 0x88 => s.ctl.ctxbase.toNat
    | 0x90 => s.ctl.tlbinvLo.toNat
    | 0x98 => tlbinvHi s.ctl
    | 0xA0 => max 1 s.ctl.pretmo.toNat
    | 0xC0 => pithead (s.dieAt 0).pit
    | 0xC8 => pithead (s.dieAt 1).pit
    | 0xD0 => pithead (s.dieAt 2).pit
    | 0xD8 => pithead (s.dieAt 3).pit
    | _ => 0

/-- What the control node reads there: a package in recovery answers reads of the pit log only, beside attestation (R334). -/
def readControl (s : State) (block off : Nat) : Option Nat :=
  if s.recovery && !(block == 0 && pitOffset off) then none else some (controlWord s block off)

/-- REGISTER_WRITE (R7, R94, R243): a register of a control block, or, by the debugger through the control node, a
system register of any group or core. The debugger writes TNEXT, like every other, of a group whatever its status,
parked at `ppt` too (DESIGN CHOICE, log 27: R30 speaks of a Halted group); the address is tested when the group goes
there. -/
def execRegisterWrite (r : RegTarget) (v : DWord) (s : State) : Outcome :=
  match r with
  | .ctl block off => .next (writeControl s block off v)
  | .group gid num => match s.group? gid with
    | some g => .next (sysWrite s gid g true num (lo32 v))
    | none => .next s
  | .core core num =>
    .next (if coreRegister num && core < Config.numCores then s.setCore core (writeCore (s.coreAt core) num (lo32 v)) else s)

/-! ### Other packages (R15, R314) -/

/-- FABRIC_BRING_UP (R15, R315). -/
def execFabricBringUp (pkg key : Nat) (s : State) : Outcome :=
  .next (if pkg < 262144 then { s with pkgid := pkg, key := BitVec.ofNat 20 key, fabric := true } else s)

/-- An access of another package may reach an address: memory outside the LLC rows and the secure regions. -/
def remoteMay (s : State) (pa : Nat) : Bool := (frameFault s false pa).isNone

def atomOfRow : Nat → Option AtomOp
  | 0 => some .iadd | 1 => some .fadd | 2 => some .and | 3 => some .or
  | 4 => some .smin | 5 => some .smax | 6 => some .xchg | 7 => some .cas
  | _ => none

/-- REMOTE_ACCESS_ARRIVAL (R314, R170): an access of another package, applied at its home. A load leaves only the
recency of the handle it touches. -/
def execRemoteAccessArrival (a : RemoteAccess) (s : State) : Outcome :=
  if !s.fabric then .next s
  else match a with
    | .load pa _ => .next (if remoteMay s pa then touchPlace s pa else s)
    | .store pa bs => .next (if remoteMay s pa then touchPlace (store s ((homesFrom s pa bs.length).zip bs)) pa else s)
    | .atomic pa op x cmp => match atomOfRow op with
      | some o => .next (if remoteMay s pa then touchPlace (atomAt (outside s) s o (homesFrom s pa 4) x cmp).1 pa else s)
      | none => .next s

/-! ### The quote and the reset -/

/-- The 32 bytes of a nonce, least significant first. -/
def nonceBytes (nonce : BitVec 256) : List Byte := bytesOfNat 32 nonce.toNat

/-- Bytes 0 to 287 of a quote (R335). The form in which the assignment is digested is free (log 7). -/
def quoteBody (s : State) (nonce : BitVec 256) : List Byte :=
  nonceBytes nonce ++ ((List.range 3).flatMap fun k => Crypto.sha512 (s.images.getD k [])) ++
    Crypto.sha512 (Config.assignmentBytes s.secRegions s.secEngines s.secChannels)

/-- The attestation key pair of the package, its private key first: what it derives from the fused secret at boot is a free
value (R335, log 7). -/
def attestationPair : List Byte × List Byte :=
  let seed := (List.range 32).map Config.attestationSeed
  (seed, Crypto.publicKey seed)

/-- ATTESTATION_QUOTE (R335): the body, and its signature under the attestation key. -/
def execAttestationQuote (nonce : BitVec 256) (s : State) : Outcome :=
  let body := quoteBody s nonce
  .next { s with quote := some (body ++ Crypto.sign attestationPair.1 body) }

/-- The pit log of a die across a reset: a frozen ring survives (R338). -/
def keptPit (s : State) (die : Nat) : PitLog := if (s.dieAt die).pit.frozen then (s.dieAt die).pit else PitLog.reset

/-- The boot ROM accepts an image of a class (R334): its signature verifies under its key, whose digest is the fused root
digest, and its version is no less than the fuses blown. -/
def imageOk (s : State) (cls : Nat) (i : Image) : Bool :=
  Crypto.verifies i.key i.bytes i.signature && Crypto.sha512 i.key == (List.range 64).map Config.rootDigest &&
  decide (get 0 s.fuses cls ≤ i.version)

def bootOk (s : State) (b : BootChoice) : Bool := imageOk s 0 b.processor && imageOk s 1 b.power && imageOk s 2 b.assay

/-- PACKAGE_RESET (R9, R333, R334): every register at its reset value, the secure assignment of the boot, recovery where
an image is refused; fuses stay blown. What is still to happen, and the counter of free values, are the model's own. -/
def execPackageReset (boot : BootChoice) (s : State) : Outcome :=
  let s' := { State.reset with
    secRegions := boot.secRegions.take 16, secEngines := boot.secEngines, secChannels := boot.secChannels,
    fuses := s.fuses, images := [boot.processor.bytes, boot.power.bytes, boot.assay.bytes],
    recovery := !bootOk s boot, agenda := s.agenda, ctr := s.ctr, nextId := s.nextId }
  .next ((List.range Config.numDies).foldl (fun r d => r.setDie d { r.dieAt d with pit := keptPit s d }) s')

end Sys2Proof.Machine
end

