-- ==== Sys2Proof/Machine/Rop.lean ====
section
/-! DEFINITION. The bank ROPs: `vinterp` (R296, R444), the depth test of `zt` (R297, R455), `pxout` (R298, R403),
blending (R299) and the order of fragments (R300). -/

namespace Sys2Proof.Machine

open Assoc Bits Sys2Proof.Machine.Float

/-! ### The primitive of a pixel group -/

/-- A pixel group's primitive, draw and triangle. -/
structure PixelCtx where
  info : PixelInfo
  d : Draw
  t : Tri

def pixelCtx (s : State) (g : Group) : Option PixelCtx :=
  match g.kind with
  | .home | .migrant .. => none
  | .pixel p => match (s.launch? g.launch).bind (·.draw) with
    | none => none
    | some d => (triOf d.cull p.record).map fun t => ⟨p, d, t⟩

def setInfo (g : Group) (p : PixelInfo) : Group := { g with kind := .pixel p }
def scovOf (p : PixelInfo) (j : Nat) : Nat := get 0 p.scov j

/-- A quotient of exact values, the divisor not zero, rounded to f32. -/
def quoRound (a b : Dyad) : Nat :=
  let num := a.num * b.den * (if b.v < 0 then -1 else 1)
  (roundQuo f32 .rne false num (a.den * b.num.natAbs)).w

/-! ### vinterp -/

/-- The attribute a at a pixel centre (R296). -/
def interp (c : PixelCtx) (x y a : Nat) : Word :=
  let es := edges c.t (samplePoint false x y 0)
  let vals := c.t.idx.map fun i => recVal c.info.record (12 + 3 * a + i)
  if vals.any Option.isNone then BitVec.ofNat 32 f32.nanBits
  else
    let ws := (es.zip [c.t.v0.q, c.t.v1.q, c.t.v2.q]).map fun e => e.1.mul e.2
    let den := ws.foldl Dyad.add ⟨0, 0⟩
    let num := (ws.zip (vals.filterMap id)).foldl (fun s e => s.add (e.1.mul e.2)) ⟨0, 0⟩
    if den.v = 0 then Config.interpFree c.info.record x y a else BitVec.ofNat 32 (quoRound num den)

/-- `vinterp` (R296, R444). -/
def execVinterp (d a : Code) (nw : Bool) (s : State) : Outcome :=
  issue (.vinterp d a nw) (fun s gid g => match pixelCtx s g with
    | none => .fault .surfbad 0 0
    | some c =>
      let k := (srcS s g a).toNat
      if k ≥ c.d.nattr then .fault .surfbad 0 0
      else
        let f := fun j => let p := lanePixel c.info.x0 c.info.y0 j; interp c p.1 p.2 k
        .done (s.setGroup gid (writeV g d nw f)) (vecLatch g f) 0 0) s

/-! ### Depth (R297) -/

/-- ZFUNC of a new and a stored depth. -/
def depthPasses (func fmt new old : Nat) : Bool :=
  let a := if fmt = 10 then Val.fin false new 0 else unpack f32 new
  let b := if fmt = 10 then Val.fin false old 0 else unpack f32 old
  if b.isNan then func == 5 || func == 7
  else
    let lt := below false a b
    let gt := below false b a
    match func with
    | 0 => false
    | 1 => lt
    | 2 => !lt && !gt
    | 3 => !gt
    | 4 => gt
    | 5 => lt || gt
    | 6 => !lt
    | _ => true

def sameSample (f e : Frag) : Bool :=
  f.handle == e.handle && f.x == e.x && f.y == e.y && f.sample == e.sample && f.target.isSome == e.target.isSome

/-- An earlier fragment of another group is in the way at the sample (R300): the list is in the order of the keys. -/
def fragWaits (fs : List Frag) (f : Frag) : Bool :=
  (fs.takeWhile fun e => e.gid != f.gid).any (sameSample f)

/-- The depth fragments of a lane. -/
def depthFrags (s : State) (gid j : Nat) : List Frag :=
  s.frags.filter fun f => f.gid == gid && f.lane == j && f.target.isNone

/-- Lanes of a list that `zt` cannot test yet: earlier fragments come first, and what a `pxout` has asked. -/
def depthWaits (s : State) (gid : Nat) (js : List Nat) : Bool :=
  js.any fun j => (depthFrags s gid j).any fun f => fragWaits s.frags f || !f.tests.isEmpty

/-- A sample passes the depth test (R297), the new depth taken as it would be stored (log 28; DESIGN CHOICE: R297 does not
say whether it is rounded before the test). A stored depth that is uncorrectable is taken as it stands (log 29; DESIGN CHOICE: no
rule names the ROP's reads). -/
def passing (s : State) (ctx : Nat) (c : PixelCtx) (h : Sfte) (x y m : Nat) : Bool :=
  depthPasses c.d.zfunc h.fmt (storedDepth h.fmt (sampleDepth c.t h.ms4 x y m)) (pixelValue s ctx c.d.zh h x y m)

/-- The passing depths of a lane written (R297, R298). -/
def writeDepths (s : State) (ctx : Nat) (c : PixelCtx) (j scov : Nat) : State :=
  match s.handle? ctx c.d.zh with
  | none => s
  | some h =>
    let p := lanePixel c.info.x0 c.info.y0 j
    (List.range 4).foldl (fun s m =>
      if scov / 2 ^ m % 2 = 0 then s
      else store s (cellsAt (pixelLoc s ctx c.d.zh h p.1 p.2 m)
        (bytesOfNat (pixelBytes h.fmt) (storedDepth h.fmt (sampleDepth c.t h.ms4 p.1 p.2 m))))) s

/-- SCOV of a lane after its test. -/
def testedCover (s : State) (ctx : Nat) (c : PixelCtx) (j : Nat) : Nat :=
  let old := scovOf c.info j
  if !c.d.zen then old
  else match s.handle? ctx c.d.zh with
    | none => old
    | some h =>
      let p := lanePixel c.info.x0 c.info.y0 j
      ((List.range 4).filter fun m => old / 2 ^ m % 2 == 1 && passing s ctx c h p.1 p.2 m).foldl (fun a m => a + 2 ^ m) 0

/-- Whether depth is written at the test, or at the first `pxout`. -/
def writesAtTest (d : Draw) : Bool := d.zen && d.zwr && !d.zdefer
def writesLater (d : Draw) : Bool := d.zen && d.zwr && d.zdefer

/-- The depth surface used now, if the draw uses one (R159). -/
def touchDepth (s : State) (ctx : Nat) (d : Draw) : State := if d.zen then touchHandle s ctx d.zh else s

/-- One lane tested by `zt`: its coverage, its depths, and the fragments that this settles; what has been sent stays. -/
def testLane (gid ctx : Nat) (r : State × PixelCtx) (j : Nat) : State × PixelCtx :=
  let (s, c) := r
  let cov := testedCover s ctx c j
  let s := touchDepth s ctx c.d
  let s := if writesAtTest c.d then writeDepths s ctx c j cov else s
  let keep := fun (f : Frag) =>
    let pass := cov / 2 ^ f.sample % 2 == 1
    if f.target.isNone then pass && writesLater c.d && !c.info.zwritten.getLsbD j else pass || f.colour.isSome
  let s := { s with frags := s.frags.filter fun f => !(f.gid == gid && f.lane == j) || keep f }
  (s, { c with info := { c.info with scov := put 0 c.info.scov j cov } })

/-- SECV of the lanes that reach a surface in a secure region with a sample they cover (R333). -/
def coverSecv (s : State) (g : Group) (c : PixelCtx) (hn : Nat) (js : List Nat) : List (Nat × Except AccFault Hit) :=
  match s.handle? g.ctx hn with
  | none => []
  | some h => js.flatMap fun j =>
      let p := lanePixel c.info.x0 c.info.y0 j
      ((List.range 4).filter fun m => scovOf c.info j / 2 ^ m % 2 == 1).map fun m => (j, pixelHit s g hn h p.1 p.2 m)

/-- The surfaces that a depth test, and a colour sent to target k, reach. -/
def depthSurface (d : Draw) : List Nat := if d.zen then [d.zh] else []

/-- The group's record of its primitive put back. -/
def putInfo (s : State) (gid : Nat) (p : PixelInfo) : State := s.updGroup gid fun g => setInfo g p

/-- `zt` (R297, R455). -/
def execZt (d : Code) (s : State) : Outcome :=
  issue (.zt d) (fun s gid g => match pixelCtx s g with
    | none => .fault .surfbad 0 0
    | some c =>
      let js := g.activeLanes
      if c.info.ztDone then .fault .surfbad 0 0
      else match joinLanes ((depthSurface c.d).flatMap fun hn => coverSecv s g c hn js) with
      | .error f => laneFault f
      | .ok _ =>
      if depthWaits s gid js then .stall
      else
        let r := js.foldl (testLane gid g.ctx) (s, c)
        let s := putInfo r.1 gid { r.2.info with ztDone := true, tested := g.amask }
        .plain (s.updGroup gid fun g => g.setMaskLanes d.toNat js fun j => scovOf r.2.info j != 0)) s

/-! ### Colour (R298) -/

/-- What a `pxout` of a lane to target k asks at the depth surface: the test, unless `zt` has made it (R298, R455), at every
target (log 17; DEDUCED); the write with the test, or deferred to the lane's first `pxout`. -/
def depthReq (d : Draw) (i : PixelInfo) (j k : Nat) : Option DepthReq :=
  let later := writesLater d && !i.zwritten.getLsbD j
  if !d.zen then none
  else if i.tested.getLsbD j then (if later then some ⟨k, false, true⟩ else none)
  else some ⟨k, true, writesAtTest d || later⟩

/-- A fragment as a `pxout` of its lane to target k leaves it: a colour is sent, and waits for the test asked for; a depth
fragment has it to do at its bank. -/
def sentFrag (gid j k : Nat) (rgba : List Word) (q : Option DepthReq) (f : Frag) : Frag :=
  if f.gid != gid || f.lane != j then f
  else match f.target with
    | none => { f with tests := f.tests ++ q.toList }
    | some t => if t = k then { f with colour := some rgba, waits := q.any (·.test) } else f

/-- One lane sent to target k. -/
def sendColour (gid k : Nat) (rgba : Nat → List Word) (r : State × PixelCtx) (j : Nat) : State × PixelCtx :=
  let (s, c) := r
  ({ s with frags := s.frags.map (sentFrag gid j k (rgba j) (depthReq c.d c.info j k)) },
    { c with info := { c.info with sent := c.info.sent ++ [4 * j + k], zwritten := setBit c.info.zwritten j true } })

/-- SECV of the lanes that a `pxout` sends to target k: at the target, and at the depth surface where it tests a lane or
writes its deferred depths (R333). -/
def pxoutSecv (s : State) (g : Group) (c : PixelCtx) (k : Nat) (js : List Nat) : List (Nat × Except AccFault Hit) :=
  js.flatMap fun j => coverSecv s g c (c.d.rts.getD k 0) [j] ++
    if writesLater c.d || !c.info.tested.getLsbD j then (depthSurface c.d).flatMap fun hn => coverSecv s g c hn [j] else []

/-- `pxout` (R298, R403). It waits for nothing: its tests and writes are made at the banks (R300). -/
def execPxout (a b : Code) (s : State) : Outcome :=
  issue (.pxout a b) (fun s gid g => match pixelCtx s g with
    | none => .fault .surfbad 0 0
    | some c =>
      let k := (srcS s g b).toNat
      let js := g.activeLanes.filter fun j => !c.info.sent.contains (4 * j + k)
      if k ≥ c.d.nrt then .fault .surfbad 0 0
      else match joinLanes (pxoutSecv s g c k js) with
      | .error f => laneFault f
      | .ok _ =>
        let r := js.foldl (sendColour gid k fun j => (List.range 4).map fun i => g.vcode (a.toNat + i) j) (s, c)
        .plain (putInfo r.1 gid r.2.info)) s

/-! ### Blending (R299) -/

def r32 (r : Res) : Nat := r.w
def fone : Nat := 0x3F800000
def mul32 (a b : Nat) : Nat := (fmul env32 a b).w
def add32 (a b : Nat) : Nat := (fp32Add a b).w
def sub32 (a b : Nat) : Nat := (fp32Sub a b).w

/-- A factor (R299). -/
def factor (code sA dA : Nat) : Nat :=
  match code with
  | 0 => 0
  | 1 => fone
  | 2 => sA
  | 3 => sub32 fone sA
  | 4 => dA
  | _ => sub32 fone dA

/-- Component c of the destination as f32; a missing A reads 1. -/
def destComp (fmt pixel c : Nat) : Nat :=
  match (compsOf fmt)[c]? with
  | some cp => compAs f32 cp pixel
  | none => if c = 3 then fone else 0

/-- d_A ≥ OSTOP. -/
def opaqueNow (w dA : Nat) : Bool :=
  let a := unpack f32 dA
  let b := unpack f32 (blStop w * 65536)
  !a.isNan && !b.isNan && !below false a b

/-- n_c of component c. -/
def blendComp (w c : Nat) (src dst : Nat → Nat) : Nat :=
  let s := src c
  let d := dst c
  match blMode w with
  | 0 => s
  | 1 => add32 (mul32 s (factor (blFs w) (src 3) (dst 3))) (mul32 d (factor (blFd w) (src 3) (dst 3)))
  | 2 => minCanon s d
  | 3 => maxCanon s d
  | 4 => add32 d s
  | _ =>
    let t := mul32 (sub32 fone (dst 3)) (src 3)
    if c = 3 then add32 d t else add32 d (mul32 t s)

/-- The pixel after a fragment. -/
def blendPixel (w fmt : Nat) (rgba : List Word) (pixel : Nat) : Nat :=
  let src := fun c => (rgba.getD c 0).toNat
  let dst := destComp fmt pixel
  if blMode w = 5 && opaqueNow w (dst 3) then pixel
  else (compsOf fmt).zipIdx.foldl (fun p e =>
    if blMask w / 2 ^ e.2 % 2 = 0 then p else setComp e.1 p (compFrom e.1 (blendComp w e.2 src dst))) pixel

/-- Where the sample of a fragment has its home. -/
def fragLoc (s : State) (f : Frag) (h : Sfte) : Nat :=
  let a := pixelAt h f.x f.y f.sample
  homeIn s f.handle h a.1 a.2

/-- The fragment's colour applied at its bank, blended with the bytes that are there, uncorrectable ones as they stand (log 29;
DESIGN CHOICE: no rule names the ROP's reads). -/
def applyFrag (s : State) (f : Frag) (rgba : List Word) : State :=
  match (s.launch? f.lid).bind (·.draw), find s.handles f.handle with
  | some d, some h =>
    let loc := fragLoc s f h
    let p := blendPixel (d.blends.getD (f.target.getD 0) 0) h.fmt rgba (readNat s loc (pixelBytes h.fmt))
    touchKey (store s (cellsAt loc (bytesOfNat (pixelBytes h.fmt) p))) f.handle
  | _, _ => s

/-- Two fragments of one lane's sample, of the same primitive. -/
def sameLane (f e : Frag) : Bool := f.gid == e.gid && f.lane == e.lane && f.sample == e.sample

/-- The fragments of a sample whose test for target t has passed: its colour waits no more. The depth fragment goes once nothing
more can be asked of it: `zt` has tested the lane, or every target has been sent to. -/
def afterPass (f : Frag) (q : DepthReq) (rest : List DepthReq) (fs : List Frag) : List Frag :=
  let fs := fs.map fun e => if sameLane f e && e.target == some q.target then { e with waits := false } else e
  let done := rest.isEmpty && (!q.test || fs.all fun e => !(sameLane f e && e.target.isSome && e.colour.isNone))
  if done then fs.filter fun e => !(sameLane f e && e.target.isNone)
  else fs.map fun e => if sameLane f e && e.target.isNone then { e with tests := rest } else e

/-- The fragments once a sample has failed: what its lane has not sent, or sent to wait for a test, is abandoned. -/
def afterFail (f : Frag) (fs : List Frag) : List Frag :=
  fs.filter fun e => !(sameLane f e && (e.target.isNone || e.colour.isNone || e.waits))

/-- SCOV loses a sample that has failed (R297). -/
def dropSample (f : Frag) (g : Group) : Group :=
  match g.kind with
  | .home | .migrant .. => g
  | .pixel p => setInfo g { p with scov := put 0 p.scov f.lane (scovOf p f.lane - scovOf p f.lane / 2 ^ f.sample % 2 * 2 ^ f.sample) }

/-- What has been asked of a depth fragment is done at its bank (R297, R298). -/
def applyDepth (s : State) (f : Frag) (q : DepthReq) (rest : List DepthReq) : State :=
  match (s.launch? f.lid).bind (·.draw), find s.handles f.handle with
  | some d, some h =>
    let loc := fragLoc s f h
    let s := touchKey s f.handle
    if q.test && !depthPasses d.zfunc h.fmt f.depth (readNat s loc (pixelBytes h.fmt)) then
      { s with frags := afterFail f s.frags }.updGroup f.gid (dropSample f)
    else
      let s := { s with frags := afterPass f q rest s.frags }
      if q.write then store s (cellsAt loc (bytesOfNat (pixelBytes h.fmt) f.depth)) else s
  | _, _ => { s with frags := afterPass f q rest s.frags }

/-- FRAGMENT_APPLY (R300): fragment k acts at its bank, every earlier one at its sample having been applied or abandoned: a
colour that has been sent and waits for no test, or what has been asked of a depth fragment. -/
def execFragmentApply (k : Nat) (s : State) : Outcome :=
  match s.frags[k]? with
  | none => .next s
  | some f =>
    if (s.frags.take k).any (sameSample f) then .next s
    else match f.colour, f.tests with
      | some rgba, _ => .next (if f.waits then s else applyFrag { s with frags := s.frags.eraseIdx k } f rgba)
      | none, q :: rest => .next (applyDepth s f q rest)
      | none, [] => .next s

end Sys2Proof.Machine
end

