-- ==== Sys2Proof/Machine/ScalarMem.lean ====
section
/-! DEFINITION. Scalar loads and stores: majors 28 to 2B (R164, R415 to R417). -/

namespace Sys2Proof.Machine

open Assoc Bits

/-- spA + size * sext(B) (R416). -/
def scalarAddr (s : State) (g : Group) (a b : Code) (size : Nat) : DWord :=
  srcSP s g a + BitVec.ofNat 64 size * sext64 b

/-- `sld`: sD or spD. -/
def scalarLoad (d a b : Code) (st : BitVec 4) (x : Bool) (size : Nat) (s : State) (gid : Nat) (g : Group) : Effect :=
  match checkedHit s (agentOf s g none) .load (scalarAddr s g a b size) size with
  | .error f => .fault f.cause 0 f.addr
  | .ok h =>
    let l := loadOf s g st.toNat x (size == 8) [loadPart s g st.toNat none d.toNat size false h] (if h.nonres then 1 else 0)
    if loadWaits s g st.toNat x (loadPlaces l) then .stall else .plain (issueLoad s gid l [h])

/-- `sst`. -/
def scalarStore (d a b : Code) (st : BitVec 4) (x : Bool) (size : Nat) (s : State) (gid : Nat) (g : Group) : Effect :=
  let v := if size = 8 then srcSP s g d else (srcS s g d).setWidth 64
  match checkedHit s (agentOf s g none) .store (scalarAddr s g a b size) size with
  | .error f => .fault f.cause 0 f.addr
  | .ok h => match h.cb with
    | some c => match cbStore s (clusterOfCore g.core) g.block c.1 c.2 size v.toNat with
      | some s' => if storeWaits s g st.toNat [] then .stall else .plain (cbNoted gid g st.toNat x size s' [h])
      | none => .fault .cbbad 0 (scalarAddr s g a b size)
    | none =>
      let w := storeOf s gid g st.toNat x size none h v
      if storeWaits s g st.toNat (storePlaces w) then .stall else .plain (issueStores s gid [w] [h])

/-- `sld.w`. -/
def execSldW (d a b : Code) (st : BitVec 4) (x : Bool) (s : State) : Outcome :=
  issue (.sld_w d a b st x) (scalarLoad d a b st x 4) s
/-- `sld.d`. -/
def execSldD (d a b : Code) (st : BitVec 4) (x : Bool) (s : State) : Outcome :=
  issue (.sld_d d a b st x) (scalarLoad d a b st x 8) s
/-- `sst.w`. -/
def execSstW (d a b : Code) (st : BitVec 4) (x : Bool) (s : State) : Outcome :=
  issue (.sst_w d a b st x) (scalarStore d a b st x 4) s
/-- `sst.d`. -/
def execSstD (d a b : Code) (st : BitVec 4) (x : Bool) (s : State) : Outcome :=
  issue (.sst_d d a b st x) (scalarStore d a b st x 8) s

end Sys2Proof.Machine
end

