-- ==== Sys2Proof/Machine/TrapSteps.lean ====
section
/-! DEFINITION. What stands between two instructions of a group: words that are none (R56), fetch faults (R224), the
trap timer (R246), breakpoints and the debugger (R244). -/

namespace Sys2Proof.Machine

open Assoc Bits

/-- An FP trap is due at the end of the chain that is over (R50): it comes before anything else. -/
def fpDue (s : State) (g : Group) : Bool := !g.chain.kept && g.chain.fpFlags != 0 && chainOver s g g.pc

/-- UNDEFINED_WORD (R56): a word that is no instruction, at the PC of the group that executes. It reads no latch, so it
restarts no chain. -/
def execUndefinedWord (w : Word) (s : State) : Outcome :=
  match s.group? s.cur with
  | none => .next s
  | some g =>
    if g.status != .ready || (s.coreAt g.core).scanning || fpDue s g then .next s
    else match decode w with
      | .ok _ => .next s
      | .error .undef => .next (raise (ranHere s g) s.cur g false .undef 0 0 w)
      | .error .rsvbit => .next (raise (ranHere s g) s.cur g false (if undefWord g.fmt w then .undef else .rsvbit) 0 0 w)

/-- FETCH_FAULT (R224): the word at the PC cannot be fetched. After a chain that has not ended, or at an instruction of one
that executes again, the chain restarts (R49). An uncorrectable word kills the group (R231). -/
def execFetchFault (s : State) : Outcome :=
  match s.group? s.cur with
  | none => .next s
  | some g =>
    if g.status != .ready || (s.coreAt g.core).scanning then .next s
    else match fetchAt s g g.pc with
      | .error c => .next (raise s s.cur g (!g.chain.ended || standsIn g) c 0 g.pc 0)
      | .ok (_, h) => .next (if hitBad s h 4 then uceKill s s.cur g.pc else s)

/-- Whether the trap timer is due (R246); on a core that is being scanned nothing is (R322). -/
def timerDue (s : State) (g : Group) : Bool :=
  !fpDue s g && !(s.coreAt g.core).scanning &&
  !haltOwed g && g.dbg.tten && !isMigrant g && !g.trap.intrap && g.status == .ready &&
  decide ((g.gtim - g.dbg.ttcmp).toNat < 2 ^ 31) && atBoundary s g

/-- TRAP_TIMER (R246). -/
def execTrapTimer (gid : Nat) (s : State) : Outcome :=
  match s.group? gid with
  | none => .next s
  | some g =>
    if timerDue s g then
      .next (trapBoundary (s.setGroup gid { g with dbg := { g.dbg with tten := false } }) gid
        ⟨.timer, false, g.pc, g.pc, 0, 0, 0⟩)
    else .next s

/-- The breakpoints of a core that match an address, as the bits of HIT. -/
def bpMatches (k : Core) (pc : DWord) : BitVec 4 :=
  let hit := fun (i : Nat) (a : DWord) => if k.bpEn.getLsbD i && a == pc then BitVec.ofNat 4 (2 ^ i) else 0
  hit 0 k.bpa0 ||| hit 1 k.bpa1 ||| hit 2 k.bpa2 ||| hit 3 k.bpa3

/-- Whether a group is about to execute an instruction at a breakpoint it has not passed over (R244). -/
def breakpointDue (s : State) (g : Group) : Bool :=
  !fpDue s g && !(haltOwed g && atBoundary s g) && !(s.coreAt g.core).scanning && g.status == .ready && bpMatches (s.coreAt g.core) g.pc != 0 && g.dbg.passed != some g.pc

/-- BREAKPOINT_HALT (R244): HIT is set; outside a chain the group halts, inside one it halts at the end (R48). -/
def execBreakpointHalt (gid : Nat) (s : State) : Outcome :=
  match s.group? gid with
  | none => .next s
  | some g =>
    if breakpointDue s g then
      let k := s.coreAt g.core
      let s := s.setCore g.core { k with bpHit := k.bpHit ||| bpMatches k g.pc }
      if atBoundary s g then
        .next (report (s.setGroup gid { g with
          status := .halted none, chain := g.chain.stop, trap := { g.trap with tpc := g.pc, tnext := g.pc } })
          (.halt gid))
      else .next (s.setGroup gid { g with dbg := { g.dbg with haltDue := true, passed := some g.pc } })
    else .next s

/-- DEBUG_RELEASE (R244): a Halted group that was parked is parked again; any other resumes at TNEXT as `rett` would
(R78), and a breakpoint at TNEXT does not match on the first fetch. A misaligned TNEXT raises ALIGN at the PC, as `rett`
would (R30, R229; log 26). -/
def execDebugRelease (gid : Nat) (s : State) : Outcome :=
  match s.group? gid with
  | none => .next s
  | some g =>
    match g.status with
    | .halted (some p) => .next ((barRecount s gid g).setGroup gid { g with status := .parked p })
    | .halted none =>
      let s := goToNext (barRecount s gid g) gid g
      .next (if g.trap.tnext &&& 3 ≠ 0 then s else s.updGroup gid fun g => { g with dbg := { g.dbg with passed := some g.trap.tnext } })
    | .ready | .parked _ | .saved .. => .next s

/-- DEBUGGER_ATTACH (R225): a debugger attached to a launch, or detached. -/
def execDebuggerAttach (lid : Nat) (on : Bool) (s : State) : Outcome :=
  .next (s.updLaunch lid fun l => { l with debugger := on })

end Sys2Proof.Machine
end

