-- ==== Sys2Proof/Machine/VectorFloat.lean ====
section
/-! DEFINITION. Vector float: major 03 and majors 38 to 3F (R132, R441 to R443). -/

namespace Sys2Proof.Machine

open Bits Sys2Proof.Machine.Float

/-- `vD[j] := op` of the elements of the operands, each half alone under f16×2 and bf16×2. -/
def floatLanes (d : Code) (nw : Bool) (cs : List Code) (op : Env → List Nat → Res) (s : State) (gid : Nat)
    (g : Group) : Effect :=
  floatResult s gid g d nw (vfOf g.fmt == 3) fun j => packed g.fmt op (envOf g.fmt) (cs.map (fpSrc g · j))

/-- `vfadd` (R442): a + b. -/
def execVfadd (d a b : Code) (nw : Bool) (s : State) : Outcome :=
  issue (.vfadd d a b nw) (floatLanes d nw [a, b] (op2 fadd)) s

/-- `vfsub` (R442): a - b. -/
def execVfsub (d a b : Code) (nw : Bool) (s : State) : Outcome :=
  issue (.vfsub d a b nw) (floatLanes d nw [a, b] (op2 fsub)) s

/-- `vfmul` (R442): a × b. -/
def execVfmul (d a b : Code) (nw : Bool) (s : State) : Outcome :=
  issue (.vfmul d a b nw) (floatLanes d nw [a, b] (op2 fmul)) s

/-- `vfmin` (R442): the smaller. -/
def execVfmin (d a b : Code) (nw : Bool) (s : State) : Outcome :=
  issue (.vfmin d a b nw) (floatLanes d nw [a, b] (op2 (fun v => fminmax v false))) s

/-- `vfmax` (R442): the larger. -/
def execVfmax (d a b : Code) (nw : Bool) (s : State) : Outcome :=
  issue (.vfmax d a b nw) (floatLanes d nw [a, b] (op2 (fun v => fminmax v true))) s

/-- `vfdiv` (R442): a ÷ b. -/
def execVfdiv (d a b : Code) (nw : Bool) (s : State) : Outcome :=
  issue (.vfdiv d a b nw) (floatLanes d nw [a, b] (op2 fdiv)) s

/-- `vfabs` (R442): the sign cleared. -/
def execVfabs (d a : Code) (nw : Bool) (s : State) : Outcome :=
  issue (.vfabs d a nw) (floatLanes d nw [a] (op1 fabs)) s

/-- `vfneg` (R442): the sign flipped. -/
def execVfneg (d a : Code) (nw : Bool) (s : State) : Outcome :=
  issue (.vfneg d a nw) (floatLanes d nw [a] (op1 fneg)) s

/-- `vfsqrt` (R442): √a. -/
def execVfsqrt (d a : Code) (nw : Bool) (s : State) : Outcome :=
  issue (.vfsqrt d a nw) (floatLanes d nw [a] (op1 fsqrt)) s

/-- `vfrcp` (R442): 1 ÷ a. -/
def execVfrcp (d a : Code) (nw : Bool) (s : State) : Outcome :=
  issue (.vfrcp d a nw) (floatLanes d nw [a] (op1 frcp)) s

/-- `vfrsq` (R442): 1 ÷ √a. -/
def execVfrsq (d a : Code) (nw : Bool) (s : State) : Outcome :=
  issue (.vfrsq d a nw) (floatLanes d nw [a] (op1 frsq)) s

/-- `vfex2` (R442): 2^a. -/
def execVfex2 (d a : Code) (nw : Bool) (s : State) : Outcome :=
  issue (.vfex2 d a nw) (floatLanes d nw [a] (op1 fex2)) s

/-- `vflg2` (R442): log2 a. -/
def execVflg2 (d a : Code) (nw : Bool) (s : State) : Outcome :=
  issue (.vflg2 d a nw) (floatLanes d nw [a] (op1 flg2)) s

/-- `vfsin` (R442): sin(πa). -/
def execVfsin (d a : Code) (nw : Bool) (s : State) : Outcome :=
  issue (.vfsin d a nw) (floatLanes d nw [a] (op1 fsin)) s

/-- `vfcos` (R442): cos(πa). -/
def execVfcos (d a : Code) (nw : Bool) (s : State) : Outcome :=
  issue (.vfcos d a nw) (floatLanes d nw [a] (op1 fcos)) s

/-- `vfdot2` (R132): the f32 sum of the products of the halves. -/
def execVfdot2 (d a b : Code) (nw : Bool) (s : State) : Outcome :=
  issue (.vfdot2 d a b nw) (fun s gid g =>
    floatResult s gid g d nw false fun j =>
      let x := (srcV g a j).toNat
      let y := (srcV g b j).toNat
      dot2 (vfFmt g.fmt) (fmtRm g.fmt) (x % 65536) (x / 65536) (y % 65536) (y / 65536)) s

/-- `vfma` (R443): a × b + c, one rounding. -/
def execVfma (d a b c : Code) (s : State) : Outcome :=
  issue (.vfma d a b c) (floatLanes d false [a, b, c] (op3 fun v => ffma v false)) s

/-- `vfnma` (R443): c - a × b, one rounding. -/
def execVfnma (d a b c : Code) (s : State) : Outcome :=
  issue (.vfnma d a b c) (floatLanes d false [a, b, c] (op3 fun v => ffma v true)) s

end Sys2Proof.Machine
end

