-- ==== Sys2Proof/Machine/Dispatch.lean ====
section
/-! DEFINITION. The meaning of each instruction and step: one arm per constructor. -/

namespace Sys2Proof.Machine

/-- The one dispatcher. -/
def exec (i : Instr) (s : State) : Host.Outcome State Fault Refusal :=
  match i with
  | .vadd d a b nw => Sys2Proof.Machine.execVadd d a b nw s
  | .vsub d a b nw => Sys2Proof.Machine.execVsub d a b nw s
  | .vmul d a b nw => Sys2Proof.Machine.execVmul d a b nw s
  | .vmulh d a b nw => Sys2Proof.Machine.execVmulh d a b nw s
  | .vmulhu d a b nw => Sys2Proof.Machine.execVmulhu d a b nw s
  | .vand d a b nw => Sys2Proof.Machine.execVand d a b nw s
  | .vor d a b nw => Sys2Proof.Machine.execVor d a b nw s
  | .vxor d a b nw => Sys2Proof.Machine.execVxor d a b nw s
  | .vandn d a b nw => Sys2Proof.Machine.execVandn d a b nw s
  | .vshl d a b nw => Sys2Proof.Machine.execVshl d a b nw s
  | .vshr d a b nw => Sys2Proof.Machine.execVshr d a b nw s
  | .vsra d a b nw => Sys2Proof.Machine.execVsra d a b nw s
  | .vmin d a b nw => Sys2Proof.Machine.execVmin d a b nw s
  | .vmax d a b nw => Sys2Proof.Machine.execVmax d a b nw s
  | .vminu d a b nw => Sys2Proof.Machine.execVminu d a b nw s
  | .vmaxu d a b nw => Sys2Proof.Machine.execVmaxu d a b nw s
  | .vadds d a b nw => Sys2Proof.Machine.execVadds d a b nw s
  | .vaddus d a b nw => Sys2Proof.Machine.execVaddus d a b nw s
  | .vsubs d a b nw => Sys2Proof.Machine.execVsubs d a b nw s
  | .vsubus d a b nw => Sys2Proof.Machine.execVsubus d a b nw s
  | .vabsd d a b nw => Sys2Proof.Machine.execVabsd d a b nw s
  | .vpopc d a nw => Sys2Proof.Machine.execVpopc d a nw s
  | .vclz d a nw => Sys2Proof.Machine.execVclz d a nw s
  | .vbrev d a nw => Sys2Proof.Machine.execVbrev d a nw s
  | .vbfx d a b nw => Sys2Proof.Machine.execVbfx d a b nw s
  | .vbfi d a b => Sys2Proof.Machine.execVbfi d a b s
  | .vmulw d a b nw => Sys2Proof.Machine.execVmulw d a b nw s
  | .vadd64 d a b nw => Sys2Proof.Machine.execVadd64 d a b nw s
  | .vsub64 d a b nw => Sys2Proof.Machine.execVsub64 d a b nw s
  | .vshl64 d a b nw => Sys2Proof.Machine.execVshl64 d a b nw s
  | .vfadd d a b nw => Sys2Proof.Machine.execVfadd d a b nw s
  | .vfsub d a b nw => Sys2Proof.Machine.execVfsub d a b nw s
  | .vfmul d a b nw => Sys2Proof.Machine.execVfmul d a b nw s
  | .vfmin d a b nw => Sys2Proof.Machine.execVfmin d a b nw s
  | .vfmax d a b nw => Sys2Proof.Machine.execVfmax d a b nw s
  | .vfabs d a nw => Sys2Proof.Machine.execVfabs d a nw s
  | .vfneg d a nw => Sys2Proof.Machine.execVfneg d a nw s
  | .vfdiv d a b nw => Sys2Proof.Machine.execVfdiv d a b nw s
  | .vfsqrt d a nw => Sys2Proof.Machine.execVfsqrt d a nw s
  | .vfrcp d a nw => Sys2Proof.Machine.execVfrcp d a nw s
  | .vfrsq d a nw => Sys2Proof.Machine.execVfrsq d a nw s
  | .vfex2 d a nw => Sys2Proof.Machine.execVfex2 d a nw s
  | .vflg2 d a nw => Sys2Proof.Machine.execVflg2 d a nw s
  | .vfsin d a nw => Sys2Proof.Machine.execVfsin d a nw s
  | .vfcos d a nw => Sys2Proof.Machine.execVfcos d a nw s
  | .vfdot2 d a b nw => Sys2Proof.Machine.execVfdot2 d a b nw s
  | .vcmp_eq d a b => Sys2Proof.Machine.execVcmpEq d a b s
  | .vcmp_ne d a b => Sys2Proof.Machine.execVcmpNe d a b s
  | .vcmp_lt d a b => Sys2Proof.Machine.execVcmpLt d a b s
  | .vcmp_le d a b => Sys2Proof.Machine.execVcmpLe d a b s
  | .vcmp_ltu d a b => Sys2Proof.Machine.execVcmpLtu d a b s
  | .vcmp_leu d a b => Sys2Proof.Machine.execVcmpLeu d a b s
  | .vfcmp_eq d a b => Sys2Proof.Machine.execVfcmpEq d a b s
  | .vfcmp_ne d a b => Sys2Proof.Machine.execVfcmpNe d a b s
  | .vfcmp_lt d a b => Sys2Proof.Machine.execVfcmpLt d a b s
  | .vfcmp_le d a b => Sys2Proof.Machine.execVfcmpLe d a b s
  | .vfcmp_un d a b => Sys2Proof.Machine.execVfcmpUn d a b s
  | .vfclass d a imm => Sys2Proof.Machine.execVfclass d a imm s
  | .vcvt d a rnd src nw dst => Sys2Proof.Machine.execVcvt d a rnd src nw dst s
  | .vcvtef d a b => Sys2Proof.Machine.execVcvtef d a b s
  | .vplane d a nw => Sys2Proof.Machine.execVplane d a nw s
  | .vunpl d a nw => Sys2Proof.Machine.execVunpl d a nw s
  | .vshfl d a b nw => Sys2Proof.Machine.execVshfl d a b nw s
  | .vshfx d a b nw => Sys2Proof.Machine.execVshfx d a b nw s
  | .vbcl d a b nw => Sys2Proof.Machine.execVbcl d a b nw s
  | .vfirst d a nw => Sys2Proof.Machine.execVfirst d a nw s
  | .vredadd_i d a nw => Sys2Proof.Machine.execVredaddI d a nw s
  | .vredadd_f d a nw => Sys2Proof.Machine.execVredaddF d a nw s
  | .vredmin_s d a nw => Sys2Proof.Machine.execVredminS d a nw s
  | .vredmin_u d a nw => Sys2Proof.Machine.execVredminU d a nw s
  | .vredmin_f d a nw => Sys2Proof.Machine.execVredminF d a nw s
  | .vredmax_s d a nw => Sys2Proof.Machine.execVredmaxS d a nw s
  | .vredmax_u d a nw => Sys2Proof.Machine.execVredmaxU d a nw s
  | .vredmax_f d a nw => Sys2Proof.Machine.execVredmaxF d a nw s
  | .vscan_i d a nw => Sys2Proof.Machine.execVscanI d a nw s
  | .vscan_f d a nw => Sys2Proof.Machine.execVscanF d a nw s
  | .vballot d a nw => Sys2Proof.Machine.execVballot d a nw s
  | .vmov d a nw => Sys2Proof.Machine.execVmov d a nw s
  | .vsel d a b nw m => Sys2Proof.Machine.execVsel d a b nw m s
  | .mand d a b => Sys2Proof.Machine.execMand d a b s
  | .mor d a b => Sys2Proof.Machine.execMor d a b s
  | .mxor d a b => Sys2Proof.Machine.execMxor d a b s
  | .mandn d a b => Sys2Proof.Machine.execMandn d a b s
  | .mnot d a => Sys2Proof.Machine.execMnot d a s
  | .mset d a => Sys2Proof.Machine.execMset d a s
  | .mget d a nw => Sys2Proof.Machine.execMget d a nw s
  | .mclr d => Sys2Proof.Machine.execMclr d s
  | .mcnt d a nw => Sys2Proof.Machine.execMcnt d a nw s
  | .sadd d a b nw => Sys2Proof.Machine.execSadd d a b nw s
  | .ssub d a b nw => Sys2Proof.Machine.execSsub d a b nw s
  | .smul d a b nw => Sys2Proof.Machine.execSmul d a b nw s
  | .smulh d a b nw => Sys2Proof.Machine.execSmulh d a b nw s
  | .sand d a b nw => Sys2Proof.Machine.execSand d a b nw s
  | .sor d a b nw => Sys2Proof.Machine.execSor d a b nw s
  | .sxor d a b nw => Sys2Proof.Machine.execSxor d a b nw s
  | .sshl d a b nw => Sys2Proof.Machine.execSshl d a b nw s
  | .sshr d a b nw => Sys2Proof.Machine.execSshr d a b nw s
  | .ssra d a b nw => Sys2Proof.Machine.execSsra d a b nw s
  | .smin d a b nw => Sys2Proof.Machine.execSmin d a b nw s
  | .smax d a b nw => Sys2Proof.Machine.execSmax d a b nw s
  | .sslt d a b nw => Sys2Proof.Machine.execSslt d a b nw s
  | .ssltu d a b nw => Sys2Proof.Machine.execSsltu d a b nw s
  | .saddx d a b nw => Sys2Proof.Machine.execSaddx d a b nw s
  | .saddi d a imm => Sys2Proof.Machine.execSaddi d a imm s
  | .sandi d a imm => Sys2Proof.Machine.execSandi d a imm s
  | .sori d a imm => Sys2Proof.Machine.execSori d a imm s
  | .sxori d a imm => Sys2Proof.Machine.execSxori d a imm s
  | .sshli d a imm => Sys2Proof.Machine.execSshli d a imm s
  | .sshri d a imm => Sys2Proof.Machine.execSshri d a imm s
  | .ssrai d a imm => Sys2Proof.Machine.execSsrai d a imm s
  | .sslti d a imm => Sys2Proof.Machine.execSslti d a imm s
  | .sli d imm => Sys2Proof.Machine.execSli d imm s
  | .slui d imm => Sys2Proof.Machine.execSlui d imm s
  | .vaddi d a imm => Sys2Proof.Machine.execVaddi d a imm s
  | .b_eq a off => Sys2Proof.Machine.execBEq a off s
  | .b_ne a off => Sys2Proof.Machine.execBNe a off s
  | .b_lt a off => Sys2Proof.Machine.execBLt a off s
  | .b_ge a off => Sys2Proof.Machine.execBGe a off s
  | .b_gt a off => Sys2Proof.Machine.execBGt a off s
  | .b_le a off => Sys2Proof.Machine.execBLe a off s
  | .bm_any a off => Sys2Proof.Machine.execBmAny a off s
  | .bm_none a off => Sys2Proof.Machine.execBmNone a off s
  | .bm_all a off => Sys2Proof.Machine.execBmAll a off s
  | .j off => Sys2Proof.Machine.execJ off s
  | .call off => Sys2Proof.Machine.execCall off s
  | .jr a => Sys2Proof.Machine.execJr a s
  | .ret => Sys2Proof.Machine.execRet s
  | .exit => Sys2Proof.Machine.execExit s
  | .vif a => Sys2Proof.Machine.execVif a s
  | .velse => Sys2Proof.Machine.execVelse s
  | .vendif => Sys2Proof.Machine.execVendif s
  | .vkill a => Sys2Proof.Machine.execVkill a s
  | .fmt a => Sys2Proof.Machine.execFmt a s
  | .winb a => Sys2Proof.Machine.execWinb a s
  | .trap imm => Sys2Proof.Machine.execTrap imm s
  | .rett => Sys2Proof.Machine.execRett s
  | .brk imm => Sys2Proof.Machine.execBrk imm s
  | .nop => Sys2Proof.Machine.execNop s
  | .loop a end12 => Sys2Proof.Machine.execLoop a end12 s
  | .ppt imm => Sys2Proof.Machine.execPpt imm s
  | .vld_s8 d a b st x => Sys2Proof.Machine.execVldS8 d a b st x s
  | .vld_z8 d a b st x => Sys2Proof.Machine.execVldZ8 d a b st x s
  | .vld_s16 d a b st x => Sys2Proof.Machine.execVldS16 d a b st x s
  | .vld_z16 d a b st x => Sys2Proof.Machine.execVldZ16 d a b st x s
  | .vld_w d a b st x => Sys2Proof.Machine.execVldW d a b st x s
  | .vld_d d a b st x => Sys2Proof.Machine.execVldD d a b st x s
  | .vst_b d a b st x => Sys2Proof.Machine.execVstB d a b st x s
  | .vst_h d a b st x => Sys2Proof.Machine.execVstH d a b st x s
  | .vst_w d a b st x => Sys2Proof.Machine.execVstW d a b st x s
  | .vst_d d a b st x => Sys2Proof.Machine.execVstD d a b st x s
  | .vldc d a b st x => Sys2Proof.Machine.execVldc d a b st x s
  | .vstc d a b st x => Sys2Proof.Machine.execVstc d a b st x s
  | .sld_w d a b st x => Sys2Proof.Machine.execSldW d a b st x s
  | .sld_d d a b st x => Sys2Proof.Machine.execSldD d a b st x s
  | .sst_w d a b st x => Sys2Proof.Machine.execSstW d a b st x s
  | .sst_d d a b st x => Sys2Proof.Machine.execSstD d a b st x s
  | .vatom_iadd d a b st => Sys2Proof.Machine.execVatomIadd d a b st s
  | .vatom_fadd d a b st => Sys2Proof.Machine.execVatomFadd d a b st s
  | .vatom_and d a b st => Sys2Proof.Machine.execVatomAnd d a b st s
  | .vatom_or d a b st => Sys2Proof.Machine.execVatomOr d a b st s
  | .vatom_smin d a b st => Sys2Proof.Machine.execVatomSmin d a b st s
  | .vatom_smax d a b st => Sys2Proof.Machine.execVatomSmax d a b st s
  | .vatom_xchg d a b st => Sys2Proof.Machine.execVatomXchg d a b st s
  | .vatom_cas d a b st => Sys2Proof.Machine.execVatomCas d a b st s
  | .fence st scope => Sys2Proof.Machine.execFence st scope s
  | .xfence scope a => Sys2Proof.Machine.execXfence scope a s
  | .sattr st a => Sys2Proof.Machine.execSattr st a s
  | .bar a => Sys2Proof.Machine.execBar a s
  | .cflush st a b => Sys2Proof.Machine.execCflush st a b s
  | .cinv st a b => Sys2Proof.Machine.execCinv st a b s
  | .czero st a b => Sys2Proof.Machine.execCzero st a b s
  | .vpreq d a b => Sys2Proof.Machine.execVpreq d a b s
  | .cbget d a => Sys2Proof.Machine.execCbget d a s
  | .cbput a => Sys2Proof.Machine.execCbput a s
  | .evbind d a b => Sys2Proof.Machine.execEvbind d a b s
  | .evmask a => Sys2Proof.Machine.execEvmask a s
  | .evclr a => Sys2Proof.Machine.execEvclr a s
  | .evpend d => Sys2Proof.Machine.execEvpend d s
  | .waitany a => Sys2Proof.Machine.execWaitany a s
  | .fetchw a => Sys2Proof.Machine.execFetchw a s
  | .spawn d a b => Sys2Proof.Machine.execSpawn d a b s
  | .hop a => Sys2Proof.Machine.execHop a s
  | .hopback => Sys2Proof.Machine.execHopback s
  | .rejoin => Sys2Proof.Machine.execRejoin s
  | .owner d a nw => Sys2Proof.Machine.execOwner d a nw s
  | .hopcfg a => Sys2Proof.Machine.execHopcfg a s
  | .hopx a => Sys2Proof.Machine.execHopx a s
  | .tshape d a => Sys2Proof.Machine.execTshape d a s
  | .mma d a b => Sys2Proof.Machine.execMma d a b s
  | .mmab d a b => Sys2Proof.Machine.execMmab d a b s
  | .mzero d => Sys2Proof.Machine.execMzero d s
  | .mrd d a b => Sys2Proof.Machine.execMrd d a b s
  | .mwr d a b => Sys2Proof.Machine.execMwr d a b s
  | .mfence d => Sys2Proof.Machine.execMfence d s
  | .mwait a => Sys2Proof.Machine.execMwait a s
  | .msurf d a b => Sys2Proof.Machine.execMsurf d a b s
  | .ivsld d a st => Sys2Proof.Machine.execIvsld d a st s
  | .bmac d a st => Sys2Proof.Machine.execBmac d a st s
  | .embw d a st => Sys2Proof.Machine.execEmbw d a st s
  | .cpa d a st => Sys2Proof.Machine.execCpa d a st s
  | .cpa_ring d a st => Sys2Proof.Machine.execCpaRing d a st s
  | .cpred d a st => Sys2Proof.Machine.execCpred d a st s
  | .sfld d a b => Sys2Proof.Machine.execSfld d a b s
  | .sfst d a b => Sys2Proof.Machine.execSfst d a b s
  | .zt d => Sys2Proof.Machine.execZt d s
  | .pxout a b => Sys2Proof.Machine.execPxout a b s
  | .vtxout d a b => Sys2Proof.Machine.execVtxout d a b s
  | .vinterp d a nw => Sys2Proof.Machine.execVinterp d a nw s
  | .tsmp d a b => Sys2Proof.Machine.execTsmp d a b s
  | .csrr d b nw => Sys2Proof.Machine.execCsrr d b nw s
  | .csrw a b => Sys2Proof.Machine.execCsrw a b s
  | .vfma d a b c => Sys2Proof.Machine.execVfma d a b c s
  | .vfnma d a b c => Sys2Proof.Machine.execVfnma d a b c s
  | .launch q => Sys2Proof.Machine.execLaunch q s
  | .launchi q => Sys2Proof.Machine.execLaunchi q s
  | .loop_counted q => Sys2Proof.Machine.execLoopCounted q s
  | .loop_conditional q => Sys2Proof.Machine.execLoopConditional q s
  | .endloop q => Sys2Proof.Machine.execEndloop q s
  | .cmd_if q => Sys2Proof.Machine.execCmdIf q s
  | .cmd_else q => Sys2Proof.Machine.execCmdElse q s
  | .cmd_endif q => Sys2Proof.Machine.execCmdEndif q s
  | .waitmem q => Sys2Proof.Machine.execWaitmem q s
  | .signal q => Sys2Proof.Machine.execSignal q s
  | .signal_confirmed q => Sys2Proof.Machine.execSignalConfirmed q s
  | .sfalloc q base => Sys2Proof.Machine.execSfalloc q base s
  | .sffree q => Sys2Proof.Machine.execSffree q s
  | .copy q => Sys2Proof.Machine.execCopy q s
  | .preempt q => Sys2Proof.Machine.execPreempt q s
  | .vfset q => Sys2Proof.Machine.execVfset q s
  | .cpgate_gate q => Sys2Proof.Machine.execCpgateGate q s
  | .cpgate_ungate q => Sys2Proof.Machine.execCpgateUngate q s
  | .fence_cmd q => Sys2Proof.Machine.execFenceCmd q s
  | .llcsz_write stack v => Sys2Proof.Machine.execLlcszWrite stack v s
  | .tlbinv_write v => Sys2Proof.Machine.execTlbinvWrite v s
  | .frozen_clear die v => Sys2Proof.Machine.execFrozenClear die v s
  | .queue_tail_write q tail => Sys2Proof.Machine.execQueueTailWrite q tail s
  | .cb_descriptor_write n off size v => Sys2Proof.Machine.execCbDescriptorWrite n off size v s
  | .mtcap_write v => Sys2Proof.Machine.execMtcapWrite v s
  | .evpend_write v => Sys2Proof.Machine.execEvpendWrite v s
  | .ldtmo_write v => Sys2Proof.Machine.execLdtmoWrite v s
  | .tstat_write v => Sys2Proof.Machine.execTstatWrite v s
  | .fstr_write v => Sys2Proof.Machine.execFstrWrite v s
  | .register_write r v => Sys2Proof.Machine.execRegisterWrite r v s
  | .attestation_quote nonce => Sys2Proof.Machine.execAttestationQuote nonce s
  | .package_reset boot => Sys2Proof.Machine.execPackageReset boot s
  | .llc_resize_complete stack => Sys2Proof.Machine.execLlcResizeComplete stack s
  | .tlbinv_done => Sys2Proof.Machine.execTlbinvDone s
  | .block_placement die => Sys2Proof.Machine.execBlockPlacement die s
  | .fetchw_delivery gid => Sys2Proof.Machine.execFetchwDelivery gid s
  | .launch_complete lid => Sys2Proof.Machine.execLaunchComplete lid s
  | .deadline_passed lid => Sys2Proof.Machine.execDeadlinePassed lid s
  | .waitmem_timeout q => Sys2Proof.Machine.execWaitmemTimeout q s
  | .token_refill cluster => Sys2Proof.Machine.execTokenRefill cluster s
  | .frequency_change die => Sys2Proof.Machine.execFrequencyChange die s
  | .vfset_timeout die => Sys2Proof.Machine.execVfsetTimeout die s
  | .core_gate core => Sys2Proof.Machine.execCoreGate core s
  | .forced_save gid => Sys2Proof.Machine.execForcedSave gid s
  | .group_save gid => Sys2Proof.Machine.execGroupSave gid s
  | .continuation_arrival k => Sys2Proof.Machine.execContinuationArrival k s
  | .pool_due core k => Sys2Proof.Machine.execPoolDue core k s
  | .migrant_launch core => Sys2Proof.Machine.execMigrantLaunch core s
  | .return_arrival k => Sys2Proof.Machine.execReturnArrival k s
  | .rejoin_apply gid => Sys2Proof.Machine.execRejoinApply gid s
  | .exit_away_retire gid => Sys2Proof.Machine.execExitAwayRetire gid s
  | .site_notice k => Sys2Proof.Machine.execSiteNotice k s
  | .package_fenced pkg => Sys2Proof.Machine.execPackageFenced pkg s
  | .waitany_wake gid => Sys2Proof.Machine.execWaitanyWake gid s
  | .barrier_stall cluster b => Sys2Proof.Machine.execBarrierStall cluster b s
  | .matrix_batch_complete gid => Sys2Proof.Machine.execMatrixBatchComplete gid s
  | .nearbank_complete oid => Sys2Proof.Machine.execNearbankComplete oid s
  | .copy_complete oid => Sys2Proof.Machine.execCopyComplete oid s
  | .ring_notify_read oid => Sys2Proof.Machine.execRingNotifyRead oid s
  | .ring_entry_complete oid idx => Sys2Proof.Machine.execRingEntryComplete oid idx s
  | .cpred_send_complete oid => Sys2Proof.Machine.execCpredSendComplete oid s
  | .combine_arrival p => Sys2Proof.Machine.execCombineArrival p s
  | .combine_timeout k => Sys2Proof.Machine.execCombineTimeout k s
  | .spill_flip ctx h => Sys2Proof.Machine.execSpillFlip ctx h s
  | .restore_flip ctx h => Sys2Proof.Machine.execRestoreFlip ctx h s
  | .frame_migration src dst => Sys2Proof.Machine.execFrameMigration src dst s
  | .frame_migration_flip src => Sys2Proof.Machine.execFrameMigrationFlip src s
  | .draw_start => Sys2Proof.Machine.execDrawStart s
  | .primitive_rasterise => Sys2Proof.Machine.execPrimitiveRasterise s
  | .fragment_apply k => Sys2Proof.Machine.execFragmentApply k s
  | .assay_slot_open die => Sys2Proof.Machine.execAssaySlotOpen die s
  | .assay_scan_start die => Sys2Proof.Machine.execAssayScanStart die s
  | .assay_scan_end die pass => Sys2Proof.Machine.execAssayScanEnd die pass s
  | .assay_skip die => Sys2Proof.Machine.execAssaySkip die s
  | .canary_warning dom => Sys2Proof.Machine.execCanaryWarning dom s
  | .voltage_step_down dom => Sys2Proof.Machine.execVoltageStepDown dom s
  | .canary_fatal dom => Sys2Proof.Machine.execCanaryFatal dom s
  | .fatal_error => Sys2Proof.Machine.execFatalError s
  | .droop_trip cluster => Sys2Proof.Machine.execDroopTrip cluster s
  | .tallow_update die temp => Sys2Proof.Machine.execTallowUpdate die temp s
  | .gddr_overheat ctrl temp => Sys2Proof.Machine.execGddrOverheat ctrl temp s
  | .trap_timer gid => Sys2Proof.Machine.execTrapTimer gid s
  | .breakpoint_halt gid => Sys2Proof.Machine.execBreakpointHalt gid s
  | .debug_release gid => Sys2Proof.Machine.execDebugRelease gid s
  | .residency_request_forward => Sys2Proof.Machine.execResidencyRequestForward s
  | .undefined_word w => Sys2Proof.Machine.execUndefinedWord w s
  | .fetch_fault => Sys2Proof.Machine.execFetchFault s
  | .undefined_command q => Sys2Proof.Machine.execUndefinedCommand q s
  | .load_return gid k => Sys2Proof.Machine.execLoadReturn gid k s
  | .write_reaches_home gid k => Sys2Proof.Machine.execWriteReachesHome gid k s
  | .group_timer_match gid => Sys2Proof.Machine.execGroupTimerMatch gid s
  | .droop_end cluster => Sys2Proof.Machine.execDroopEnd cluster s
  | .remote_access_arrival a => Sys2Proof.Machine.execRemoteAccessArrival a s
  | .fabric_bring_up pkg key => Sys2Proof.Machine.execFabricBringUp pkg key s
  | .debugger_attach lid on => Sys2Proof.Machine.execDebuggerAttach lid on s

end Sys2Proof.Machine
end

