-- ==== Sys2Proof/Machine/Schedule.lean ====
section
/-! DEFINITION. What the machine does when nothing is scheduled (log 3): the steps of the device that may be due, in
one order. -/

namespace Sys2Proof.Machine

open Assoc Bits


/-- A step of the device, ready to run. -/
abbrev DeviceStep := State → Outcome

/-- Steps about one group. -/
def groupSteps (gid : Nat) (g : Group) : List DeviceStep :=
  (List.range g.loads.length).map (execLoadReturn gid ·) ++ (List.range g.wbuf.length).map (execWriteReachesHome gid ·) ++
  (if g.mx.closed.isEmpty then [] else [execMatrixBatchComplete gid]) ++
  (if g.fetches.isEmpty then [] else [execFetchwDelivery gid]) ++
  match parkedIn g with
  | some .rejoin => [execRejoinApply gid]
  | some .exit => [execExitAwayRetire gid]
  | some (.waitany _) => [execWaitanyWake gid]
  | _ => []

/-- Steps of pre-emption about one group. -/
def saveSteps (s : State) (e : Nat × Group) : List DeviceStep :=
  if preemptDue s e.1 e.2 then [execGroupSave e.1, execForcedSave e.1] else []

/-- Steps about one operation of an engine. -/
def opSteps (oid : Nat) (o : EngineOp) : List DeviceStep :=
  match o.kind with
  | .copy _ => [execCopyComplete oid]
  | .cpred _ => [execCpredSendComplete oid]
  | .ivsld _ | .bmac _ | .embw _ => [execNearbankComplete oid]
  | .ring r =>
    [execRingNotifyRead oid] ++
    (List.range (ringLag r r.notify)).map (fun k => execRingEntryComplete oid ((r.done + k) % 2 ^ 32)) ++ [execCopyComplete oid]

/-- Steps of the network and the landings. -/
def networkSteps (s : State) : List DeviceStep :=
  (List.range s.conts.length).map execContinuationArrival ++ (List.range s.rets.length).map execReturnArrival ++
  (List.range s.notices.length).map execSiteNotice ++
  (s.cores.flatMap fun e => (List.range e.2.pools.length).map (execPoolDue e.1 ·) ++
    if e.2.pools.isEmpty then [] else [execMigrantLaunch e.1]) ++
  ((s.parts.filter fun p => p.1 == s.pkgid).map fun p => execCombineArrival p.2) ++
  (List.range s.combines.length).map execCombineTimeout ++
  (if s.resq.isEmpty then [] else [execResidencyRequestForward])

/-- Steps about surfaces, frames and draws. -/
def surfaceSteps (s : State) : List DeviceStep :=
  (s.handles.flatMap fun e => match e.2.state with
    | .spilling => [execSpillFlip (e.1 / 4096) (e.1 % 4096)]
    | .restoring => [execRestoreFlip (e.1 / 4096) (e.1 % 4096)]
    | .resident | .spilled => []) ++
  s.moves.map (fun m => execFrameMigrationFlip m.1) ++
  ((keys s.stk).map execLlcResizeComplete) ++ (if s.ctl.tlbinvDone then [] else [execTlbinvDone]) ++
  (List.range s.frags.length).map execFragmentApply ++
  if s.launches.any fun e => e.2.draw.isSome then [execDrawStart, execPrimitiveRasterise] else []

/-- Steps about launches, dies and cores. -/
def launchSteps (s : State) : List DeviceStep :=
  (s.launches.flatMap fun e => match e.2.phase with
    | .running | .preempting => [execLaunchComplete e.1, execDeadlinePassed e.1]
    | .saved | .complete => []) ++
  (if s.launches.any fun e => (nextPlace s e.2).isSome then (List.range Config.numDies).map execBlockPlacement else []) ++
  (s.dies.flatMap fun e => if e.2.vfs.isEmpty then [] else [execFrequencyChange e.1, execVfsetTimeout e.1]) ++
  (s.cores.flatMap fun e => if e.2.gateReq.isSome then [execCoreGate e.1] else []) ++
  s.clusters.flatMap fun e => (e.2.bars.filter fun b => b.2.isOpen).map fun b => execBarrierStall e.1 b.1

/-- The command at the HEAD of a queue, and what it may have in progress. -/
def queueSteps (s : State) (q : Nat) : List DeviceStep :=
  ((s.queueAt q).running.flatMap fun r => match r with
    | .alloc _ => [execSfalloc q 0]
    | .free .. => [execSffree q]
    | .preempt _ => [execPreempt q]
    | .launch _ | .op _ | .vf .. | .gate _ => []) ++
  match fetchCmd s q with
  | .nothing => []
  | .bad _ => [execUndefinedCommand q]
  | .cmd _ c =>
    match c.op with
    | 1 => [execLaunch q] | 2 => [execLaunchi q]
    | 3 => [if c.flags % 2 = 0 then execLoopCounted q else execLoopConditional q]
    | 4 => [execEndloop q] | 5 => [execCmdIf q] | 6 => [execCmdElse q] | 7 => [execCmdEndif q]
    | 8 => [execWaitmem q, execWaitmemTimeout q]
    | 9 => [if c.flags % 2 = 0 then execSignal q else execSignalConfirmed q]
    | 10 => [execSfalloc q 0] | 11 => [execSffree q] | 12 => [execCopy q] | 13 => [execPreempt q] | 14 => [execVfset q]
    | 15 => [if c.imm / 65536 % 2 = 1 then execCpgateGate q else execCpgateUngate q]
    | 16 => [execFenceCmd q]
    | _ => [execUndefinedCommand q]

/-- The commands of every queue; those that may start are the command processors' choice (R96). -/
def commandSteps (s : State) : List DeviceStep :=
  if s.ctl.qtbase = 0 then [] else (List.range 64).flatMap (queueSteps s)

/-- Every step that may be due. -/
def deviceSteps (s : State) : List DeviceStep :=
  (s.groups.flatMap fun e => groupSteps e.1 e.2) ++ networkSteps s ++ (s.ops.flatMap fun e => opSteps e.1 e.2) ++
  surfaceSteps s ++ (s.groups.flatMap (saveSteps s)) ++ launchSteps s ++ commandSteps s

/-- The first step of a list that changes the state. -/
def firstThatMoves (s : State) : List DeviceStep → Option State
  | [] => none
  | step :: rest => match step s with
    | .next s' => if s' = s then firstThatMoves s rest else some s'
    | .fault _ | .refused _ => firstThatMoves s rest

/-- Clusters whose cycles matter: those with a resident group or a pool. -/
def busyClusters (s : State) : List Nat :=
  (List.range Config.numClusters).filter fun cl =>
    (s.groups.any fun e => clusterOfCore e.2.core == cl && !isSaved e.2) ||
    s.cores.any fun e => clusterOfCore e.1 == cl && !e.2.pools.isEmpty

/-- One core cycle of every busy cluster. -/
def roundOver (s : State) : State :=
  (busyClusters s).foldl (fun s cl => match execTokenRefill cl s with
    | .next s' => s'
    | .fault _ | .refused _ => s) { s with cur := 0, turn := (0, 0) }

end Sys2Proof.Machine
end

