-- ==== Sys2Proof/Machine/Run.lean ====
section
/-! DEFINITION. What one step does: the next action, the fetch of a group's next word, and the placing of an
instruction where the machine fetches it. -/

namespace Sys2Proof.Machine

open Assoc Bits

/-- The group is between two instructions of a chain, so that its quarter issues no other (R48, R106). -/
def insideChain (s : State) (g : Group) : Bool := g.status == .ready && !g.chain.ended && !chainOver s g g.pc

/-- Another group of the same quarter is inside a chain. -/
def quarterTaken (s : State) (gid : Nat) (g : Group) : Bool :=
  s.groups.any fun e => e.1 != gid && e.2.core == g.core && quarterIn e.2 == quarterIn g && insideChain s e.2

/-- The instructions that will join a chain behind the one at an address (R43), as the predecoder sees them: at most n. -/
def chainAhead (s : State) (g : Group) : Nat → DWord → Instr → List Instr
  | 0, _, _ => []
  | n + 1, pc, i =>
    if sideEffect i || atLoopEnd g pc then []
    else match fetchAt s g (pc + 4) with
      | .error _ => []
      | .ok (w, _) => match decode w with
        | .error _ => []
        | .ok j => if joins (oprsOf g.fmt j) && (wordFault g j).isNone then j :: chainAhead s g n (pc + 4) j else []

/-- What the last instruction of a chain needs beyond its registers: matrix tokens, an outstanding-request slot. -/
def lastWaits (s : State) (g : Group) : Instr → Bool
  | .mma .. => !tokensReady s g false
  | .mmab .. => !tokensReady s g true
  | i => touchesMemory i && requestsFull s g

/-- The scalar at a code, or the pair, has its value before the chain that writes some registers: it is neither a latch nor
a special scalar, and the chain does not write it. -/
def scalarKnown (ws : List RegId) (c : Code) : Bool :=
  decide (c.toNat < 64) && !ws.contains (.s c.toNat) && !ws.contains (.s (c.toNat + 1))

/-- A register is awaited of a run that the word names by its first one (R107). Where the length of the run follows from a
scalar that the chain itself computes, the longest run counts. -/
def runAwaited (s : State) (g : Group) (ws : List RegId) : Instr → Bool
  | .mwr _ a _ => awaitsRun g a.toNat 32
  | .mrd d _ b => awaitsRun g d.toNat (if scalarKnown ws b then mrdCount g.fmt (srcS s g b) else 32)
  | .mma _ a b | .mmab _ a b => awaitsOpd g (operandOf g a) || awaitsOpd g (operandOf g b)
  | .vtxout d a _ =>
    if !scalarKnown ws a then awaitsRun g d.toNat longestTri
    else match bindDraw s g (srcSP s g a) with
      | some r => awaitsRun g d.toNat (triRegs r.2)
      | none => false
  | .sfld d a _ | .sfst d a _ =>
    if !scalarKnown ws a then awaitsRun g d.toNat 2
    else match surfaceArg s g (srcS s g a) with
      | some h => pixelBytes h.fmt == 8 && awaitsRun g d.toNat 2
      | none => false
  | _ => false

/-- The same for an instruction behind the head of a chain and some others: what they write is not known yet. -/
def runsAwaited (s : State) (g : Group) (i : Instr) (ahead : List Instr) : Bool :=
  ahead.zipIdx.any fun e => runAwaited s g ((i :: ahead.take e.2).flatMap fun j => writesOf (oprsOf g.fmt j)) e.1

/-- A chain head does not issue yet: a register that a later instruction of its chain names is awaited, or the last one
lacks what it needs (R107). -/
def headWaits (s : State) (g : Group) (i : Instr) : Bool :=
  let ahead := chainAhead s g 7 g.pc i
  !joins (oprsOf g.fmt i) && (ahead.any (stalled g) || runsAwaited s g i ahead || match ahead.getLast? with | some j => lastWaits s g j | none => false)

/-- An instruction that stands Stalled after its issue executes again (R48), unless a forced save takes the group: one in
`hop` or `hopx` is taken once that has completed (R383). One that does not go on stands as before. -/
def runAgain (s : State) (gid : Nat) (g : Group) : Outcome :=
  match decode g.ins with
  | .error _ => .next s
  | .ok i =>
    let s' := s.setGroup gid { g with status := .ready }
    if g.status == .parked .stalled && forcedDue s gid g then .next s
    else match exec i s' with
      | .next t => .next (if t = s' then s else t)
      | o => o

/-- A Ready group issues, or takes what stands before its next instruction: its end without live lanes, an FP trap, the
halt of a breakpoint inside the chain that is over, the trap timer, a breakpoint, a fetch fault, a word that is no
instruction. -/
def runReady (s : State) (gid : Nat) (g : Group) : Outcome :=
  if g.lmask = 0 && chainOver s g g.pc then .next (endGroup s gid)
  else if fpDue s g then .next (fpTrap s gid g.chain g.chain.last)
  else if haltOwed g && atBoundary s g then .next (haltAfter s gid g)
  else if timerDue s g then execTrapTimer gid s
  else if breakpointDue s g then execBreakpointHalt gid s
  else match fetchAt s g g.pc with
    | .error _ => execFetchFault s
    | .ok (w, h) =>
      if hitBad s h 4 then execFetchFault s
      else
        let s := markHit s h
        match decode w with
        | .error _ => execUndefinedWord w s
        | .ok i => if headWaits s g i then .next s else exec i s

/-- What a group does in its turn: nothing on a core that is being scanned (R322), or while another group of its quarter
is inside a chain (R48, R106). -/
def runGroup (s : State) (gid : Nat) (late old : Bool) : Outcome :=
  let s := { s with cur := gid, late := late, stale := old }
  match s.group? gid with
  | none => .next s
  | some g =>
    if (s.coreAt g.core).scanning || quarterTaken s gid g then .next s
    else match g.status with
      | .ready => runReady s gid g
      | .parked .stalled | .parked .room => runAgain s gid g
      | .parked _ | .halted _ | .saved .. => .next s

/-! ### Turns (R109) -/

/-- The place of a group in a turn: its core and quarter, then its identifier. -/
def placeOf (e : Nat × Group) : Nat × Nat := (e.2.core * 4 + quarterIn e.2, e.1)

/-- One place comes before another. -/
def placeLt (a b : Nat × Nat) : Bool := decide (a.1 < b.1) || a.1 == b.1 && decide (a.2 < b.2)

/-- The group that may issue and has the first place after one. -/
def nextInTurn (s : State) (t : Nat × Nat) : Option (Nat × Nat) :=
  s.groups.foldl (fun b e =>
    if (e.2.status == .ready || e.2.status == .parked .stalled || e.2.status == .parked .room) && placeLt t (placeOf e) &&
        (match b with | some p => placeLt (placeOf e) p | none => true) then some (placeOf e) else b) none

/-- The first of the groups after a place whose issue changes the state: n of them are tried. -/
def firstToIssue (s : State) : Nat → Nat × Nat → Option Outcome
  | 0, _ => none
  | n + 1, t => match nextInTurn s t with
    | none => none
    | some p => match runGroup s p.2 false false with
      | .next s' =>
        if s' = { s with cur := p.2, late := false, stale := false } then firstToIssue s n p else some (.next { s' with turn := p })
      | o => some o

/-- What happens when nothing is scheduled: a step of the device that is due; else the next group in turn issues, by core
and quarter (R109); at the end of a turn every busy cluster has a core cycle. -/
def idle (s : State) : Outcome :=
  match firstThatMoves s (deviceSteps s) with
  | some s' => .next s'
  | none => match firstToIssue s s.groups.length s.turn with
    | some o => o
    | none => .next (roundOver s)

/-- One action. -/
def act (a : Action) (s : State) : Outcome :=
  match a with
  | .issue gid late => runGroup s gid late false
  | .issueOld gid => runGroup s gid false true
  | .device i => exec i { s with late := false, stale := false }
  | .deviceLate i => exec i { s with late := true, stale := false }
  | .evictL1 core line => .next (dropCopy (writeBack s core [line]) core line)
  | .evictLlc line => .next { s with llc := erase s.llc line }
  | .evictTlb core k => .next (s.setCore core { s.coreAt core with tlb := (s.coreAt core).tlb.eraseIdx k })
  | .evictL2Tlb cl k => .next (s.setCluster cl { s.clusterAt cl with tlb := (s.clusterAt cl).tlb.eraseIdx k })
  | .blowFuse cls => .next (if cls < 3 then { s with fuses := put 0 s.fuses cls (min 64 (get 0 s.fuses cls + 1)) } else s)
  | .time die ns => .next (s.setDie die { s.dieAt die with ntime := (s.dieAt die).ntime + BitVec.ofNat 64 ns })
  | .arriveCont c => .next { s with conts := s.conts ++ [c] }
  | .arriveReturn r => .next { s with rets := s.rets ++ [r] }
  | .arriveNotice n => .next { s with notices := s.notices ++ [n] }
  | .upsetMem loc => .next (markBad s [loc])
  | .upsetV gid idx => .next (s.updGroup gid fun g => { g with badV := g.badV ++ [idx] })
  | .upsetS gid n => .next (s.updGroup gid fun g => { g with badS := g.badS ++ [n] })
  | .upsetSpecial gid c => .next (s.updGroup gid fun g => { g with badSp := g.badSp ++ [c] })
  | .upsetLatch gid pos lane => .next (s.updGroup gid fun g =>
      { g with chain := { g.chain with badL := g.chain.badL ++ [pos * 32 + lane] } })
  | .upsetRow gid idx => .next (s.updGroup gid fun g => { g with badRow := g.badRow ++ [idx] })
  | .upsetControl gid => .next (match s.group? gid with | some g => if inScan s g then s else uceKill s gid g.pc | none => s)
  | .hostWrite loc bs => .next (restartTouched (store s (cellsAt loc bs)) loc bs.length)

/-- What may still happen after a fatal error (R338), or in recovery (R334): package reset, quotes, time; after a fatal
error also the resuming of the pit log. -/
def survives (recovery : Bool) : Action → Bool
  | .device (.package_reset _) | .device (.attestation_quote _) | .time _ _ => true
  | .device (.frozen_clear _ _) => !recovery
  | _ => false

/-- One step of the machine (log 3): the first action of the agenda, or what the machine does of itself. -/
def oneStep (s : State) : Outcome :=
  match s.agenda with
  | a :: rest =>
    if (s.fatal || s.recovery) && !survives s.recovery a then .fault (if s.fatal then .issueStopped else .inRecovery)
    else act a { s with agenda := rest }
  | [] =>
    if s.fatal then .fault .issueStopped
    else if s.recovery then .fault .inRecovery
    else idle { s with late := false, stale := false }

/-! ### Placing an instruction -/

/-- A launch header with one group of the largest allocation. -/
def placeHeader : Header :=
  { entry := 0x10000, widths := [0, 0, 0, 0, 0, 0], plvl := 0, counts := [1, 1, 1, 1, 1, 1], blkg := 1, vregs := 512,
    accs := 16, spad := Config.spadBytes, pri := 0, priv := false, sec := false, conf := false, tvec := 0, live := 0,
    save := 0, dsattr := 0, deadline := 0, podid := 0, lsbase := 0, lslane := 0, dies := 0xF }

def placeLaunch : Launch :=
  { lnum := 0, hdr := placeHeader, ctx := 0, root := 0x8001, queue := 0, privq := false, addr0 := 0,
    status := ⟨0, 0, false⟩, phase := .running, cursor := 1, statusWas := 1, suspect := false,
    confirmed := false, ranOn := [0], debugger := false, preempt := none, draw := none,
    savedBlocks := [], pastDeadline := false, liveLogged := false }

def placeBlock : Block :=
  { launch := 1, wid := 0, cluster := 0, spadBase := 0, spad := Config.spadBytes, savedCbs := [], savedBars := [],
    savedSpad := [], savedBad := [], ranges := [], fullSave := false, saved := false, pixel := false }

/-- Tables at frames of 32 KiB 1, 2 and 3, one page at 0x10000 with every permission, and the word there. -/
def placeMemory (w : Word) : List (Nat × Byte) :=
  cellsAt 0x8000 (bytesOfNat 8 0x10001) ++ cellsAt 0x10000 (bytesOfNat 8 0x18001) ++
  cellsAt 0x18008 (bytesOfNat 8 0x101A1F) ++ cellsAt 0x100000 (bytesOfNat 4 w.toNat)

/-- The state with an instruction word where its next step fetches (log 8). -/
def placeWord (s : State) (nbits w : Nat) : State :=
  let s := { s with
    launches := set s.launches 1 placeLaunch, blocks := set s.blocks 1 placeBlock, nextId := max s.nextId 2,
    groups := set s.groups 1 (newGroup placeLaunch 1 1 0 0 0 0 0x10000 0), agenda := [.issue 1 false] }
  writeCells s (placeMemory (BitVec.ofNat 32 (w % 2 ^ nbits)))

end Sys2Proof.Machine
end

