-- ==== Sys2Proof/Safety.lean ====
section
/-! DEFINITION. The terms in which claims speak of a run: what an instruction leaves behind its own effect, a group in
whose way nothing stands, what a frame is, and the invariant of the memory. -/

namespace Sys2Proof.Machine

open Assoc Bits

/-! ### What follows an effect -/

/-- The state after an instruction whose effect is `s'` and whose latch is `l`: the chain, a due FP trap, the advance and
the boundary follow (`complete`). -/
def after (i : Instr) (s : State) (g : Group) (s' : State) (l : Latch) : State :=
  complete (ranHere s' g) s.cur i (oprsOf g.fmt i) (chainAt g (oprsOf g.fmt i)) l 0 0

/-- The same for a form that raised enabled FP exceptions `fp` in `lanes`. -/
def afterFp (i : Instr) (s : State) (g : Group) (s' : State) (l : Latch) (fp : BitVec 5) (lanes : Word) : State :=
  complete (ranHere s' g) s.cur i (oprsOf g.fmt i) (chainAt g (oprsOf g.fmt i)) l fp lanes

/-- The state after a control transfer whose effect is `s'`. -/
def jumped (i : Instr) (s : State) (g : Group) (s' : State) : State :=
  settle s s.cur g i (oprsOf g.fmt i) (chainAt g (oprsOf g.fmt i)) (.jump s')

/-- The state after an instruction that issued and parked. -/
def parkedAt (i : Instr) (s : State) (g : Group) (s' : State) : State :=
  settle s s.cur g i (oprsOf g.fmt i) (chainAt g (oprsOf g.fmt i)) (.park s')

/-- The state after an instruction that waits where it stands for what it has begun. -/
def heldAt (i : Instr) (s : State) (g : Group) (s' : State) : State :=
  settle s s.cur g i (oprsOf g.fmt i) (chainAt g (oprsOf g.fmt i)) (.hold s')

/-- The state after an instruction that traps once it has completed, TPC at it and TNEXT after it. -/
def trapped (i : Instr) (s : State) (g : Group) (s' : State) (c : Cause) (lanes : Word) : State :=
  settle s s.cur g i (oprsOf g.fmt i) (chainAt g (oprsOf g.fmt i)) (.thenTrap s' c lanes)

/-- The state after a fault that the instruction raises at issue. -/
def faulted (i : Instr) (s : State) (g : Group) (c : Cause) (lanes : Word) (addr : DWord) : State :=
  raise (ranHere s g) s.cur g (joins (oprsOf g.fmt i)) c lanes addr (insWord i)

/-! ### A group in whose way nothing stands -/

/-- Some lane lives, no debugger steps the group, and no FP trap is due from the chain it is in. -/
def Calm (i : Instr) (g : Group) : Prop :=
  g.lmask ≠ 0 ∧ g.dbg.step = false ∧ g.dbg.haltDue = false ∧ (chainAt g (oprsOf g.fmt i)).fpFlags = 0

/-! ### Frames -/

/-- Every byte of memory reads as before. -/
def SameMemory (s t : State) : Prop := ∀ a, readByte t a = readByte s a

/-- Every group but one is as before. -/
def OthersSame (s t : State) (gid : Nat) : Prop := ∀ k, k ≠ gid → t.group? k = s.group? k

/-- What no register form changes in its group: masks of lanes, stacks, traps, continuations, events, matrix and
debug registers but `passed`, streams, loads outstanding, fences, what it holds. -/
def KeepsControl (g g' : Group) : Prop :=
  g'.amask = g.amask ∧ g'.lmask = g.lmask ∧ g'.away = g.away ∧ g'.mstack = g.mstack ∧ g'.fmt = g.fmt ∧ g'.wb = g.wb ∧
  g'.trap = g.trap ∧ g'.cont = g.cont ∧ g'.sattr = g.sattr ∧ g'.ev = g.ev ∧ g'.mx = g.mx ∧ g'.held = g.held ∧
  g'.loads = g.loads ∧ g'.fences = g.fences ∧ g'.status = g.status ∧ g'.gtim = g.gtim ∧
  { g'.dbg with passed := g.dbg.passed } = g.dbg

/-- The group's place in the order of accesses is as before: its outstanding stores, and what its streams follow. -/
def KeepsOrder (g g' : Group) : Prop := g'.wbuf = g.wbuf ∧ g'.view = g.view

/-- What the compressor writes when the byte at `x` beside a spill area is written (R160, R286) leaves `l` alone. -/
def Unencoded (s : State) (x l : Nat) : Prop :=
  2 ^ 90 ≤ x → x < 2 ^ 91 → ∀ e h, blockOfShadow s x = some e → find s.handles e.1 = some h →
    ∀ y ∈ blockCells s h e.2, y ≠ l ∧ mirrorOf s y ≠ some l

/-- A write at `x` leaves `l` alone: it is another byte, and no copy of it (R157), nor what a compressor makes of it. -/
def Apart (s : State) (x l : Nat) : Prop := x ≠ l ∧ mirrorOf s x ≠ some l ∧ Unencoded s x l

/-! ### Invariants -/

/-- Memory is in its canonical form. -/
def MemCanonical (s : State) : Prop := s.mem.wf = true

end Sys2Proof.Machine
end

