-- ==== Sys2Proof/Certificates/Slice0/Obligations.lean ====
section
/-! DEFINITION. The statements for the provers. A form whose decode checks a group admits is `Admits i s g`; `after`,
`jumped`, `parkedAt`, `trapped` and `faulted` (Safety.lean) say what follows the instruction's own effect. -/

namespace Sys2Proof.Claims

open Sys2Proof.Machine Sys2Proof.Machine.Assoc Sys2Proof.Machine.Bits Sys2Proof.Machine.Float

/-! ### Tables of forms of one shape -/

/-- R427, R428, R429: `vD, vA, vB` with the word that a lane receives. -/
def vecForms : List ((Code → Code → Code → Bool → Instr) × (Word → Word → Word)) :=
  [(.vadd, fun a b => a + b), (.vsub, fun a b => a - b), (.vmul, fun a b => a * b), (.vmulh, mulHigh),
   (.vmulhu, mulHighU), (.vand, fun a b => a &&& b), (.vor, fun a b => a ||| b), (.vxor, fun a b => a ^^^ b),
   (.vandn, fun a b => a &&& ~~~b), (.vshl, fun a b => a <<< (b.toNat % 32)), (.vshr, fun a b => a >>> (b.toNat % 32)),
   (.vsra, fun a b => a.sshiftRight (b.toNat % 32)), (.vmin, minS), (.vmax, maxS), (.vminu, minU), (.vmaxu, maxU)]

def vecForms2 : List ((Code → Code → Code → Bool → Instr) × (Word → Word → Word)) :=
  [(.vadds, addSatS), (.vaddus, addSatU), (.vsubs, subSatS), (.vsubus, subSatU), (.vabsd, absDiff), (.vbfx, bitFieldExtract)]

/-- R428: `vD, vA`. -/
def vecForms1 : List ((Code → Code → Bool → Instr) × (Word → Word)) := [(.vpopc, popc), (.vclz, clz), (.vbrev, brev)]

/-- R428: `vpD, vpA, vB`. -/
def vecPairForms : List ((Code → Code → Code → Bool → Instr) × (DWord → Word → DWord)) :=
  [(.vadd64, fun x y => x + sext64 y), (.vsub64, fun x y => x - sext64 y), (.vshl64, fun x y => x <<< (y.toNat % 64))]

/-- R408: `sD, sA, sB`. -/
def scaForms : List ((Code → Code → Code → Bool → Instr) × (Word → Word → Word)) :=
  [(.sadd, fun a b => a + b), (.ssub, fun a b => a - b), (.smul, fun a b => a * b), (.smulh, mulHigh),
   (.sand, fun a b => a &&& b), (.sor, fun a b => a ||| b), (.sxor, fun a b => a ^^^ b),
   (.sshl, fun a b => a <<< (b.toNat % 32)), (.sshr, fun a b => a >>> (b.toNat % 32)),
   (.ssra, fun a b => a.sshiftRight (b.toNat % 32)), (.smin, fun a b => if a.toInt ≤ b.toInt then a else b),
   (.smax, fun a b => if a.toInt ≤ b.toInt then b else a), (.sslt, fun a b => if a.toInt < b.toInt then 1 else 0),
   (.ssltu, fun a b => if a.toNat < b.toNat then 1 else 0)]

/-- R410: `sD, sA, IMM12`. -/
def immForms : List ((Code → Code → BitVec 12 → Instr) × (Word → BitVec 12 → Word)) :=
  [(.saddi, fun a i => a + i.signExtend 32), (.sandi, fun a i => a &&& i.setWidth 32),
   (.sori, fun a i => a ||| i.setWidth 32), (.sxori, fun a i => a ^^^ i.setWidth 32),
   (.sslti, fun a i => if a.toInt < i.toInt then 1 else 0)]

def shiftForms : List ((Code → Code → BitVec 5 → Instr) × (Word → BitVec 5 → Word)) :=
  [(.sshli, fun a i => a <<< i.toNat), (.sshri, fun a i => a >>> i.toNat), (.ssrai, fun a i => a.sshiftRight i.toNat)]

/-- R394: `mD, mA, mB`. -/
def maskForms : List ((Code → Code → Code → Instr) × (Word → Word → Word)) :=
  [(.mand, fun a b => a &&& b), (.mor, fun a b => a ||| b), (.mxor, fun a b => a ^^^ b), (.mandn, fun a b => a &&& ~~~b)]

/-- R437: integer compares. -/
def cmpForms : List ((Code → Code → Code → Instr) × (Word → Word → Bool)) :=
  [(.vcmp_eq, fun a b => decide (a = b)), (.vcmp_ne, fun a b => decide (a ≠ b)),
   (.vcmp_lt, fun a b => decide (a.toInt < b.toInt)), (.vcmp_le, fun a b => decide (a.toInt ≤ b.toInt)),
   (.vcmp_ltu, fun a b => decide (a.toNat < b.toNat)), (.vcmp_leu, fun a b => decide (a.toNat ≤ b.toNat))]

/-- R437: float compares. -/
def fcmpForms : List ((Code → Code → Code → Instr) × FloatTest) :=
  [(.vfcmp_eq, .eq), (.vfcmp_ne, .ne), (.vfcmp_lt, .lt), (.vfcmp_le, .le), (.vfcmp_un, .un)]

/-- R442: float forms of two operands, with the operation on encodings. -/
def floatForms2 : List ((Code → Code → Code → Bool → Instr) × (Env → Nat → Nat → Res)) :=
  [(.vfadd, fadd), (.vfsub, fsub), (.vfmul, fmul), (.vfmin, fun v => fminmax v false), (.vfmax, fun v => fminmax v true),
   (.vfdiv, fdiv)]

def floatForms1 : List ((Code → Code → Bool → Instr) × (Env → Nat → Res)) :=
  [(.vfabs, fabs), (.vfneg, fneg), (.vfsqrt, fsqrt), (.vfrcp, frcp), (.vfrsq, frsq), (.vfex2, fex2), (.vflg2, flg2),
   (.vfsin, fsin), (.vfcos, fcos)]

def floatForms3 : List ((Code → Code → Code → Code → Instr) × (Env → Nat → Nat → Nat → Res)) :=
  [(.vfma, fun v => ffma v false), (.vfnma, fun v => ffma v true)]

/-- R434, R435, R449: forms whose lane j receives a word, as a function of the group. -/
def moveForms1 : List ((Code → Code → Bool → Instr) × (Group → Code → Nat → Word)) :=
  [(.vplane, fun g a => planeWord (srcLane g a)), (.vunpl, fun g a => unplaneWord (srcLane g a)),
   (.vmov, fun g a => srcV g a), (.vscan_i, intScan)]

def moveForms2 : List ((Code → Code → Code → Bool → Instr) × (State → Group → Code → Code → Nat → Word)) :=
  [(.vshfl, fun _ g a b j => srcLane g a ((srcV g b j).toNat % 32)),
   (.vshfx, fun _ g a b j => srcLane g a (BitVec.ofNat 5 j ^^^ (srcV g b j).setWidth 5).toNat),
   (.vbcl, fun s g a b _ => srcLane g a ((srcS s g b).toNat % 32))]

/-- R435: integer reductions, with the value over no lane. -/
def reduceForms : List ((Code → Code → Bool → Instr) × (Word → Word → Word) × Word) :=
  [(.vredadd_i, fun a b => a + b, 0), (.vredmin_s, minS, 0x7FFFFFFF), (.vredmin_u, minU, 0xFFFFFFFF),
   (.vredmax_s, maxS, 0x80000000), (.vredmax_u, maxU, 0)]

/-- R132, R435: float reductions. -/
def floatReduceForms : List ((Code → Code → Bool → Instr) × (Env → Nat → Nat → Res) × (Fmt → Nat)) :=
  [(.vredadd_f, fadd, fun _ => 0), (.vredmin_f, fun v => fminmax v false, Fmt.infBits),
   (.vredmax_f, fun v => fminmax v true, fun f => signed f true f.infBits)]

/-- R358: scalar branches. -/
def branchForms : List ((Code → BitVec 16 → Instr) × (Int → Bool)) :=
  [(.b_eq, fun v => decide (v = 0)), (.b_ne, fun v => decide (v ≠ 0)), (.b_lt, fun v => decide (v < 0)),
   (.b_ge, fun v => decide (0 ≤ v)), (.b_gt, fun v => decide (0 < v)), (.b_le, fun v => decide (v ≤ 0))]

/-- R360: mask branches, on mA & LMASK and LMASK. -/
def maskBranchForms : List ((Code → BitVec 16 → Instr) × (Word → Word → Bool)) :=
  [(.bm_any, fun x _ => decide (x ≠ 0)), (.bm_none, fun x _ => decide (x = 0)), (.bm_all, fun x l => decide (x = l))]

/-- R446: gathers, with size, sign extension and pair. -/
def loadForms : List ((Code → Code → Code → BitVec 4 → Bool → Instr) × Nat × Bool × Bool) :=
  [(.vld_s8, 1, true, false), (.vld_z8, 1, false, false), (.vld_s16, 2, true, false), (.vld_z16, 2, false, false),
   (.vld_w, 4, false, false), (.vld_d, 8, false, true)]

/-- R446: scatters, with size and pair. -/
def storeForms : List ((Code → Code → Code → BitVec 4 → Bool → Instr) × Nat × Bool) :=
  [(.vst_b, 1, false), (.vst_h, 2, false), (.vst_w, 4, false), (.vst_d, 8, true)]

/-- R415: scalar accesses, with size. -/
def scaLoadForms : List ((Code → Code → Code → BitVec 4 → Bool → Instr) × Nat) := [(.sld_w, 4), (.sld_d, 8)]
def scaStoreForms : List ((Code → Code → Code → BitVec 4 → Bool → Instr) × Nat) := [(.sst_w, 4), (.sst_d, 8)]

/-- R165: atomics, with their operation. -/
def atomForms : List ((Code → Code → Code → BitVec 4 → Instr) × AtomOp) :=
  [(.vatom_iadd, .iadd), (.vatom_fadd, .fadd), (.vatom_and, .and), (.vatom_or, .or), (.vatom_smin, .smin),
   (.vatom_smax, .smax), (.vatom_xchg, .xchg), (.vatom_cas, .cas)]

/-! ### Words that are no instructions -/

/-- R52 to R56: majors of format F3 with the first FN that no instruction of theirs has. -/
def reservedFns : List (Nat × Nat) :=
  [(0x02, 14), (0x04, 12), (0x06, 13), (0x07, 8), (0x08, 9), (0x09, 15), (0x19, 13), (0x30, 10), (0x31, 7), (0x32, 6),
   (0x33, 9), (0x34, 3), (0x35, 2), (0x36, 7), (0x37, 2)]

/-- R40, R56: forms by major and FN, with the bits of their words that no operand uses: of D (25:19), A (18:12), B (11:5),
and NW (4) where the form does not admit it. -/
def zeroBits : List (Nat × Nat × Word) :=
  (List.range 12).map (fun n => (0x04, n, 0x10)) ++
  [(0x02, 5, 0xFE0), (0x02, 6, 0xFE0), (0x02, 7, 0xFE0), (0x02, 9, 0x10)] ++
  [5, 6, 8, 9, 10, 11, 12, 13, 14].map (fun n => (0x03, n, 0xFE0)) ++
  [(0x06, 0, 0x10), (0x06, 1, 0xFE0), (0x06, 2, 0xFE0), (0x06, 6, 0xFE0), (0x06, 7, 0xFC0), (0x06, 8, 0xF80),
   (0x06, 9, 0xF80), (0x06, 10, 0xFC0), (0x06, 11, 0xFE0), (0x06, 12, 0xFE0)] ++
  [(0x08, 0, 0x10), (0x08, 1, 0x10), (0x08, 2, 0x10), (0x08, 3, 0x10), (0x08, 4, 0xFF0), (0x08, 5, 0xFF0),
   (0x08, 6, 0xFE0), (0x08, 7, 0x7FFF0), (0x08, 8, 0xFE0)] ++
  [0, 3, 6, 7, 8].map (fun n => (0x19, n, 0x3F80FF0)) ++ [1, 2, 4, 5, 10, 12].map (fun n => (0x19, n, 0x3FFFFF0)) ++
  [(0x19, 9, 0x3FFF010), (0x19, 11, 0x3FFF010)] ++
  [(0x30, 2, 0x3800FF0), (0x30, 3, 0x3F80FF0), (0x30, 4, 0x3800010), (0x30, 5, 0x3800010), (0x30, 6, 0x3800010),
   (0x30, 7, 0x10), (0x30, 8, 0xFF0), (0x30, 9, 0x3F80FF0)] ++
  [(0x31, 0, 0x10), (0x31, 1, 0x3F80FF0), (0x31, 2, 0x3F80FF0), (0x31, 3, 0x7FFF0), (0x31, 4, 0x3F80FF0),
   (0x31, 5, 0x3F80FF0), (0x31, 6, 0x10)] ++
  [(0x32, 0, 0x3F80FF0), (0x32, 1, 0x3FFFFF0), (0x32, 2, 0x3FFFFF0), (0x32, 3, 0xFE0), (0x32, 4, 0x3F80FF0),
   (0x32, 5, 0x3F80FF0)] ++
  [(0x33, 0, 0xFF0), (0x33, 1, 0x10), (0x33, 2, 0x10), (0x33, 3, 0x7FFF0), (0x33, 4, 0x10), (0x33, 5, 0x10),
   (0x33, 6, 0x7FFF0), (0x33, 7, 0x3F80FF0), (0x33, 8, 0x10)] ++
  [(0x34, 0, 0xE10), (0x34, 1, 0xE10), (0x34, 2, 0xE10), (0x35, 0, 0xC10), (0x35, 1, 0xE10)] ++
  [(0x36, 0, 0x10), (0x36, 1, 0x10), (0x36, 2, 0x7FFF0), (0x36, 3, 0x3F80010), (0x36, 4, 0x10), (0x36, 5, 0xFE0),
   (0x36, 6, 0x10), (0x37, 0, 0x7F000), (0x37, 1, 0x3F80010)]

/-- R47: forms that admit NW = 1, if D = 0, by major and FN. -/
def nwForms : List (Nat × Nat) :=
  (List.range 16).map (fun n => (0x01, n)) ++ [0, 1, 2, 3, 4, 5, 6, 7, 8, 10, 11, 12, 13].map (fun n => (0x02, n)) ++
  (List.range 16).map (fun n => (0x03, n)) ++ [1, 2, 3, 4, 5, 6, 7, 8, 9, 10, 11, 12].map (fun n => (0x06, n)) ++
  (List.range 8).map (fun n => (0x07, n)) ++ [(0x08, 6), (0x08, 8)] ++ (List.range 15).map (fun n => (0x09, n)) ++
  [(0x32, 3), (0x36, 5), (0x37, 0)]

/-! ### Frames of register forms -/

/-- R41: an element of a vector register by its number in the register file, wherever the window stands. -/
def regAt (g : Group) (r j : Nat) : Word := get 0 g.v (elemOf r j)

/-- R70, R71: of all vector registers of the group only one changes, or a pair of them: the register WB + d, its elements in
the active lanes, and nothing with NW = 1; and `fst` where the form raises flags. -/
def VecOnly (d : Nat) (pair nw : Bool) (g g' : Group) : Prop :=
  KeepsControl g g' ∧ KeepsOrder g g' ∧ g'.s = g.s ∧ g'.m = g.m ∧ g'.pending = g.pending ∧
  ∀ r j, (r ≠ g.wb + d ∧ (pair = true → r ≠ g.wb + d + 1)) ∨ g.active j = false ∨ nw = true → j < 32 →
    regAt g' r j = regAt g r j

/-- Only a scalar changes, or a pair of them. -/
def ScaOnly (d : Nat) (pair nw : Bool) (g g' : Group) : Prop :=
  KeepsControl g g' ∧ KeepsOrder g g' ∧ g'.v = g.v ∧ g'.m = g.m ∧ g'.pending = g.pending ∧
  ∀ n, (n ≠ d ∧ (pair = true → n ≠ d + 1)) ∨ nw = true → g'.scalar n = g.scalar n

/-- Only a mask changes. -/
def MaskOnly (d : Nat) (g g' : Group) : Prop :=
  KeepsControl g g' ∧ KeepsOrder g g' ∧ g'.v = g.v ∧ g'.s = g.s ∧ g'.pending = g.pending ∧
  ∀ n, n ≠ d → g'.maskAt n = g.maskAt n

/-- Of a mask, only the bits of active lanes change. -/
def LanesOnly (d : Nat) (g g' : Group) : Prop :=
  MaskOnly d g g' ∧ ∀ j, g.active j = false → bit (g'.maskAt d) j = bit (g.maskAt d) j

/-- In every calm group that admits the form and meets `P`, the next state is the same package with that group alone
changed, as `R` says; its launch has run on its core. -/
def Framed (i : Instr) (P : Group → Prop) (R : State → Group → Group → Prop) : Prop :=
  ∀ (s : State) (g : Group), Admits i s g → Calm i g → P g →
    ∃ g', exec i s = .next (ranHere (s.setGroup s.cur g') g) ∧ R s g g'

/-- R230, R435: the element that `vfirst` takes is correct. -/
def FirstGood (a : Code) (g : Group) : Prop := ∀ j ∈ g.activeLanes.head?, badAt g (osrc .vec a) j = false

/-- No FP exception traps in the group. -/
def NoTraps (g : Group) : Prop := trapEnables g.fmt = 0

/-- Flags merged: none is lost. -/
def Merged (g g' : Group) : Prop := ∃ fl : BitVec 5, g'.fst = g.fst ||| fl

/-! ### Shapes of results -/

/-- Group and state after a vector result of words. -/
def vecAfter (i : Instr) (s : State) (g : Group) (d : Code) (nw : Bool) (r : Nat → Word) : State :=
  after i s g (s.setGroup s.cur (if nw then g else g.setLanes d.toNat g.activeLanes r)) (vecLatch g r)

def vecPairAfter (i : Instr) (s : State) (g : Group) (d : Code) (nw : Bool) (r : Nat → DWord) : State :=
  after i s g (s.setGroup s.cur (if nw then g else g.setLanes64 d.toNat g.activeLanes r)) (vecLatch64 g r)

def scaAfter (i : Instr) (s : State) (g : Group) (d : Code) (nw : Bool) (w : Word) : State :=
  after i s g (s.setGroup s.cur (if nw then g else g.setS d.toNat w)) (.sca w)

def maskAfter (i : Instr) (s : State) (g : Group) (d : Code) (w : Word) : State :=
  after i s g (s.setGroup s.cur (g.setM d.toNat w)) .none

/-- After a float result by lane: words or pairs, the flags of every active lane in `fst`, the enabled ones due. -/
def floatAfter (i : Instr) (s : State) (g : Group) (d : Code) (nw pair : Bool) (r : Nat → Res) : State :=
  let fl := g.activeLanes.foldl (fun a j => a ||| (r j).fl) 0
  let lanes := maskOf (g.activeLanes.filter fun j => (r j).fl &&& trapEnables g.fmt != 0)
  if pair then
    let f := fun j => BitVec.ofNat 64 (r j).w
    afterFp i s g (s.setGroup s.cur (mergeFst (writeV64 g d nw f) fl)) (vecLatch64 g f) (fl &&& trapEnables g.fmt) lanes
  else
    let f := fun j => BitVec.ofNat 32 (r j).w
    afterFp i s g (s.setGroup s.cur (mergeFst (writeV g d nw f) fl)) (vecLatch g f) (fl &&& trapEnables g.fmt) lanes

/-! ### Numbers (R114, R123) -/

/-- R114. -/
def formats : List Fmt := [f64, f32, f16, bf16, e5m2, e4m3, mx4]

/-- R114: the number that a finite value is. -/
def valueOf : Val → ℚ
  | .fin n m e => (if n then -(m : ℚ) else m) * 2 ^ e
  | .nan .. | .inf _ => 0

def numberOf (f : Fmt) (w : Nat) : ℚ := valueOf (unpack f w)

/-- An encoding of a format that is a number. -/
def IsNumber (f : Fmt) (w : Nat) : Prop := w < 2 ^ f.bits ∧ ∃ n m e, unpack f w = .fin n m e

/-- A number or an infinity, in order (-0 and +0 are one); a NaN counts as 0. -/
def orderOf : Val → WithBot (WithTop ℚ)
  | .inf true => ⊥
  | .inf false => ((⊤ : WithTop ℚ) : WithBot (WithTop ℚ))
  | v => ((valueOf v : WithTop ℚ) : WithBot (WithTop ℚ))

/-- R123: the encoding `w` is the value that a mode takes the exact x to: the nearest (of two, the one whose least mantissa bit
is 0), the nearest of no greater magnitude, no less, no greater. -/
def RoundsTo (f : Fmt) (rm : Rm) (x : ℝ) (w : Nat) : Prop :=
  IsNumber f w ∧ match rm with
    | .rne => ∀ u, IsNumber f u → |(numberOf f w : ℝ) - x| ≤ |(numberOf f u : ℝ) - x| ∧
        (|(numberOf f w : ℝ) - x| = |(numberOf f u : ℝ) - x| → numberOf f u ≠ numberOf f w → w % 2 = 0)
    | .rtz => |(numberOf f w : ℝ)| ≤ |x| ∧ 0 ≤ (numberOf f w : ℝ) * x ∧
        ∀ u, IsNumber f u → |(numberOf f u : ℝ)| ≤ |x| → |numberOf f u| ≤ |numberOf f w|
    | .rup => x ≤ numberOf f w ∧ ∀ u, IsNumber f u → x ≤ numberOf f u → numberOf f w ≤ numberOf f u
    | .rdn => (numberOf f w : ℝ) ≤ x ∧ ∀ u, IsNumber f u → (numberOf f u : ℝ) ≤ x → numberOf f u ≤ numberOf f w

/-- R123, R126: a result is the exact x rounded. Within the format's range NX says that it differs from x, UF comes with NX below
the least normal number only, and there always from half of it down; from twice the largest finite value on it is the value of
R123's table for overflow, with OF and NX. -/
def Rounded (f : Fmt) (rm : Rm) (x : ℝ) (r : Res) : Prop :=
  (|x| ≤ numberOf f f.maxBits → RoundsTo f rm x r.w ∧ (r.fl &&& fNX ≠ 0 ↔ (numberOf f r.w : ℝ) ≠ x) ∧
    r.fl &&& (fNV ||| fDZ ||| fOF) = 0 ∧ (r.fl &&& fUF ≠ 0 → (numberOf f r.w : ℝ) ≠ x ∧ |x| < 2 ^ f.emin) ∧
    (2 * |x| ≤ 2 ^ f.emin → (numberOf f r.w : ℝ) ≠ x → r.fl &&& fUF ≠ 0)) ∧
  ∀ neg : Bool, (neg = true ↔ x < 0) → 2 * (numberOf f f.maxBits : ℝ) ≤ |x| →
    r = ⟨signed f neg (overflowBits f rm neg), fOF ||| fNX⟩

/-- R123: a real rounded to an integer. -/
def IntRounds (rm : Rm) (x : ℚ) (n : Int) : Prop :=
  match rm with
  | .rne => |(n : ℚ) - x| ≤ 1 / 2 ∧ (|(n : ℚ) - x| = 1 / 2 → n % 2 = 0)
  | .rtz => n = if 0 ≤ x then ⌊x⌋ else ⌈x⌉
  | .rup => n = ⌈x⌉
  | .rdn => n = ⌊x⌋

/-- R132: the fixed binary tree over lane numbers: the value of node i of a level, over the lanes that are present. -/
def treeNode (op : Res → Res → Res) (leaf : Nat → Option Res) : Nat → Nat → Option Res
  | 0, i => leaf i
  | l + 1, i => match treeNode op leaf l (2 * i), treeNode op leaf l (2 * i + 1) with
    | some x, some y => some (op x y)
    | some x, none => some x
    | none, y => y

/-! ### Uncorrectable operands (R230, R231) -/

/-- The group may issue the instruction (`Admits`), but that some active lanes consume an uncorrectable element. -/
def Consumes (i : Instr) (s : State) (g : Group) (lanes : Word) : Prop :=
  s.group? s.cur = some g ∧ g.status = .ready ∧ (s.coreAt g.core).scanning = false ∧ decodeFault s g i = none ∧
  stalled g i = false ∧ readsBadScalar g i = false ∧ unreadBy g i = [] ∧ consuming s g i (oprsOf g.fmt i) = lanes ∧ lanes ≠ 0

/-- The group may issue the instruction, but that it reads statuses that join operations (R183). -/
def Reads (i : Instr) (s : State) (g : Group) (ds : List Nat) : Prop :=
  s.group? s.cur = some g ∧ g.status = .ready ∧ (s.coreAt g.core).scanning = false ∧ decodeFault s g i = none ∧
  stalled g i = false ∧ readsBadScalar g i = false ∧ unreadBy g i = ds ∧ ds ≠ [] ∧
  consuming s g i (oprsOf g.fmt i) = 0

/-- The load of a gather, or of a contiguous access. -/
def gatherOf (s : State) (g : Group) (d : Code) (st : BitVec 4) (x : Bool) (size : Nat) (signed pair : Bool)
    (hits : List (Nat × Hit)) : PendLoad :=
  loadOf s g st.toNat x pair (hits.map fun e => loadPart s g st.toNat (some e.1) (g.wb + d.toNat) size signed e.2)
    (maskOf (hits.filterMap fun e => if e.2.nonres then some e.1 else none))

def scalarLoadOf (s : State) (g : Group) (d : Code) (st : BitVec 4) (x : Bool) (size : Nat) (h : Hit) : PendLoad :=
  loadOf s g st.toNat x (size == 8) [loadPart s g st.toNat none d.toNat size false h] (if h.nonres then 1 else 0)

/-- After a load: its value has returned, or each lane's is outstanding. Outstanding stores whose bytes it takes, and what
they follow, come before later accesses of its stream (`takeOwn`). -/
def loadAfter (i : Instr) (s : State) (g : Group) (l : PendLoad) (hs : List Hit) : State :=
  let s1 := (markHits s hs).updGroup s.cur fun g' =>
    takeOwn (markHits s hs) l.stream (audOf s.cur g'.core l.scope) (loadPlaces l) g'
  if s.late then after i s g (s1.updGroup s.cur fun g' => { g' with loads := g'.loads ++ splitLoad l }) .none
  else after i s g (returnLoad s1 s.cur l) .none

/-- The marks that accesses leave in page tables (R150, R151) lie apart from a location. -/
def LeavesApart (hs : List Hit) (s : State) (l : Nat) : Prop :=
  ∀ h ∈ hs, ∀ ps m, h.leaf = some (ps, m) → ∀ p ∈ ps, Apart s p l

/-- The bytes of accesses of a size lie apart from a location. -/
def BytesApart (hs : List Hit) (size : Nat) (s : State) (l : Nat) : Prop :=
  ∀ h ∈ hs, ∀ i < size, Apart s (homeOf s (h.place + i)) l

/-- What a load made at once leaves of its group: control, sticky flags, its outstanding stores (the streams that follow
them apart), masks but `m7`. -/
def LoadKeeps (g g' : Group) : Prop :=
  KeepsControl g g' ∧ g'.fst = g.fst ∧ (∀ n, n ≠ 7 → g'.maskAt n = g.maskAt n) ∧
  g'.wbuf.map (fun w => { w with also := [], acq := [] }) = g.wbuf.map fun w => { w with also := [], acq := [] }

/-- R146: range operations, with what they do. -/
def rangeForms : List ((BitVec 4 → Code → Code → Instr) × RangeKind) :=
  [(.cflush, .flush), (.cinv, .inv), (.czero, .zero)]

/-- R193: the forms that send lanes; whether the owners come from addresses. -/
def hopForms : List ((Code → Instr) × Bool) := [(.hop, true), (.hopx, false)]

/-- R193: the lanes of a list of owners that do not stay on this core. -/
def leaving (s : State) (g : Group) (os : List (Nat × Word)) : List (Nat × Word) :=
  os.filter fun e => !(ownPkg e.2 == s.pkgid && ownCore e.2 == g.core)

/-- R193: lanes sent from a group, `m7` gaining bits. -/
def sent (s : State) (gid : Nat) (g : Group) (out : List (Nat × Word)) (m7 : Word) : State :=
  let s1 := { out.foldl (sendLane g gid) s with ctr := s.ctr + 1 }
  s1.updGroup gid fun g' => refreshLevels s1 (leaveLanes (g'.orM7 m7) (maskOf (out.map (·.1))))

/-- R193: the lanes that stay and are owned by no resident page, for `m7`. -/
def stayNres (s : State) (g : Group) (os : List (Nat × Word)) : Word :=
  maskOf ((os.filter fun e => ownPkg e.2 == s.pkgid && ownCore e.2 == g.core && ownNres e.2).map (·.1))

/-- R258, R259. -/
def productForms : List ((Code → Code → Code → Instr) × Bool) := [(.mma, false), (.mmab, true)]

/-- R270: near-bank instructions, with the bytes of their record and what it asks for. -/
def bankForms : List ((Code → Code → BitVec 4 → Instr) × Nat × (List Byte → BankCmd)) :=
  [(.ivsld, 32, ivCmd), (.bmac, 32, bmCmd), (.embw, 64, emCmd)]

/-- R302: the load of `sfld`; a lane outside the surface receives 0. -/
def pixelLoadOf (s : State) (g : Group) (d : Code) (v : Word) (h : Sfte) (hs : List (Nat × Hit)) : PendLoad :=
  loadOf s g (fieldNat v 14 4) false (pixelBytes h.fmt == 8)
    (g.activeLanes.map fun j =>
      { lane := some j, reg := g.wb + d.toNat, signed := false, cp := none, atom := none, texel := none,
        places := (match find hs j with | some x => hitPlaces x (pixelBytes h.fmt) | none => []),
        known := if (find hs j).isSome then none else some 0 }) 0

/-- R68, R85: the schedule says that a group issues: leaving its accesses outstanding, or taking old bytes (log 4). -/
def Scheduled (s : State) (gid : Nat) (late old : Bool) (rest : List Action) : Prop :=
  (s.agenda = .issue gid late :: rest ∧ old = false ∨ s.agenda = .issueOld gid :: rest ∧ late = false ∧ old = true) ∧
  s.fatal = false ∧ s.recovery = false

/-- The state in which the group's turn begins. -/
def turnOf (s : State) (gid : Nat) (late old : Bool) (rest : List Action) : State :=
  { s with agenda := rest, cur := gid, late := late, stale := old }

/-- Nothing stands before a Ready group's next instruction: no scan, no chain of another group of its quarter (R48), no end
without live lanes (R75), no FP trap or halt due at the end of its chain, no trap timer, no breakpoint. -/
def Free (s : State) (gid : Nat) (g : Group) : Prop :=
  s.group? gid = some g ∧ g.status = .ready ∧ (s.coreAt g.core).scanning = false ∧ quarterTaken s gid g = false ∧
  (g.lmask ≠ 0 ∨ chainOver s g g.pc = false) ∧
  fpDue s g = false ∧ (haltOwed g = false ∨ atBoundary s g = false) ∧ timerDue s g = false ∧ breakpointDue s g = false

/-- The word at an address is fetched, and it is no instruction or one that reads no latch: it joins no chain (R43). -/
def NoJoin (s : State) (g : Group) (next : DWord) : Prop :=
  ∃ w h, fetchAt s g next = .ok (w, h) ∧ ∀ i, decode w = .ok i → joins (oprsOf g.fmt i) = false

/-- R57, R60; log 25: a fault of a word that is turned away before any latch is read, whatever chain it would join. -/
def turnedAway (i : Instr) (s : State) (g : Group) (c : Cause) : State :=
  raise (ranHere s g) s.cur g false c 0 0 (insWord i)

/-- R96 to R98: a queue has a record at its HEAD, which it is served for in `s1` and does not pass over. -/
def AtHead (s : State) (q : Nat) (s1 : State) (c : Cmd) : Prop :=
  ∃ s0, fetchCmd s q = .cmd s0 c ∧ mayServe s q = true ∧ s1 = serve s0 q ∧ skipping (s1.queueAt q).opens = false

/-! ### Operands of the matrix engine -/

/-- Element k of `w` bits of row c among the 32 bytes that lane j's registers vn + 8c to vn + 8c + 7 hold (R251). -/
def laneElem (g : Group) (n j c w k : Nat) : Nat := (g.vcode (n + 8 * c + w * k / 32) j).toNat / 2 ^ (w * k % 32) % 2 ^ w

/-- Element k of `w` bits among the bytes of a row (R118, R253). -/
def byteElem (byte : Nat → Nat) (w k : Nat) : Nat :=
  if w = 16 then byte (2 * k) + 256 * byte (2 * k + 1) else if w = 4 then byte (k / 2) / 16 ^ (k % 2) % 16 else byte k

/-- The integer that plane words 0 to `bpn` give at bit j: floor(x / 2^(7 - bpn)) of the s8 x (R119, R120). -/
def planeValue (bpn : Nat) (plane : Nat → Nat) (j : Nat) : Int :=
  readInt true 8 (((List.range 8).map fun p => plane p / 2 ^ j % 2 * 2 ^ (7 - p)).sum) / 2 ^ (7 - bpn)

/-- A row of K elements: floats by K-group with the scale of each group's block, or s8. -/
def RowIs (sh : MtxShape) (m : Nat) (r : MtxRow) (elem scale : Nat → Nat) : Prop :=
  (sh.cls = 5 → r.ints = (List.range sh.k).map fun k => readInt true 8 (elem k)) ∧
  (sh.cls ∈ [1, 2, 3] → groupSize sh.cls ∣ sh.k →
    r.groups.flatMap (·.1) = (List.range sh.k).map (fun k => unpack (matFmt m) (elem k)) ∧
    (∀ e ∈ r.groups, e.1.length = groupSize sh.cls) ∧
    (sh.cls = 3 → r.groups.map (·.2) = (List.range (sh.k / 8)).map fun t => scale (t * 8 / 32)))

end Sys2Proof.Claims

open Sys2Proof Sys2Proof.Machine Sys2Proof.Machine.Assoc Sys2Proof.Machine.Bits Sys2Proof.Machine.Float Sys2Proof.Claims

/-! ## Words -/

/-- R30, R32, R52 to R55: For every instruction whose fields fit the encoding (shapeOk) and that has a word, decoding
that word gives exactly the instruction, with every operand at every value that the encoding admits. -/
def Obligations.DecodeOfEncode : Prop :=
  ∀ (i : Instr) (w : Word), i.shapeOk = true → encode i = some w → decode w = .ok i

/-- R40, R52 to R56: For every word that decodes to an instruction, encoding that instruction gives the word back, so
that no two words decode to one instruction and no bit of a word is ignored. -/
def Obligations.EncodeOfDecode : Prop :=
  ∀ (w : Word) (i : Instr), decode w = .ok i → encode i = some w

/-- R40, R47, R56: Words of major 00, with a reserved FN in the majors of format F3 (02, 04, 06 to 09, 19, 30 to 37),
a reserved type or rounding in major 05, a reserved scope of fence or xfence, CND 6 or 7 in major 15, CND 3 to 7 in
major 16 or END12 = 0 in major 1A have the fate UNDEF. A word of those majors whose form leaves a bit set that no
operand uses, a form that admits NW with NW = 1 and D not zero, a vredmin or vredmax with the reserved KIND 3, and
unused bits of fence, xfence, the scalar shifts, loop and trap set, have the fate RSVBIT. -/
def Obligations.ReservedWords : Prop :=
  (∀ w : Word, fieldNat w 26 6 = 0 → decode w = .error .undef) ∧
  (∀ e ∈ reservedFns, ∀ w : Word, fieldNat w 26 6 = e.1 → e.2 ≤ fieldNat w 0 4 → decode w = .error .undef) ∧
  (∀ w : Word, fieldNat w 26 6 = 0x05 → fieldNat w 0 4 = 15 ∨ fieldNat w 5 4 = 15 ∨ 5 ≤ fieldNat w 9 3 →
    decode w = .error .undef) ∧
  (∀ w : Word, fieldNat w 26 6 = 0x30 → fieldNat w 0 4 = 0 → 5 ≤ fieldNat w 12 3 → decode w = .error .undef) ∧
  (∀ w : Word, fieldNat w 26 6 = 0x30 → fieldNat w 0 4 = 1 → 5 ≤ fieldNat w 19 3 → decode w = .error .undef) ∧
  (∀ w : Word, fieldNat w 26 6 = 0x15 → 6 ≤ fieldNat w 16 3 → decode w = .error .undef) ∧
  (∀ w : Word, fieldNat w 26 6 = 0x16 → 3 ≤ fieldNat w 16 3 → decode w = .error .undef) ∧
  (∀ w : Word, fieldNat w 26 6 = 0x1A → fieldNat w 7 12 = 0 → decode w = .error .undef) ∧
  (∀ e ∈ zeroBits, ∀ w : Word, fieldNat w 26 6 = e.1 → fieldNat w 0 4 = e.2.1 → w &&& e.2.2 ≠ 0 →
    decode w = .error .rsvbit) ∧
  (∀ e ∈ nwForms, ∀ w : Word, fieldNat w 26 6 = e.1 → fieldNat w 0 4 = e.2 → bit w 4 = true → fieldNat w 19 7 ≠ 0 →
    decode w = .error .rsvbit) ∧
  (∀ w : Word, fieldNat w 26 6 = 0x05 → fieldNat w 0 4 ≠ 15 → fieldNat w 5 4 ≠ 15 → fieldNat w 9 3 < 5 → bit w 4 = true →
    fieldNat w 19 7 ≠ 0 → decode w = .error .rsvbit) ∧
  (∀ w : Word, fieldNat w 26 6 = 0x06 → (fieldNat w 0 4 = 8 ∨ fieldNat w 0 4 = 9) → fieldNat w 5 2 = 3 →
    decode w = .error .rsvbit) ∧
  (∀ w : Word, fieldNat w 26 6 = 0x30 → fieldNat w 0 4 = 0 → fieldNat w 12 3 < 5 → w &&& 0x3878FF0 ≠ 0 →
    decode w = .error .rsvbit) ∧
  (∀ w : Word, fieldNat w 26 6 = 0x30 → fieldNat w 0 4 = 1 → fieldNat w 19 3 < 5 → w &&& 0x3C00FF0 ≠ 0 →
    decode w = .error .rsvbit) ∧
  (∀ w : Word, fieldNat w 26 6 = 0x0E ∨ fieldNat w 26 6 = 0x0F ∨ fieldNat w 26 6 = 0x10 → fieldNat w 5 7 ≠ 0 →
    decode w = .error .rsvbit) ∧
  (∀ w : Word, fieldNat w 26 6 = 0x1A → fieldNat w 7 12 ≠ 0 → fieldNat w 0 7 ≠ 0 → decode w = .error .rsvbit) ∧
  (∀ w : Word, fieldNat w 26 6 = 0x1B → fieldNat w 19 7 ≠ 0 → decode w = .error .rsvbit)

/-- Fourteen words, written out as the reference entries print them, decode to the instructions beside which they are
printed. -/
def Obligations.PrintedWords : Prop :=
  decode 0x04283D40 = .ok (.vadd 5 3 106 false) ∧ decode 0x20082060 = .ok (.mand 1 2 3) ∧
  decode 0x28183FFF = .ok (.saddi 3 3 0xFFF) ∧ decode 0x48A00000 = .ok (.sli 20 0) ∧
  decode 0x4C280201 = .ok (.slui 5 0x201) ∧ decode 0x5448003E = .ok (.b_eq 9 0x3E) ∧
  decode 0x5838FFF0 = .ok (.bm_any 7 0xFFF0) ∧ decode 0x98202042 = .ok (.vldc 4 2 2 1 false) ∧
  decode 0xC0284008 = .ok (.cbget 5 4) ∧ decode 0xC4005001 = .ok (.evmask 5) ∧ decode 0xC8005004 = .ok (.hopcfg 5) ∧
  decode 0xCC500006 = .ok (.mfence 10) ∧ decode 0xC8404003 = .ok (.owner 8 4 false) ∧
  decode 0x0438_7D0B = .ok (.vsra 7 7 104 false)

/-! ## The step -/

/-- R68, R30, R48, R107; the order of steps is log 3: When the schedule (the model's choice, log 3) says that a group
issues, and nothing stands before its next instruction (it is Ready; its core is not scanned; no other group of its
quarter is inside a chain; a lane lives; no enabled exception or halt is due at the end of its chain; no trap timer
and no breakpoint is due), and the word at its PC is fetched without an uncorrectable byte and decodes to an
instruction whose chain lacks nothing (R107), then the step is exec of that instruction, in the state that notes the
fetch (the page's leaf marked, the core noted as one the launch ran on). -/
def Obligations.StepRunsDecoded : Prop :=
  ∀ (s : State) (gid : Nat) (late old : Bool) (rest : List Action) (g : Group) (w : Word) (h : Hit) (i : Instr),
    Scheduled s gid late old rest → Free (turnOf s gid late old rest) gid g →
    fetchAt (turnOf s gid late old rest) g g.pc = .ok (w, h) → hitBad (turnOf s gid late old rest) h 4 = false →
    decode w = .ok i →
    let s1 := markHit (turnOf s gid late old rest) h
    headWaits s1 g i = false → step s = exec i s1

/-- R49, R56, R224, R231; the order of steps is log 3; log 25: In the same circumstances (the order of steps is the
model's choice, log 3), a word that decodes to no instruction makes the step that of UNDEFINED_WORD on it, and a word
that cannot be fetched makes it that of FETCH_FAULT. UNDEFINED_WORD on a Ready group raises UNDEF or RSVBIT, as the
word decodes (UNDEF where FMT makes its form undefined too), with TINS the word; FETCH_FAULT raises the cause of the
fetch with TADDR the PC, as a fault of the chain where one has not ended or where the word executes again in one, or
kills the group on an uncorrectable word. Neither acts while the core is scanned, UNDEFINED_WORD not before an FP trap
that is due. That UNDEF and RSVBIT of a word that is no instruction are raised at the word and leave the chain before
it standing is the model's reading of R49 and R56 (DEDUCED, log 25), not the spec's words. -/
def Obligations.StepOfNoInstruction : Prop :=
  (∀ (s : State) (gid : Nat) (late old : Bool) (rest : List Action) (g : Group),
    Scheduled s gid late old rest → Free (turnOf s gid late old rest) gid g →
    let s0 := turnOf s gid late old rest
    (∀ w h f, fetchAt s0 g g.pc = .ok (w, h) → hitBad s0 h 4 = false → decode w = .error f →
      step s = exec (.undefined_word w) (markHit s0 h)) ∧
    (∀ c, fetchAt s0 g g.pc = .error c → step s = exec .fetch_fault s0)) ∧
  (∀ (w : Word) (s : State) (g : Group), s.group? s.cur = some g → g.status = .ready → (s.coreAt g.core).scanning = false →
    fpDue s g = false →
    (decode w = .error .undef → exec (.undefined_word w) s = .next (raise (ranHere s g) s.cur g false .undef 0 0 w)) ∧
    (decode w = .error .rsvbit → undefWord g.fmt w = false →
      exec (.undefined_word w) s = .next (raise (ranHere s g) s.cur g false .rsvbit 0 0 w)) ∧
    (decode w = .error .rsvbit → undefWord g.fmt w = true →
      exec (.undefined_word w) s = .next (raise (ranHere s g) s.cur g false .undef 0 0 w))) ∧
  (∀ (c : Cause) (s : State) (g : Group), s.group? s.cur = some g → g.status = .ready →
    (s.coreAt g.core).scanning = false →
    fetchAt s g g.pc = .error c → exec .fetch_fault s = .next (raise s s.cur g (!g.chain.ended || standsIn g) c 0 g.pc 0)) ∧
  (∀ (s : State) (g : Group) (w : Word) (h : Hit), s.group? s.cur = some g → g.status = .ready →
    (s.coreAt g.core).scanning = false →
    fetchAt s g g.pc = .ok (w, h) → hitBad s h 4 = true → exec .fetch_fault s = .next (uceKill s s.cur g.pc)) ∧
  (∀ (w : Word) (s : State) (g : Group), s.group? s.cur = some g → (s.coreAt g.core).scanning = true →
    exec (.undefined_word w) s = .next s ∧ exec .fetch_fault s = .next s) ∧
  (∀ (w : Word) (s : State) (g : Group), s.group? s.cur = some g → fpDue s g = true → exec (.undefined_word w) s = .next s)

/-- R334, R338; log 23: When the schedule says that a group issues and the package has had a fatal error, the step
stops with the fault issueStopped; in recovery it stops with the fault inRecovery. That the model stops there is its
choice (log 23); the spec says that nothing issues. -/
def Obligations.FatalStops : Prop :=
  ∀ (s : State) (gid : Nat) (late : Bool) (rest : List Action),
    s.agenda = .issue gid late :: rest ∨ s.agenda = .issueOld gid :: rest →
    (s.fatal = true → step s = .fault .issueStopped) ∧
    (s.fatal = false → s.recovery = true → step s = .fault .inRecovery)

/-! ## What follows an effect -/

/-- R43 to R48, R75, R78, R226: If the effect of an instruction only replaces its group, and the group is calm (a lane
lives, no single step or halt is due, its chain has raised no enabled exception), then what follows is the advance of
that group: chain, last word and passed breakpoint are updated, the chain gains the latch, and every other part of the
state is as before. The advance (R78): away from a loop end the group goes to the next word; at the end of a body with
passes left, one pass is counted and it goes to the start; on the last pass of the only loop the loop is popped and it
goes to the next word; the same where the next loop out does not end there, or lies below the depth noted at trap
entry; where the next loop out ends there too, the processing goes on as that loop's end. -/
def Obligations.CalmCompletion : Prop :=
  (∀ (i : Instr) (s : State) (g g' : Group) (l : Latch), Calm i g → s.group? s.cur = some g →
    g'.status = .ready → g'.lmask ≠ 0 → g'.dbg.step = false → g'.dbg.haltDue = false →
    ∃ c : Chain, after i s g (s.setGroup s.cur g') l =
      ranHere (s.setGroup s.cur (advance { g' with chain := c, ins := insWord i, dbg := { g'.dbg with passed := none } })) g ∧
      c.latches = l :: (chainAt g (oprsOf g.fmt i)).latches ∧ c.fpFlags = 0) ∧
  (∀ g : Group,
    (atLoopEnd g g.pc = false → advance g = { g with pc := g.pc + 4 }) ∧
    (∀ top rest, g.lstack = top :: rest → atLoopEnd g g.pc = true → 1 < top.left →
      advance g = { g with lstack := { top with left := top.left - 1 } :: rest, pc := top.start }) ∧
    (∀ top, g.lstack = [top] → atLoopEnd g g.pc = true → top.left ≤ 1 →
      advance g = { g with lstack := [], pc := g.pc + 4 }) ∧
    (∀ top nxt rest, g.lstack = top :: nxt :: rest → atLoopEnd g g.pc = true → top.left ≤ 1 → nxt.last ≠ g.pc →
      advance g = { g with lstack := nxt :: rest, pc := g.pc + 4 }) ∧
    (∀ top nxt rest, g.lstack = top :: nxt :: rest → atLoopEnd g g.pc = true → top.left ≤ 1 → nxt.last = g.pc →
      g.loopBase < (nxt :: rest).length → advance g = advance { g with lstack := nxt :: rest }) ∧
    (∀ top nxt rest, g.lstack = top :: nxt :: rest → atLoopEnd g g.pc = true → top.left ≤ 1 →
      (nxt :: rest).length ≤ g.loopBase → advance g = { g with lstack := nxt :: rest, pc := g.pc + 4 }))

/-- R50, R128, R244; logs 27 and 29: An instruction with which its chain is over (a side effect, a loop end, or a next
word that joins nothing), with exceptions of its own or of earlier instructions of the chain, is followed by the trap
of the highest-priority one (over all that the chain raised: the model's choice, DESIGN CHOICE, log 29, R128 giving
its order for one instruction): TPC at the instruction, TNEXT = TPC + 4, TLANES every lane of the chain that raised
one, TINS the first word that did; the PC has not advanced, and a single step still halts. A jump that ends a chain
with exceptions due does the same. Where the next word cannot be fetched the chain goes on and keeps what is due, and
a single step then still owes its halt. At a boundary with STEP = 1 a Ready group with a live lane halts, TPC and
TNEXT at its PC, and the halt is reported; that both are at the PC there is the model's choice (DESIGN CHOICE, log 27:
R244 gives them for a breakpoint only). -/
def Obligations.ChainEndTrap : Prop :=
  (∀ (i : Instr) (s : State) (g g' : Group) (l : Latch) (fp : BitVec 5) (lanes : Word),
    let c := chainAt g (oprsOf g.fmt i)
    let flags := c.fpFlags ||| fp
    let first := if c.fpFlags = 0 then insWord i else c.fpIns
    let all := if fp = 0 then c.fpLanes else c.fpLanes ||| lanes
    flags ≠ 0 → g'.pc = g.pc →
    (sideEffect i = true ∨ atLoopEnd g' g.pc = true ∨ NoJoin s g' (g.pc + 4) →
      ∃ g2, afterFp i s g (s.setGroup s.cur g') l fp lanes = haltTrapped (trapBoundary (ranHere (s.setGroup s.cur g2) g) s.cur
          ⟨fpCause flags, false, g.pc, g.pc + 4, all, 0, first⟩) s.cur ∧
        g2 = { g' with chain := g2.chain, ins := insWord i, dbg := { g'.dbg with passed := none } }) ∧
    (sideEffect i = false → atLoopEnd g' g.pc = false →
      (∀ r, fetchAt s g' (g.pc + 4) ≠ .ok r) →
      ∃ g2, afterFp i s g (s.setGroup s.cur g') l fp lanes = ranHere (s.setGroup s.cur g2) g ∧ g2.pc = g.pc + 4 ∧
        g2.chain.fpFlags = flags ∧ g2.chain.fpLanes = all ∧ g2.chain.fpIns = (if fp = 0 then c.fpIns else first))) ∧
  (∀ (i : Instr) (s : State) (g g' : Group), (chainAt g (oprsOf g.fmt i)).fpFlags ≠ 0 →
    let c := chainAt g (oprsOf g.fmt i)
    ∃ g2, jumped i s g (s.setGroup s.cur g') = haltTrapped (trapBoundary (ranHere (s.setGroup s.cur g2) g) s.cur
        ⟨fpCause c.fpFlags, false, g.pc, g.pc + 4, c.fpLanes, 0, c.fpIns⟩) s.cur ∧
      g2 = { g' with chain := g2.chain, ins := insWord i, dbg := { g'.dbg with passed := none } }) ∧
  (∀ (s : State) (gid : Nat) (g : Group), s.group? gid = some g → g.lmask ≠ 0 → g.dbg.step = true →
    g.status = .ready → ∃ g', boundary s gid = report (s.setGroup gid g') (.halt gid) ∧ g'.status = .halted none ∧
      g'.trap.tpc = g.pc ∧ g'.trap.tnext = g.pc)

/-! ## Traps -/

/-- R223, R224: A trap whose cause is delivered to handlers, with TVEC not zero and aligned and INTRAP = 0, replaces
its group alone: PC := TVEC, Ready, TCAUSE, INCHAIN, TPC, TNEXT, TLANES, TADDR and TINS filled, LBASE := loop depth,
INTRAP := 1, no chain; AMASK, LMASK, AWAY, masks, mask stack, FMT, WB, events, loop stack, scalars and vectors stay.
-/
def Obligations.TrapEntry : Prop :=
  ∀ (s : State) (gid : Nat) (g : Group) (i : TrapInfo), s.group? gid = some g →
    causeToHandler i.cause = true → g.trap.tvec ≠ 0 → g.trap.tvec &&& 3 = 0 → g.trap.intrap = false →
    ∃ g', takeTrap s gid i = s.setGroup gid g' ∧ g'.pc = g.trap.tvec ∧ g'.status = .ready ∧ g'.chain.ended = true ∧
      g'.trap = { tvec := g.trap.tvec, inchain := i.inchain, cause := causeCode i.cause,
                  lbase := BitVec.ofNat 3 g.lstack.length, intrap := true, tpc := i.tpc, tnext := i.tnext,
                  tlanes := i.tlanes, taddr := i.taddr, tins := i.tins } ∧
      g'.amask = g.amask ∧ g'.lmask = g.lmask ∧ g'.away = g.away ∧ g'.m = g.m ∧ g'.mstack = g.mstack ∧ g'.fmt = g.fmt ∧
      g'.wb = g.wb ∧ g'.ev = g.ev ∧ g'.lstack = g.lstack ∧ g'.s = g.s ∧ g'.v = g.v

/-- R225, R201: A trap that is not deliverable is reported, in either case, with its cause, core, slot, WID, TPC,
TADDR and TLANES. With a debugger attached a group that is no migrant halts with TCAUSE and TPC filled and PC, TVEC
and INTRAP unchanged, and the halt is reported; without one, and a migrant always, the group has no live and no active
lane left and stands at its exit. -/
def Obligations.TrapUndeliverable : Prop :=
  ∀ (s : State) (gid : Nat) (g : Group) (i : TrapInfo), s.group? gid = some g → deliverable g i.cause = false →
    (debuggerOn s g = true → isMigrant g = false →
      ∃ (s' : State) (g' : Group), takeTrap s gid i = report (s'.setGroup gid g') (.halt gid) ∧
      s'.reports = s.reports ++ [.fault (causeCode i.cause).toNat g.core (slotOf g) g.wid i.tpc i.taddr i.tlanes] ∧
      g'.status = .halted none ∧ g'.pc = g.pc ∧ g'.trap.tvec = g.trap.tvec ∧ g'.trap.intrap = g.trap.intrap ∧
      g'.trap.cause = causeCode i.cause ∧ g'.trap.tpc = i.tpc) ∧
    (debuggerOn s g = false ∨ isMigrant g = true → (takeTrap s gid i).reports =
        s.reports ++ [.fault (causeCode i.cause).toNat g.core (slotOf g) g.wid i.tpc i.taddr i.tlanes] ∧
      ∃ g' : Group, (takeTrap s gid i).group? gid = some g' ∧ g'.lmask = 0 ∧ g'.amask = 0 ∧
        g'.status = .parked .exit)

/-- R226, R229, R78: The return from a trap clears INTRAP and leaves the other trap registers, AMASK, FMT, masks, mask
stack and WB as they are. With INTRAP = 1 the loop stack is popped to the depth LBASE. Where the top loop that remains
does not end just before TNEXT, PC := TNEXT; where it does, the processing at a loop end follows. -/
def Obligations.TrapReturn : Prop :=
  ∀ g : Group, ∃ g', g' = returnFromTrap g ∧ g'.trap = { g.trap with intrap := false } ∧ g'.amask = g.amask ∧
    g'.fmt = g.fmt ∧ g'.m = g.m ∧ g'.mstack = g.mstack ∧ g'.wb = g.wb ∧
    let ls := if g.trap.intrap then g.lstack.drop (g.lstack.length - g.trap.lbase.toNat) else g.lstack
    (g.trap.intrap = true → ls.length = min g.lstack.length g.trap.lbase.toNat) ∧
    ((∀ top rest, ls = top :: rest → top.last ≠ g.trap.tnext - 4) → g'.pc = g.trap.tnext ∧ g'.lstack = ls) ∧
    (∀ top rest, ls = top :: rest → top.last = g.trap.tnext - 4 →
      (g'.lstack, g'.pc) = loopEnd 0 (g.trap.tnext - 4) ls)

/-- R49, R56, R57; log 25: When the decode checks of a Ready group's instruction, on a core that is not scanned,
answer a fault, the instruction only raises that fault with TLANES and TADDR zero, in the chain only where faultJoins
says so. A form that FMT makes undefined raises UNDEF; else a register number from 0x60 up in user mode raises PRIV;
else an operand code that its kind does not admit, whatever FMT holds, raises OPND. That PRIV and OPND of the word
never join the chain, and that the others join it where faultJoins says so, is the model's reading of R49 and R56
(DEDUCED, log 25), not the spec's words. -/
def Obligations.DecodeFaultRaised : Prop :=
  ∀ (i : Instr) (body : State → Nat → Group → Effect) (s : State) (g : Group) (c : Cause),
    s.group? s.cur = some g → g.status = .ready → (s.coreAt g.core).scanning = false → decodeFault s g i = some c →
    issue i body s = .next (raise (ranHere s g) s.cur g (faultJoins s g i) c 0 0 (insWord i)) ∧
    (undefByFmt g.fmt i = true → c = .undef) ∧
    (undefByFmt g.fmt i = false → (∃ n, csrNumber i = some n ∧ 0x60 ≤ n ∧ g.priv = false) →
      c = .priv ∧ faultJoins s g i = false) ∧
    (undefByFmt g.fmt i = false → (∀ n, csrNumber i = some n → n < 0x60 ∨ g.priv = true) →
      codesOk (oprsOf 0 i) = false → c = .opnd ∧ faultJoins s g i = false)

/-- R49, R56: A deliverable fault outside a chain leaves TPC = TNEXT = the PC, TINS, TLANES and TADDR as given,
INCHAIN 0 and every register as it was. Inside a chain, unless it is CHAIN or LATCH, TPC = TNEXT = the chain's head,
INCHAIN is 1, and every scalar, every mask and every element of a vector register that the chain wrote holds what it
held at the head, every other one what it holds. -/
def Obligations.FaultIsPrecise : Prop :=
  ∀ (s : State) (gid : Nat) (g : Group) (c : Cause) (lanes : Word) (addr : DWord) (w : Word),
    s.group? gid = some g → deliverable g c = true → g.lmask ≠ 0 →
    (∃ g', raise s gid g false c lanes addr w = s.setGroup gid g' ∧ g'.trap.tpc = g.pc ∧ g'.trap.tnext = g.pc ∧
      g'.trap.tins = w ∧ g'.trap.tlanes = lanes ∧ g'.trap.taddr = addr ∧ g'.trap.inchain = false ∧ g'.v = g.v ∧
      g'.s = g.s ∧ g'.m = g.m) ∧
    (c ≠ .chain → c ≠ .latch → ∃ g', raise s gid g true c lanes addr w = s.setGroup gid g' ∧
      g'.trap.tpc = g.chain.head ∧ g'.trap.tnext = g.chain.head ∧ g'.trap.inchain = true ∧
      (∀ n, RegId.s n ∈ g.chain.writes → g'.scalar n = get 0 g.chain.savedS n) ∧
      (∀ n, RegId.s n ∉ g.chain.writes → g'.scalar n = g.scalar n) ∧
      (∀ n j, RegId.v n ∈ g.chain.writes → j < 32 →
        get 0 g'.v (elemOf (g.chain.wb + n) j) = get 0 g.chain.savedV (elemOf (g.chain.wb + n) j)) ∧
      (∀ r j, j < 32 → (∀ n, RegId.v n ∈ g.chain.writes → g.chain.wb + n ≠ r) →
        get 0 g'.v (elemOf r j) = get 0 g.v (elemOf r j)) ∧
      (∀ n, RegId.m n ∈ g.chain.writes → g'.maskAt n = get 0 g.chain.savedM n) ∧
      (∀ n, RegId.m n ∉ g.chain.writes → g'.maskAt n = g.maskAt n))

/-! ## Arithmetic -/

/-- R427 to R430: Every form of majors 01 and 02, and vaddi, that a group admits answers the next state in which each
active lane of vD (or of the pair vpD) receives the form's function of its source elements, vD is not written with NW
= 1, the latch holds the result, and the completion follows. -/
def Obligations.VectorIntegerResult : Prop :=
  (∀ f ∈ vecForms ++ vecForms2, ∀ (d a b : Code) (nw : Bool) (s : State) (g : Group), Admits (f.1 d a b nw) s g →
    exec (f.1 d a b nw) s = .next (vecAfter (f.1 d a b nw) s g d nw fun j => f.2 (srcV g a j) (srcV g b j))) ∧
  (∀ f ∈ vecForms1, ∀ (d a : Code) (nw : Bool) (s : State) (g : Group), Admits (f.1 d a nw) s g →
    exec (f.1 d a nw) s = .next (vecAfter (f.1 d a nw) s g d nw fun j => f.2 (srcV g a j))) ∧
  (∀ f ∈ vecPairForms, ∀ (d a b : Code) (nw : Bool) (s : State) (g : Group), Admits (f.1 d a b nw) s g →
    exec (f.1 d a b nw) s = .next (vecPairAfter (f.1 d a b nw) s g d nw fun j => f.2 (srcVP g a j) (srcV g b j))) ∧
  (∀ (d a b : Code) (nw : Bool) (s : State) (g : Group), Admits (.vmulw d a b nw) s g → exec (.vmulw d a b nw) s =
    .next (vecPairAfter (.vmulw d a b nw) s g d nw fun j => sext64 (srcV g a j) * sext64 (srcV g b j))) ∧
  (∀ (d a b : Code) (s : State) (g : Group), Admits (.vbfi d a b) s g → exec (.vbfi d a b) s =
    .next (vecAfter (.vbfi d a b) s g d false fun j => bitFieldInsert (g.vcode d.toNat j) (srcV g a j) (srcV g b j))) ∧
  (∀ (d a : Code) (imm : BitVec 12) (s : State) (g : Group), Admits (.vaddi d a imm) s g → exec (.vaddi d a imm) s =
    .next (vecAfter (.vaddi d a imm) s g d false fun j => srcV g a j + imm.signExtend 32))

/-- R427 to R430: The high halves of products, minima, maxima, saturating sums and differences and the absolute
difference, as integers; the reversed word bit by bit, the leading zeros by the bound they give, the number of set
bits, and the inserted and the extracted field bit by bit (a length over 32 counts as 32, bits beyond the word are 0,
and a signed field repeats the bit at its top). -/
def Obligations.LaneFunctions : Prop :=
  (∀ a b : Word,
    (mulHigh a b).toInt = a.toInt * b.toInt / 2 ^ 32 ∧ (mulHighU a b).toNat = a.toNat * b.toNat / 2 ^ 32 ∧
    (minS a b).toInt = min a.toInt b.toInt ∧ (maxS a b).toInt = max a.toInt b.toInt ∧
    (minU a b).toNat = min a.toNat b.toNat ∧ (maxU a b).toNat = max a.toNat b.toNat ∧
    (addSatS a b).toInt = max (-2 ^ 31) (min (a.toInt + b.toInt) (2 ^ 31 - 1)) ∧
    (addSatU a b).toNat = min (a.toNat + b.toNat) (2 ^ 32 - 1) ∧
    (subSatS a b).toInt = max (-2 ^ 31) (min (a.toInt - b.toInt) (2 ^ 31 - 1)) ∧
    (subSatU a b).toNat = a.toNat - b.toNat ∧ (absDiff a b).toNat = (a.toInt - b.toInt).natAbs) ∧
  (∀ a b d : Word,
    (∀ i, i < 32 → (brev a).getLsbD i = a.getLsbD (31 - i)) ∧
    (a ≠ 0 → 2 ^ 31 ≤ a.toNat * 2 ^ (clz a).toNat ∧ a.toNat * 2 ^ (clz a).toNat < 2 ^ 32) ∧ clz 0 = 32 ∧
    (popc a).toNat = ((List.range 32).filter fun i => a.getLsbD i).length ∧
    (∀ i, i < 32 → (bitFieldInsert d a b).getLsbD i =
      if fieldNat b 0 5 ≤ i ∧ i < fieldNat b 0 5 + min (fieldNat b 8 6) 32 then a.getLsbD (i - fieldNat b 0 5)
      else d.getLsbD i) ∧
    (∀ i, i < 32 → (bitFieldExtract a b).getLsbD i =
      if i < min (fieldNat b 8 6) 32 then a.getLsbD (fieldNat b 0 5 + i)
      else bit b 15 && 0 < fieldNat b 8 6 && a.getLsbD (fieldNat b 0 5 + min (fieldNat b 8 6) 32 - 1)))

/-- R394, R408, R410, R418: Every scalar form of majors 09 to 13 that a group admits answers the next state in which
sD (or spD) receives the form's function of its sources or immediate, nothing is written with NW = 1, and the
completion follows. Every form of major 08 does so with mD or sD, on all 32 bits, whatever AMASK and LMASK hold. -/
def Obligations.ScalarResult : Prop :=
  (∀ f ∈ scaForms, ∀ (d a b : Code) (nw : Bool) (s : State) (g : Group), Admits (f.1 d a b nw) s g →
    exec (f.1 d a b nw) s = .next (scaAfter (f.1 d a b nw) s g d nw (f.2 (srcS s g a) (srcS s g b)))) ∧
  (∀ (d a b : Code) (nw : Bool) (s : State) (g : Group), Admits (.saddx d a b nw) s g →
    exec (.saddx d a b nw) s = .next (after (.saddx d a b nw) s g
      (s.setGroup s.cur (if nw then g else g.setSPair d.toNat (srcSP s g a + sext64 (srcS s g b))))
      (.sca64 (srcSP s g a + sext64 (srcS s g b))))) ∧
  (∀ f ∈ immForms, ∀ (d a : Code) (imm : BitVec 12) (s : State) (g : Group), Admits (f.1 d a imm) s g →
    exec (f.1 d a imm) s = .next (scaAfter (f.1 d a imm) s g d false (f.2 (srcS s g a) imm))) ∧
  (∀ f ∈ shiftForms, ∀ (d a : Code) (imm : BitVec 5) (s : State) (g : Group), Admits (f.1 d a imm) s g →
    exec (f.1 d a imm) s = .next (scaAfter (f.1 d a imm) s g d false (f.2 (srcS s g a) imm))) ∧
  (∀ (d : Code) (imm : BitVec 19) (s : State) (g : Group), Admits (.sli d imm) s g →
    exec (.sli d imm) s = .next (scaAfter (.sli d imm) s g d false (imm.signExtend 32))) ∧
  (∀ (d : Code) (imm : BitVec 19) (s : State) (g : Group), Admits (.slui d imm) s g →
    exec (.slui d imm) s = .next (scaAfter (.slui d imm) s g d false
      (BitVec.ofNat 32 (imm.toNat * 2 ^ 13 + (g.scalar d.toNat).toNat % 2 ^ 13)))) ∧
  (∀ f ∈ maskForms, ∀ (d a b : Code) (s : State) (g : Group), Admits (f.1 d a b) s g →
    exec (f.1 d a b) s = .next (maskAfter (f.1 d a b) s g d (f.2 (g.maskAt a.toNat) (g.maskAt b.toNat)))) ∧
  (∀ (d a : Code) (s : State) (g : Group), Admits (.mnot d a) s g →
    exec (.mnot d a) s = .next (maskAfter (.mnot d a) s g d (~~~(g.maskAt a.toNat)))) ∧
  (∀ (d a : Code) (s : State) (g : Group), Admits (.mset d a) s g →
    exec (.mset d a) s = .next (maskAfter (.mset d a) s g d (srcS s g a))) ∧
  (∀ (d : Code) (s : State) (g : Group), Admits (.mclr d) s g →
    exec (.mclr d) s = .next (maskAfter (.mclr d) s g d 0)) ∧
  (∀ (d a : Code) (nw : Bool) (s : State) (g : Group), Admits (.mget d a nw) s g →
    exec (.mget d a nw) s = .next (scaAfter (.mget d a nw) s g d nw (g.maskAt a.toNat))) ∧
  (∀ (d a : Code) (nw : Bool) (s : State) (g : Group), Admits (.mcnt d a nw) s g →
    exec (.mcnt d a nw) s = .next (scaAfter (.mcnt d a nw) s g d nw
      (BitVec.ofNat 32 ((List.range 32).filter fun i => (g.maskAt a.toNat).getLsbD i).length)))

/-- R436 to R438: Every compare that a group admits answers the next state in which the bits of the active lanes of mD
receive the conditions; a float compare also merges its lanes' flags into fst, and raises those that are enabled. An
unordered pair makes eq, lt and le false, ne and un true, and raises NV for lt and le; on numbers un is false, ne is
the opposite of eq, le is lt or eq, and lt raises nothing; eq and lt are those of the values, the two zeros being one
and the infinities beyond every number; eq, ne and un raise NV for a signalling NaN and else nothing. vfclass tells
NaN, the infinities, the zeros and the signs of the other numbers apart. -/
def Obligations.CompareResult : Prop :=
  (∀ f ∈ cmpForms, ∀ (d a b : Code) (s : State) (g : Group), Admits (f.1 d a b) s g →
    exec (f.1 d a b) s = .next (after (f.1 d a b) s g (s.setGroup s.cur
      (g.setMaskLanes d.toNat g.activeLanes fun j => f.2 (srcV g a j) (srcV g b j))) .none)) ∧
  (∀ f ∈ fcmpForms, ∀ (d a b : Code) (s : State) (g : Group), Admits (f.1 d a b) s g →
    let r := fun j => floatTest f.2 (envOf g.fmt) (compareValue g a j) (compareValue g b j)
    let fl := g.activeLanes.foldl (fun x j => x ||| (r j).2) 0
    exec (f.1 d a b) s = .next (afterFp (f.1 d a b) s g
      (s.setGroup s.cur (mergeFst (g.setMaskLanes d.toNat g.activeLanes fun j => (r j).1) fl)) .none
      (fl &&& trapEnables g.fmt) (maskOf (g.activeLanes.filter fun j => (r j).2 &&& trapEnables g.fmt != 0)))) ∧
  (∀ (d a : Code) (imm : BitVec 7) (s : State) (g : Group), Admits (.vfclass d a imm) s g →
    exec (.vfclass d a imm) s = .next (after (.vfclass d a imm) s g (s.setGroup s.cur
      (g.setMaskLanes d.toNat g.activeLanes fun j => bit imm (classOf (envOf g.fmt) (compareValue g a j)))) .none)) ∧
  (∀ (v : Env) (a b : Nat),
    let x := unpack v.f (v.rd a)
    let y := unpack v.f (v.rd b)
    ((x.isNan || y.isNan) = true →
      (floatTest .eq v a b).1 = false ∧ (floatTest .ne v a b).1 = true ∧ (floatTest .lt v a b).1 = false ∧
      (floatTest .le v a b).1 = false ∧ (floatTest .un v a b).1 = true ∧ (floatTest .lt v a b).2 = fNV ∧
      (floatTest .le v a b).2 = fNV) ∧
    ((x.isNan || y.isNan) = false →
      (floatTest .un v a b).1 = false ∧ (floatTest .ne v a b).1 = !(floatTest .eq v a b).1 ∧
      (floatTest .le v a b).1 = ((floatTest .lt v a b).1 || (floatTest .eq v a b).1) ∧
      (floatTest .lt v a b).2 = 0 ∧
      ((floatTest .eq v a b).1 = true ↔ orderOf x = orderOf y) ∧ ((floatTest .lt v a b).1 = true ↔ orderOf x < orderOf y)) ∧
    (∀ t ∈ [FloatTest.eq, .ne, .un],
      (floatTest t v a b).2 = if signalling v.f (v.rd a) || signalling v.f (v.rd b) then fNV else 0)) ∧
  (∀ (v : Env) (a : Nat), let x := unpack v.f (v.rd a)
    (x.isNan = true → classOf v a = 0) ∧ (x = .inf true → classOf v a = 1) ∧ (x = .inf false → classOf v a = 6) ∧
    (∀ n m e, x = .fin n m e → (valueOf x < 0 → classOf v a = 2) ∧ (valueOf x = 0 → n = true → classOf v a = 3) ∧
      (valueOf x = 0 → n = false → classOf v a = 4) ∧ (0 < valueOf x → classOf v a = 5)))

/-- R117, R125, R442, R443: Every float form of one, two or three operands, and vfdot2, that a group admits answers
the next state in which each active lane receives the operation on its elements (each half alone in packed formats),
the flags of all active lanes are merged into fst, and the enabled ones are due at the chain's end. Sum, difference,
product, quotient, fused product and root of operands with a NaN return the first NaN made quiet, and a signalling one
sets NV. Infinities of opposite sign added, zero times infinity, zero by zero and infinity by infinity give the
canonical NaN and NV. Under FMT.DZ a sum, difference, product or quotient is that of the operands with subnormals read
as zeros, its result written so. -/
def Obligations.FloatResult : Prop :=
  (∀ f ∈ floatForms2, ∀ (d a b : Code) (nw : Bool) (s : State) (g : Group), Admits (f.1 d a b nw) s g →
    exec (f.1 d a b nw) s = .next (floatAfter (f.1 d a b nw) s g d nw (vfOf g.fmt == 3)
      fun j => packed g.fmt (op2 f.2) (envOf g.fmt) [fpSrc g a j, fpSrc g b j])) ∧
  (∀ f ∈ floatForms1, ∀ (d a : Code) (nw : Bool) (s : State) (g : Group), Admits (f.1 d a nw) s g →
    exec (f.1 d a nw) s = .next (floatAfter (f.1 d a nw) s g d nw (vfOf g.fmt == 3)
      fun j => packed g.fmt (op1 f.2) (envOf g.fmt) [fpSrc g a j])) ∧
  (∀ f ∈ floatForms3, ∀ (d a b c : Code) (s : State) (g : Group), Admits (f.1 d a b c) s g →
    exec (f.1 d a b c) s = .next (floatAfter (f.1 d a b c) s g d false (vfOf g.fmt == 3)
      fun j => packed g.fmt (op3 f.2) (envOf g.fmt) [fpSrc g a j, fpSrc g b j, fpSrc g c j])) ∧
  (∀ (d a b : Code) (nw : Bool) (s : State) (g : Group), Admits (.vfdot2 d a b nw) s g →
    exec (.vfdot2 d a b nw) s = .next (floatAfter (.vfdot2 d a b nw) s g d nw false fun j =>
      dot2 (vfFmt g.fmt) (fmtRm g.fmt) ((srcV g a j).toNat % 65536) ((srcV g a j).toNat / 65536)
        ((srcV g b j).toNat % 65536) ((srcV g b j).toNat / 65536))) ∧
  (∀ (v : Env) (a b c : Nat) (n : Bool),
    ((unpack v.f (v.rd a)).isNan = true →
      (fadd v a b).w = quiet v.f (v.rd a) ∧ (fsub v a b).w = quiet v.f (v.rd a) ∧ (fmul v a b).w = quiet v.f (v.rd a) ∧
      (fdiv v a b).w = quiet v.f (v.rd a) ∧ (ffma v n a b c).w = quiet v.f (v.rd a) ∧
      (fsqrt v a).w = quiet v.f (v.rd a)) ∧
    ((unpack v.f (v.rd a)).isNan = false → (unpack v.f (v.rd b)).isNan = true →
      (fadd v a b).w = quiet v.f (v.rd b) ∧ (fsub v a b).w = quiet v.f (v.rd b) ∧ (fmul v a b).w = quiet v.f (v.rd b) ∧
      (fdiv v a b).w = quiet v.f (v.rd b) ∧ (ffma v n a b c).w = quiet v.f (v.rd b)) ∧
    ((unpack v.f (v.rd a)).isNan = false → (unpack v.f (v.rd b)).isNan = false →
      (unpack v.f (v.rd c)).isNan = true → (ffma v n a b c).w = quiet v.f (v.rd c))) ∧
  (∀ (v : Env) (a b c : Nat) (n : Bool),
    ((signalling v.f (v.rd a) || signalling v.f (v.rd b)) = true →
      ∀ op ∈ [fadd, fsub, fmul, fdiv], (op v a b).fl &&& fNV = fNV) ∧
    ((signalling v.f (v.rd a) || signalling v.f (v.rd b) || signalling v.f (v.rd c)) = true → (ffma v n a b c).fl &&& fNV = fNV) ∧
    (signalling v.f (v.rd a) = true → (fsqrt v a).fl &&& fNV = fNV)) ∧
  (∀ (rm : Rm) (dz : Bool), ∀ f ∈ [f64, f32, f16, bf16], let v : Env := ⟨f, rm, dz⟩
    ∀ n : Bool, fadd v (signed f n f.infBits) (signed f (!n) f.infBits) = invalid f ∧
      fsub v (signed f n f.infBits) (signed f n f.infBits) = invalid f ∧
      ∀ n' : Bool, fmul v (signed f n f.infBits) (signed f n' 0) = invalid f ∧
        fdiv v (signed f n f.infBits) (signed f n' f.infBits) = invalid f ∧
        fdiv v (signed f n 0) (signed f n' 0) = invalid f) ∧
  (∀ f ∈ [f64, f32, f16, bf16], ∀ op ∈ [fadd, fsub, fmul, fdiv], ∀ (rm : Rm) (a b : Nat), a < 2 ^ f.bits → b < 2 ^ f.bits →
    let v : Env := ⟨f, rm, true⟩
    op v a b = v.wr (op ⟨f, rm, false⟩ (v.rd a) (v.rd b)))

/-- R114, R123, R125, R126, R132, R133, R442: For every format and mode, the rounding of an exact number is the number
of the format that R123 names (the nearest, ties to even; or the nearest towards zero, up or down), NX says that it
differs, UF comes with NX below the least normal number, and there always from half of it down, and a magnitude of at
least twice the largest finite number overflows as R123's table says. On numbers of f64, f32, f16 and bf16, with
subnormals kept, sum, difference, product, quotient, reciprocal, root, reciprocal root and the fused products are the
exact value so rounded; a root of a negative number is invalid, a number by zero is infinite with DZ, numbers that
cancel sum to +0, to -0 in RDN; minimum, maximum, absolute value and negation are exact. vfdot2 rounds the exact sum
of its two products once, and an accumulation of the matrix engine the exact sum of the accumulator and the K-group's
products, to nearest even. (How flags and results stand between those bounds at the two edges of the range is left to
the definition.) -/
def Obligations.FloatValues : Prop :=
  (∀ f ∈ formats, ∀ (rm : Rm) (z : Bool) (d : Dyad), Rounded f rm ((d.v : ℝ) * 2 ^ d.e) (roundDyad f rm z d)) ∧
  (∀ f ∈ [f64, f32, f16, bf16], ∀ (rm : Rm) (a b : Nat), IsNumber f a → IsNumber f b →
    let v : Env := ⟨f, rm, false⟩
    let x : ℝ := numberOf f a
    let y : ℝ := numberOf f b
    let na := (unpack f a).neg
    let nb := (unpack f b).neg
    Rounded f rm (x + y) (fadd v a b) ∧ Rounded f rm (x - y) (fsub v a b) ∧ Rounded f rm (x * y) (fmul v a b) ∧
    (y ≠ 0 → Rounded f rm (x / y) (fdiv v a b)) ∧ (x ≠ 0 → Rounded f rm (1 / x) (frcp v a)) ∧
    (0 < x → Rounded f rm (Real.sqrt x) (fsqrt v a) ∧ Rounded f rm (1 / Real.sqrt x) (frsq v a)) ∧
    (x < 0 → fsqrt v a = invalid f ∧ frsq v a = invalid f) ∧
    (x ≠ 0 → y = 0 → fdiv v a b = ⟨signed f (na != nb) f.infBits, fDZ⟩) ∧
    (x + y = 0 → na ≠ nb → (fadd v a b).w = signed f (rm == .rdn) 0) ∧
    (∀ c, IsNumber f c → Rounded f rm (x * y + numberOf f c) (ffma v false a b c) ∧
      Rounded f rm (numberOf f c - x * y) (ffma v true a b c)) ∧
    numberOf f (fminmax v false a b).w = min (numberOf f a) (numberOf f b) ∧
    numberOf f (fminmax v true a b).w = max (numberOf f a) (numberOf f b) ∧
    numberOf f (fabs v a).w = |numberOf f a| ∧ numberOf f (fneg v a).w = -numberOf f a) ∧
  (∀ f ∈ [f16, bf16], ∀ (rm : Rm) (a b c d : Nat), IsNumber f a → IsNumber f b → IsNumber f c → IsNumber f d →
    Rounded f32 rm ((numberOf f a : ℝ) * numberOf f c + numberOf f b * numberOf f d) (dot2 f rm a b c d)) ∧
  (∀ (acc : Nat) (ps : List (Val × Val)), IsNumber f32 acc →
    (∀ p ∈ ps, (∃ n m e, p.1 = .fin n m e) ∧ ∃ n m e, p.2 = .fin n m e) →
    Rounded f32 .rne ((numberOf f32 acc : ℝ) + ((ps.map fun p => valueOf p.1 * valueOf p.2).sum : ℚ))
      (accumulate acc (sumProds ps)))

/-- R123, R130, R131, R439: vcvt and vcvtef, when admitted, answer the next state in which each active lane receives
the converted element (vcvtef: the narrowed element and the error in two registers), with flags merged and enabled
ones due. Between integer types the value of the source, signed or unsigned, is clamped to the range of the
destination, signed or unsigned; an unsigned source reads as the number it is. From a number of a float type, or an
integer, to a float type the result is the value rounded in the mode (unchanged to its own type); a NaN becomes a
quiet NaN of its sign, the one NaN of e4m3 or e5m2, or 0 with NV in mx4, and a signalling one sets NV. From a float
type to an integer type a NaN gives 0, and an infinity or a value out of range the end of the range, with NV; any
other value its rounding in the mode, with NX where that differs. (All with subnormals kept, FMT.DZ = 0.) -/
def Obligations.ConvertResult : Prop :=
  (∀ (d a : Code) (rnd : BitVec 3) (src dst : BitVec 4) (nw : Bool) (s : State) (g : Group),
    Admits (.vcvt d a rnd src nw dst) s g →
    exec (.vcvt d a rnd src nw dst) s = .next (floatAfter (.vcvt d a rnd src nw dst) s g d nw (cvtWide dst.toNat) fun j =>
      let r := cvt (if rnd = 0 then fmtRm g.fmt else rmOf (rnd.toNat - 1)) (fmtDz g.fmt) src.toNat dst.toNat
        (if cvtWide src.toNat then (srcVP g a j).toNat else (srcV g a j).toNat)
      ⟨placeCvt dst.toNat r.w, r.fl⟩)) ∧
  (∀ (d a b : Code) (s : State) (g : Group), Admits (.vcvtef d a b) s g →
    let r := fun j => errorFeedback (nrFmt g.fmt) (srcV g a j).toNat (srcV g b j).toNat
    let fl := g.activeLanes.foldl (fun x j => x ||| (r j).2.2) 0
    exec (.vcvtef d a b) s = .next (afterFp (.vcvtef d a b) s g
      (s.setGroup s.cur (mergeFst ((g.setLanes d.toNat g.activeLanes fun j => BitVec.ofNat 32 (r j).1).setLanes b.toNat
        g.activeLanes fun j => BitVec.ofNat 32 (r j).2.1) fl))
      (vecLatch g fun j => BitVec.ofNat 32 (r j).1) (fl &&& trapEnables g.fmt)
      (maskOf (g.activeLanes.filter fun j => (r j).2.2 &&& trapEnables g.fmt != 0)))) ∧
  (∀ (rm : Rm) (dz sg : Bool) (x n m src dst : Nat), cvtType src = .int sg n →
    (cvtType dst = .int true m →
      (cvt rm dz src dst x).w = lowInt m (max (-(2 ^ (m - 1))) (min (readInt sg n (x % 2 ^ n)) (2 ^ (m - 1) - 1)))) ∧
    (cvtType dst = .int false m →
      (cvt rm dz src dst x).w = lowInt m (max 0 (min (readInt sg n (x % 2 ^ n)) (2 ^ m - 1)))) ∧
    (∀ y, readInt false n y = (y : Int))) ∧
  (∀ (rm : Rm) (src dst x : Nat) (t : Fmt), cvtType dst = .flt t →
    (∀ f, cvtType src = .flt f → IsNumber f x →
      (src ≠ dst → Rounded t rm (numberOf f x) (cvt rm false src dst x)) ∧ (src = dst → cvt rm false src dst x = ⟨x, 0⟩)) ∧
    (∀ f, cvtType src = .flt f → src ≠ dst → x < 2 ^ f.bits → (unpack f x).isNan = true →
      let fl := if signalling f x then fNV else 0
      (t = e4m3 ∨ t = e5m2 → cvt rm false src dst x = ⟨signed t (unpack f x).neg t.nanBits, fl⟩) ∧
      (t = mx4 → cvt rm false src dst x = ⟨0, fNV⟩) ∧
      (t ∈ [f64, f32, f16, bf16] → let r := cvt rm false src dst x
        r.fl = fl ∧ (unpack t r.w).isNan = true ∧ (unpack t r.w).neg = (unpack f x).neg ∧ signalling t r.w = false)) ∧
    (∀ sg n, cvtType src = .int sg n → Rounded t rm (readInt sg n (x % 2 ^ n)) (cvt rm false src dst x))) ∧
  (∀ (rm : Rm) (src dst x : Nat) (f : Fmt) (sg : Bool) (n : Nat), cvtType src = .flt f → cvtType dst = .int sg n →
    x < 2 ^ f.bits →
    let r := cvt rm false src dst x
    let lo : Int := if sg then -(2 ^ (n - 1)) else 0
    let hi : Int := if sg then 2 ^ (n - 1) - 1 else 2 ^ n - 1
    ((unpack f x).isNan = true → r = ⟨0, fNV⟩) ∧
    (∀ neg, unpack f x = .inf neg → r = ⟨lowInt n (if neg then lo else hi), fNV⟩) ∧
    (IsNumber f x → ∃ k : Int, IntRounds rm (numberOf f x) k ∧ r.w = lowInt n (max lo (min k hi)) ∧
      r.fl = if k < lo ∨ hi < k then fNV else if (k : ℚ) = numberOf f x then 0 else fNX))

/-- R119, R434, R435, R449: vplane, vunpl, vmov, the integer scan, vshfl, vshfx, vbcl and vsel, when admitted, answer
the next state in which each active lane receives the element that the form names; a dead source lane reads 0. Bit k
of vplane's element j is bit 7 - j mod 8 of byte j div 8 of element k, as a BP block has its planes, vunpl's are the
bits back, and undoes it; the integer scan gives each lane the sum of the active elements up to its own, modulo 2^32.
-/
def Obligations.CrossLaneResult : Prop :=
  (∀ f ∈ moveForms1, ∀ (d a : Code) (nw : Bool) (s : State) (g : Group), Admits (f.1 d a nw) s g →
    exec (f.1 d a nw) s = .next (vecAfter (f.1 d a nw) s g d nw (f.2 g a))) ∧
  (∀ f ∈ moveForms2, ∀ (d a b : Code) (nw : Bool) (s : State) (g : Group), Admits (f.1 d a b nw) s g →
    exec (f.1 d a b nw) s = .next (vecAfter (f.1 d a b nw) s g d nw (f.2 s g a b))) ∧
  (∀ (d a b : Code) (nw : Bool) (m : BitVec 3) (s : State) (g : Group), Admits (.vsel d a b nw m) s g →
    exec (.vsel d a b nw m) s = .next (vecAfter (.vsel d a b nw m) s g d nw fun j =>
      if bit (g.maskAt m.toNat) j then srcV g a j else srcV g b j)) ∧
  (∀ (g : Group) (a : Code) (k : Nat), a.toNat < 104 → g.live k = false → srcLane g a k = 0) ∧
  (∀ (src : Nat → Word) (j k : Nat), j < 32 → k < 32 →
    (planeWord src j).getLsbD k = (src k).getLsbD (8 * (j / 8) + (7 - j % 8)) ∧
    (unplaneWord src j).getLsbD k = (src (8 * (k / 8) + (7 - k % 8))).getLsbD j) ∧
  (∀ (src : Nat → Word) (j : Nat), j < 32 → unplaneWord (planeWord src) j = src j) ∧
  (∀ (g : Group) (a : Code) (j : Nat), (intScan g a j).toNat =
    ((g.activeLanes.filter (· ≤ j)).map fun k => (srcV g a k).toNat).sum % 2 ^ 32)

/-- R132, R230, R435: Each reduction that a group admits answers the next state in which sD receives the fold over the
active lanes (a named value where there is none); the float ones and the float scan merge their flags into fst; vfirst
gives the lowest active lane's element, or 0 where no lane is active; where that element is uncorrectable its lane
dies and sD receives 0; vballot the active lanes with an element that is not 0. A float reduction combines the active
lanes in the fixed binary tree over lane numbers, inactive ones left out, with the flags of all its steps and
subnormals kept; the float scan adds each active lane's element to the scan of the active lane before it; in packed
formats each half does so alone. -/
def Obligations.ReductionResult : Prop :=
  (∀ f ∈ reduceForms, ∀ (d a : Code) (nw : Bool) (s : State) (g : Group), Admits (f.1 d a nw) s g →
    exec (f.1 d a nw) s = .next (scaAfter (f.1 d a nw) s g d nw ((g.activeLanes.map (srcV g a)).foldl f.2.1 f.2.2))) ∧
  (∀ f ∈ floatReduceForms, ∀ (d a : Code) (nw : Bool) (s : State) (g : Group), Admits (f.1 d a nw) s g →
    let r := floatReduce g a f.2.1 f.2.2
    let g' := if vfOf g.fmt = 3 then writeS64 g d nw (BitVec.ofNat 64 r.w) else writeS g d nw (BitVec.ofNat 32 r.w)
    let l : Latch := if vfOf g.fmt = 3 then .sca64 (BitVec.ofNat 64 r.w) else .sca (BitVec.ofNat 32 r.w)
    exec (f.1 d a nw) s = .next (afterFp (f.1 d a nw) s g (s.setGroup s.cur (mergeFst g' r.fl)) l
      (r.fl &&& trapEnables g.fmt) g.amask)) ∧
  (∀ (d a : Code) (nw : Bool) (s : State) (g : Group), Admits (.vscan_f d a nw) s g →
    let r := floatScan g a
    let fl := g.activeLanes.foldl (fun x j => x ||| (r j).fl) 0
    let g' := if vfOf g.fmt = 3 then writeV64 g d nw fun j => BitVec.ofNat 64 (r j).w
      else writeV g d nw fun j => BitVec.ofNat 32 (r j).w
    let l := if vfOf g.fmt = 3 then vecLatch64 g fun j => BitVec.ofNat 64 (r j).w
      else vecLatch g fun j => BitVec.ofNat 32 (r j).w
    exec (.vscan_f d a nw) s = .next (afterFp (.vscan_f d a nw) s g (s.setGroup s.cur (mergeFst g' fl)) l
      (fl &&& trapEnables g.fmt) g.amask)) ∧
  (∀ (d a : Code) (nw : Bool) (s : State) (g : Group), Admits (.vfirst d a nw) s g → FirstGood a g →
    exec (.vfirst d a nw) s =
      .next (scaAfter (.vfirst d a nw) s g d nw (match g.activeLanes with | j :: _ => srcV g a j | [] => 0))) ∧
  (∀ (d a : Code) (nw : Bool) (s : State) (g : Group) (j : Nat) (js : List Nat), Admits (.vfirst d a nw) s g →
    g.activeLanes = j :: js → badAt g (osrc .vec a) j = true → exec (.vfirst d a nw) s =
      .next (after (.vfirst d a nw) s g (uceLanes (s.setGroup s.cur (writeS g d nw 0)) s.cur (maskOf [j]) g.pc) (.sca 0))) ∧
  (∀ (d a : Code) (nw : Bool) (s : State) (g : Group), Admits (.vballot d a nw) s g → exec (.vballot d a nw) s =
    .next (scaAfter (.vballot d a nw) s g d nw (maskOf (g.activeLanes.filter fun j => srcV g a j != 0)))) ∧
  (∀ (g : Group) (a : Code) (op : Env → Nat → Nat → Res) (empty : Fmt → Nat),
    let v := envKeep g.fmt
    let tree := fun (part : Nat → Nat) => (treeNode (fun x y => ⟨(op v x.w y.w).w, (op v x.w y.w).fl ||| (x.fl ||| y.fl)⟩)
      (fun j => if g.active j then some ⟨part (fpSrc g a j), 0⟩ else none) 5 0).getD ⟨empty v.f, 0⟩
    v.dz = false ∧
    (vfOf g.fmt = 0 ∨ vfOf g.fmt = 3 → floatReduce g a op empty = tree id) ∧
    (vfOf g.fmt = 1 ∨ vfOf g.fmt = 2 → floatReduce g a op empty =
      ⟨(tree (· / 65536)).w * 65536 + (tree (· % 65536)).w, (tree (· / 65536)).fl ||| (tree (· % 65536)).fl⟩)) ∧
  (∀ (v : Env) (xs : List (Nat × Nat)), (xs.map (·.1)).Nodup → let r := scanAt (floatScanGo v none xs)
    (∀ j x rest, xs = (j, x) :: rest → r j = ⟨x, 0⟩) ∧
    ∀ pre j x k y rest, xs = pre ++ (j, x) :: (k, y) :: rest → r k = fadd v (r j).w y) ∧
  (∀ (g : Group) (a : Code) (j : Nat),
    let scan := fun (part : Nat → Nat) =>
      scanAt (floatScanGo (envKeep g.fmt) none (g.activeLanes.map fun j => (j, part (fpSrc g a j)))) j
    (vfOf g.fmt = 0 ∨ vfOf g.fmt = 3 → floatScan g a j = scan id) ∧
    (vfOf g.fmt = 1 ∨ vfOf g.fmt = 2 → floatScan g a j =
      ⟨(scan (· / 65536)).w * 65536 + (scan (· % 65536)).w, (scan (· / 65536)).fl ||| (scan (· % 65536)).fl⟩))

/-- R70, R71, R370, R371, R394, R408, R427, R435, R439, R442: In a calm group, every such form changes its group alone
(its launch noting that it ran on the core) and in it only the destination: a vector or move form the active lanes of
vD (of a pair where it writes one), of all vector registers of the group, those below WB too, a scalar, immediate,
shift or reduction form sD (saddx the pair), a mask form mD, a compare the active lanes' bits of mD; a float form of
one, two or three operands, a float scan, reduction or conversion, with no trap enabled, its destination and fst,
which loses no flag; vcvtef its two registers; csrr sD (EVPEND also samples levels). With NW = 1 no destination
changes. Masks of lanes, stacks, FMT, WB, trap, continuation, event, matrix and stream registers, outstanding accesses
and their order, and everything outside the group are as before. csrw changes no register of vectors, scalars or
masks, no byte of memory and no other group, and fst only as FSTR. -/
def Obligations.RegisterFrame : Prop :=
  (∀ f ∈ vecForms ++ vecForms2, ∀ (d a b : Code) (nw : Bool), Framed (f.1 d a b nw) (fun _ => True) fun _ g g' =>
    VecOnly d.toNat false nw g g' ∧ g'.fst = g.fst ∧
    ∀ j, j < 32 → g.active j = true → nw = false → g'.vcode d.toNat j = f.2 (srcV g a j) (srcV g b j)) ∧
  (∀ f ∈ vecForms1, ∀ (d a : Code) (nw : Bool), Framed (f.1 d a nw) (fun _ => True) fun _ g g' =>
    VecOnly d.toNat false nw g g' ∧ g'.fst = g.fst) ∧
  (∀ f ∈ vecPairForms.map (·.1) ++ [Instr.vmulw], ∀ (d a b : Code) (nw : Bool),
    Framed (f d a b nw) (fun _ => True) fun _ g g' => VecOnly d.toNat true nw g g' ∧ g'.fst = g.fst) ∧
  (∀ d a b : Code, Framed (.vbfi d a b) (fun _ => True) fun _ g g' =>
    VecOnly d.toNat false false g g' ∧ g'.fst = g.fst) ∧
  (∀ (d a : Code) (imm : BitVec 12), Framed (.vaddi d a imm) (fun _ => True) fun _ g g' =>
    VecOnly d.toNat false false g g' ∧ g'.fst = g.fst) ∧
  (∀ f ∈ moveForms1, ∀ (d a : Code) (nw : Bool), Framed (f.1 d a nw) (fun _ => True) fun _ g g' =>
    VecOnly d.toNat false nw g g' ∧ g'.fst = g.fst) ∧
  (∀ f ∈ moveForms2, ∀ (d a b : Code) (nw : Bool), Framed (f.1 d a b nw) (fun _ => True) fun _ g g' =>
    VecOnly d.toNat false nw g g' ∧ g'.fst = g.fst) ∧
  (∀ (d a b : Code) (nw : Bool) (m : BitVec 3), Framed (.vsel d a b nw m) (fun _ => True) fun _ g g' =>
    VecOnly d.toNat false nw g g' ∧ g'.fst = g.fst) ∧
  (∀ f ∈ scaForms, ∀ (d a b : Code) (nw : Bool), Framed (f.1 d a b nw) (fun _ => True) fun s g g' =>
    ScaOnly d.toNat false nw g g' ∧ g'.fst = g.fst ∧
    (nw = false → g'.scalar d.toNat = f.2 (srcS s g a) (srcS s g b))) ∧
  (∀ (d a b : Code) (nw : Bool), Framed (.saddx d a b nw) (fun _ => True) fun _ g g' =>
    ScaOnly d.toNat true nw g g' ∧ g'.fst = g.fst) ∧
  (∀ f ∈ immForms, ∀ (d a : Code) (imm : BitVec 12), Framed (f.1 d a imm) (fun _ => True) fun s g g' =>
    ScaOnly d.toNat false false g g' ∧ g'.fst = g.fst ∧ g'.scalar d.toNat = f.2 (srcS s g a) imm) ∧
  (∀ f ∈ shiftForms, ∀ (d a : Code) (imm : BitVec 5), Framed (f.1 d a imm) (fun _ => True) fun s g g' =>
    ScaOnly d.toNat false false g g' ∧ g'.fst = g.fst ∧ g'.scalar d.toNat = f.2 (srcS s g a) imm) ∧
  (∀ f ∈ [Instr.sli, Instr.slui], ∀ (d : Code) (imm : BitVec 19), Framed (f d imm) (fun _ => True) fun _ g g' =>
    ScaOnly d.toNat false false g g' ∧ g'.fst = g.fst) ∧
  (∀ f ∈ [Instr.mget, Instr.mcnt, Instr.vballot] ++ reduceForms.map (·.1), ∀ (d a : Code) (nw : Bool),
    Framed (f d a nw) (fun _ => True) fun _ g g' => ScaOnly d.toNat false nw g g' ∧ g'.fst = g.fst) ∧
  (∀ (d a : Code) (nw : Bool), Framed (.vfirst d a nw) (FirstGood a) fun _ g g' =>
    ScaOnly d.toNat false nw g g' ∧ g'.fst = g.fst) ∧
  (∀ f ∈ maskForms, ∀ d a b : Code, Framed (f.1 d a b) (fun _ => True) fun _ g g' =>
    MaskOnly d.toNat g g' ∧ g'.fst = g.fst ∧ g'.maskAt d.toNat = f.2 (g.maskAt a.toNat) (g.maskAt b.toNat)) ∧
  (∀ f ∈ [Instr.mnot, Instr.mset], ∀ d a : Code, Framed (f d a) (fun _ => True) fun _ g g' =>
    MaskOnly d.toNat g g' ∧ g'.fst = g.fst) ∧
  (∀ d : Code, Framed (.mclr d) (fun _ => True) fun _ g g' => MaskOnly d.toNat g g' ∧ g'.fst = g.fst) ∧
  (∀ f ∈ cmpForms, ∀ d a b : Code, Framed (f.1 d a b) (fun _ => True) fun _ g g' =>
    LanesOnly d.toNat g g' ∧ g'.fst = g.fst ∧
    ∀ j, j < 32 → g.active j = true → bit (g'.maskAt d.toNat) j = f.2 (srcV g a j) (srcV g b j)) ∧
  (∀ f ∈ fcmpForms, ∀ d a b : Code, Framed (f.1 d a b) NoTraps fun _ g g' => LanesOnly d.toNat g g' ∧ Merged g g') ∧
  (∀ (d a : Code) (imm : BitVec 7), Framed (.vfclass d a imm) (fun _ => True) fun _ g g' =>
    LanesOnly d.toNat g g' ∧ g'.fst = g.fst) ∧
  (∀ f ∈ floatForms2, ∀ (d a b : Code) (nw : Bool), Framed (f.1 d a b nw) NoTraps fun _ g g' =>
    VecOnly d.toNat (vfOf g.fmt == 3) nw g g' ∧ Merged g g') ∧
  (∀ f ∈ floatForms1, ∀ (d a : Code) (nw : Bool), Framed (f.1 d a nw) NoTraps fun _ g g' =>
    VecOnly d.toNat (vfOf g.fmt == 3) nw g g' ∧ Merged g g') ∧
  (∀ f ∈ floatForms3, ∀ d a b c : Code, Framed (f.1 d a b c) NoTraps fun _ g g' =>
    VecOnly d.toNat (vfOf g.fmt == 3) false g g' ∧ Merged g g') ∧
  (∀ (d a b : Code) (nw : Bool), Framed (.vfdot2 d a b nw) NoTraps fun _ g g' =>
    VecOnly d.toNat false nw g g' ∧ Merged g g') ∧
  (∀ (d a : Code) (nw : Bool), Framed (.vscan_f d a nw) NoTraps fun _ g g' =>
    VecOnly d.toNat (vfOf g.fmt == 3) nw g g' ∧ Merged g g') ∧
  (∀ (d a : Code) (rnd : BitVec 3) (src dst : BitVec 4) (nw : Bool), Framed (.vcvt d a rnd src nw dst) NoTraps
    fun _ g g' => VecOnly d.toNat (cvtWide dst.toNat) nw g g' ∧ Merged g g') ∧
  (∀ d a b : Code, Framed (.vcvtef d a b) NoTraps fun _ g g' => Merged g g' ∧ KeepsControl g g' ∧ KeepsOrder g g' ∧
    g'.s = g.s ∧ g'.m = g.m ∧
    ∀ r j, (r ≠ g.wb + d.toNat ∧ r ≠ g.wb + b.toNat) ∨ g.active j = false → j < 32 → regAt g' r j = regAt g r j) ∧
  (∀ f ∈ floatReduceForms, ∀ (d a : Code) (nw : Bool), Framed (f.1 d a nw) NoTraps fun _ g g' =>
    ScaOnly d.toNat (vfOf g.fmt == 3) nw g g' ∧ Merged g g') ∧
  (∀ (d b : Code) (nw : Bool), Framed (.csrr d b nw) (fun _ => True) fun s g g' =>
    (b.toNat ≠ 0x30 → ScaOnly d.toNat false nw g g') ∧ KeepsOrder g g' ∧ g'.v = g.v ∧ g'.m = g.m ∧ g'.fst = g.fst ∧
    g'.trap = g.trap ∧ g'.amask = g.amask ∧ g'.lmask = g.lmask ∧
    (∀ n, n ≠ d.toNat ∨ nw = true → g'.scalar n = g.scalar n) ∧
    (nw = false → g'.scalar d.toNat = sysRead s (sampled s g b.toNat) b.toNat)) ∧
  (∀ (a b : Code) (s : State) (g : Group), Admits (.csrw a b) s g → Calm (.csrw a b) g →
    ∃ (t : State) (g' : Group), exec (.csrw a b) s = .next t ∧ t.mem = s.mem ∧ OthersSame s t s.cur ∧
      t.group? s.cur = some g' ∧ KeepsOrder g g' ∧ g'.v = g.v ∧ g'.s = g.s ∧ g'.m = g.m ∧ g'.amask = g.amask ∧
      g'.lmask = g.lmask ∧ g'.mstack = g.mstack ∧ g'.fmt = g.fmt ∧ (b.toNat ≠ 0x0E → g'.fst = g.fst))

/-- R154, R226, R230, R231: An instruction that reads an uncorrectable scalar has no effect of its own: its group is
killed whole, stands at its exit without a live lane, and the error is reported; so the scalar forms and the branches,
of either source. A vector integer form of two operands whose active lanes read an uncorrectable element writes its
results in the other active lanes and answers the next state of its effect; each lane that consumed one (exactly the
active lanes whose element of a vector source is uncorrectable) receives 0, loses its live and its active bit, and is
added to UCELANES; no other register changes. -/
def Obligations.UncorrectableOperands : Prop :=
  (∀ (i : Instr) (body : State → Nat → Group → Effect) (s : State) (g : Group), s.group? s.cur = some g →
    g.status = .ready → (s.coreAt g.core).scanning = false → decodeFault s g i = none → stalled g i = false →
    readsBadScalar g i = true → issue i body s = .next (uceKill (ranHere s g) s.cur g.pc)) ∧
  (∀ f ∈ scaForms, ∀ (d a b : Code) (nw : Bool) (s : State) (g : Group), s.group? s.cur = some g → g.status = .ready →
    (s.coreAt g.core).scanning = false → decodeFault s g (f.1 d a b nw) = none → stalled g (f.1 d a b nw) = false →
    (a.toNat ≤ 63 ∧ g.badS.contains a.toNat = true ∨ b.toNat ≤ 63 ∧ g.badS.contains b.toNat = true) →
    exec (f.1 d a b nw) s = .next (uceKill (ranHere s g) s.cur g.pc)) ∧
  (∀ f ∈ branchForms, ∀ (a : Code) (off : BitVec 16) (s : State) (g : Group), s.group? s.cur = some g →
    g.status = .ready → (s.coreAt g.core).scanning = false → decodeFault s g (f.1 a off) = none →
    stalled g (f.1 a off) = false → a.toNat ≤ 63 → g.badS.contains a.toNat = true →
    exec (f.1 a off) s = .next (uceKill (ranHere s g) s.cur g.pc)) ∧
  (∀ (s : State) (gid : Nat) (g : Group) (pc : DWord), s.group? gid = some g → isMigrant g = false →
    ∃ g', (uceKill s gid pc).group? gid = some g' ∧ g'.lmask = 0 ∧ g'.amask = 0 ∧ g'.status = .parked .exit ∧
      Report.fault (causeCode .uce).toNat g.core (slotOf g) g.wid pc 0 0 ∈ (uceKill s gid pc).reports) ∧
  (∀ f ∈ vecForms ++ vecForms2, ∀ (d a b : Code) (nw : Bool) (s : State) (g : Group) (lanes : Word),
    Consumes (f.1 d a b nw) s g lanes →
    let h : Group := { g with
      amask := g.amask &&& ~~~lanes, chain := { g.chain with specials := readSpecials s g (oprsOf g.fmt (f.1 d a b nw)) } }
    let r := fun j => f.2 (srcV g a j) (srcV g b j)
    exec (f.1 d a b nw) s = .next (after (f.1 d a b nw) s g (consume
      (s.setGroup s.cur (if nw then h else h.setLanes d.toNat h.activeLanes r)) s.cur
      (if nw then [] else [.v d.toNat]) lanes g.pc) (vecLatch h r))) ∧
  (∀ f ∈ vecForms ++ vecForms2, ∀ (d a b : Code) (nw : Bool) (s : State) (g : Group) (j : Nat), j < 32 →
    g.chain.badL = [] →
    (bit (consuming s g (f.1 d a b nw) (oprsOf g.fmt (f.1 d a b nw))) j = true ↔ g.active j = true ∧
      ∃ c, (c = a ∨ c = b) ∧ c.toNat ≤ 95 ∧ g.badV.contains (elemOf (g.wb + c.toNat) j) = true)) ∧
  (∀ (s : State) (gid : Nat) (g : Group) (d : Nat) (lanes : Word) (pc : DWord), s.group? gid = some g →
    isMigrant g = false → lanes ≠ 0 → ∃ g', (consume s gid [.v d] lanes pc).group? gid = some g' ∧
      g'.lmask = g.lmask &&& ~~~lanes ∧ g'.amask = g.amask &&& ~~~lanes ∧
      g'.dbg = { g.dbg with ucelanes := g.dbg.ucelanes ||| lanes } ∧ g'.s = g.s ∧ g'.m = g.m ∧ g'.pc = g.pc ∧
      (∀ j < 32, bit lanes j = true → g'.vcode d j = 0) ∧
      (∀ r j, j < 32 → r ≠ g.wb + d ∨ bit lanes j = false → regAt g' r j = regAt g r j))
/-! ## Control -/

/-- R77 to R79, R226, R358, R360, R364, R390 to R393: A scalar or mask branch that a group admits goes to its target
when its condition holds and to the next word when not. A taken one drops from the loop stack the top entries that do
not contain the target, up to the first that does, and none below the depth noted at trap entry. j goes to its target
popping loops as a branch; call leaves the return address in sp62; jr and ret go to an aligned address and fault ALIGN
on another; loop with a count pushes its entry when it lies within the enclosing body and the stack has room, faults
LOOPEND where it ends beyond the enclosing body, and MSTACK where the stack is full; with a count of 0 it skips its
body, with the processing of the enclosing loop's end where that ends there too. -/
def Obligations.ControlResult : Prop :=
  (∀ f ∈ branchForms, ∀ (a : Code) (off : BitVec 16) (s : State) (g : Group), Admits (f.1 a off) s g →
    exec (f.1 a off) s = .next (jumped (f.1 a off) s g (s.setGroup s.cur
      (if f.2 (srcS s g a).toInt then branchTo g (g.pc + 4 * sext64 off) else { g with pc := g.pc + 4 })))) ∧
  (∀ f ∈ maskBranchForms, ∀ (a : Code) (off : BitVec 16) (s : State) (g : Group), Admits (f.1 a off) s g →
    exec (f.1 a off) s = .next (jumped (f.1 a off) s g (s.setGroup s.cur
      (if f.2 (g.maskAt a.toNat &&& g.lmask) g.lmask then branchTo g (g.pc + 4 * sext64 off)
      else { g with pc := g.pc + 4 })))) ∧
  (∀ (g : Group) (t : DWord), (branchTo g t).pc = t ∧ ∃ k, (branchTo g t).lstack = g.lstack.drop k ∧
    k ≤ g.lstack.length - g.loopBase ∧
    (∀ e ∈ g.lstack.take k, t.toNat < e.start.toNat ∨ e.last.toNat < t.toNat) ∧
    (∀ top rest, (branchTo g t).lstack = top :: rest → g.loopBase < (top :: rest).length →
      top.start.toNat ≤ t.toNat ∧ t.toNat ≤ top.last.toNat)) ∧
  (∀ (off : BitVec 26) (s : State) (g : Group), Admits (.j off) s g →
    exec (.j off) s = .next (jumped (.j off) s g (s.setGroup s.cur (branchTo g (g.pc + 4 * sext64 off))))) ∧
  (∀ (off : BitVec 26) (s : State) (g : Group), Admits (.call off) s g →
    exec (.call off) s = .next (jumped (.call off) s g
      (s.setGroup s.cur { g.setSPair 62 (g.pc + 4) with pc := g.pc + 4 * sext64 off }))) ∧
  (∀ (a : Code) (s : State) (g : Group), Admits (.jr a) s g → srcSP s g a &&& 3 = 0 →
    exec (.jr a) s = .next (jumped (.jr a) s g (s.setGroup s.cur { g with pc := srcSP s g a }))) ∧
  (∀ (a : Code) (s : State) (g : Group), Admits (.jr a) s g → srcSP s g a &&& 3 ≠ 0 →
    exec (.jr a) s = .next (faulted (.jr a) s g .align 0 (srcSP s g a))) ∧
  (∀ (s : State) (g : Group), Admits .ret s g → g.scalarPair 62 &&& 3 = 0 →
    exec .ret s = .next (jumped .ret s g (s.setGroup s.cur { g with pc := g.scalarPair 62 }))) ∧
  (∀ (s : State) (g : Group), Admits .ret s g → g.scalarPair 62 &&& 3 ≠ 0 →
    exec .ret s = .next (faulted .ret s g .align 0 (g.scalarPair 62))) ∧
  (∀ (a : Code) (e : BitVec 12) (s : State) (g : Group), Admits (.loop a e) s g → srcS s g a ≠ 0 →
    (g.lstack.length ≤ g.loopBase ∨ ∀ top rest, g.lstack = top :: rest →
      (g.pc + 4 * e.setWidth 64).toNat ≤ top.last.toNat) → g.lstack.length ≠ 4 →
    exec (.loop a e) s = .next (jumped (.loop a e) s g (s.setGroup s.cur { g with
      lstack := ⟨g.pc + 4, g.pc + 4 * e.setWidth 64, (srcS s g a).toNat⟩ :: g.lstack, pc := g.pc + 4 }))) ∧
  (∀ (a : Code) (e : BitVec 12) (s : State) (g : Group), Admits (.loop a e) s g → srcS s g a = 0 →
    atLoopEnd g (g.pc + 4 * e.setWidth 64) = false →
    exec (.loop a e) s = .next (jumped (.loop a e) s g
      (s.setGroup s.cur { g with pc := g.pc + 4 * e.setWidth 64 + 4 }))) ∧
  (∀ (a : Code) (e : BitVec 12) (s : State) (g : Group), Admits (.loop a e) s g → srcS s g a = 0 →
    atLoopEnd g (g.pc + 4 * e.setWidth 64) = true →
    exec (.loop a e) s = .next (jumped (.loop a e) s g
      (s.setGroup s.cur (resumeAfter g (g.pc + 4 * e.setWidth 64))))) ∧
  (∀ (a : Code) (e : BitVec 12) (s : State) (g : Group), Admits (.loop a e) s g → srcS s g a ≠ 0 →
    (∀ top rest, g.lstack = top :: rest → g.loopBase < g.lstack.length →
      top.last.toNat < (g.pc + 4 * e.setWidth 64).toNat →
      exec (.loop a e) s = .next (faulted (.loop a e) s g .loopend 0 0)) ∧
    ((g.lstack.length ≤ g.loopBase ∨ ∀ top rest, g.lstack = top :: rest →
        (g.pc + 4 * e.setWidth 64).toNat ≤ top.last.toNat) → g.lstack.length = 4 →
      exec (.loop a e) s = .next (faulted (.loop a e) s g .mstack 0 0)))

/-- R73, R74, R76, R399: vif pushes AMASK and FMT and narrows AMASK, or faults MSTACK on a full stack; velse and
vendif take the top entry as the spec says, or fault MSTACK on an empty one; vkill takes lanes out of LMASK and AMASK;
fmt writes FMT, or faults RSVBIT on a reserved value; nop only advances. -/
def Obligations.MaskStackResult : Prop :=
  (∀ (a : Code) (s : State) (g : Group), Admits (.vif a) s g → g.mstack.length ≠ 16 →
    exec (.vif a) s = .next (after (.vif a) s g (s.setGroup s.cur
      { g with mstack := ⟨g.amask, g.fmt⟩ :: g.mstack, amask := g.amask &&& g.maskAt a.toNat }) .none)) ∧
  (∀ (a : Code) (s : State) (g : Group), Admits (.vif a) s g → g.mstack.length = 16 →
    exec (.vif a) s = .next (faulted (.vif a) s g .mstack 0 0)) ∧
  (∀ (e : MaskEntry) (es : List MaskEntry) (s : State) (g : Group), Admits .velse s g → g.mstack = e :: es →
    exec .velse s = .next (after .velse s g (s.setGroup s.cur
      { g with amask := e.mask &&& g.lmask &&& ~~~g.away &&& ~~~g.amask, fmt := e.fmt }) .none)) ∧
  (∀ (e : MaskEntry) (es : List MaskEntry) (s : State) (g : Group), Admits .vendif s g → g.mstack = e :: es →
    exec .vendif s = .next (after .vendif s g (s.setGroup s.cur
      { g with mstack := es, amask := e.mask &&& g.lmask &&& ~~~g.away, fmt := e.fmt }) .none)) ∧
  (∀ (s : State) (g : Group), g.mstack = [] →
    (Admits .velse s g → exec .velse s = .next (faulted .velse s g .mstack 0 0)) ∧
    (Admits .vendif s g → exec .vendif s = .next (faulted .vendif s g .mstack 0 0))) ∧
  (∀ (a : Code) (s : State) (g : Group), Admits (.vkill a) s g →
    exec (.vkill a) s = .next (after (.vkill a) s g (killLanes s s.cur (g.amask &&& g.maskAt a.toNat)) .none)) ∧
  (∀ (s : State) (gid : Nat) (g : Group) (w : Word), s.group? gid = some g → isMigrant g = false →
    (killLanes s gid w).group? gid = some { g with lmask := g.lmask &&& ~~~w, amask := g.amask &&& ~~~w }) ∧
  (∀ (a : Code) (s : State) (g : Group), Admits (.fmt a) s g → fmtReserved (srcS s g a) = false →
    exec (.fmt a) s = .next (after (.fmt a) s g (s.setGroup s.cur { g with fmt := srcS s g a }) .none)) ∧
  (∀ (a : Code) (s : State) (g : Group), Admits (.fmt a) s g → fmtReserved (srcS s g a) = true →
    exec (.fmt a) s = .next (faulted (.fmt a) s g .rsvbit 0 0)) ∧
  (∀ (s : State) (g : Group), Admits .nop s g → exec .nop s = .next (after .nop s g s .none))

/-- R42: winb sA is the word of major 0x19, FN 8 with D, B and NW zero. It sets WB := sA where sA[3:0] = 0 and sA is
below the allocation, changing no other register, and raises WINDOW with WB unchanged where not. It is a side effect,
and a vector code reads the register WB + code. -/
def Obligations.WindowBase : Prop :=
  (∀ (a : Code) (w : Word), decode w = .ok (.winb a) ↔ (fieldNat w 26 6 = 0x19 ∧ fieldNat w 0 4 = 8 ∧
    fieldNat w 19 7 = 0 ∧ fieldNat w 12 7 = a.toNat ∧ fieldNat w 5 7 = 0 ∧ bit w 4 = false)) ∧
  (∀ (a : Code) (s : State) (g : Group), Admits (.winb a) s g →
    (srcS s g a).toNat % 16 = 0 → (srcS s g a).toNat < g.vregs → exec (.winb a) s = .next
      (after (.winb a) s g (s.setGroup s.cur { g with wb := (srcS s g a).toNat }) .none)) ∧
  (∀ (a : Code) (s : State) (g : Group), Admits (.winb a) s g →
    (srcS s g a).toNat % 16 ≠ 0 ∨ g.vregs ≤ (srcS s g a).toNat →
    exec (.winb a) s = .next (faulted (.winb a) s g .window 0 0)) ∧
  (∀ a : Code, sideEffect (.winb a) = true) ∧
  (∀ (g : Group) (c : Code) (j : Nat), c.toNat ≤ 95 → srcV g c j = get 0 g.v ((g.wb + c.toNat) * 32 + j))

/-- R86, R110, R111, R203, R228, R229, R235, R401: trap and, without a debugger, brk take their traps after the
instruction; with one brk halts the group; rett to an aligned TNEXT returns, and faults ALIGN on another; exit ends a
home group, and sends every live lane of a migrant home as finished once nothing is outstanding, until when it waits;
ppt does nothing unless a pre-emption or a frequency change waits for the group, parks it for its save when a pre-
emption is due, and else, while a frequency change holds its die, until that is made. -/
def Obligations.TrapInstrResult : Prop :=
  (∀ (n : BitVec 7) (s : State) (g : Group), Admits (.trap n) s g →
    exec (.trap n) s = .next (trapped (.trap n) s g s .swtrap 0)) ∧
  (∀ (n : BitVec 7) (s : State) (g : Group), Admits (.brk n) s g → debuggerOn s g = false →
    exec (.brk n) s = .next (trapped (.brk n) s g s .brk 0)) ∧
  (∀ (n : BitVec 7) (s : State) (g : Group), Admits (.brk n) s g → debuggerOn s g = true →
    exec (.brk n) s = .next (parkedAt (.brk n) s g (report (s.setGroup s.cur { g with
      status := .halted none,
      trap := { g.trap with tpc := g.pc, tnext := g.pc + 4, tins := insWord (.brk n) } }) (.halt s.cur)))) ∧
  (∀ (s : State) (g : Group), Admits .rett s g → g.trap.tnext &&& 3 = 0 →
    exec .rett s = .next (jumped .rett s g (s.setGroup s.cur (returnFromTrap g)))) ∧
  (∀ (s : State) (g : Group), Admits .rett s g → g.trap.tnext &&& 3 ≠ 0 →
    exec .rett s = .next (faulted .rett s g .align 0 g.trap.tnext)) ∧
  (∀ (s : State) (g : Group), Admits .exit s g → isMigrant g = false →
    exec .exit s = .next (ranHere (endGroup (s.setGroup s.cur { g with ins := insWord .exit }) s.cur) g)) ∧
  (∀ (s : State) (g : Group), Admits .exit s g → isMigrant g = true → quiet g = true →
    exec .exit s = .next (ranHere (retire (sendReturns s g 2 (lanesOf g.lmask)) s.cur) g)) ∧
  (∀ (s : State) (g : Group), Admits .exit s g → isMigrant g = true → quiet g = false → exec .exit s = .next s) ∧
  (∀ (n : BitVec 19) (s : State) (g : Group), Admits (.ppt n) s g →
    isMigrant g = true ∨ (preemptDue s s.cur g = false ∧ vfHolds s g = false) →
    exec (.ppt n) s = .next (after (.ppt n) s g s .none)) ∧
  (∀ (n : BitVec 19) (s : State) (g : Group), Admits (.ppt n) s g → preemptDue s s.cur g = true →
    exec (.ppt n) s = .next (parkedAt (.ppt n) s g (s.setGroup s.cur { g with
      status := .parked (.save (some n.toNat)), trap := { g.trap with tnext := g.pc + 4 } }))) ∧
  (∀ (n : BitVec 19) (s : State) (g : Group), Admits (.ppt n) s g → isMigrant g = false →
    preemptDue s s.cur g = false → vfHolds s g = true →
    exec (.ppt n) s = .next (parkedAt (.ppt n) s g (s.setGroup s.cur { g with status := .parked .transition }))) ∧
  (∀ (s : State) (g : Group), vfHolds s g = true ↔ (s.dieAt (dieOfCore g.core)).vfs ≠ [])

/-! ## Memory -/

/-- R4, R144, R152, R153, R162 to R164, R173, R175, R415, R446; logs 3 and 4: A load whose addresses translate, and in
whose way no earlier access or fence stands, answers the next state in which its value has returned, or, where the
step says so (the model's choice, log 3), each lane's is outstanding; outstanding stores whose bytes it took precede
later accesses of its stream. A gather or a line one of whose addresses fails, and a scalar load whose address fails,
faults: the cause is that of the lowest failing active lane; a misaligned address fails with ALIGN, a line in the lane
aperture with APER. A lane receives the little-endian number of its bytes, sign- or zero-extended, and zero from a
page with RES = 0; a byte that the group itself has stored and that is outstanding is taken from there, and so is one
that the L1 of its core holds dirty, but by no acquire unless the group is already ahead of its home. An old byte of
the L1 is taken only by a load that is no acquire and has seen none of the writes that it misses (log 4). -/
def Obligations.LoadResult : Prop :=
  (∀ f ∈ loadForms, ∀ (d a b : Code) (st : BitVec 4) (x : Bool) (s : State) (g : Group) (hits : List (Nat × Hit)),
    Admits (f.1 d a b st x) s g → laneHits s g .load f.2.1 (laneAddr s g a b) = .ok hits →
    loadWaits s g st.toNat x (loadPlaces (gatherOf s g d st x f.2.1 f.2.2.1 f.2.2.2 hits)) = false →
    exec (f.1 d a b st x) s = .next (loadAfter (f.1 d a b st x) s g
      (gatherOf s g d st x f.2.1 f.2.2.1 f.2.2.2 hits) (hits.map (·.2)))) ∧
  (∀ (d a b : Code) (st : BitVec 4) (x : Bool) (s : State) (g : Group) (hits : List (Nat × Hit)),
    Admits (.vldc d a b st x) s g → lineHits s g .load (srcSP s g a + 128 * sext64 b) = .ok hits →
    loadWaits s g st.toNat x (loadPlaces (gatherOf s g d st x 4 false false hits)) = false →
    exec (.vldc d a b st x) s = .next (loadAfter (.vldc d a b st x) s g (gatherOf s g d st x 4 false false hits)
      (hits.map (·.2)))) ∧
  (∀ f ∈ scaLoadForms, ∀ (d a b : Code) (st : BitVec 4) (x : Bool) (s : State) (g : Group) (h : Hit),
    Admits (f.1 d a b st x) s g →
    checkedHit s (agentOf s g none) .load (srcSP s g a + BitVec.ofNat 64 f.2 * sext64 b) f.2 = .ok h →
    loadWaits s g st.toNat x (loadPlaces (scalarLoadOf s g d st x f.2 h)) = false →
    exec (f.1 d a b st x) s = .next (loadAfter (f.1 d a b st x) s g (scalarLoadOf s g d st x f.2 h) [h])) ∧
  (∀ f ∈ loadForms, ∀ (d a b : Code) (st : BitVec 4) (x : Bool) (s : State) (g : Group) (c : AccFault) (w : Word),
    Admits (f.1 d a b st x) s g → laneHits s g .load f.2.1 (laneAddr s g a b) = .error (c, w) →
    exec (f.1 d a b st x) s = .next (faulted (f.1 d a b st x) s g c.cause w c.addr)) ∧
  (∀ (d a b : Code) (st : BitVec 4) (x : Bool) (s : State) (g : Group) (c : AccFault) (w : Word),
    Admits (.vldc d a b st x) s g → lineHits s g .load (srcSP s g a + 128 * sext64 b) = .error (c, w) →
    exec (.vldc d a b st x) s = .next (faulted (.vldc d a b st x) s g c.cause w c.addr)) ∧
  (∀ (s : State) (g : Group) (acc : Access) (base : DWord) (f : AccFault) (w : Word),
    lineHits s g acc base = .error (f, w) → ∃ j, g.active j = true ∧ lineHit s g acc base j = .error f ∧
      ∀ k, k < j → g.active k = true → ∃ h, lineHit s g acc base k = .ok h) ∧
  (∀ (s : State) (g : Group) (acc : Access) (base : DWord) (j : Nat),
    (base.toNat % 128 ≠ 0 → lineHit s g acc base j = .error ⟨.align, base⟩) ∧
    (base.toNat % 128 = 0 → isLane (aperture base) = true →
      lineHit s g acc base j = .error ⟨.aper, base + BitVec.ofNat 64 (4 * j)⟩)) ∧
  (∀ f ∈ scaLoadForms, ∀ (d a b : Code) (st : BitVec 4) (x : Bool) (s : State) (g : Group) (c : AccFault),
    Admits (f.1 d a b st x) s g →
    checkedHit s (agentOf s g none) .load (srcSP s g a + BitVec.ofNat 64 f.2 * sext64 b) f.2 = .error c →
    exec (f.1 d a b st x) s = .next (faulted (f.1 d a b st x) s g c.cause 0 c.addr)) ∧
  (∀ (s : State) (ag : Agent) (acc : Access) (va : DWord) (size : Nat), va.toNat % size ≠ 0 →
    checkedHit s ag acc va size = .error ⟨.align, va⟩) ∧
  (∀ (s : State) (g : Group) (acc : Access) (size : Nat) (addr : Nat → DWord) (f : AccFault) (w : Word),
    laneHits s g acc size addr = .error (f, w) → ∃ j, g.active j = true ∧
      checkedHit s (agentOf s g (some j)) acc (addr j) size = .error f ∧
      ∀ k, k < j → g.active k = true → ∃ h, checkedHit s (agentOf s g (some k)) acc (addr k) size = .ok h) ∧
  (∀ (s : State) (gid : Nat) (g : Group) (l : PendLoad) (st : Nat) (lane : Option Nat) (reg size : Nat) (signed : Bool)
      (h : Hit), h.cb = none →
    (h.nonres = true → partValue s gid g l (loadPart s g st lane reg size signed h) = (0, false)) ∧
    (h.nonres = false → g.wbuf = [] → dirtyOn s g.core = [] → l.old = false → 0 < size → size ≤ 8 →
      let n := natOfBytes ((List.range size).map fun i => readByte s (homeOf s (h.place + i)))
      (partValue s gid g l (loadPart s g st lane reg size signed h)).1 =
        if signed then (BitVec.ofNat (8 * size) n).signExtend 64 else BitVec.ofNat 64 n)) ∧
  (∀ (s : State) (g : Group) (l : PendLoad) (p : LoadPart) (c : Option L1Copy) (x : Nat),
    (∀ b, ownByte s g x = some b → loadByte s g l p c x = (b, false)) ∧
    (∀ e b, ownByte s g x = none → dirtyFor s g l p x = some e → (e.2.bytes.reverse.find? (·.1 == x)) = some (x, b) →
      loadByte s g l p c x = (b, false)) ∧
    (l.acquire = true → g.ahead = [] → dirtyFor s g l p x = none)) ∧
  (∀ (s : State) (gid : Nat) (g : Group) (l : PendLoad) (p : LoadPart) (c : L1Copy), oldCopy s gid g l p = some c →
    l.old = true ∧ l.acquire = false ∧ c.core = g.core ∧
    ∀ x ∈ p.places, ∀ o, oldByte c (homeOf s x % 128) = some o → ∀ n ∈ o.missed, known gid g l.stream n = false)

/-- R137, R140, R152, R162 to R164, R182, R186, R415; logs 3, 4 and 10: A store whose addresses translate, and in
whose way no earlier access or fence stands, answers the next state in which the stores to descriptors of circular
buffers are made first (none raising CBBAD) and noted as accesses of the stream, then those of the lanes: at their
homes at once, in increasing order, or, where the step says so (log 3), outstanding lane by lane. A store stores the
little-endian bytes of its value, and each then reads back at its home. A scatter or a line one of whose addresses
fails, a scalar store whose address fails, and any store of which a descriptor refuses the word, faults; of a scatter
the cause is that of the lowest active lane that fails, by its address or at a descriptor; a vstc, an access of 128
bytes, reaches no descriptor (R137), so none refuses its words. That TADDR of CBBAD is the address of the refused
store is the model's choice (log 10): R224 gives TADDR for memory faults, ALIGN and the fetch only. -/
def Obligations.StoreResult : Prop :=
  (∀ f ∈ storeForms, ∀ (d a b : Code) (st : BitVec 4) (x : Bool) (s s' : State) (g : Group) (hits : List (Nat × Hit)),
    Admits (f.1 d a b st x) s g → laneHits s g .store f.2.1 (laneAddr s g a b) = .ok hits →
    cbStores s g f.2.1 hits (storeData g d f.2.2) = (s', []) →
    let ws := laneStores s s.cur g st.toNat x f.2.1 hits (storeData g d f.2.2)
    storeWaits s g st.toNat (ws.flatMap storePlaces) = false →
    exec (f.1 d a b st x) s = .next (after (f.1 d a b st x) s g (issueStores
      (cbNoted s.cur g st.toNat x f.2.1 s' (hits.map (·.2))) s.cur ws (hits.map (·.2))) .none)) ∧
  (∀ (d a b : Code) (st : BitVec 4) (x : Bool) (s s' : State) (g : Group) (hits : List (Nat × Hit)),
    Admits (.vstc d a b st x) s g → lineHits s g .store (srcSP s g a + 128 * sext64 b) = .ok hits →
    cbStores s g 4 hits (storeData g d false) = (s', []) →
    let ws := laneStores s s.cur g st.toNat x 4 hits (storeData g d false)
    storeWaits s g st.toNat (ws.flatMap storePlaces) = false →
    exec (.vstc d a b st x) s = .next (after (.vstc d a b st x) s g (issueStores
      (cbNoted s.cur g st.toNat x 4 s' (hits.map (·.2))) s.cur ws (hits.map (·.2))) .none)) ∧
  (∀ f ∈ scaStoreForms, ∀ (d a b : Code) (st : BitVec 4) (x : Bool) (s : State) (g : Group) (h : Hit),
    Admits (f.1 d a b st x) s g →
    checkedHit s (agentOf s g none) .store (srcSP s g a + BitVec.ofNat 64 f.2 * sext64 b) f.2 = .ok h →
    let v := if f.2 = 8 then srcSP s g d else (srcS s g d).setWidth 64
    let w := storeOf s s.cur g st.toNat x f.2 none h v
    (h.cb = none → storeWaits s g st.toNat (storePlaces w) = false →
      exec (f.1 d a b st x) s = .next (after (f.1 d a b st x) s g (issueStores s s.cur [w] [h]) .none)) ∧
    (∀ c s', h.cb = some c → cbStore s (clusterOfCore g.core) g.block c.1 c.2 f.2 v.toNat = some s' →
      storeWaits s g st.toNat [] = false →
      exec (f.1 d a b st x) s = .next (after (f.1 d a b st x) s g
        (cbNoted s.cur g st.toNat x f.2 s' [h]) .none)) ∧
    (∀ c, h.cb = some c → cbStore s (clusterOfCore g.core) g.block c.1 c.2 f.2 v.toNat = none →
      exec (f.1 d a b st x) s = .next (faulted (f.1 d a b st x) s g .cbbad 0
        (srcSP s g a + BitVec.ofNat 64 f.2 * sext64 b)))) ∧
  (∀ f ∈ scaStoreForms, ∀ (d a b : Code) (st : BitVec 4) (x : Bool) (s : State) (g : Group) (c : AccFault),
    Admits (f.1 d a b st x) s g →
    checkedHit s (agentOf s g none) .store (srcSP s g a + BitVec.ofNat 64 f.2 * sext64 b) f.2 = .error c →
    exec (f.1 d a b st x) s = .next (faulted (f.1 d a b st x) s g c.cause 0 c.addr)) ∧
  (∀ f ∈ storeForms, ∀ (d a b : Code) (st : BitVec 4) (x : Bool) (s : State) (g : Group) (hits : List (Nat × Hit))
      (j : Nat) (js : List Nat),
    Admits (f.1 d a b st x) s g → laneHits s g .store f.2.1 (laneAddr s g a b) = .ok hits →
    (cbStores s g f.2.1 hits (storeData g d f.2.2)).2 = j :: js →
    exec (f.1 d a b st x) s = .next (faulted (f.1 d a b st x) s g .cbbad (maskOf (j :: js)) (laneAddr s g a b j))) ∧
  (∀ (s : State) (g : Group) (base : DWord) (hits : List (Nat × Hit)) (data : Nat → DWord),
    lineHits s g .store base = .ok hits → (∀ e ∈ hits, e.2.cb = none) ∧ (cbStores s g 4 hits data).2 = []) ∧
  (∀ f ∈ storeForms, ∀ (d a b : Code) (st : BitVec 4) (x : Bool) (s : State) (g : Group) (e : AccFault × Word),
    Admits (f.1 d a b st x) s g → laneHits s g .store f.2.1 (laneAddr s g a b) = .error e →
    let e' := storeFault s g f.2.1 (laneAddr s g a b) (storeData g d f.2.2) e
    exec (f.1 d a b st x) s = .next (faulted (f.1 d a b st x) s g e'.1.cause e'.2 e'.1.addr)) ∧
  (∀ (s : State) (g : Group) (size : Nat) (addr data : Nat → DWord) (e : AccFault × Word),
    laneHits s g .store size addr = .error e →
    let r := fun j => checkedHit s (agentOf s g (some j)) .store (addr j) size
    let bad := (cbStores s g size (g.activeLanes.filterMap fun j => match r j with
      | .ok h => some (j, h)
      | .error _ => none) data).2
    ∃ j, g.active j = true ∧ (r j = .error (storeFault s g size addr data e).1 ∨
        j ∈ bad ∧ (storeFault s g size addr data e).1 = ⟨.cbbad, addr j⟩) ∧
      ∀ k, k < j → g.active k = true → (∃ h, r k = .ok h) ∧ k ∉ bad) ∧
  (∀ (d a b : Code) (st : BitVec 4) (x : Bool) (s : State) (g : Group) (c : AccFault) (w : Word),
    Admits (.vstc d a b st x) s g → lineHits s g .store (srcSP s g a + 128 * sext64 b) = .error (c, w) →
    exec (.vstc d a b st x) s = .next (faulted (.vstc d a b st x) s g c.cause w c.addr)) ∧
  (∀ (s : State) (gid : Nat) (ws : List PendStore) (hs : List Hit),
    (s.late = false → issueStores s gid ws hs = ws.foldl (fun t w => applyWrite t gid w) (markHits s hs)) ∧
    (s.late = true → issueStores s gid ws hs = (markHits s hs).updGroup gid fun g' => { g' with
      wbuf := g'.wbuf ++ apartStores (markHits s hs) ws })) ∧
  (∀ (s : State) (gid : Nat) (g : Group) (st size : Nat) (lane : Option Nat) (rel : Bool) (h : Hit) (v : DWord),
    (storeOf s gid g st rel size lane h v).bytes = cellsAt h.place (bytesOfNat size v.toNat)) ∧
  (∀ (s : State) (gid : Nat) (w : PendStore), (s.group? gid).isSome = true →
    (∀ e ∈ w.bytes, homeOf s e.1 < 2 ^ 90 ∧ ∀ e' ∈ w.bytes, mirrorOf s (homeOf s e.1) ≠ some (homeOf s e'.1) ∧
      (homeOf s e.1 = homeOf s e'.1 → e = e')) →
    ∀ e ∈ w.bytes, readByte (applyWrite s gid w) (homeOf s e.1) = e.2)

/-- R146, R150, R157, R160, R162, R165, R302, R446; log 3: In a calm group whose accesses are made at once: after
vst_*, vstc, sst_*, sfst, vatom_* or czero, every byte reads as before but the bytes stored (zeroed), their copies in
a frame on the move, what a compressor makes of them, and the leaf entries marked. After vld_*, vldc or sld_* (no
uncorrectable memory), no byte changes but marked leaf entries, every other group is as before, and in the group only
m7, what follows its outstanding stores, and the active lanes of vD (of pairs also vD + 1; sD for scalars) change, of
all vector registers of the group. Left outstanding (the model's choice, log 3), a load changes no register, mask or
flag and no memory but the marks, and a store nothing but its group's outstanding stores beside the marks; the marks
change their leaf entries alone. A little-endian number stored reads back modulo its size. -/
def Obligations.MemoryFrame : Prop :=
  (∀ f ∈ storeForms, ∀ (d a b : Code) (st : BitVec 4) (x : Bool) (s t : State) (g : Group) (hits : List (Nat × Hit))
      (l : Nat),
    Admits (f.1 d a b st x) s g → Calm (f.1 d a b st x) g → s.late = false →
    laneHits s g .store f.2.1 (laneAddr s g a b) = .ok hits → (∀ e ∈ hits, e.2.cb = none) →
    exec (f.1 d a b st x) s = .next t → BytesApart (hits.map (·.2)) f.2.1 s l → LeavesApart (hits.map (·.2)) s l →
    readByte t l = readByte s l) ∧
  (∀ (d a b : Code) (st : BitVec 4) (x : Bool) (s t : State) (g : Group) (hits : List (Nat × Hit)) (l : Nat),
    Admits (.vstc d a b st x) s g → Calm (.vstc d a b st x) g → s.late = false →
    lineHits s g .store (srcSP s g a + 128 * sext64 b) = .ok hits → (∀ e ∈ hits, e.2.cb = none) →
    exec (.vstc d a b st x) s = .next t → BytesApart (hits.map (·.2)) 4 s l → LeavesApart (hits.map (·.2)) s l →
    readByte t l = readByte s l) ∧
  (∀ f ∈ scaStoreForms, ∀ (d a b : Code) (st : BitVec 4) (x : Bool) (s t : State) (g : Group) (h : Hit) (l : Nat),
    Admits (f.1 d a b st x) s g → Calm (f.1 d a b st x) g → s.late = false →
    checkedHit s (agentOf s g none) .store (srcSP s g a + BitVec.ofNat 64 f.2 * sext64 b) f.2 = .ok h → h.cb = none →
    exec (f.1 d a b st x) s = .next t → BytesApart [h] f.2 s l → LeavesApart [h] s l → readByte t l = readByte s l) ∧
  (∀ (d a b : Code) (s t : State) (g : Group) (h : Sfte) (hits : List (Nat × Hit)) (l : Nat),
    Admits (.sfst d a b) s g → Calm (.sfst d a b) g → s.late = false → g.badV = [] →
    surfaceArg s g (srcS s g a) = some h →
    pixelHits s g (fieldNat (srcS s g a) 0 12) h (fieldNat (srcS s g a) 12 2) b g.activeLanes = .ok hits →
    sampleOk h (srcS s g a) = true → pixelRegs g h d.toNat = none →
    exec (.sfst d a b) s = .next t → BytesApart (hits.map (·.2)) (pixelBytes h.fmt) s l →
    LeavesApart (hits.map (·.2)) s l → readByte t l = readByte s l) ∧
  (∀ f ∈ atomForms, ∀ (d a b : Code) (st : BitVec 4) (s t : State) (g : Group) (hits : List (Nat × Hit)) (l : Nat),
    Admits (f.1 d a b st) s g → Calm (f.1 d a b st) g → s.late = false → s.badMem = [] →
    laneHits s g .atomic 4 (laneAddr s g a b) = .ok hits → exec (f.1 d a b st) s = .next t →
    BytesApart (hits.map (·.2)) 4 s l → LeavesApart (hits.map (·.2)) s l → readByte t l = readByte s l) ∧
  (∀ (st : BitVec 4) (a b : Code) (s t : State) (g : Group) (hs : List (Hit × Nat)) (l : Nat),
    Admits (.czero st a b) s g → Calm (.czero st a b) g → dirtyOn s g.core = [] → srcS s g b ≠ 0 →
    rangeOut g.priv (srcSP s g a).toNat (srcS s g b).toNat = none →
    (srcSP s g a).toNat % 128 = 0 → (srcS s g b).toNat % 128 = 0 →
    rangeHits s (agentOf s g none) .czero (rangePages (srcSP s g a).toNat (srcS s g b).toNat) = .ok hs →
    exec (.czero st a b) s = .next t →
    (∀ e ∈ hs, ∀ p ∈ partPlaces e.1 e.2, ∀ i < 128, Apart s (homeOf s (p + i)) l) → LeavesApart (hs.map (·.1)) s l →
    readByte t l = readByte s l) ∧
  (∀ f ∈ loadForms, ∀ (d a b : Code) (st : BitVec 4) (x : Bool) (s t : State) (g : Group) (hits : List (Nat × Hit)),
    Admits (f.1 d a b st x) s g → Calm (f.1 d a b st x) g → s.late = false → s.badMem = [] →
    laneHits s g .load f.2.1 (laneAddr s g a b) = .ok hits → (∀ e ∈ hits, e.2.cb = none) →
    (∀ e ∈ hits, ∀ ps m, e.2.leaf = some (ps, m) → ∀ p ∈ ps, p < 2 ^ 60 ∨ 2 ^ 61 ≤ p) →
    loadWaits s g st.toNat x (loadPlaces (gatherOf s g d st x f.2.1 f.2.2.1 f.2.2.2 hits)) = false →
    exec (f.1 d a b st x) s = .next t →
    (∃ g', t.group? s.cur = some g' ∧ LoadKeeps g g' ∧ g'.s = g.s ∧
      (∀ r j, (r ≠ g.wb + d.toNat ∧ (f.2.2.2 = true → r ≠ g.wb + d.toNat + 1)) ∨ g.active j = false → j < 32 →
        regAt g' r j = regAt g r j)) ∧
    OthersSame s t s.cur ∧ ∀ l, LeavesApart (hits.map (·.2)) s l → readByte t l = readByte s l) ∧
  (∀ (d a b : Code) (st : BitVec 4) (x : Bool) (s t : State) (g : Group) (hits : List (Nat × Hit)),
    Admits (.vldc d a b st x) s g → Calm (.vldc d a b st x) g → s.late = false → s.badMem = [] →
    lineHits s g .load (srcSP s g a + 128 * sext64 b) = .ok hits → (∀ e ∈ hits, e.2.cb = none) →
    (∀ e ∈ hits, ∀ ps m, e.2.leaf = some (ps, m) → ∀ p ∈ ps, p < 2 ^ 60 ∨ 2 ^ 61 ≤ p) →
    loadWaits s g st.toNat x (loadPlaces (gatherOf s g d st x 4 false false hits)) = false →
    exec (.vldc d a b st x) s = .next t →
    (∃ g', t.group? s.cur = some g' ∧ LoadKeeps g g' ∧ g'.s = g.s ∧
      (∀ r j, r ≠ g.wb + d.toNat ∨ g.active j = false → j < 32 → regAt g' r j = regAt g r j)) ∧
    OthersSame s t s.cur ∧ ∀ l, LeavesApart (hits.map (·.2)) s l → readByte t l = readByte s l) ∧
  (∀ f ∈ scaLoadForms, ∀ (d a b : Code) (st : BitVec 4) (x : Bool) (s t : State) (g : Group) (h : Hit),
    Admits (f.1 d a b st x) s g → Calm (f.1 d a b st x) g → s.late = false → s.badMem = [] →
    checkedHit s (agentOf s g none) .load (srcSP s g a + BitVec.ofNat 64 f.2 * sext64 b) f.2 = .ok h → h.cb = none →
    (∀ ps m, h.leaf = some (ps, m) → ∀ p ∈ ps, p < 2 ^ 60 ∨ 2 ^ 61 ≤ p) →
    loadWaits s g st.toNat x (loadPlaces (scalarLoadOf s g d st x f.2 h)) = false → exec (f.1 d a b st x) s = .next t →
    (∃ g', t.group? s.cur = some g' ∧ LoadKeeps g g' ∧ g'.v = g.v ∧
      (∀ n, n ≠ d.toNat ∧ (f.2 = 8 → n ≠ d.toNat + 1) → g'.scalar n = g.scalar n)) ∧
    OthersSame s t s.cur ∧ ∀ l, LeavesApart [h] s l → readByte t l = readByte s l) ∧
  (∀ (s : State) (gid : Nat) (g : Group) (l : PendLoad) (hs : List Hit), s.late = true → s.group? gid = some g →
    ∃ g', (issueLoad s gid l hs).group? gid = some g' ∧ g'.loads = g.loads ++ splitLoad l ∧ g'.v = g.v ∧ g'.s = g.s ∧
      g'.m = g.m ∧ g'.fst = g.fst ∧ g'.status = g.status ∧ OthersSame (markHits s hs) (issueLoad s gid l hs) gid ∧
      (issueLoad s gid l hs).mem = (markHits s hs).mem) ∧
  (∀ (s : State) (gid : Nat) (g : Group) (ws : List PendStore) (hs : List Hit), s.late = true →
    (markHits s hs).group? gid = some g →
    issueStores s gid ws hs = (markHits s hs).setGroup gid { g with wbuf := g.wbuf ++ apartStores (markHits s hs) ws }) ∧
  (∀ (s : State) (hs : List Hit) (l : Nat), LeavesApart hs s l → readByte (markHits s hs) l = readByte s l) ∧
  (∀ (s : State) (loc n v : Nat), (∀ i < n, ∀ j < n, mirrorOf s (loc + i) ≠ some (loc + j) ∧
      Unencoded s (loc + i) (loc + j)) →
    readNat (storeNat s loc n v) loc n = v % 256 ^ n)

/-- R124, R152, R160, R165, R186, R230, R431, R432; logs 3 and 4: An atomic whose addresses translate, and in whose
way no earlier access stands, answers the next state in which it has returned, or, where the step says so (log 3),
each lane's is outstanding; one whose address fails faults. As it returns, its lanes act one after another, each
seeing what the one before it wrote; vD holds what was read there and the flags are merged. A lane whose word has an
uncorrectable byte changes nothing, receives 0 and is killed, its bit set in UCELANES. At a word, whose bytes may have
their homes apart, the old value is what was read and the new value the operation's: sum, float sum rounded to nearest
even with subnormals kept, and, or, exchange, signed minimum and maximum, compare-and-swap. -/
def Obligations.AtomicResult : Prop :=
  (∀ f ∈ atomForms, ∀ (d a b : Code) (st : BitVec 4) (s : State) (g : Group) (hits : List (Nat × Hit)),
    Admits (f.1 d a b st) s g → laneHits s g .atomic 4 (laneAddr s g a b) = .ok hits →
    let l := atomicOf f.2 d st s g hits
    atomicWaits s g st.toNat (loadPlaces l) = false →
    exec (f.1 d a b st) s = .next (after (f.1 d a b st) s g (issueLoad s s.cur l (hits.map (·.2))) .none)) ∧
  (∀ (s : State) (gid : Nat) (l : PendLoad) (hs : List Hit),
    (s.late = false → issueLoad s gid l hs =
      returnLoad ((markHits s hs).updGroup gid fun g =>
        takeOwn (markHits s hs) l.stream (audOf gid g.core l.scope) (loadPlaces l) g) gid l) ∧
    (s.late = true → issueLoad s gid l hs =
      ((markHits s hs).updGroup gid fun g =>
        takeOwn (markHits s hs) l.stream (audOf gid g.core l.scope) (loadPlaces l) g).updGroup gid fun g =>
           { g with loads := g.loads ++ splitLoad l })) ∧
  (∀ (s : State) (gid : Nat) (g : Group) (l : PendLoad), s.group? gid = some g → isAtomic l = true →
    let r := atomLanes s gid g l
    let t := r.s.updGroup gid fun g => mergeFst (r.olds.foldl (fun g e => writePart g e.1 [e.2]) g) r.fl
    (r.dead = [] → returnLoad s gid l = t) ∧ returnLoad s gid l = uceLanes t gid (maskOf r.dead) (BitVec.ofNat 64 r.at_)) ∧
  (∀ (gid : Nat) (g : Group) (l : PendLoad) (r : AtomRun) (p : LoadPart) (a : AtomPart), p.atom = some a →
    let r' := atomStep gid g l r p
    let old := wordAt r.s (p.places.map (homeOf r.s))
    ((∀ x ∈ p.places, isBad r.s (homeOf r.s x) = false) → r'.olds = r.olds ++ [(p, old)] ∧ r'.dead = r.dead ∧
      r'.fl = r.fl ||| (atomValue a.op old a.x a.cmp).2) ∧
    ((∃ x ∈ p.places, isBad r.s (homeOf r.s x) = true) → r'.s = r.s ∧ r'.olds = r.olds ++ [(p, 0)] ∧
      r'.dead = r.dead ++ p.lane.toList ∧ r'.fl = r.fl)) ∧
  (∀ (s : State) (gid : Nat) (g : Group) (lanes : Word) (x : DWord), s.group? gid = some g → isMigrant g = false →
    (uceLanes s gid lanes x).group? gid = some { g with
      lmask := g.lmask &&& ~~~lanes, amask := g.amask &&& ~~~lanes,
      dbg := { g.dbg with ucelanes := g.dbg.ucelanes ||| lanes } }) ∧
  (∀ f ∈ atomForms, ∀ (d a b : Code) (st : BitVec 4) (s : State) (g : Group) (c : AccFault) (w : Word),
    Admits (f.1 d a b st) s g → laneHits s g .atomic 4 (laneAddr s g a b) = .error (c, w) →
    exec (f.1 d a b st) s = .next (faulted (f.1 d a b st) s g c.cause w c.addr)) ∧
  (∀ (w : Writer) (s : State) (op : AtomOp) (locs : List Nat) (x cmp : Word), locs.length = 4 → locs.Nodup →
    (∀ a ∈ locs, ∀ b ∈ locs, mirrorOf s a ≠ some b ∧ Unencoded s a b) →
    (atomAt w s op locs x cmp).2.1 = wordAt s locs ∧
    wordAt (atomAt w s op locs x cmp).1 locs = (atomValue op (wordAt s locs) x cmp).1) ∧
  (∀ (s : State) (loc : Nat), (wordAt s [loc, loc + 1, loc + 2, loc + 3]).toNat = readNat s loc 4) ∧
  (∀ old x cmp : Word, (atomValue .iadd old x cmp).1 = old + x ∧
    (atomValue .fadd old x cmp).1.toNat = (fadd ⟨f32, .rne, false⟩ old.toNat x.toNat).w % 2 ^ 32 ∧
    (atomValue .fadd old x cmp).2 = (fadd ⟨f32, .rne, false⟩ old.toNat x.toNat).fl ∧ (atomValue .and old x cmp).1 = old &&& x ∧
    (atomValue .or old x cmp).1 = old ||| x ∧ (atomValue .xchg old x cmp).1 = x ∧
    (atomValue .smin old x cmp).1.toInt = min old.toInt x.toInt ∧
    (atomValue .smax old x cmp).1.toInt = max old.toInt x.toInt ∧
    (atomValue .cas cmp x cmp).1 = x ∧ (old ≠ cmp → (atomValue .cas old x cmp).1 = old))

/-- R144 to R147, R152, R154, R168, R178, R179, R230, R448; logs 4 and 5: A fence only advances, and holds back later
accesses and range operations of its streams until those before it have completed: a stream of an outstanding fence
waits, and one that no outstanding fence names waits as it would with none; sattr writes its stream's attributes. A
range operation over no byte only advances; a range that leaves its aperture faults APER at the first address outside,
a czero of an address or a length that is no multiple of 128 ALIGN, and an unmapped page its cause; else, with no
earlier access in its way, cflush leaves no dirty line of its range in the LLC, cinv takes its lines from the L1 of
its core, and czero zeroes every byte of its lines and no other, as zero lines where the policy and the LLC hold them;
vpreq posts, each once, the pages of the live lanes of m7 whose address lies in global memory, counts them in sD, and
kills the lanes among them that consume an uncorrectable element, whose pages it does not post. (How L1 copies and
dirty lines are represented is the model's, logs 4 and 5.) -/
def Obligations.OrderResult : Prop :=
  (∀ (st : BitVec 4) (sc : BitVec 3) (s : State) (g : Group), Admits (.fence st sc) s g →
    exec (.fence st sc) s = .next (after (.fence st sc) s g (s.updGroup s.cur fun g =>
      settleFences s.cur { g with fences := g.fences ++ [⟨maskOf [st.toNat], sc.toNat⟩] }) .none)) ∧
  (∀ (sc : BitVec 3) (a : Code) (s : State) (g : Group), Admits (.xfence sc a) s g →
    exec (.xfence sc a) s = .next (after (.xfence sc a) s g (s.updGroup s.cur fun g' =>
      settleFences s.cur { g' with fences := g'.fences ++ [⟨srcS s g a &&& 0xFFFF, sc.toNat⟩] }) .none)) ∧
  (∀ (gid : Nat) (g : Group),
    (settleFences gid g).fences = g.fences.filter (fun f => streamBusy g (bit f.streams)) ∧
    { settleFences gid g with fences := g.fences, view := g.view } = g) ∧
  (∀ (s : State) (g : Group) (st : Nat) (x : Bool) (ps : List Nat), (∃ f ∈ g.fences, bit f.streams st = true) →
    loadWaits s g st x ps = true ∧ storeWaits s g st ps = true ∧ atomicWaits s g st ps = true ∧
    ∀ k, rangeWaits k g st = true) ∧
  (∀ (s : State) (g : Group) (st : Nat) (x : Bool) (ps : List Nat), (∀ f ∈ g.fences, bit f.streams st = false) →
    let h : Group := { g with fences := [] }
    loadWaits s g st x ps = loadWaits s h st x ps ∧ storeWaits s g st ps = storeWaits s h st ps ∧
    atomicWaits s g st ps = atomicWaits s h st ps ∧ ∀ k, rangeWaits k g st = rangeWaits k h st) ∧
  (∀ (st : BitVec 4) (a : Code) (s : State) (g : Group), Admits (.sattr st a) s g →
    exec (.sattr st a) s = .next (after (.sattr st a) s g (s.setGroup s.cur
      { g with sattr := put 0 g.sattr st.toNat ((srcS s g a).setWidth 4) }) .none)) ∧
  (∀ f ∈ rangeForms, ∀ (st : BitVec 4) (a b : Code) (s : State) (g : Group) (hs : List (Hit × Nat)),
    Admits (f.1 st a b) s g → srcS s g b ≠ 0 → rangeOut g.priv (srcSP s g a).toNat (srcS s g b).toNat = none →
    (f.2 = .zero → (srcSP s g a).toNat % 128 = 0 ∧ (srcS s g b).toNat % 128 = 0) →
    rangeHits s (agentOf s g none) (if f.2 = .zero then .czero else .flush)
      (rangePages (srcSP s g a).toNat (srcS s g b).toNat) = .ok hs →
    rangeWaits f.2 g st.toNat = false →
    exec (f.1 st a b) s = .next (after (f.1 st a b) s g
      (rangeEffect f.2 ((hs.flatMap fun e => partPlaces e.1 e.2).foldl touchPlace
        (markHits s ((hs.map (·.1)).filter fun h => !h.nonres))) s.cur g st.toNat hs) .none)) ∧
  (∀ f ∈ rangeForms, ∀ (st : BitVec 4) (a b : Code) (s : State) (g : Group),
    Admits (f.1 st a b) s g → srcS s g b = 0 → exec (f.1 st a b) s = .next (after (f.1 st a b) s g s .none)) ∧
  (∀ f ∈ rangeForms, ∀ (st : BitVec 4) (a b : Code) (s : State) (g : Group), Admits (f.1 st a b) s g → srcS s g b ≠ 0 →
    let out := rangeOut g.priv (srcSP s g a).toNat (srcS s g b).toNat
    (∀ x, out = some x → exec (f.1 st a b) s = .next (faulted (f.1 st a b) s g .aper 0 (BitVec.ofNat 64 x))) ∧
    (out = none → f.2 = .zero → (srcSP s g a).toNat % 128 ≠ 0 ∨ (srcS s g b).toNat % 128 ≠ 0 →
      exec (f.1 st a b) s = .next (faulted (f.1 st a b) s g .align 0 (srcSP s g a))) ∧
    (∀ c, out = none → (f.2 = .zero → (srcSP s g a).toNat % 128 = 0 ∧ (srcS s g b).toNat % 128 = 0) →
      rangeHits s (agentOf s g none) (if f.2 = .zero then .czero else .flush)
        (rangePages (srcSP s g a).toNat (srcS s g b).toNat) = .error c →
      exec (f.1 st a b) s = .next (faulted (f.1 st a b) s g c.cause 0 c.addr))) ∧
  (∀ (s : State) (gid : Nat) (g : Group) (st : Nat) (hs : List (Hit × Nat)) (line : Nat) (e : LlcLine),
    line ∈ rangeLines s hs → find (rangeEffect .flush s gid g st hs).llc line = some e →
    e.dirty = false) ∧
  (∀ (s : State) (core line : Nat) (ls : List Nat), line ∈ ls → copyAt (invalidateL1 s core ls) core line = none) ∧
  (∀ (w : Writer) (s : State) (line : Nat), 128 * line < 2 ^ 90 →
    (∀ l, l / 128 = line → readByte (zeroLine w s line) l = 0) ∧
    (∀ l, l / 128 ≠ line → (∀ l2, mirrorOf s (128 * line) = some l2 → l < l2 ∨ l2 + 128 ≤ l) →
      readByte (zeroLine w s line) l = readByte s l) ∧
    (∀ e, w.uncached = false → find s.llc line = some e → 128 * line < gddrEnd →
      find (zeroLine w s line).llc line = some ⟨true, true⟩)) ∧
  (∀ (d a b : Code) (s : State) (g : Group), Admits (.vpreq d a b) s g → g.loads = [] →
    let dead := pageKills g d a b
    let ps := requestPages s g dead a b
    let s1 := (ps.foldl (fun s p => postPage s g.ctx g.core p) s).updGroup s.cur fun g' =>
      g'.setS d.toNat (BitVec.ofNat 32 ps.length)
    exec (.vpreq d a b) s = .next (after (.vpreq d a b) s g (uceLanes s1 s.cur dead g.pc) .none)) ∧
  (∀ (d a b : Code) (s : State) (g : Group), (requestPages s g (pageKills g d a b) a b).Nodup ∧
    ∀ p, p ∈ requestPages s g (pageKills g d a b) a b ↔ ∃ j < 32, bit (g.maskAt 7) j = true ∧ g.live j = true ∧
      bit (pageKills g d a b) j = false ∧ isGlobal (laneAddr s g a b j) = true ∧ fieldNat (laneAddr s g a b j) 16 48 = p)

/-! ## Synchronisation, work and continuations -/

/-- R137, R141, R142, R365, R366: cbget on an enabled descriptor, or on the shaft, takes the slot at the index of its
role where one is free or filled; with none it parks the group in the queue of waiters, of the descriptor or of the
shaft. cbput of a slot held releases it, and waits while accesses of the group are outstanding. An identifier that
R141 does not admit (any in a migrant), a descriptor that is not enabled, a shaft towards a core out of service, and a
cbput of a slot not held, raise CBBAD. Acquiring as producer takes the slot at PIDX, one off FREE, and moves PIDX on
modulo the number of slots. -/
def Obligations.BufferResult : Prop :=
  (∀ (d a : Code) (s : State) (g : Group), Admits (.cbget d a) s g → cbIdOk g (srcS s g a) = true →
    let n := fieldNat (srcS s g a) 0 6
    let prod := bit (srcS s g a) 7
    let cl := clusterOfCore g.core
    let c := get CbDesc.reset (s.clusterAt cl).cbs n
    n ≠ 63 → c.en = true →
    (0 < cbCount c prod → exec (.cbget d a) s = .next (after (.cbget d a) s g
      ((s.setCluster cl { s.clusterAt cl with cbs := put CbDesc.reset (s.clusterAt cl).cbs n (cbAcquire c prod).1 }).setGroup
        s.cur (cbReceive s g d.toNat n prod (cbAcquire c prod).2)) .none)) ∧
    (cbCount c prod = 0 → exec (.cbget d a) s = .next (parkedAt (.cbget d a) s g
      ((s.setCluster cl { s.clusterAt cl with
          cbs := put CbDesc.reset (s.clusterAt cl).cbs n { c with waiters := c.waiters ++ [(s.cur, prod)] } }).setGroup
        s.cur (cbPark g d.toNat n prod))))) ∧
  (∀ (d a : Code) (s : State) (g : Group), Admits (.cbget d a) s g →
    (cbIdOk g (srcS s g a) = false → exec (.cbget d a) s = .next (faulted (.cbget d a) s g .cbbad 0 0)) ∧
    (fieldNat (srcS s g a) 0 6 ≠ 63 →
      (get CbDesc.reset (s.clusterAt (clusterOfCore g.core)).cbs (fieldNat (srcS s g a) 0 6)).en = false →
      exec (.cbget d a) s = .next (faulted (.cbget d a) s g .cbbad 0 0)) ∧
    (fieldNat (srcS s g a) 0 6 = 63 → bit (srcS s g a) 7 = true → (s.coreAt (partnerOf g.core)).oos = true →
      exec (.cbget d a) s = .next (faulted (.cbget d a) s g .cbbad 0 0))) ∧
  (∀ (d a : Code) (s : State) (g : Group), Admits (.cbget d a) s g → cbIdOk g (srcS s g a) = true →
    fieldNat (srcS s g a) 0 6 = 63 →
    let prod := bit (srcS s g a) 7
    let fc := fifoOf g.core prod
    let k := s.coreAt fc
    prod = false ∨ k.oos = false →
    (0 < shaftCount k.inbound prod → exec (.cbget d a) s = .next (after (.cbget d a) s g
      ((s.setCore fc { k with inbound := (shaftAcquire k.inbound prod).1 }).setGroup s.cur
        (cbReceive s g d.toNat 63 prod (shaftAcquire k.inbound prod).2)) .none)) ∧
    (shaftCount k.inbound prod = 0 → exec (.cbget d a) s = .next (parkedAt (.cbget d a) s g
      ((s.setCore fc { k with inbound := { k.inbound with waiters := k.inbound.waiters ++ [(s.cur, prod)] } }).setGroup
        s.cur (cbPark g d.toNat 63 prod))))) ∧
  (∀ (a : Code) (h : HeldSlot) (s : State) (g : Group), Admits (.cbput a) s g → cbIdOk g (srcS s g a) = true →
    (g.held.find? fun h => h.desc == fieldNat (srcS s g a) 0 6 && h.prod == bit (srcS s g a) 7) = some h →
    quiet g = true → exec (.cbput a) s = .next (after (.cbput a) s g
      (cbRelease (s.setGroup s.cur { g with held := g.held.erase h }) g.core h) .none)) ∧
  (∀ (a : Code) (s : State) (g : Group), Admits (.cbput a) s g →
    let found := g.held.find? fun h => h.desc == fieldNat (srcS s g a) 0 6 && h.prod == bit (srcS s g a) 7
    (found = none ∨ cbIdOk g (srcS s g a) = false →
      exec (.cbput a) s = .next (faulted (.cbput a) s g .cbbad 0 0)) ∧
    (found ≠ none → cbIdOk g (srcS s g a) = true → quiet g = false → exec (.cbput a) s = .next s)) ∧
  (∀ (g : Group) (v : Word), isMigrant g = true → cbIdOk g v = false) ∧
  (∀ (c : CbDesc), 0 < c.free → c.pidx < c.nslot.toNat →
    (cbAcquire c true).2 = c.pidx ∧ (cbAcquire c true).1.free + 1 = c.free ∧
    (cbAcquire c true).1.pidx = (c.pidx + 1) % c.nslot.toNat ∧ (cbAcquire c true).1.filled = c.filled)

/-- R211 to R219, R233, R234, R359: evbind binds one slot and leaves the others, clears its pending bit, and sets it
again where a mailbox is bound whose word is not zero, the group's own outstanding stores being seen; evmask and evclr
write their registers; evpend reads EVPEND with levels refreshed; waitany takes the lowest pending unmasked slot,
parks where none is or a pre-emption is due, and raises ALIGN on a misaligned handler, the levels that it sampled
kept; bar, with nothing outstanding, arrives, and parks unless it is asynchronous, at a point of pre-emption where one
is due, and stands Stalled while the barrier holds a phase of another block. A migrant, a bad descriptor or a bad
operand raises EVTBAD. Arriving at an idle barrier opens a phase that expects the block's groups that are not killed,
counts as arrived those that stand at their end without a live lane, and counts each group once. -/
def Obligations.EventResult : Prop :=
  (∀ (d a b : Code) (s : State) (g : Group), Admits (.evbind d a b) s g → isMigrant g = false →
    descriptorBad s g (srcS s g a) = false →
    ∃ e : EventRegs, exec (.evbind d a b) s =
        .next (after (.evbind d a b) s g (s.setGroup s.cur { g with ev := e }) .none) ∧
      e.mask = g.ev.mask ∧ e.gtcmp = g.ev.gtcmp ∧ e.barsel = g.ev.barsel ∧
      e.pend = (g.ev.pend &&& ~~~(slotBit d.toNat)) |||
        (if boundMailbox s g (srcS s g a) then slotBit d.toNat else 0) ∧ (∀ k, k ≠ d.toNat → find e.slots k = find g.ev.slots k) ∧
      (evKind (srcS s g a) ≠ 0 → find e.slots d.toNat = some ⟨srcS s g a, srcSP s g b⟩) ∧
      (evKind (srcS s g a) = 0 → find e.slots d.toNat = none)) ∧
  (∀ (s : State) (g : Group) (b : Block) (v : Word), s.block? g.block = some b →
    (boundMailbox s g v = true ↔
      evKind v = 3 ∧ ∃ i < 4, (readOwn s g (spadLoc b.cluster (b.spadBase + 4 * evArg v) + i)).1 ≠ 0)) ∧
  (∀ (s : State) (g : Group) (p : Nat), (∀ w ∈ g.wbuf, w.known = false ∨ ∀ e ∈ w.bytes, homeOf s e.1 ≠ homeOf s p) →
    (readOwn s g p).1 = readByte s (homeOf s p)) ∧
  (∀ (d a b : Code) (s : State) (g : Group), Admits (.evbind d a b) s g →
    isMigrant g = true ∨ descriptorBad s g (srcS s g a) = true →
    exec (.evbind d a b) s = .next (faulted (.evbind d a b) s g .evtbad 0 0)) ∧
  (∀ (a : Code) (s : State) (g : Group), Admits (.evmask a) s g →
    exec (.evmask a) s = .next (after (.evmask a) s g (s.setGroup s.cur
      { g with ev := { g.ev with mask := (srcS s g a).setWidth 8 } }) .none)) ∧
  (∀ (a : Code) (s : State) (g : Group), Admits (.evclr a) s g →
    exec (.evclr a) s = .next (after (.evclr a) s g (s.setGroup s.cur
      { g with ev := { g.ev with pend := g.ev.pend &&& ~~~(srcS s g a).setWidth 8 } }) .none)) ∧
  (∀ (d : Code) (s : State) (g : Group), Admits (.evpend d) s g →
    exec (.evpend d) s = .next (after (.evpend d) s g
      (s.setGroup s.cur ((refreshLevels s g).setS d.toNat ((refreshLevels s g).ev.pend.setWidth 32)))
      (.sca ((refreshLevels s g).ev.pend.setWidth 32)))) ∧
  (∀ (a : Code) (s : State) (g : Group), Admits (.waitany a) s g → isMigrant g = false →
    fieldNat (srcS s g a) 8 24 = 0 → (srcS s g a).setWidth 8 ≠ 0#8 →
    (srcS s g a).setWidth 8 &&& ~~~(evbound g.ev) = 0 →
    let g1 := refreshLevels s g
    let p := takeable g1 ((srcS s g a).setWidth 8)
    (p ≠ 0 → preemptDue s s.cur g1 = false → handlerOf g1 (lowestSlot p) &&& 3 = 0 →
      exec (.waitany a) s = .next (jumped (.waitany a) s g (s.setGroup s.cur
        (takeSlot (acquireSlot s g1 (lowestSlot p)) (lowestSlot p))))) ∧
    (p ≠ 0 → preemptDue s s.cur g1 = false → handlerOf g1 (lowestSlot p) &&& 3 ≠ 0 →
      exec (.waitany a) s = .next (ranHere (raise s s.cur g1 (joins (oprsOf g1.fmt (.waitany a))) .align 0
        (handlerOf g1 (lowestSlot p)) (insWord (.waitany a))) g)) ∧
    (p = 0 ∨ preemptDue s s.cur g1 = true → exec (.waitany a) s = .next (parkedAt (.waitany a) s g (s.setGroup s.cur
      { g1 with status := .parked (.waitany ((srcS s g a).setWidth 8)) })))) ∧
  (∀ (a : Code) (s : State) (g : Group), Admits (.waitany a) s g →
    isMigrant g = true ∨ fieldNat (srcS s g a) 8 24 ≠ 0 ∨ (srcS s g a).setWidth 8 = 0#8 ∨
      (srcS s g a).setWidth 8 &&& ~~~(evbound g.ev) ≠ 0 →
    exec (.waitany a) s = .next (faulted (.waitany a) s g .evtbad 0 0)) ∧
  (∀ (a : Code) (s : State) (g : Group), Admits (.bar a) s g →
    isMigrant g = true ∨ fieldNat (srcS s g a) 9 23 ≠ 0 ∨ fieldNat (srcS s g a) 6 2 ≠ 0 →
    exec (.bar a) s = .next (faulted (.bar a) s g .evtbad 0 0)) ∧
  (∀ (a : Code) (s : State) (g : Group), Admits (.bar a) s g → isMigrant g = false →
    fieldNat (srcS s g a) 9 23 = 0 → fieldNat (srcS s g a) 6 2 = 0 → quiet g = true →
    let cl := clusterOfCore g.core
    let b := fieldNat (srcS s g a) 0 6
    let o := get Barrier.idle (s.clusterAt cl).bars b
    (o.isOpen = false ∨ o.owner = g.block) →
    let s1 := s.setCluster cl { s.clusterAt cl with
      bars := put Barrier.idle (s.clusterAt cl).bars b (barArrive s s.cur g o) }
    let due := preemptDue s s.cur g && !fpFirst g (.bar a)
    (bit (srcS s g a) 8 = true → due = false →
      exec (.bar a) s = .next (after (.bar a) s g (barCheck s1 cl b) .none)) ∧
    (bit (srcS s g a) 8 = true → due = true → exec (.bar a) s = .next (parkedAt (.bar a) s g
      (barCheck (s1.setGroup s.cur { advance g with status := .parked (.save none) }) cl b))) ∧
    (bit (srcS s g a) 8 = false → due = false → exec (.bar a) s = .next (parkedAt (.bar a) s g
      (barCheck (s1.setGroup s.cur { g with status := .parked (.bar b) }) cl b))) ∧
    (bit (srcS s g a) 8 = false → due = true → exec (.bar a) s = .next (parkedAt (.bar a) s g
      ((barCheck (s1.setGroup s.cur { g with status := .parked (.bar b) }) cl b).updGroup s.cur atPoint)))) ∧
  (∀ (a : Code) (s : State) (g : Group), Admits (.bar a) s g → isMigrant g = false →
    fieldNat (srcS s g a) 9 23 = 0 → fieldNat (srcS s g a) 6 2 = 0 →
    let o := get Barrier.idle (s.clusterAt (clusterOfCore g.core)).bars (fieldNat (srcS s g a) 0 6)
    o.isOpen = true → o.owner ≠ g.block → exec (.bar a) s = .next (heldAt (.bar a) s g
      (s.setGroup s.cur { g with status := .parked .stalled }))) ∧
  (∀ (s : State) (gid : Nat) (g : Group) (o : Barrier),
    (barArrive s gid g o).isOpen = true ∧ gid ∈ (barArrive s gid g o).arrived ∧
    (o.isOpen = false → (barArrive s gid g o).owner = g.block ∧ 
      (∀ k, k ∈ (barArrive s gid g o).arrived ↔ k = gid ∨ k ∈ deadIn s g.block) ∧
      ∀ k, k ∈ (barArrive s gid g o).expected ↔ ∃ e ∈ groupsOfBlock s g.block, e.1 = k ∧ e.2.killed = false) ∧
    (o.isOpen = true → (barArrive s gid g o).expected = o.expected ∧ (barArrive s gid g o).owner = o.owner ∧
      ∀ k, k ∈ (barArrive s gid g o).arrived ↔ k = gid ∨ k ∈ o.arrived)) ∧
  (∀ (s : State) (bid k : Nat), k ∈ deadIn s bid ↔
    ∃ e ∈ groupsOfBlock s bid, e.1 = k ∧ e.2.killed = false ∧ e.2.lmask = 0 ∧ e.2.status = .parked .exit)

/-- R88 to R91, R184, R234, R380, R420; logs 27 and 29: fetchw queues a request at an admissible address while fewer
than four are outstanding, no store of the group to its mailbox is (the model's choice, DESIGN CHOICE, log 29), and
(but for a pixel group) no pre-emption is in progress; a misaligned offset raises ALIGN, and one outside the slice, or
in a migrant, APER, with the address of the offset in the scratchpad aperture in TADDR (the model's choice, log 27);
with a pre-emption due it parks for its save, and with four outstanding, or such a store, it waits. spawn raises ALIGN
on a misaligned entry and never waits: it creates as many groups as its core and block have room for and writes their
number to sD: no more than asked for, none from a migrant, and never past 64 groups in the block. Where it creates
groups its own outstanding accesses are made first (DESIGN CHOICE, log 29). -/
def Obligations.WorkResult : Prop :=
  (∀ (a : Code) (b : Block) (s : State) (g : Group), Admits (.fetchw a) s g → isMigrant g = false →
    s.block? g.block = some b → (srcS s g a).toNat % 16 = 0 → (srcS s g a).toNat + 16 ≤ b.spad →
    preemptDue s s.cur g = false → (preempting s g = false ∨ isPixel g = true) → g.fetches.length < 4 →
    mailboxBusy g (spadLoc b.cluster (b.spadBase + (srcS s g a).toNat)) = false →
    exec (.fetchw a) s = .next (after (.fetchw a) s g
      (s.setGroup s.cur { g with fetches := g.fetches ++ [(srcS s g a).toNat] }) .none)) ∧
  (∀ (a : Code) (s : State) (g : Group), Admits (.fetchw a) s g →
    ((srcS s g a).toNat % 16 ≠ 0 →
      exec (.fetchw a) s = .next (faulted (.fetchw a) s g .align 0 (spadVa (srcS s g a).toNat))) ∧
    ((srcS s g a).toNat % 16 = 0 → (isMigrant g = true ∨ s.block? g.block = none ∨
        ∃ b, s.block? g.block = some b ∧ b.spad < (srcS s g a).toNat + 16) →
      exec (.fetchw a) s = .next (faulted (.fetchw a) s g .aper 0 (spadVa (srcS s g a).toNat))) ∧
    (∀ b, (srcS s g a).toNat % 16 = 0 → isMigrant g = false → s.block? g.block = some b →
      (srcS s g a).toNat + 16 ≤ b.spad →
      (preemptDue s s.cur g = true → exec (.fetchw a) s =
        .next (heldAt (.fetchw a) s g (s.setGroup s.cur { g with status := .parked (.save none) }))) ∧
      (preemptDue s s.cur g = false → (preempting s g = true ∧ isPixel g = false ∨ 4 ≤ g.fetches.length ∨
          mailboxBusy g (spadLoc b.cluster (b.spadBase + (srcS s g a).toNat)) = true) →
        exec (.fetchw a) s = .next s))) ∧
  (∀ (d a b : Code) (l : Launch) (s : State) (g : Group), Admits (.spawn d a b) s g → srcSP s g a &&& 3 = 0 →
    s.launch? g.launch = some l →
    let c := spawnCount s s.cur g l (g.scalar d.toNat).toNat
    let t := quiesce s s.cur
    (c = 0 → exec (.spawn d a b) s = .next (after (.spawn d a b) s g (s.setGroup s.cur (g.setS d.toNat 0)) .none)) ∧
    (c ≠ 0 → ∀ g1, t.group? s.cur = some g1 → g1.status = .ready → t.launch? g1.launch = some l →
      exec (.spawn d a b) s = .next (after (.spawn d a b) s g
        ((spawnGroups g1 l (srcSP s g a) (srcSP s g b) c 0 t).updGroup s.cur fun g' =>
          g'.setS d.toNat (BitVec.ofNat 32 c)) .none))) ∧
  (∀ (d a b : Code) (s : State) (g : Group), Admits (.spawn d a b) s g → srcSP s g a &&& 3 ≠ 0 →
    exec (.spawn d a b) s = .next (faulted (.spawn d a b) s g .align 0 (srcSP s g a))) ∧
  (∀ (s : State) (gid : Nat) (g : Group) (l : Launch) (n : Nat), spawnCount s gid g l n ≤ n ∧
    (isMigrant g = true → spawnCount s gid g l n = 0) ∧
    (groupsOfBlock s g.block).length + spawnCount s gid g l n ≤ max 64 (groupsOfBlock s g.block).length)

/-- R192: hopcfg sA is the word of major 0x32, FN 4 with D, B and NW zero, A a scalar code (any other code raises
OPND). It writes HOPCFG := sA[15:0], ignores sA[31:16] and has the effect of a csrw of 0x10. hopcfg s5 encodes as
0xC800_5004. -/
def Obligations.HopConfiguration : Prop :=
  (∀ (a : Code) (w : Word), decode w = .ok (.hopcfg a) ↔ (fieldNat w 26 6 = 0x32 ∧ fieldNat w 0 4 = 4 ∧
    fieldNat w 19 7 = 0 ∧ fieldNat w 12 7 = a.toNat ∧ fieldNat w 5 7 = 0 ∧ bit w 4 = false)) ∧
  encode (.hopcfg 5) = some 0xC8005004 ∧
  (∀ (a : Code) (s : State) (g : Group), s.group? s.cur = some g → g.status = .ready →
    (s.coreAt g.core).scanning = false → (86 < a.toNat ∧ a.toNat < 96 ∨ 103 < a.toNat) →
    exec (.hopcfg a) s = .next (faulted (.hopcfg a) s g .opnd 0 0)) ∧
  (∀ (a : Code) (s : State) (g : Group), Admits (.hopcfg a) s g →
    exec (.hopcfg a) s = .next (after (.hopcfg a) s g
      (s.setGroup s.cur { g with cont := { g.cont with hopcfg := (srcS s g a).setWidth 16 } }) .none) ∧
    exec (.hopcfg a) s = .next (after (.hopcfg a) s g (sysWrite s s.cur g g.priv 0x10 (srcS s g a)) .none)) ∧
  (∀ (a : Code) (s : State) (g : Group), Admits (.csrw a 0x10) s g →
    exec (.csrw a 0x10) s = .next (after (.csrw a 0x10) s g (sysWrite s s.cur g g.priv 0x10 (srcS s g a)) .none))

/-- R188 to R196, R202, R205, R382 to R386, R404; log 10: owner gives each active lane the owner of its address, and
with hop faults where one does not translate; hop and hopx raise WINDOW where HOPCFG names a register beyond the
allocation, and send the lanes that are owned elsewhere, the group's outstanding accesses, and the stores whose bytes
it has taken, made first (the model's choice, log 10), where the outbound buffer of 64 records has room; a home group
without room stands Stalled in the instruction, and one with records queued until they have left; hopback returns a
migrant's lanes once nothing is outstanding and does nothing in a home group; rejoin does nothing with no lane away,
parks until every away lane has its entry, raises WINDOW where a returned register lies beyond the allocation, applies
the entries, and traps MIGREF for lanes refused, else MIGTTL for lanes whose hops are spent. The entries applied: AWAY
is clear, HOPREF holds the lanes refused and HOPTTL those of them whose hops are spent; a lane returned by KIND 3 is
live no more, any other that was live is active again; the registers that a KIND 1 entry carries hold its values in
that lane, uncorrectable ones marked, and no other element, scalar or mask changes. -/
def Obligations.ContinuationResult : Prop :=
  (∀ (d a : Code) (nw : Bool) (os : List (Nat × Word)) (s : State) (g : Group), Admits (.owner d a nw) s g →
    laneOwners s g a = .ok os →
    exec (.owner d a nw) s = .next (vecAfter (.owner d a nw) s g d nw (get 0 os))) ∧
  (∀ (a : Code) (e : AccFault × Word) (s : State) (g : Group), laneOwners s g a = .error e →
    (∀ d nw, Admits (.owner d a nw) s g →
      exec (.owner d a nw) s = .next (faulted (.owner d a nw) s g e.1.cause e.2 e.1.addr)) ∧
    (Admits (.hop a) s g → exec (.hop a) s = .next (faulted (.hop a) s g e.1.cause e.2 e.1.addr))) ∧
  (∀ f ∈ hopForms, ∀ (a : Code) (os : List (Nat × Word)) (s : State) (g : Group), Admits (f.1 a) s g →
    (if f.2 then laneOwners s g a = .ok os else os = g.activeLanes.map fun j => (j, srcV g a j)) →
    let m7 := if f.2 then stayNres s g os else 0
    ((∀ i < 16, g.cont.hopcfg.getLsbD i = true → g.wb + i < g.vregs) → leaving s g os = [] → exec (f.1 a) s = .next (after (f.1 a) s g (s.setGroup s.cur (g.orM7 m7)) .none)) ∧
    ((∃ i < 16, g.cont.hopcfg.getLsbD i = true ∧ g.vregs ≤ g.wb + i) →
      exec (f.1 a) s = .next (faulted (f.1 a) s g .window 0 0)) ∧
    ((∀ i < 16, g.cont.hopcfg.getLsbD i = true → g.wb + i < g.vregs) → leaving s g os ≠ [] → isMigrant g = false →
      64 < (outbound s g.core).length + (queuedLanes s g (leaving s g os)).length →
      exec (f.1 a) s = .next (heldAt (f.1 a) s g (s.setGroup s.cur { g with status := .parked .room }))) ∧
    (∀ g1, (∀ i < 16, g.cont.hopcfg.getLsbD i = true → g.wb + i < g.vregs) → leaving s g os ≠ [] →
      isMigrant g = true ∨ (outbound s g.core).length + (queuedLanes s g (leaving s g os)).length ≤ 64 →
      (quiesce s s.cur).group? s.cur = some g1 → g1.status = .ready →
      let out := (leaving s g os).filter fun e => g1.live e.1
      let t := sent (quiesce s s.cur) s.cur g1 out m7
      exec (f.1 a) s = .next (if isMigrant g1 || (queuedLanes (quiesce s s.cur) g1 out).isEmpty
        then after (f.1 a) s g t .none
        else parkedAt (f.1 a) s g (t.updGroup s.cur fun g' => { g' with status := .parked .hop })))) ∧
  (∀ (s : State) (gid : Nat) (g : Group), s.group? gid = some g → g.loads = [] → g.wbuf = [] → g.ahead = [] →
    g.fences = [] → ∃ gs, quiesce s gid = { s with groups := gs } ∧ find gs gid = some g ∧ ∀ k, k ≠ gid → find gs k = s.group? k) ∧
  (∀ (s : State) (g : Group), Admits .hopback s g →
    (isMigrant g = false → exec .hopback s = .next (after .hopback s g s .none)) ∧
    (isMigrant g = true → quiet g = true → exec .hopback s = .next (ranHere (retire (returnValues s g) s.cur) g)) ∧
    (isMigrant g = true → quiet g = false → exec .hopback s = .next s)) ∧
  (∀ (s : State) (g : Group), Admits .rejoin s g →
    (isMigrant g = true ∨ g.away = 0 → exec .rejoin s = .next (after .rejoin s g s .none)) ∧
    (isMigrant g = false → g.away ≠ 0 → allReturned g = false → exec .rejoin s =
      .next (parkedAt .rejoin s g (s.setGroup s.cur { g with status := .parked .rejoin }))) ∧
    (isMigrant g = false → g.away ≠ 0 → allReturned g = true → rejoinWindow g = false →
      (applyEntries g).2 = none →
      exec .rejoin s = .next (after .rejoin s g (s.setGroup s.cur (applyEntries g).1) .none)) ∧
    (isMigrant g = false → g.away ≠ 0 → allReturned g = true → rejoinWindow g = true →
      exec .rejoin s = .next (faulted .rejoin s g .window 0 0)) ∧
    (∀ c ls, isMigrant g = false → g.away ≠ 0 → allReturned g = true → rejoinWindow g = false →
      (applyEntries g).2 = some (c, ls) →
      exec .rejoin s = .next (trapped .rejoin s g (s.setGroup s.cur (applyEntries g).1) c ls))) ∧
  (∀ g : Group,
    let spent := maskOf (((awayEntries g).filter fun e => e.2.kind == 5).map (·.1))
    let refused := maskOf (((awayEntries g).filter fun e => e.2.kind ≥ 4).map (·.1)) &&& ~~~spent
    (applyEntries g).2 = if refused ≠ 0 then some (.migref, refused) else if spent ≠ 0 then some (.migttl, spent) else none) ∧
  (∀ g : Group, allReturned g = true →
    let g' := (applyEntries g).1
    g'.away = 0 ∧ g'.s = g.s ∧ g'.m = g.m ∧ g'.pc = g.pc ∧ g'.status = g.status ∧ g'.cont.hopcfg = g.cont.hopcfg ∧
    (∀ j < 32, g'.cont.hopref.getLsbD j = ((awayEntries g).any fun e => e.1 == j && decide (4 ≤ e.2.kind)) ∧
      g'.cont.hopttl.getLsbD j = ((awayEntries g).any fun e => e.1 == j && e.2.kind == 5)) ∧
    (∀ j < 32, g.away.getLsbD j = false → g'.lmask.getLsbD j = g.lmask.getLsbD j ∧
      g'.amask.getLsbD j = g.amask.getLsbD j ∧ find g'.cont.rets j = find g.cont.rets j ∧ ∀ n, regAt g' n j = regAt g n j) ∧
    (∀ j < 32, ∀ e, g.away.getLsbD j = true → find g.cont.rets j = some e →
      find g'.cont.rets j = none ∧ find g'.cont.sites j = none ∧
      g'.lmask.getLsbD j = (g.lmask.getLsbD j && e.kind != 3) ∧
      g'.amask.getLsbD j = (g'.lmask.getLsbD j || g.amask.getLsbD j) ∧
      (∀ i < 16, e.kind = 1 → e.carry.getLsbD i = true → regAt g' (g.wb + i) j = e.vals.getD i 0 ∧
        g'.badV.contains (elemOf (g.wb + i) j) = e.bad.contains i) ∧
      (∀ n, e.kind ≠ 1 ∨ n < g.wb ∨ g.wb + 16 ≤ n ∨ e.carry.getLsbD (n - g.wb) = false → regAt g' n j = regAt g n j)))

/-! ## Engines -/

/-- R109, R118 to R120, R133, R134, R248, R249, R251, R253, R256 to R264; logs 4, 9 and 29: The matrix instructions,
under the conditions that the spec puts on their operands, answer the next state of their effect: the granted shape;
products, zeros and writes placed in the core's queue of 64, with the tokens paid (mwr taking its values at issue,
zeros for a lane that an uncorrectable one kills), and performed from its head; each element of a product the
accumulation of its row and column; rows read in active lanes once the tile's batches are complete, Stalled until
then; batches closed and awaited; and the descriptor of a surface. The grant is R249's: 0 for formats that are
reserved or of two classes or a zero field, else M and N rounded up to 8 and at most 128, KG the K-groups, at most
512, and the class. An accumulator takes its K-groups one after another, each with its exact sum (under mx4 times both
scales; a scale of 0xFF, like every undefined sum, gives the canonical NaN and NV) and one rounding (FloatValues), or,
for bp and s8, the sum of products modulo 2^32. A row of a register operand is that of lane i div 4 (zeros where that
lane is dead), of a scratchpad operand the bytes at R253's addresses, BP planes read as the leading bits of their s8,
and of a view the elements of the view's row, 0 beyond the surface. When the engine works is the model's choice (log
9). That after mwait everything done so far precedes the group's accesses (seeAll) is the model's strongest join (log
4), more than the operations that R183 and R263 join; mwait of batch 0 joins nothing. SECV of a view comes before the
tokens, and uncorrectable bytes of scratchpad and views count as consumed as those of registers do (DESIGN CHOICE, log
29). -/
def Obligations.MatrixResult : Prop :=
  (∀ (d a : Code) (s : State) (g : Group), Admits (.tshape d a) s g →
    let w := grantShape g.fmt (srcS s g a)
    exec (.tshape d a) s = .next (after (.tshape d a) s g
      (s.setGroup s.cur { g.setS d.toNat w with mx := { g.mx with mshape := w } }) .none)) ∧
  (∀ f ∈ productForms, ∀ (d a b : Code) (s : State) (g : Group), Admits (f.1 d a b) s g →
    let sh := shapeOf g f.2
    let x := operandOf g a
    let y := operandOf g b
    let k := s.clusterAt (clusterOfCore g.core)
    let cost := min (tokenCost sh) (tokenCap k)
    productFault s g sh d.toNat x y = none → productSecv s g sh x y = none → awaitsOpd g x = false →
    awaitsOpd g y = false → streamBusy g (· == g.mx.mstrm.toNat) = false → queueFull s g = false →
    cost ≤ k.mtbal.toNat → k.served ≤ serviceNo g →
    exec (f.1 d a b) s = .next (after (f.1 d a b) s g
      (enqueue (s.setCluster (clusterOfCore g.core)
          { k with mtbal := k.mtbal - BitVec.ofNat 20 cost, served := serviceNo g })
        s.cur g d.toNat (tokenCost sh) (.product f.2 d.toNat a.toNat b.toNat (snapOf g))) .none)) ∧
  (∀ (d : Code) (s : State) (g : Group), Admits (.mzero d) s g → d.toNat < g.accs → queueFull s g = false →
    exec (.mzero d) s = .next (after (.mzero d) s g
      (enqueue s s.cur g d.toNat 1 (.zero d.toNat (rowsOfLanes g.activeLanes))) .none)) ∧
  (∀ (d a b : Code) (s : State) (g : Group), Admits (.mwr d a b) s g → d.toNat < g.accs →
    columnBad (srcS s g b) true = false → runFault g a.toNat 32 = none → awaitsRun g a.toNat 32 = false →
    queueFull s g = false →
    let bad := badLanes g a.toNat 32
    let cells := g.activeLanes.flatMap fun j => (List.range 32).map fun i =>
      (tileIdx d.toNat (4 * j + i / 8) (fieldNat (srcS s g b) 0 7 + i % 8),
        if bad.getLsbD j then 0 else g.vcode (a.toNat + i) j)
    (bad = 0 → exec (.mwr d a b) s =
      .next (after (.mwr d a b) s g (enqueue s s.cur g d.toNat 1 (.write cells)) .none)) ∧
    (∀ g1, bad ≠ 0 → (uceLanes s s.cur bad g.pc).group? s.cur = some g1 → exec (.mwr d a b) s =
      .next (after (.mwr d a b) s g (enqueue (uceLanes s s.cur bad g.pc) s.cur g1 d.toNat 1 (.write cells)) .none)) ∧
    ((cells.map (·.1)).Nodup ∧ ∀ j i, g.active j = true → j < 32 → i < 32 → bad.getLsbD j = false →
      (tileIdx d.toNat (4 * j + i / 8) (fieldNat (srcS s g b) 0 7 + i % 8), g.vcode (a.toNat + i) j) ∈ cells)) ∧
  (∀ (s : State) (gid : Nat) (g : Group) (t left : Nat) (act : MatrixAct),
    ((enqueue s gid g t left act).coreAt g.core).mq = (s.coreAt g.core).mq ++ [⟨gid, g.mx.mbopen, left, act⟩] ∧
    (enqueue s gid g t left act).group? gid = some (joinBatch g t)) ∧
  (∀ (s : State) (core : Nat) (e : MatrixOp) (rest : List MatrixOp) (g : Group), (s.coreAt core).mq = e :: rest →
    s.group? e.gid = some g → e.left ≤ 1 → ((engineCycle s core).coreAt core).mq = rest ∧
      (engineCycle s core).group? e.gid = some (performOn (s.setCore core { s.coreAt core with mq := rest }) g e)) ∧
  (∀ (s : State) (g : Group) (gid left : Nat) (n : Word) (many : Bool) (t a b : Nat) (p : MatrixSnap),
    let h := asIssued g p
    let sh := shapeOf h many
    let x := operandOf h (BitVec.ofNat 7 a)
    let y := operandOf h (BitVec.ofNat 7 b)
    sh.m ≤ 128 → sh.n ≤ 128 → (many = true → sh.m ≤ 32 ∧ sh.n ≤ 32) → g.badRow = [] →
    (∀ pr ∈ productsOf h sh, consumers s h sh x y pr = []) →
    ∀ pr ∈ productsOf h sh, ∀ r ∈ pr.rows, ∀ c ∈ pr.cols,
      tileAt (performOn s g ⟨gid, n, left, .product many t a b p⟩) t r.2 c.2 = BitVec.ofNat 32
        (accElem sh.cls (tileAt g t r.2 c.2).toNat (readRow s h sh x (fmtMa h.fmt) pr.p r.1)
          (readRow s h sh y (fmtMb h.fmt) pr.p c.1)).w) ∧
  (∀ (d a b : Code) (s : State) (g : Group), Admits (.mrd d a b) s g → a.toNat < g.accs →
    columnBad (srcS s g b) false = false → runFault g d.toNat (mrdCount g.fmt (srcS s g b)) = none →
    a.toNat ∉ g.mx.opening.tiles → tileBusy g a.toNat = false →
    awaitsRun g d.toNat (mrdCount g.fmt (srcS s g b)) = false →
    (rowsOfLanes g.activeLanes).filter (rowBad g a.toNat) = [] →
    exec (.mrd d a b) s = .next (after (.mrd d a b) s g (s.setGroup s.cur
      (readOut (spoilRows g a.toNat []) d.toNat a.toNat (fieldNat (srcS s g b) 0 7) (bit (srcS s g b) 7))) .none)) ∧
  (∀ (d a b : Code) (s : State) (g : Group), Admits (.mrd d a b) s g → a.toNat < g.accs →
    columnBad (srcS s g b) false = false → runFault g d.toNat (mrdCount g.fmt (srcS s g b)) = none →
    (a.toNat ∈ g.mx.opening.tiles → exec (.mrd d a b) s = .next (heldAt (.mrd d a b) s g
      (s.setGroup s.cur { g with mx := closeBatch g.mx, status := .parked .stalled }))) ∧
    (a.toNat ∉ g.mx.opening.tiles → tileBusy g a.toNat = true → exec (.mrd d a b) s =
      .next (heldAt (.mrd d a b) s g (s.setGroup s.cur { g with status := .parked .stalled })))) ∧
  (∀ (d : Code) (s : State) (g : Group), Admits (.mfence d) s g →
    exec (.mfence d) s = .next (after (.mfence d) s g
      (s.setGroup s.cur { g.setS d.toNat g.mx.mbopen with mx := closeBatch g.mx }) .none)) ∧
  (∀ (a : Code) (s : State) (g : Group), Admits (.mwait a) s g →
    let t := if serialGe (g.mx.mbopen - 1) (srcS s g a) then srcS s g a else g.mx.mbopen - 1
    exec (.mwait a) s = .next (if srcS s g a = 0 then after (.mwait a) s g s .none
      else if serialGe g.mx.mbdone t = true then after (.mwait a) s g (s.setGroup s.cur (seeAll s .all g)) .none
      else parkedAt (.mwait a) s g (s.setGroup s.cur { g with status := .parked (.mwait t) }))) ∧
  (∀ (d a b : Code) (h : Sfte) (s : State) (g : Group), Admits (.msurf d a b) s g →
    fieldNat (srcS s g a) 14 18 = 0 → fieldNat (srcS s g a) 12 2 ≠ 3 →
    s.handle? g.ctx (fieldNat (srcS s g a) 0 12) = some h → viewOf h = some (fieldNat (srcS s g a) 12 2) →
    exec (.msurf d a b) s = .next (after (.msurf d a b) s g (s.setGroup s.cur (g.setSPair d.toNat
      (BitVec.ofNat 64 (0x20 * 2 ^ 58 + fieldNat (srcS s g a) 12 2 * 2 ^ 56 + fieldNat (srcS s g a) 0 12 * 2 ^ 44 +
        (srcS s g b).toNat)))) .none)) ∧
  ((List.range 7).map mtxClass = [1, 1, 2, 2, 3, 4, 5] ∧ (∀ m, 7 ≤ m → mtxClass m = 0) ∧
    (List.range 6).tail.map groupSize = [2, 4, 8, 32, 4]) ∧
  (∀ fmt w : Word,
    let m := fieldNat w 0 8
    let n := fieldNat w 8 8
    let k := fieldNat w 16 16
    let cls := mtxClass (fmtMa fmt)
    let r := grantShape fmt w
    (cls = 0 ∨ mtxClass (fmtMb fmt) ≠ cls ∨ m = 0 ∨ n = 0 ∨ k = 0 → r = 0) ∧
    (cls ≠ 0 → mtxClass (fmtMb fmt) = cls → m ≠ 0 → n ≠ 0 → k ≠ 0 →
      shapeM r = min (8 * ((m + 7) / 8)) 128 ∧ shapeN r = min (8 * ((n + 7) / 8)) 128 ∧
      shapeKg r = min ((k + groupSize cls - 1) / groupSize cls) 512 ∧ shapeCls r = cls ∧ fieldNat r 26 3 = 0)) ∧
  (∀ (cls acc : Nat) (a b : MtxRow),
    (4 ≤ cls → accElem cls acc a b =
      ⟨lowInt 32 (acc + ((a.ints.zip b.ints).map fun e => e.1 * e.2).sum), 0⟩) ∧
    (cls < 4 → a.groups = [] → accElem cls acc a b = ⟨acc, 0⟩) ∧
    (∀ x y, cls < 4 → a.groups.length = b.groups.length →
      let r := accElem cls acc a b
      let t := accumulate r.w (groupSum cls x y)
      accElem cls acc { a with groups := a.groups ++ [x] } { b with groups := b.groups ++ [y] } = ⟨t.w, r.fl ||| t.fl⟩)) ∧
  (∀ (cls : Nat) (x y : List Val × Nat),
    (cls ≠ 3 → groupSum cls x y = sumProds (x.1.zip y.1)) ∧
    (cls = 3 → x.2 = 255 ∨ y.2 = 255 → groupSum cls x y = .nan) ∧
    (∀ d, cls = 3 → x.2 ≠ 255 → y.2 ≠ 255 → sumProds (x.1.zip y.1) = .fin d → ∃ d', groupSum cls x y = .fin d' ∧
      (d'.v : ℝ) * 2 ^ d'.e = d.v * 2 ^ d.e * 2 ^ ((x.2 : Int) - 127) * 2 ^ ((y.2 : Int) - 127))) ∧
  (∀ acc : Nat, accumulate acc .nan = ⟨0x7FC00000, fNV⟩) ∧
  (∀ (s : State) (g : Group) (sh : MtxShape) (n m p i : Nat),
    let r := readRow s g sh (.regs n) m p i
    let el := fun w k => if g.live (i / 4) = true then laneElem g n (i / 4) (i % 4) w k else 0
    let sc := fun t => if g.live (i / 4) = true then (g.vcode (n + 32 + t) (i / 4)).toNat / 256 ^ (i % 4) % 256 else 0
    (sh.cls = 1 → RowIs sh m r (el 16) sc) ∧ (sh.cls = 2 ∨ sh.cls = 5 → RowIs sh m r (el 8) sc) ∧
    (sh.cls = 3 → RowIs sh m r (el 4) sc) ∧
    (sh.cls = 4 → g.live (i / 4) = true → sh.k ≤ 32 → sh.bpn ≤ 7 → r.ints = (List.range sh.k).map
      (planeValue sh.bpn fun q => (g.vcode (n + 8 * (i % 4) + q) (i / 4)).toNat))) ∧
  (∀ (s : State) (g : Group) (sh : MtxShape) (d : DWord) (m p i : Nat) (b : Block), s.block? g.block = some b →
    let r := readRow s g sh (.spad d) m p i
    let base := b.spadBase + fieldNat d 0 22
    let pitch := fieldNat d 22 16
    let tile := 64 * fieldNat d 38 16
    let byte := fun x => readNat s (spadLoc b.cluster (base + tile * p + i * pitch +
      (x ^^^ (i * fieldNat d 54 4 % 16 * 64)))) 1
    (sh.cls = 1 → RowIs sh m r (byteElem byte 16) fun _ => 0) ∧
    (sh.cls = 2 ∨ sh.cls = 5 → RowIs sh m r (byteElem byte 8) fun _ => 0) ∧
    (sh.cls = 3 → RowIs sh m r (byteElem byte 4) fun t => byte (sh.k / 2 + t)) ∧
    (sh.cls = 4 → sh.bpn ≤ 7 → r.ints = (List.range sh.k).map fun k => planeValue sh.bpn (fun q =>
      readNat s (spadLoc b.cluster (base + tile * (if sh.many then 16 * (k / 32) + p else k / 32) + 512 * q + 4 * i)) 4)
      (k % 32))) ∧
  (∀ (s : State) (g : Group) (sh : MtxShape) (hn v x0 y0 m p i : Nat) (h : Sfte), s.handle? g.ctx hn = some h →
    RowIs sh m (readRow s g sh (.view hn v x0 y0) m p i)
      (fun k => viewElem s g.ctx hn h v (y0 + i + 32 * p) (x0 + k)) fun _ => 0) ∧
  (∀ (s : State) (ctx hn v y k : Nat) (h : Sfte),
    let x := k / (compsOf h.fmt).length
    (h.wm1 < x ∨ h.hm1 < y → viewElem s ctx hn h v y k = 0) ∧
    (∀ c, x ≤ h.wm1 → y ≤ h.hm1 → (compsOf h.fmt)[k % (compsOf h.fmt).length]? = some c →
      viewElem s ctx hn h v y k = compAs (viewFmt v) c (pixelValue s ctx hn h x y 0)))

/-- R70, R248, R258, R259, R261: When an operation of a core's queue is performed it changes no vector register,
scalar, mask or sticky flag, and nothing of the group's control; a product changes no element of another tile, or of a
row whose lane was not active at its issue; zeros (in rows of the tile) and writes change exactly the elements they
name, and a write leaves in each the value that it carries. -/
def Obligations.MatrixFrame : Prop :=
  ∀ (s : State) (g : Group) (e : MatrixOp),
    (performOn s g e).v = g.v ∧ (performOn s g e).s = g.s ∧ (performOn s g e).m = g.m ∧ (performOn s g e).fst = g.fst ∧
    (performOn s g e).pc = g.pc ∧ (performOn s g e).fmt = g.fmt ∧ (performOn s g e).amask = g.amask ∧
    (performOn s g e).lmask = g.lmask ∧ (performOn s g e).status = g.status ∧ KeepsOrder g (performOn s g e) ∧
    (∀ many t a b p, e.act = .product many t a b p → (shapeOf (asIssued g p) many).n ≤ 128 →
      (many = true → (shapeOf (asIssued g p) many).n ≤ 32) → ∀ t' r c, r < 128 → c < 128 →
      t' ≠ t ∨ p.amask.getLsbD (r / 4) = false → tileAt (performOn s g e) t' r c = tileAt g t' r c) ∧
    (∀ t rows, e.act = .zero t rows → (∀ r ∈ rows, r < 128) → ∀ t' r c, r < 128 → c < 128 →
      tileAt (performOn s g e) t' r c = if t' = t ∧ r ∈ rows then 0 else tileAt g t' r c) ∧
    (∀ cells, e.act = .write cells → ∀ t' r c, (∀ x ∈ cells, x.1 ≠ tileIdx t' r c) →
      tileAt (performOn s g e) t' r c = tileAt g t' r c) ∧
    (∀ cells, e.act = .write cells → (cells.map (·.1)).Nodup → ∀ t' r c x, (tileIdx t' r c, x) ∈ cells →
      tileAt (performOn s g e) t' r c = x)

/-- R183, R230, R270, R305, R306, R333, R362; log 16: Each of these instructions with an aligned record that is read,
no earlier access in the way of the record and room in the queue answers the next state in which its operation is
queued and its scalar pending; a near-bank record that is not in order gives the status CODE 0x80 at once, as a cpred
record does (0x8A outside a pod or without the fabric), with the engine's number in COUNT; cpa.ring also writes DONE.
cpa, cpa.ring and cpred fault ALIGN on a misaligned record, cpa.ring APER on one outside the scratchpad aperture, and
each the cause of a record that does not translate; an uncorrectable byte of the record kills the group; an earlier
access in the way of the record makes it wait; a die without an engine of the group's world gives CODE 0x18, a copy
descriptor or ring header that is not in order 0x80, and a fifth ring of an engine 0x88, each status at once; cpa
waits for a place among 64. A scalar form that reads such statuses joins the operations that gave them (R183): the
value is read as it stands, no register changes by it, and the operations' writes precede what the group does then. A
near-bank record that is misaligned faults ALIGN, one that does not translate its cause, one that names a handle that
is not allocated SURFBAD, and one with an uncorrectable byte kills the group. That these statuses are answered in the
step of the issue, and that 0x80 is judged before 0x8A, is the model's reading of R305 and R306, which order neither
(DEDUCED, log 16). -/
def Obligations.EngineResult : Prop :=
  (∀ f ∈ bankForms, ∀ (d a : Code) (st : BitVec 4) (s : State) (g : Group), Admits (f.1 d a st) s g →
    ((srcSP s g a).toNat % f.2.1 ≠ 0 →
      exec (f.1 d a st) s = .next (faulted (f.1 d a st) s g .align 0 (srcSP s g a))) ∧
    (∀ e, (srcSP s g a).toNat % f.2.1 = 0 → recordPart s s.cur g st.toNat (srcSP s g a) f.2.1 = .error e →
      exec (f.1 d a st) s = .next (faulted (f.1 d a st) s g e.cause 0 e.addr)) ∧
    (∀ r, (srcSP s g a).toNat % f.2.1 = 0 → recordPart s s.cur g st.toNat (srcSP s g a) f.2.1 = .ok r →
      (r.bad = true → exec (f.1 d a st) s = .next (ranHere (uceKill s s.cur g.pc) g)) ∧
      (r.bad = false → handleAway s g.ctx (f.2.2 r.bytes).handle = true →
        exec (f.1 d a st) s = .next (faulted (f.1 d a st) s g .surfbad 0 0)))) ∧
  (∀ f ∈ bankForms, ∀ (d a : Code) (st : BitVec 4) (s : State) (g : Group) (r : RecordRead),
    Admits (f.1 d a st) s g → (srcSP s g a).toNat % f.2.1 = 0 → recordPart s s.cur g st.toNat (srcSP s g a) f.2.1 = .ok r →
    r.bad = false → handleAway s g.ctx (f.2.2 r.bytes).handle = false → recordWaits s g st.toNat r = false →
    ((f.2.2 r.bytes).bad = true → exec (f.1 d a st) s = .next (after (f.1 d a st) s g
      (endAtOnce (noteRecord s s.cur st.toNat r) s.cur d.toNat 0x80 0) .none)) ∧
    ((f.2.2 r.bytes).bad = false → (∀ ch ∈ (f.2.2 r.bytes).channels, queuedAt s ch < 32) →
      exec (f.1 d a st) s = .next (after (f.1 d a st) s g (startOp (noteRecord s s.cur st.toNat r) s.cur
        { opOf s s.cur g (f.2.2 r.bytes).kind d.toNat st with
          channels := (f.2.2 r.bytes).channels,
          pins := ((f.2.2 r.bytes).handle.map fun h => g.ctx * 4096 + h).toList }) .none))) ∧
  (∀ (d a : Code) (st : BitVec 4) (s : State) (g : Group) (r : RecordRead) (e : Nat), Admits (.cpa d a st) s g →
    (srcSP s g a).toNat % 64 = 0 → recordPart s s.cur g st.toNat (srcSP s g a) 64 = .ok r → r.bad = false →
    recordWaits s g st.toNat r = false →
    leastBusy s (enginesOf s (dieOfCore g.core) g.secure) = some e → cdBad r.bytes = false → queuedOn s e < 64 →
    exec (.cpa d a st) s = .next (after (.cpa d a st) s g (startOp (noteRecord s s.cur st.toNat r) s.cur
      { opOf s s.cur g (.copy r.bytes) d.toNat st with engine := e }) .none)) ∧
  (∀ (d a : Code) (st : BitVec 4) (s : State) (g : Group) (r : RecordRead) (e : Nat), Admits (.cpa_ring d a st) s g →
    (srcSP s g a).toNat % 32 = 0 → 0xFFFFFF0000000000 ≤ (srcSP s g a).toNat →
    recordPart s s.cur g st.toNat (srcSP s g a) 32 = .ok r → r.bad = false → recordWaits s g st.toNat r = false →
    leastBusy s (enginesOf s (dieOfCore g.core) g.secure) = some e → queuedOn s e < 64 → ringsOn s e < 4 →
    let o := opOf s s.cur g (.ring (attach (srcSP s g a) r.bytes)) d.toNat st
    rhBad (sliceOf s o).2 r.bytes = false →
    exec (.cpa_ring d a st) s = .next (after (.cpa_ring d a st) s g (startOp (storeNat (noteRecord s s.cur st.toNat r)
      ((sliceOf s o).1 + (attach (srcSP s g a) r.bytes).header + 4) 4 (attach (srcSP s g a) r.bytes).done) s.cur
      { o with engine := e }) .none)) ∧
  (∀ (d a : Code) (st : BitVec 4) (s : State) (g : Group) (r : RecordRead) (e : Nat), Admits (.cpred d a st) s g →
    (srcSP s g a).toNat % 64 = 0 →
    recordParts s s.cur g st.toNat [(srcSP s g a, 64), (srcSP s g a + 64, 16)] = .ok r → r.bad = false →
    recordWaits s g st.toNat r = false →
    leastBusy s (enginesOf s (dieOfCore g.core) g.secure) = some e → cpBad r.bytes = false →
    podOf s g.launch ≠ 0 → s.fabric = true → queuedOn s e < 64 →
    exec (.cpred d a st) s = .next (after (.cpred d a st) s g (startOp (noteRecord s s.cur st.toNat r) s.cur
      { opOf s s.cur g (.cpred r.bytes) d.toNat st with engine := e }) .none)) ∧
  (∀ f ∈ [((Instr.cpa : Code → Code → BitVec 4 → Instr), 64), (.cpa_ring, 32), (.cpred, 64)],
    ∀ (d a : Code) (st : BitVec 4) (s : State) (g : Group), Admits (f.1 d a st) s g → (srcSP s g a).toNat % f.2 ≠ 0 →
    exec (f.1 d a st) s = .next (faulted (f.1 d a st) s g .align 0 (srcSP s g a))) ∧
  (∀ (d a : Code) (st : BitVec 4) (s : State) (g : Group), Admits (.cpa_ring d a st) s g → (srcSP s g a).toNat % 32 = 0 →
    (srcSP s g a).toNat < 0xFFFFFF0000000000 →
    exec (.cpa_ring d a st) s = .next (faulted (.cpa_ring d a st) s g .aper 0 (srcSP s g a))) ∧
  (∀ f ∈ [((Instr.cpa : Code → Code → BitVec 4 → Instr), 64, 0), (.cpa_ring, 32, 0xFFFFFF0000000000)],
    ∀ (d a : Code) (st : BitVec 4) (s : State) (g : Group), Admits (f.1 d a st) s g → (srcSP s g a).toNat % f.2.1 = 0 →
    f.2.2 ≤ (srcSP s g a).toNat →
    (∀ e, recordPart s s.cur g st.toNat (srcSP s g a) f.2.1 = .error e →
      exec (f.1 d a st) s = .next (faulted (f.1 d a st) s g e.cause 0 e.addr)) ∧
    (∀ r, recordPart s s.cur g st.toNat (srcSP s g a) f.2.1 = .ok r →
      (r.bad = true → exec (f.1 d a st) s = .next (ranHere (uceKill s s.cur g.pc) g)) ∧
      (r.bad = false → recordWaits s g st.toNat r = true → exec (f.1 d a st) s = .next s) ∧
      (r.bad = false → recordWaits s g st.toNat r = false → leastBusy s (enginesOf s (dieOfCore g.core) g.secure) = none →
        exec (f.1 d a st) s = .next (after (f.1 d a st) s g
          (endAtOnce (noteRecord s s.cur st.toNat r) s.cur d.toNat 0x18 0) .none)))) ∧
  (∀ (d a : Code) (st : BitVec 4) (s : State) (g : Group), Admits (.cpred d a st) s g → (srcSP s g a).toNat % 64 = 0 →
    let read := recordParts s s.cur g st.toNat [(srcSP s g a, 64), (srcSP s g a + 64, 16)]
    (∀ e, read = .error e → exec (.cpred d a st) s = .next (faulted (.cpred d a st) s g e.cause 0 e.addr)) ∧
    (∀ r, read = .ok r →
      (r.bad = true → exec (.cpred d a st) s = .next (ranHere (uceKill s s.cur g.pc) g)) ∧
      (r.bad = false → recordWaits s g st.toNat r = true → exec (.cpred d a st) s = .next s) ∧
      (r.bad = false → recordWaits s g st.toNat r = false → leastBusy s (enginesOf s (dieOfCore g.core) g.secure) = none →
        exec (.cpred d a st) s = .next (after (.cpred d a st) s g
          (endAtOnce (noteRecord s s.cur st.toNat r) s.cur d.toNat 0x18 0) .none)))) ∧
  (∀ (d a : Code) (st : BitVec 4) (s : State) (g : Group) (r : RecordRead) (e : Nat), Admits (.cpa d a st) s g →
    (srcSP s g a).toNat % 64 = 0 → recordPart s s.cur g st.toNat (srcSP s g a) 64 = .ok r → r.bad = false →
    recordWaits s g st.toNat r = false → leastBusy s (enginesOf s (dieOfCore g.core) g.secure) = some e →
    (cdBad r.bytes = true → exec (.cpa d a st) s = .next (after (.cpa d a st) s g
      (endAtOnce (noteRecord s s.cur st.toNat r) s.cur d.toNat 0x80 0) .none)) ∧
    (cdBad r.bytes = false → 64 ≤ queuedOn s e → exec (.cpa d a st) s = .next s)) ∧
  (∀ (d a : Code) (st : BitVec 4) (s : State) (g : Group) (r : RecordRead) (e : Nat), Admits (.cpa_ring d a st) s g →
    (srcSP s g a).toNat % 32 = 0 → 0xFFFFFF0000000000 ≤ (srcSP s g a).toNat →
    recordPart s s.cur g st.toNat (srcSP s g a) 32 = .ok r → r.bad = false → recordWaits s g st.toNat r = false →
    leastBusy s (enginesOf s (dieOfCore g.core) g.secure) = some e →
    let o := opOf s s.cur g (.ring (attach (srcSP s g a) r.bytes)) d.toNat st
    (rhBad (sliceOf s o).2 r.bytes = true → exec (.cpa_ring d a st) s = .next (after (.cpa_ring d a st) s g
      (endAtOnce (noteRecord s s.cur st.toNat r) s.cur d.toNat 0x80 0) .none)) ∧
    (rhBad (sliceOf s o).2 r.bytes = false → queuedOn s e < 64 → 4 ≤ ringsOn s e →
      exec (.cpa_ring d a st) s = .next (after (.cpa_ring d a st) s g
        (endAtOnce (noteRecord s s.cur st.toNat r) s.cur d.toNat 0x88 0) .none))) ∧
  (∀ f ∈ scaForms, ∀ (d a b : Code) (nw : Bool) (s : State) (g : Group) (ds : List Nat), Reads (f.1 d a b nw) s g ds →
    let t := readState s g (f.1 d a b nw)
    ∀ g1, t.group? s.cur = some g1 → exec (f.1 d a b nw) s = .next (after (f.1 d a b nw) s g
      (t.setGroup s.cur (if nw then g1 else g1.setS d.toNat (f.2 (srcS t g1 a) (srcS t g1 b))))
      (.sca (f.2 (srcS t g1 a) (srcS t g1 b))))) ∧
  (∀ (s : State) (g : Group) (i : Instr) (ds : List Nat), s.group? s.cur = some g → unreadBy g i = ds → ds ≠ [] →
    ∃ g1, (readState s g i).group? s.cur = some g1 ∧ g1.s = g.s ∧ g1.v = g.v ∧ g1.pending = g.pending ∧
      (∀ d, d ∈ g1.unread ↔ d ∈ g.unread ∧ d ∉ ds) ∧ g1.wbuf = g.wbuf.map (joinWrite ds false) ∧
      ∀ d ∈ ds, ∀ w ∈ g.wbuf, w.maker = .copy d false → ∀ ps, loadFollows s ps (joinWrite ds false w) = true) ∧
  (∀ (d a : Code) (st : BitVec 4) (s : State) (g : Group) (r : RecordRead) (e : Nat), Admits (.cpred d a st) s g →
    (srcSP s g a).toNat % 64 = 0 →
    recordParts s s.cur g st.toNat [(srcSP s g a, 64), (srcSP s g a + 64, 16)] = .ok r → r.bad = false →
    recordWaits s g st.toNat r = false →
    leastBusy s (enginesOf s (dieOfCore g.core) g.secure) = some e →
    (cpBad r.bytes = true → exec (.cpred d a st) s = .next (after (.cpred d a st) s g
      (endAtOnce (noteRecord s s.cur st.toNat r) s.cur d.toNat 0x80 e) .none)) ∧
    (cpBad r.bytes = false → podOf s g.launch = 0 ∨ s.fabric = false → exec (.cpred d a st) s = .next
      (after (.cpred d a st) s g (endAtOnce (noteRecord s s.cur st.toNat r) s.cur d.toNat 0x8A e) .none)))

/-- R57, R230, R291, R296 to R298, R302, R303, R403, R424, R425, R450, R455; log 17: The surface and pixel
instructions, under the conditions that the spec puts on them, answer the next state of their effect: pixels loaded
and stored, samples taken as plain loads of their stream, interpolated attributes, lanes tested, colours sent, and the
records of triangles written. A lane whose coordinate is not finite samples 0, and a NaN texel comes back as the
canonical NaN. SURFBAD is raised for a handle, sample, draw or pixel context that is not there, and WINDOW for a pixel
register beyond the allocation. pxout waits for nothing: each colour sent goes to its fragment, with the depth request
of its lane for the lane's depth fragment to carry out at the bank. A lane that zt tested has no test requested again;
every other lane has one at each target (the model's reading where R297 and R455 leave it, DEDUCED, log 17). vtxout
kills the emitting lanes with an uncorrectable register and writes the records of the others. -/
def Obligations.PixelResult : Prop :=
  (∀ (d a b : Code) (h : Sfte) (hs : List (Nat × Hit)) (s : State) (g : Group), Admits (.sfld d a b) s g →
    let v := srcS s g a
    surfaceArg s g v = some h → sampleOk h v = true → pixelRegs g h d.toNat = none →
    pixelHits s g (fieldNat v 0 12) h (fieldNat v 12 2) b g.activeLanes = .ok hs →
    let l := pixelLoadOf s g d v h hs
    loadWaits s g l.stream false (loadPlaces l) = false → (pixelBytes h.fmt = 8 → awaitsRun g d.toNat 2 = false) →
    exec (.sfld d a b) s = .next (loadAfter (.sfld d a b) s g l (hs.map (·.2)))) ∧
  (∀ (d a b : Code) (h : Sfte) (hs : List (Nat × Hit)) (s : State) (g : Group), Admits (.sfst d a b) s g →
    let v := srcS s g a
    let n := pixelBytes h.fmt
    surfaceArg s g v = some h → sampleOk h v = true → pixelRegs g h d.toNat = none →
    (n = 8 → badLanes g (d.toNat + 1) 1 = 0 ∧ awaitsRun g d.toNat 2 = false) →
    pixelHits s g (fieldNat v 0 12) h (fieldNat v 12 2) b g.activeLanes = .ok hs →
    let ws := laneStores s s.cur g (fieldNat v 14 4) false n hs (pixelData g d.toNat n)
    storeWaits s g (fieldNat v 14 4) (ws.flatMap storePlaces) = false →
    exec (.sfst d a b) s = .next (after (.sfst d a b) s g (issueStores s s.cur ws (hs.map (·.2))) .none)) ∧
  (∀ (d a b : Code) (h : Sfte) (hs : List (Nat × Hit)) (s : State) (g : Group), Admits (.tsmp d a b) s g →
    let v := srcS s g b
    let hn := fieldNat v 0 12
    let l := loadOf s g (fieldNat v 14 4) false false (g.activeLanes.map (samplePart g hn h v d.toNat a.toNat)) 0
    surfaceArg s g v = some h → sampleHits s g hn h v a.toNat = .ok hs →
    loadWaits s g (fieldNat v 14 4) false (loadPlaces l) = false →
    exec (.tsmp d a b) s = .next (loadAfter (.tsmp d a b) s g l (hs.map (·.2)))) ∧
  (∀ (s : State) (gid : Nat) (g : Group) (l : PendLoad) (hn d a j : Nat) (h : Sfte) (v : Word),
    let x := unpack f32 (g.vcode a j).toNat
    let y := unpack f32 (g.vcode (a + 1) j).toNat
    (isFinite x = false ∨ isFinite y = false →
      partWords s gid g l (samplePart g hn h v d a j) = ([0, 0, 0, 0], false))) ∧
  (∀ (t : TexelPart) (p c : Nat), t.weights = none → (unpack f32 (texelComp t.fmt p c)).isNan = true →
    sampleComp t [p] c = f32.nanBits) ∧
  (∀ (d a b : Code) (h : Sfte) (s : State) (g : Group),
    (surfaceArg s g (srcS s g b) = none → Admits (.tsmp d a b) s g →
      exec (.tsmp d a b) s = .next (faulted (.tsmp d a b) s g .surfbad 0 0)) ∧
    (surfaceArg s g (srcS s g a) = none ∨ surfaceArg s g (srcS s g a) = some h ∧ sampleOk h (srcS s g a) = false →
      (Admits (.sfld d a b) s g → exec (.sfld d a b) s = .next (faulted (.sfld d a b) s g .surfbad 0 0)) ∧
      (Admits (.sfst d a b) s g → exec (.sfst d a b) s = .next (faulted (.sfst d a b) s g .surfbad 0 0))) ∧
    (∀ c, surfaceArg s g (srcS s g a) = some h → sampleOk h (srcS s g a) = true → pixelRegs g h d.toNat = some c →
      (Admits (.sfld d a b) s g → exec (.sfld d a b) s = .next (faulted (.sfld d a b) s g c 0 0)) ∧
      (Admits (.sfst d a b) s g → exec (.sfst d a b) s = .next (faulted (.sfst d a b) s g c 0 0))) ∧
    (pixelBytes h.fmt ≠ 8 → (pixelRegs g h d.toNat = some .window ↔ g.vregs ≤ g.wb + d.toNat))) ∧
  (∀ (d a : Code) (nw : Bool) (c : PixelCtx) (s : State) (g : Group), Admits (.vinterp d a nw) s g →
    pixelCtx s g = some c → (srcS s g a).toNat < c.d.nattr →
    exec (.vinterp d a nw) s = .next (vecAfter (.vinterp d a nw) s g d nw fun j =>
      interp c (lanePixel c.info.x0 c.info.y0 j).1 (lanePixel c.info.x0 c.info.y0 j).2 (srcS s g a).toNat)) ∧
  (∀ (d : Code) (c : PixelCtx) (s : State) (g : Group), Admits (.zt d) s g → pixelCtx s g = some c →
    c.info.ztDone = false → depthWaits s s.cur g.activeLanes = false →
    (s.secRegions = [] ∨ g.secure = true) →
    let r := g.activeLanes.foldl (testLane s.cur g.ctx) (s, c)
    exec (.zt d) s = .next (after (.zt d) s g ((putInfo r.1 s.cur
      { r.2.info with ztDone := true, tested := g.amask }).updGroup s.cur fun g' =>
        g'.setMaskLanes d.toNat g.activeLanes fun j => scovOf r.2.info j != 0) .none)) ∧
  (∀ (a b : Code) (c : PixelCtx) (s : State) (g : Group), Admits (.pxout a b) s g → pixelCtx s g = some c →
    (srcS s g b).toNat < c.d.nrt →
    let js := g.activeLanes.filter fun j => !c.info.sent.contains (4 * j + (srcS s g b).toNat)
    (s.secRegions = [] ∨ g.secure = true) →
    let r := js.foldl (sendColour s.cur (srcS s g b).toNat fun j =>
      (List.range 4).map fun i => g.vcode (a.toNat + i) j) (s, c)
    exec (.pxout a b) s = .next (after (.pxout a b) s g (putInfo r.1 s.cur r.2.info) .none)) ∧
  (∀ (d a b : Code) (s s1 : State) (dr : Draw) (hs : List (Nat × Hit)) (l : Launch) (g : Group),
    Admits (.vtxout d a b) s g → isMigrant g = false → bindDraw s g (srcSP s g a) = some (s1, dr) →
    let dead := badLanes g d.toNat (triRegs dr) &&& maskOf ((emitting g dr b).map (·.1))
    runFault g d.toNat (triRegs dr) = none →
    recordHits s1 g dr ((emitting g dr b).filter fun e => !dead.getLsbD e.1) = .ok hs → quiet g = true →
    awaitsRun g d.toNat (triRegs dr) = false → recordsDirty s1 g hs = false → s1.launch? g.launch = some l →
    exec (.vtxout d a b) s = .next (after (.vtxout d a b) s g (uceLanes
      ((writeRecords s1 s.cur g dr l.lnum d.toNat hs).updLaunch g.launch fun l =>
        { l with draw := some (l.draw.getD dr) }) s.cur dead g.pc) .none)) ∧
  (∀ (d a b : Code) (s : State) (g : Group), Admits (.vtxout d a b) s g →
    isMigrant g = true ∨ bindDraw s g (srcSP s g a) = none →
    exec (.vtxout d a b) s = .next (faulted (.vtxout d a b) s g .surfbad 0 0)) ∧
  (∀ (d a b : Code) (nw : Bool) (s : State) (g : Group), pixelCtx s g = none →
    (Admits (.zt d) s g → exec (.zt d) s = .next (faulted (.zt d) s g .surfbad 0 0)) ∧
    (Admits (.pxout a b) s g → exec (.pxout a b) s = .next (faulted (.pxout a b) s g .surfbad 0 0)) ∧
    (Admits (.vinterp d a nw) s g → exec (.vinterp d a nw) s = .next (faulted (.vinterp d a nw) s g .surfbad 0 0))) ∧
  (∀ (gid k : Nat) (rgba : Nat → List Word) (s : State) (c : PixelCtx) (j : Nat),
    (∀ l, scovOf (sendColour gid k rgba (s, c) j).2.info l = scovOf c.info l) ∧
    (sendColour gid k rgba (s, c) j).1.frags = s.frags.map (sentFrag gid j k (rgba j) (depthReq c.d c.info j k)) ∧
    (sendColour gid k rgba (s, c) j).2.info.sent = c.info.sent ++ [4 * j + k]) ∧
  (∀ (gid j k : Nat) (rgba : List Word) (q : Option DepthReq) (f : Frag), f.gid = gid → f.lane = j →
    (f.target = some k → sentFrag gid j k rgba q f = { f with colour := some rgba, waits := q.any (·.test) }) ∧
    (f.target = none → sentFrag gid j k rgba q f = { f with tests := f.tests ++ q.toList }) ∧
    (∀ t, f.target = some t → t ≠ k → sentFrag gid j k rgba q f = f)) ∧
  (∀ (gid j k : Nat) (rgba : List Word) (q : Option DepthReq) (f : Frag), f.gid ≠ gid ∨ f.lane ≠ j →
    sentFrag gid j k rgba q f = f) ∧
  (∀ (d : Draw) (i : PixelInfo) (j k : Nat), (d.zen = false → depthReq d i j k = none) ∧
    (i.tested.getLsbD j = true → ∀ q, depthReq d i j k = some q → q.test = false) ∧
    (d.zen = true → i.tested.getLsbD j = false → ∃ q, depthReq d i j k = some q ∧ q.test = true ∧ q.target = k))

/-! ## System registers -/

/-- R49, R56, R60, R370, R371; log 25: csrr reads the register that it names (EVPEND with levels sampled, and kept)
and csrw writes it, in every state that admits them; writes of read-only registers change nothing; FSTR, EVMASK, GTCMP
and MSTRM take their bits; LDTMO, the breakpoint addresses and BPCTL are left alone by user writes, and so is DBGST;
in user mode a number from 0x60 up raises PRIV on both, and a number that no register has raises OPND. That these two
are raised outside the chain, whatever latch the word would read, is the model's reading of R49 and R56 (DEDUCED, log
25). -/
def Obligations.SystemRegisterResult : Prop :=
  (∀ (d b : Code) (nw : Bool) (s : State) (g : Group), Admits (.csrr d b nw) s g →
    let g1 := sampled s g b.toNat
    let v := sysRead s g1 b.toNat
    exec (.csrr d b nw) s = .next (after (.csrr d b nw) s g
      (s.setGroup s.cur (if nw then g1 else g1.setS d.toNat v)) (.sca v))) ∧
  (∀ (a b : Code) (s : State) (g : Group), Admits (.csrw a b) s g →
    exec (.csrw a b) s = .next (after (.csrw a b) s g (sysWrite s s.cur g g.priv b.toNat (srcS s g a)) .none)) ∧
  (∀ (s : State) (g : Group) (n : Nat), (n ≠ 0x30 → sampled s g n = g) ∧ sampled s g 0x30 = refreshLevels s g) ∧
  (∀ (s : State) (gid : Nat) (g : Group) (p : Bool) (v : Word),
    (∀ n ∈ [0x02, 0x04, 0x05, 0x08, 0x0A, 0x0B, 0x0C, 0x13, 0x14, 0x15, 0x16, 0x17, 0x32, 0x35, 0x36, 0x37, 0x38, 0x39,
      0x3A, 0x3B, 0x3C, 0x3D, 0x40, 0x42, 0x43, 0x62, 0x63, 0x64, 0x65], sysWrite s gid g p n v = s.setGroup gid g) ∧
    sysWrite s gid g p 0x0E v = s.setGroup gid { g with fst := v.setWidth 5 } ∧
    sysWrite s gid g p 0x31 v = s.setGroup gid { g with ev := { g.ev with mask := v.setWidth 8 } } ∧
    sysWrite s gid g p 0x33 v = s.setGroup gid { g with ev := { g.ev with gtcmp := v } } ∧
    sysWrite s gid g p 0x41 v = s.setGroup gid { g with mx := { g.mx with mstrm := v.setWidth 4 } } ∧
    (∀ n ∈ [0x12, 0x50, 0x51, 0x52, 0x53, 0x54, 0x55, 0x56, 0x57, 0x58], sysWrite s gid g false n v = s) ∧
    sysWrite s gid g false 0x59 v = s.setGroup gid g) ∧
  (∀ (s : State) (g : Group) (d a b : Code) (nw : Bool), s.group? s.cur = some g → g.status = .ready →
    (s.coreAt g.core).scanning = false →
    (g.priv = false → 0x60 ≤ b.toNat →
      exec (.csrr d b nw) s = .next (turnedAway (.csrr d b nw) s g .priv) ∧
      exec (.csrw a b) s = .next (turnedAway (.csrw a b) s g .priv)) ∧
    (g.priv = true ∨ b.toNat < 0x60 → csrAssigned b.toNat = false →
      exec (.csrr d b nw) s = .next (turnedAway (.csrr d b nw) s g .opnd) ∧
      exec (.csrw a b) s = .next (turnedAway (.csrw a b) s g .opnd)))

/-- R59: Every 64-bit system register (TVEC, TPC, TNEXT, TADDR and the four breakpoint addresses) reads bits 31 to 0
at its even number and bits 63 to 32 at the odd number after it, and a write of either number of a writable one
replaces that half alone. -/
def Obligations.RegisterHalves : Prop :=
  ∀ (s : State) (gid : Nat) (g : Group) (v : Word),
    (∀ e ∈ [(0x00, g.trap.tvec), (0x04, g.trap.tpc), (0x06, g.trap.tnext), (0x0A, g.trap.taddr),
        (0x50, (s.coreAt g.core).bpa0), (0x52, (s.coreAt g.core).bpa1), (0x54, (s.coreAt g.core).bpa2),
        (0x56, (s.coreAt g.core).bpa3)],
      e.1 % 2 = 0 ∧ sysRead s g e.1 = e.2.extractLsb' 0 32 ∧ sysRead s g (e.1 + 1) = e.2.extractLsb' 32 32) ∧
    (∀ e ∈ [(0x00, fun (g : Group) => g.trap.tvec), (0x06, fun (g : Group) => g.trap.tnext)], ∃ g0 g1 : Group,
      sysWrite s gid g g.priv e.1 v = s.setGroup gid g0 ∧ e.2 g0 = (e.2 g).extractLsb' 32 32 ++ v ∧
      sysWrite s gid g g.priv (e.1 + 1) v = s.setGroup gid g1 ∧ e.2 g1 = v ++ (e.2 g).extractLsb' 0 32) ∧
    (∀ e ∈ [(0x50, fun (k : Core) => k.bpa0), (0x52, fun (k : Core) => k.bpa1), (0x54, fun (k : Core) => k.bpa2),
        (0x56, fun (k : Core) => k.bpa3)], ∃ k0 k1 : Core,
      sysWrite s gid g true e.1 v = s.setCore g.core k0 ∧
        e.2 k0 = (e.2 (s.coreAt g.core)).extractLsb' 32 32 ++ v ∧
      sysWrite s gid g true (e.1 + 1) v = s.setCore g.core k1 ∧
        e.2 k1 = v ++ (e.2 (s.coreAt g.core)).extractLsb' 0 32)

/-! ## Queues -/

/-- R97 to R99; log 11: What a LOOP, ENDLOOP, IF, ELSE, ENDIF, WAITMEM, SIGNAL, FENCE or undefined record at HEAD, its
queue being served, does to its queue, its fields being in order and its nesting allowed; a WAITMEM held for its TMO
stops the queue with 0x04, also where its word no longer translates, which stops one not held so long with 0x05; and
the six comparisons of a condition on the masked word. That ENDLOOP moves HEAD back to the body, that a conditional
ENDLOOP returns HEAD to its LOOP record, and that a waiting command keeps HEAD, are the model's reading (DEDUCED, log
11). -/
def Obligations.QueueFlow : Prop :=
  (∀ (q : Nat) (s s1 : State) (c : Cmd), AtHead s q s1 c →
    let os := (s1.queueAt q).opens
    (c.op = 3 → c.flags % 2 = 0 → reservedBad c { Uses.bare with imm := 0xFFFFFFFF } = false → loopsFull os = false →
      exec (.loop_counted q) s = .next (nextRecord (setOpens s1 q
        ((if c.imm = 0 then .skipLoop else .loop ((c.d.head + 1) % 2 ^ 32) (some c.imm)) :: os)) c)) ∧
    (c.op = 3 → c.flags % 2 = 1 → reservedBad c { Uses.cond with flags := 1 } = false → loopsFull os = false →
      ∀ s2 w, condWord s1 c = some (s2, w) → exec (.loop_conditional q) s = .next (nextRecord (setOpens s2 q
        ((if condHolds c w then .loop ((c.d.head + 1) % 2 ^ 32) none else .skipLoop) :: (s2.queueAt q).opens)) c)) ∧
    (c.op = 4 → reservedBad c Uses.bare = false → ∀ body n rest, os = .loop body (some n) :: rest →
      exec (.endloop q) s = .next (if 1 < n then setHead (setOpens s1 q (.loop body (some (n - 1)) :: rest)) q body
        else nextRecord (setOpens s1 q rest) c)) ∧
    (c.op = 4 → reservedBad c Uses.bare = false → ∀ body rest, os = .loop body none :: rest →
      exec (.endloop q) s = .next (setHead (setOpens s1 q rest) q (body + 2 ^ 32 - 1))) ∧
    (c.op = 5 → reservedBad c Uses.cond = false → ifsFull os = false →
      ∀ s2 w, condWord s1 c = some (s2, w) → exec (.cmd_if q) s = .next (nextRecord (setOpens s2 q
        ((if condHolds c w then .arm false else .skipThen) :: (s2.queueAt q).opens)) c)) ∧
    (c.op = 6 → reservedBad c Uses.bare = false → ∀ rest, os = .arm false :: rest →
      exec (.cmd_else q) s = .next (nextRecord (setOpens s1 q (.skipIf true :: rest)) c)) ∧
    (c.op = 7 → reservedBad c Uses.bare = false → ∀ b rest, os = .arm b :: rest →
      exec (.cmd_endif q) s = .next (nextRecord (setOpens s1 q rest) c)) ∧
    (c.op = 8 → reservedBad c { Uses.cond with tmo := true, addr1 := true } = false → statusBad s1 c = false →
      ∀ s2 w, condWord s1 c = some (s2, w) → exec (.waitmem q) s =
        .next (if condHolds c w then nextRecord (statusWord s2 c.status 1) c else holdCmd s2 c)) ∧
    (c.op = 8 → reservedBad c { Uses.cond with tmo := true, addr1 := true } = false → condWord s1 c = none →
      exec (.waitmem q) s = .next (stopQueue s1 q (if tmoPassed s1 q c then 4 else 5))) ∧
    (c.op = 9 → c.flags % 2 = 0 → reservedBad c signalUses = false → signalBad s1 c = false →
      exec (.signal q) s = .next (if worksOn (s1.queueAt q) then holdCmd s1 c else fireSignal s1 c)) ∧
    (c.op = 9 → c.flags % 2 = 1 → reservedBad c signalUses = false → signalBad s1 c = false →
      queueSuspect s1 q = false → exec (.signal_confirmed q) s =
        .next (if worksOn (s1.queueAt q) || !queueConfirmed s1 q then holdCmd s1 c else fireSignal s1 c)) ∧
    (c.op = 16 → reservedBad c Uses.bare = false →
      exec (.fence_cmd q) s = .next (if (s1.queueAt q).running.isEmpty then nextRecord s1 c else holdCmd s1 c)) ∧
    (c.op = 0 ∨ 0x10 < c.op → exec (.undefined_command q) s = .next (stopQueue s1 q 1))) ∧
  (∀ (q : Nat) (s s1 : State) (c : Cmd) (t : DWord), fetchCmd s q = .cmd s1 c → c.op = 8 →
    (s.queueAt q).heldSince = some t → c.tmo ≠ 0 → c.tmo * 1000 ≤ since s.primaryTime t →
    skipping (s.queueAt q).opens = false → (∀ s2 w, condWord s1 c = some (s2, w) → condHolds c w = false) →
    exec (.waitmem_timeout q) s = .next (stopQueue s1 q 4)) ∧
  (∀ (c : Cmd) (w : Word),
    let x := w &&& BitVec.ofNat 32 (c.fld 192 32)
    let y := BitVec.ofNat 32 c.imm
    (c.fld 8 8 = 0 → (condHolds c w = true ↔ x = y)) ∧ (c.fld 8 8 = 1 → (condHolds c w = true ↔ x ≠ y)) ∧
    (c.fld 8 8 = 2 → (condHolds c w = true ↔ x.toNat < y.toNat)) ∧
    (c.fld 8 8 = 3 → (condHolds c w = true ↔ y.toNat ≤ x.toNat)) ∧
    (c.fld 8 8 = 4 → (condHolds c w = true ↔ x.toInt < y.toInt)) ∧
    (c.fld 8 8 = 5 → (condHolds c w = true ↔ y.toInt ≤ x.toInt)))

/-- R96, R97: A queue with no record to run does nothing, nor does one that its command processor does not serve; the
one served has the highest PRI of those that hold a startable command, and the rotation then goes on behind it; a
queue whose descriptor or record is invalid stops with its code; a field that is not used stops it with 0x02, too deep
a nesting with 0x03; a stopped queue fetches nothing, and a write of TAIL restarts it. -/
def Obligations.QueueStops : Prop :=
  (∀ (q : Nat) (s : State), fetchCmd s q = .nothing →
    exec (.loop_counted q) s = .next s ∧ exec (.signal q) s = .next s ∧ exec (.undefined_command q) s = .next s ∧
    exec (.fence_cmd q) s = .next s ∧ exec (.launch q) s = .next s) ∧
  (∀ (q code : Nat) (s : State), fetchCmd s q = .bad code → mayServe s q = true →
    exec (.undefined_command q) s = .next (stopQueue (serve s q) q code)) ∧
  (∀ (q : Nat) (s s1 : State) (c : Cmd), fetchCmd s q = .cmd s1 c → mayServe s q = false →
    exec (.loop_counted q) s = .next s ∧ exec (.signal q) s = .next s ∧ exec (.undefined_command q) s = .next s ∧
    exec (.fence_cmd q) s = .next s ∧ exec (.launch q) s = .next s) ∧
  (∀ (q q' : Nat) (s : State), (s.queueAt q).heldSince = none → mayServe s q = true → mayStart s q' = true →
    q' / 32 = q / 32 → queuePri s q' ≤ queuePri s q) ∧
  (∀ (q : Nat) (s : State), (s.queueAt q).heldSince = none →
    get 0 (serve s q).rota (4 * (q / 32) + queuePri s q) = (q + 1) % 32) ∧
  (∀ (q : Nat) (s s1 : State) (c : Cmd), AtHead s q s1 c → c.op = 3 → c.flags % 2 = 0 →
    (reservedBad c { Uses.bare with imm := 0xFFFFFFFF } = true → exec (.loop_counted q) s = .next (stopQueue s1 q 2)) ∧
    (reservedBad c { Uses.bare with imm := 0xFFFFFFFF } = false → loopsFull (s1.queueAt q).opens = true →
      exec (.loop_counted q) s = .next (stopQueue s1 q 3))) ∧
  (∀ (s : State) (q code : Nat), ((stopQueue s q code).queueAt q).stopped = true ∧
    fetchCmd (stopQueue s q code) q = .nothing) ∧
  (∀ (q : Nat) (tail : Word) (s : State), s.ctl.qtbase ≠ 0 → q < 64 →
    exec (.queue_tail_write q tail) s = .next (restartQueue (writeDesc s q 16 tail.toNat) q) ∧
    ((restartQueue (writeDesc s q 16 tail.toNat) q).queueAt q).stopped = false)

/-- R99 to R102, R111 to R113, R159, R234, R238, R241, R308, R457; logs 6, 11, 18 and 19: What each command at HEAD of
a served queue, whose fields are in order, starts, what status it writes, and that it holds or ends its record, for
LAUNCH, LAUNCHI, COPY, SFALLOC, SFFREE, PREEMPT, VFSET and CPGATE. Ties and readings are the model's (logs 6 and 11);
that a PREEMPT of a launch already pre-empting waits at HEAD is log 18, and that a second CPGATE drops the first
request is log 19: the model's choices. -/
def Obligations.QueueCommands : Prop :=
  ∀ (q : Nat) (s s1 : State) (c : Cmd), AtHead s q s1 c →
    (∀ f ∈ [((Instr.launch : Nat → Instr), false), (Instr.launchi, true)], c.op = (if f.2 then 2 else 1) →
      (∀ e ∈ launchErrs f.2 s1 c, e.2 = false) → ∀ s2 r, readLaunch s1 c f.2 = (s2, some r) →
      (∀ n, refusedFor s2 r.bytes (judged s2 c r) c.d.privq c.addr0 r.save = some n →
        exec (f.1 q) s = .next (endCmd s2 c (0x100 + n))) ∧
      (refusedFor s2 r.bytes (judged s2 c r) c.d.privq c.addr0 r.save = none → isRestore c r = false →
        exec (f.1 q) s = .next (startLaunch (giveUpSaved s2 c r.hdr.save) c
          (newLaunch (giveUpSaved s2 c r.hdr.save) c r.hdr))) ∧
      (refusedFor s2 r.bytes (judged s2 c r) c.d.privq c.addr0 r.save = none → isRestore c r = true →
        exec (f.1 q) s = .next (restoreLaunch s2 c r.hdr))) ∧
    (c.op = 10 → allocOn (s.queueAt q) = none →
      reservedBad c ⟨false, false, false, true, true, 0xFFF, 0⟩ = false → statusBad s1 c = false → c.d.privq = true →
      ∀ base s2 bs, readImage s1 c = some (s2, bs) → sfteBad bs = false →
      exec (.sfalloc q base) s = .next (match allocAct s2 (allocOf c bs) base with
        | .done t => nextRecord t c
        | .waits t r => runCmd t c (.alloc r))) ∧
    (c.op = 11 → freeOn s (s.queueAt q) = none → reservedBad c ⟨false, false, false, false, true, 0xFFF, 0⟩ = false →
      statusBad s1 c = false → c.d.privq = true →
      ((s1.handle? c.d.ctx c.imm).isNone = true → exec (.sffree q) s = .next (endCmd s1 c 2)) ∧
      ((s1.handle? c.d.ctx c.imm).isNone = false → mayFree s1 (c.d.ctx * 4096 + c.imm) = true →
        exec (.sffree q) s = .next (endCmd (freeHandle s1 (c.d.ctx * 4096 + c.imm)) c 1))) ∧
    (c.op = 12 → reservedBad c ⟨false, false, false, true, true, 0x7F, 0⟩ = false → (c.imm < 96 ∨ 127 ≤ c.imm) →
      statusBad s1 c = false → ∀ s2 bs e, readCopy s1 c = some (s2, bs) → leastBusy s2 (copyEngines s2 c.imm) = some e →
      cdBad bs = false → exec (.copy q) s = .next (if 64 ≤ queuedOn s2 e then holdCmd s1 c
        else runCmd ({ s2 with nextId := s2.nextId + 1 }.setOp s2.nextId
          (copyOp { s2 with nextId := s2.nextId + 1 } c bs e)) c (.op s2.nextId))) ∧
    (c.op = 13 → finishedOn s q = none → reservedBad c ⟨false, false, false, true, true, 0, 0⟩ = false →
      statusBad s1 c = false → c.addr0.toNat % 256 = 0 → (ctxRead s1 c.ag c.addr0 256).isNone = false →
      (runningLaunch s1 c = none → exec (.preempt q) s = .next (endCmd s1 c 5)) ∧
      (∀ lid l, runningLaunch s1 c = some (lid, l) → l.phase = .running →
        exec (.preempt q) s = .next (runCmd (statusWord (s1.setLaunch lid { l with
          phase := .preempting, preempt := some ⟨c.status, s1.primaryTime, [], [], []⟩ }) c.status 1) c
          (.preempt lid))) ∧
      (∀ lid l, runningLaunch s1 c = some (lid, l) → l.phase = .preempting →
        exec (.preempt q) s = .next (holdCmd s1 c))) ∧
    (c.op = 14 → reservedBad c ⟨false, false, false, false, true, 0x03FF000F, 0⟩ = false → statusBad s1 c = false →
      c.d.privq = true →
      let mhz := c.imm / 65536
      let s2 := ((List.range 4).filter fun d => c.imm % 16 / 2 ^ d % 2 == 1).foldl (askFrequency s1.nextId mhz)
        { s1 with nextId := s1.nextId + 1 }
      (c.imm % 16 = 0 ∨ mhz < 350 ∨ 840 < mhz ∨ mhz % 5 ≠ 0 → exec (.vfset q) s = .next (endCmd s1 c 4)) ∧
      (c.imm % 16 ≠ 0 → 350 ≤ mhz → mhz ≤ 840 → mhz % 5 = 0 → exec (.vfset q) s =
        .next (if vfPending s2 s1.nextId then runCmd (statusWord s2 c.status 1) c (.vf s1.nextId c.status false)
          else endCmd s2 c 2))) ∧
    (c.op = 15 → (∀ e ∈ gateErrs s1 c, e.2 = false) → gateRefused s1 c = false →
      (c.imm / 65536 % 2 = 0 → exec (.cpgate_ungate q) s = .next (endCmd (wakeCore s1 (c.imm % 1024)) c 4)) ∧
      (c.imm / 65536 % 2 = 1 →
        let s2 := dropRef s1 (.gate (c.imm % 1024))
        let k := s2.coreAt (c.imm % 1024)
        exec (.cpgate_gate q) s = .next (if k.gated then
            endCmd (s2.setCore (c.imm % 1024) { k with gateReq := some c.status, gateStat := 3 }) c 3
          else settleGate (runCmd (s2.setCore (c.imm % 1024) { k with gateReq := some c.status, gateStat := 0 }) c
            (.gate (c.imm % 1024))) (c.imm % 1024))))

/-! ## Steps of the package -/

/-- R25, R109, R127, R140, R155, R156, R226, R334, R336, R337, R371, R372; logs 5, 21 and 24: LLCSZ, TLBINV, FROZEN,
EVPEND, TSTAT, FSTR, MTCAP, LDTMO, control-block words and descriptors of circular buffers, written as their maps say:
reserved LLC sizes refused, an invalidation started and ended with the entries it selects gone from every TLB, frozen
cleared, the balance of tokens lowered with MTCAP, LDTMO left alone by user writes. An entry of a pit log reads
through the control block with its TIME on top, its items in the order of log 24, and without DETAIL where it concerns
a secure group; in recovery only the pit log reads. A core that is scanned makes none of the writes of its group. That
an invalidation is done as soon as every group of the context is quiet is the model's reading of R156 (DEDUCED, log
5); that a REGISTER_WRITE reaches a system register of any group or core, as a privileged write, and that other
offsets are ignored, is the model's choice (log 21). -/
def Obligations.RegisterSteps : Prop :=
  (∀ (stack : Nat) (v : Word) (s : State), stack < 2 → (s.stackAt stack).busy = false →
    (4 < fieldNat v 0 3 → exec (.llcsz_write stack v) s =
      .next (s.setStack stack { s.stackAt stack with refused := true })) ∧
    (fieldNat v 0 3 ≤ 4 → v.setWidth 3 ≠ (s.stackAt stack).llcsz → exec (.llcsz_write stack v) s =
      .next (clearLlcRows (s.setStack stack { s.stackAt stack with
        refused := (s.stackAt stack).refused && !bit v 9, busy := true, target := v.setWidth 3 }) stack))) ∧
  (∀ (v : DWord) (s : State), s.ctl.tlbinvDone = true →
    exec (.tlbinv_write v) s = .next { s with ctl := { s.ctl with
      tlbinvCount := v.extractLsb' 0 32, tlbinvErr := decide (4096 ≤ fieldNat s.ctl.tlbinvLo 0 16),
      tlbinvDone := decide (4096 ≤ fieldNat s.ctl.tlbinvLo 0 16) } }) ∧
  (∀ s : State, (∀ e ∈ s.groups, e.2.ctx = fieldNat s.ctl.tlbinvLo 0 16 → quiet e.2 = true) →
    exec .tlbinv_done s = .next { tlbinvClear s with ctl := { s.ctl with tlbinvDone := true } }) ∧
  (∀ (s : State) (k : Nat) (e : TlbEntry), tlbinvHits s.ctl e = true →
    e ∉ ((tlbinvClear s).clusterAt k).tlb ∧ e ∉ ((tlbinvClear s).coreAt k).tlb) ∧
  (∀ (die : Nat) (v : Word) (s : State), die < 4 → bit v 31 = true →
    exec (.frozen_clear die v) s = .next (s.setDie die { s.dieAt die with
      pit := { (s.dieAt die).pit with frozen := false } })) ∧
  (∀ (v : Word) (s : State) (g : Group), s.group? s.cur = some g → (s.coreAt g.core).scanning = true →
    ∀ i ∈ [Instr.evpend_write v, .tstat_write v, .fstr_write v, .mtcap_write v, .ldtmo_write v], exec i s = .next s) ∧
  (∀ (n off size : Nat) (v : DWord) (s : State) (g : Group), s.group? s.cur = some g → (s.coreAt g.core).scanning = true →
    exec (.cb_descriptor_write n off size v) s = .next s) ∧
  (∀ (v : Word) (s : State) (g : Group), s.group? s.cur = some g → (s.coreAt g.core).scanning = false →
    exec (.evpend_write v) s = .next (s.updGroup s.cur fun g => { g with ev := { g.ev with
      pend := g.ev.pend &&& ~~~(v.setWidth 8) } }) ∧
    exec (.tstat_write v) s = .next (s.setGroup s.cur { g with trap := { g.trap with intrap := bit v 0 } }) ∧
    exec (.fstr_write v) s = .next (s.setGroup s.cur { g with fst := v.setWidth 5 }) ∧
    (g.priv = true → exec (.mtcap_write v) s = .next (s.setCluster (clusterOfCore g.core)
      (writeMtcap (s.clusterAt (clusterOfCore g.core)) v))) ∧
    (g.priv = false → exec (.ldtmo_write v) s = .next s) ∧
    (g.priv = true → exec (.ldtmo_write v) s = .next (s.setCore g.core { s.coreAt g.core with ldtmo := v.setWidth 16 }))) ∧
  (∀ (gid num : Nat) (x : DWord) (s : State) (g : Group), s.group? gid = some g →
    exec (.register_write (.group gid num) x) s = .next (sysWrite s gid g true num (x.extractLsb' 0 32))) ∧
  (∀ (core num : Nat) (x : DWord) (s : State), core < 576 → coreRegister num = true →
    exec (.register_write (.core core num) x) s =
      .next (s.setCore core (writeCore (s.coreAt core) num (x.extractLsb' 0 32)))) ∧
  (∀ (k : Cluster) (v : Word), (writeMtcap k v).mtcap = v.setWidth 20 ∧
    (writeMtcap k v).mtbal.toNat = min k.mtbal.toNat (max 1 (v.setWidth 20).toNat)) ∧
  (∀ (block off : Nat) (x : DWord) (s : State),
    exec (.register_write (.ctl block off) x) s = .next (writeControl s block off x)) ∧
  (∀ (v : DWord) (s : State), (writeControl s 0 0x80 v).ctl = { s.ctl with qtbase := v } ∧
    (writeControl s 0 0x88 v).ctl = { s.ctl with ctxbase := v } ∧
    (writeControl s 0 0xA0 v).ctl = { s.ctl with pretmo := v.extractLsb' 0 32 }) ∧
  (∀ (n off size : Nat) (v : DWord) (s s' : State) (g : Group), s.group? s.cur = some g → g.status = .ready →
    (s.coreAt g.core).scanning = false → cbStore s (clusterOfCore g.core) g.block n off size v.toNat = some s' →
    exec (.cb_descriptor_write n off size v) s = .next s') ∧
  (∀ (s : State) (die i : Nat) (e : PitEntry), die < 4 → i < 4096 → find (s.dieAt die).pit.entries i = some e →
    (e.secure = true → readControl s 0 (0x10000 + 0x20000 * die + 32 * i) = some 0 ∧
      readControl s 0 (0x10000 + 0x20000 * die + 32 * i + 8) = some 0) ∧
    (e.secure = false → readControl s 0 (0x10000 + 0x20000 * die + 32 * i) = some e.detail1.toNat ∧
      readControl s 0 (0x10000 + 0x20000 * die + 32 * i + 8) = some e.detail0.toNat) ∧
    readControl s 0 (0x10000 + 0x20000 * die + 32 * i + 24) = some e.time.toNat) ∧
  (∀ (s : State) (block off : Nat), s.recovery = true → (block ≠ 0 ∨ pitOffset off = false) →
    readControl s block off = none)

/-- R9, R15, R225, R314, R315, R333 to R335, R338; logs 1, 2, 7, 20 and 24: A quote of 352 bytes begins with the nonce
and the SHA-512 digests of the images booted and ends with the Ed25519 signature of its first 288 bytes under the
attestation key, whose seed alone is free (log 7); reset clears groups, launches, cores and handles, keeps the fuses
and frozen pit logs, takes up to 16 secure regions, and ends in recovery where an image does not verify; remote loads,
stores and atomics that are allowed act on the home of each byte of their address; a fenced package is noted; a fatal
error freezes the pit logs and is reported. That PACKAGE_RESET leaves memory empty and NTIME 0 is the model's choice
(logs 1, 2 and 24), and that remote accesses act by physical address as a non-secure agent is log 20. -/
def Obligations.PackageSteps : Prop :=
  (∀ (nonce : BitVec 256) (s : State), ∃ q, exec (.attestation_quote nonce) s = .next { s with quote := some q } ∧
    q.length = 352 ∧ natOfBytes (q.take 32) = nonce.toNat ∧
    q.drop 288 = Crypto.sign attestationPair.1 (q.take 288) ∧
    ∀ k < 3, (q.drop (32 + 64 * k)).take 64 = Crypto.sha512 (s.images.getD k [])) ∧
  (∀ (boot : BootChoice) (s : State), ∃ t, exec (.package_reset boot) s = .next t ∧ t.groups = [] ∧ t.launches = [] ∧
    t.cores = [] ∧ t.mem = [] ∧ t.handles = [] ∧ t.ctl = ControlBlock.reset ∧ t.fatal = false ∧
    t.recovery = !bootOk s boot ∧ t.secRegions = boot.secRegions.take 16 ∧ t.fuses = s.fuses ∧
    ∀ d < 4, (t.dieAt d).pit = (if (s.dieAt d).pit.frozen then (s.dieAt d).pit else PitLog.reset) ∧
      (t.dieAt d).ntime = 0 ∧ (t.dieAt d).tallow = 255 ∧ (t.dieAt d).mhz = 700) ∧
  (∀ (pkg key : Nat) (s : State), pkg < 262144 → exec (.fabric_bring_up pkg key) s =
    .next { s with pkgid := pkg, key := BitVec.ofNat 20 key, fabric := true }) ∧
  (∀ (pa : Nat) (bs : List Byte) (s : State), s.fabric = true → remoteMay s pa = true →
    exec (.remote_access_arrival (.store pa bs)) s = .next (touchPlace
      (store s (((List.range bs.length).map fun i => physLoc s (pa + i)).zip bs)) pa)) ∧
  (∀ (pa n : Nat) (s : State), s.fabric = true → remoteMay s pa = true →
    exec (.remote_access_arrival (.load pa n)) s = .next (touchPlace s pa)) ∧
  (∀ (pa n : Nat) (op : AtomOp) (x cmp : Word) (s : State), s.fabric = true → remoteMay s pa = true →
    atomOfRow n = some op → exec (.remote_access_arrival (.atomic pa n x cmp)) s =
      .next (touchPlace (atomAt (outside s) s op ((List.range 4).map fun i => physLoc s (pa + i)) x cmp).1 pa)) ∧
  (∀ (pkg : Nat) (s : State), ∃ t, exec (.package_fenced pkg) s = .next t ∧ pkg ∈ t.fenced ∧ t.mem = s.mem) ∧
  (∀ (lid : Nat) (on : Bool) (s : State), exec (.debugger_attach lid on) s =
    .next (s.updLaunch lid fun l => { l with debugger := on })) ∧
  (∀ s : State, s.fatal = false → ∃ t, exec .fatal_error s = .next t ∧ t.fatal = true ∧
    t.reports = s.reports ++ [.fatal] ∧ ∀ d < 4, (t.dieAt d).pit.frozen = true)

/-- R109 to R113, R245, R322 to R325, R327 to R331; logs 15, 19 and 24: A token refill adds MTFILL up to the cap,
begins the order of service anew and counts a core cycle; a frequency change is made when the die is ready, and times
out after 1 ms; a core gates when idle; warnings raise the voltage by steps up to 16, and 10 ms without one lowers it;
1 ms past step 16 is fatal; TALLOW follows the sensors, and is 0 after a warning at step 16; a slot of the assay
opens, a gated core powered up for it, scans a core drained within 50 µs, passes (the core gated again), fails (the
core out of service for good, every group on it killed whole and reported with ASSAY) or is skipped. The clock of a
surface domain is the model's choice (log 15), that the 1 ms of VFSET counts from r.since in the primary die's time is
log 19, and temperatures in thousandths of a degree are log 24. -/
def Obligations.PowerSteps : Prop :=
  (∀ (cl : Nat) (s : State), ∃ t, exec (.token_refill cl) s = .next t ∧
    (t.clusterAt cl).mtbal.toNat =
      min ((s.clusterAt cl).mtbal.toNat + (s.clusterAt cl).mtfill.toNat) (tokenCap (s.clusterAt cl)) ∧
    (t.clusterAt cl).served = 0 ∧
    (∀ c, clusterOfCore c = cl → (s.coreAt c).scanning = false → (t.coreAt c).cyc = (s.coreAt c).cyc + 1) ∧
    t.mem = s.mem) ∧
  (∀ (die : Nat) (r : VfReq) (rest : List VfReq) (s : State), (s.dieAt die).vfs = r :: rest →
    (dieReady s die = true → exec (.frequency_change die) s = .next
      (endRequest (vfLog (s.setDie die { s.dieAt die with mhz := r.mhz }) die 2) die r.id)) ∧
    (dieReady s die = false → 1000000 ≤ since s.primaryTime r.since → exec (.vfset_timeout die) s = .next
      (endRequest (vfLog (markLate s r.id) die 3) die r.id))) ∧
  (∀ (core : Nat) (a : StatusAddr) (s : State), (s.coreAt core).gateReq = some a → (s.coreAt core).gated = false →
    (s.coreAt core).gateStat ≠ 3 → coreBusy s core = false → (s.coreAt core).inbound.filled = 0 →
    (s.dieAt (dieOfCore core)).assay = none →
    exec (.core_gate core) s = .next (dropRef (statusWord (s.setCore core { s.coreAt core with
      gateStat := 3, gated := true }) a 3) (.gate core))) ∧
  (∀ (dom : Nat) (s : State), dom < 8 → (s.domainAt dom).steps < 16 →
    exec (.canary_warning dom) s = .next (s.setDomain dom { s.domainAt dom with
      steps := (s.domainAt dom).steps + 1, lastWarn := s.ntime (dieOfDomain dom) })) ∧
  (∀ (dom : Nat) (s : State), dom < 8 → 16 ≤ (s.domainAt dom).steps → ∃ t, exec (.canary_warning dom) s = .next t ∧
    (t.domainAt dom).steps = (s.domainAt dom).steps ∧ (t.domainAt dom).since16.isSome = true ∧
    t.tallowOf (dieOfDomain dom) = 0) ∧
  (∀ (dom : Nat) (s : State), dom < 8 → (s.domainAt dom).steps ≠ 0 →
    10000000 ≤ since (s.ntime (dieOfDomain dom)) (s.domainAt dom).lastWarn →
    exec (.voltage_step_down dom) s = .next (s.setDomain dom
      { steps := (s.domainAt dom).steps - 1, lastWarn := s.ntime (dieOfDomain dom), since16 := none })) ∧
  (∀ (dom : Nat) (t : DWord) (s : State), (s.domainAt dom).since16 = some t → s.fatal = false →
    1000000 ≤ since (s.ntime (dieOfDomain dom)) t →
    exec (.canary_fatal dom) s = .next (goFatal s (dieOfDomain dom))) ∧
  (∀ (cl : Nat) (s : State), ∃ t, exec (.droop_trip cl) s = .next t ∧ (t.clusterAt cl).stretched = true) ∧
  (∀ (cl : Nat) (s : State), exec (.droop_end cl) s =
    .next (s.setCluster cl { s.clusterAt cl with stretched := false })) ∧
  (∀ (die : Nat) (temp : Int) (s : State), exec (.tallow_update die temp) s = .next (s.setDie die { s.dieAt die with
    tallow := BitVec.ofNat 8 (if gddrHot s die then (max 0 (min 255 (4 * (105000 - temp) / 1000))).toNat / 2
      else (max 0 (min 255 (4 * (105000 - temp) / 1000))).toNat) })) ∧
  (∀ (ctrl : Nat) (temp : Int) (s : State), ctrl < 32 → ∃ t, exec (.gddr_overheat ctrl temp) s = .next t ∧
    (t.gddrAt ctrl).temp = temp ∧ ((t.gddrAt ctrl).halved = true ↔ 95000 < temp) ∧
    (85000 < temp → (t.gddrAt ctrl).doubled = true) ∧ (temp < 83000 → (t.gddrAt ctrl).doubled = false)) ∧
  (∀ (die core : Nat) (s : State), (s.dieAt die).assay = none →
    (s.dieAt die).nextSlot.toNat ≤ (s.dieAt die).ntime.toNat →
    nextInService s die 144 (s.dieAt die).nextAssay = some core →
    exec (.assay_slot_open die) s = .next ((powerUp s core).setDie die { s.dieAt die with
      assay := some ⟨core, (s.dieAt die).ntime, none⟩, nextAssay := core % 144,
      nextSlot := (s.dieAt die).nextSlot + 200000 })) ∧
  (∀ (die : Nat) (a : AssaySlot) (s : State), (s.dieAt die).assay = some a → a.scanFrom = none →
    drained s a.core = true → since (s.dieAt die).ntime a.opened ≤ 50000 → ∃ t, exec (.assay_scan_start die) s = .next t ∧
      (t.coreAt a.core).scanning = true ∧ (t.dieAt die).assay = some { a with scanFrom := some (s.dieAt die).ntime }) ∧
  (∀ (die : Nat) (a : AssaySlot) (t0 : DWord) (s : State), (s.dieAt die).assay = some a → a.scanFrom = some t0 →
    20000 ≤ since (s.ntime die) t0 → ∃ t, exec (.assay_scan_end die true) s = .next t ∧
      (t.coreAt a.core).scanning = false ∧ (t.coreAt a.core).passes = (s.coreAt a.core).passes + 1 ∧
      (t.coreAt a.core).skip = 0 ∧ (t.dieAt die).assay = none ∧ (t.coreAt a.core).oos = (s.coreAt a.core).oos ∧
      ((s.coreAt a.core).gateReq.isSome = true → (s.coreAt a.core).gateStat = 3 → (t.coreAt a.core).gated = true)) ∧
  (∀ (die : Nat) (a : AssaySlot) (t0 : DWord) (s : State), (s.dieAt die).assay = some a → a.scanFrom = some t0 →
    20000 ≤ since (s.ntime die) t0 → ∃ t, exec (.assay_scan_end die false) s = .next t ∧
      (t.coreAt a.core).oos = true ∧ (t.coreAt a.core).scanning = false ∧ (t.coreAt a.core).pools = [] ∧
      (t.dieAt die).assay = none ∧ (t.coreAt a.core).passes = (s.coreAt a.core).passes ∧
      ∀ e ∈ residentOn s a.core, Report.fault (causeCode .assay).toNat e.2.core (slotOf e.2) e.2.wid e.2.pc 0 0 ∈ t.reports ∧
        ∃ g', t.group? e.1 = some g' ∧ g'.lmask = 0 ∧ g'.amask = 0) ∧
  (∀ (die : Nat) (a : AssaySlot) (s : State), (s.dieAt die).assay = some a → a.scanFrom = none →
    (drained s a.core = false ∧ 50000 ≤ since (s.ntime die) a.opened ∨ 50000 < since (s.ntime die) a.opened) →
    ∃ t, exec (.assay_skip die) s = .next t ∧
      (t.dieAt die).assay = none ∧ (t.dieAt die).nextAssay = a.core % 144 ∧
      (t.coreAt a.core).skip = if (s.coreAt a.core).skip = 255 then 255 else (s.coreAt a.core).skip + 1)
/-- R31, R193, R194, R197 to R200, R204 to R206, R208, R372; logs 10 and 29: A record whose turn it is joins a pool of
its core and of its mode, waking a gated one, or waits for room, or is refused, and leaves its sender's buffer; one
for another package leaves after its site notice, or is refused where that is out of reach; a pool is due when full or
old, by the present LDTMO; a due pool launches as a migrant at its RPC with a lane for each record; a return enters
the store of its lane once; a full store is applied to a group parked in rejoin (ContinuationResult says how), with
the trap or WINDOW that follows; a group at exit with nothing outstanding retires, not while its core is scanned, and
one with lanes away waits unless it was killed whole; a notice moves a lane's site, and a site already fenced gives
the lane a return of KIND 4. (Details of order are the model's, log 10, and so is that pools are parted by mode, log
29.) -/
def Obligations.NetworkSteps : Prop :=
  (∀ (k lid : Nat) (c : Cont) (core : Core) (s : State), s.conts[k]? = some c → heldBack s.conts k c = false →
    c.pkg = s.pkgid → landingLaunch s c = some lid → (s.coreAt c.core).oos = false → c.core ≤ 575 →
    let s1 := wakeGated (recordGone { s with conts := s.conts.eraseIdx k } c) c.core
    (admitRecord (s1.coreAt c.core) lid (homeMode s lid c) (orderOf s c.fromPkg c.clk) = some core →
      exec (.continuation_arrival k) s = .next (s1.setCore c.core core)) ∧
    (admitRecord (s1.coreAt c.core) lid (homeMode s lid c) (orderOf s c.fromPkg c.clk) = none →
      exec (.continuation_arrival k) s = .next s)) ∧
  (∀ (k : Nat) (c : Cont) (s : State), s.conts[k]? = some c → heldBack s.conts k c = false → c.pkg = s.pkgid →
    (landingLaunch s c = none ∨ (s.coreAt c.core).oos = true ∨ 575 < c.core) →
    exec (.continuation_arrival k) s = .next (sendReturn (recordGone { s with conts := s.conts.eraseIdx k } c)
      (bareReturn s 4 (orderOf s c.fromPkg c.clk) c.org))) ∧
  (∀ (k : Nat) (c : Cont) (s : State), s.conts[k]? = some c → heldBack s.conts k c = true →
    exec (.continuation_arrival k) s = .next s) ∧
  (∀ (k : Nat) (c : Cont) (s : State), s.conts[k]? = some c → heldBack s.conts k c = false → c.pkg ≠ s.pkgid →
    exec (.continuation_arrival k) s =
      .next (if unreachable s c.pkg then sendReturn (recordGone { s with conts := s.conts.eraseIdx k } c)
          (bareReturn s 4 (orderOf s c.fromPkg c.clk) c.org)
        else if noticeFirst s c then s else recordGone { s with conts := s.conts.eraseIdx k } c)) ∧
  (∀ (core k : Nat) (p : Pool) (s : State), (s.coreAt core).pools[k]? = some p →
    ∃ t, exec (.pool_due core k) s = .next t ∧ t.mem = s.mem ∧ t.groups = s.groups ∧
      (t.coreAt core).pools[k]? = some { p with due := decide (p.recs.length = 32 ∨
        max 16 (s.coreAt core).ldtmo.toNat ≤ since (s.coreAt core).cyc p.since) }) ∧
  (∀ (core i slot : Nat) (p : Pool) (l : Launch) (s : State), nextPool (refreshDue (s.coreAt core)).pools = some i →
    (List.range Config.landingSlots).find? (landingSlotFree s core) = some slot →
    (refreshDue (s.coreAt core)).pools[i]? = some p → s.launch? p.launch = some l → landingHeld s core = false →
    ∃ t gid g, exec (.migrant_launch core) s = .next t ∧ t.group? gid = some g ∧ g.pc = p.rpc ∧ g.fmt = p.fmt ∧
      g.core = core ∧ g.vregs = 32 ∧ g.accs = 0 ∧ g.amask = BitVec.ofNat 32 (2 ^ p.recs.length - 1) ∧
      g.lmask = g.amask ∧ (t.coreAt core).pools = (refreshDue (s.coreAt core)).pools.eraseIdx i ∧ t.mem = s.mem) ∧
  (∀ (k gid : Nat) (r : Return) (g : Group) (s : State), s.rets[k]? = some r → r.org.hpkg = s.pkgid →
    s.fenced.contains r.fromPkg = false → homeGroup s r.org.hcore r.org.hslot r.org.gen = some (gid, g) →
    exec (.return_arrival k) s = .next (returnTo { s with rets := s.rets.eraseIdx k } gid r.org.hlane
      ⟨r.kind, if r.kind = 1 then r.org.carry else 0, r.vals, r.bad, orderOf s r.fromPkg r.clk⟩)) ∧
  (∀ (s : State) (gid j : Nat) (g : Group) (e : RetEntry), s.group? gid = some g →
    g.away.getLsbD j = false ∨ (find g.cont.rets j).isSome = true → (returnTo s gid j e).group? gid = some g) ∧
  (∀ (gid : Nat) (g g' : Group) (s : State), s.group? gid = some g → g.status = .parked .rejoin →
    allReturned g = true → preemptDue s gid g = false → (s.coreAt g.core).scanning = false → rejoinWindow g = false →
    applyEntries g = (g', none) →
    exec (.rejoin_apply gid) s = .next (boundary ((ranHere s g).setGroup gid (unpark g')) gid)) ∧
  (∀ (gid : Nat) (g g' : Group) (c : Cause) (ls : Word) (s : State), s.group? gid = some g →
    g.status = .parked .rejoin → allReturned g = true → preemptDue s gid g = false →
    (s.coreAt g.core).scanning = false →
    (rejoinWindow g = true → exec (.rejoin_apply gid) s = .next (parkedFault s gid g .window 0)) ∧
    (rejoinWindow g = false → applyEntries g = (g', some (c, ls)) → exec (.rejoin_apply gid) s =
      .next (haltTrapped (trapBoundary ((ranHere s g).setGroup gid g') gid ⟨c, false, g.pc, g.pc + 4, ls, 0, g.ins⟩)
        gid))) ∧
  (∀ (gid : Nat) (g : Group) (s : State), s.group? gid = some g → g.status = .parked .exit → mayRetire g = true →
    ((s.coreAt g.core).scanning = false → exec (.exit_away_retire gid) s = .next (retire s gid)) ∧
    ((s.coreAt g.core).scanning = true → exec (.exit_away_retire gid) s = .next s)) ∧
  (∀ (gid : Nat) (g : Group) (s : State), s.group? gid = some g → g.status = .parked .exit → g.killed = false →
    allReturned g = false → exec (.exit_away_retire gid) s = .next s) ∧
  (∀ (k gid : Nat) (n : Notice) (g : Group) (s : State), s.notices[k]? = some n → n.hpkg = s.pkgid →
    homeGroup s n.hcore n.hslot n.gen = some (gid, g) →
    let s1 := { s with notices := s.notices.eraseIdx k }.updGroup gid fun g =>
      if g.away.getLsbD n.hlane then { g with cont := { g.cont with sites := set g.cont.sites n.hlane n.pkg } } else g
    exec (.site_notice k) s =
      .next (if s.fenced.contains n.pkg then returnTo s1 gid n.hlane (fencedEntry s1) else s1))

/-- R30, R90, R182, R213, R217, R220, R221, R244, R246, R262, R321, R417; logs 3 and 26: A parked waitany wakes on the
lowest slot that is pending, or raises ALIGN on a misaligned handler; a barrier open for 100 ms is reported as
stalled, the time counted anew while a group it waits for is Halted; levels are sampled; the oldest closed batch
completes once its operations are done; the trap timer traps; a breakpoint halts outside a chain; a halted group, and
no other, is released at its TNEXT, where a breakpoint does not match at first, or with ALIGN where that is misaligned
(the model's choice, log 26: R30 and R244 do not say); a residency request leaves; an outstanding load returns (an
atomic after earlier ones of its bytes) and an outstanding store reaches memory, and fences without an access left
complete; a fetchw is answered, its flag last. -/
def Obligations.GroupSteps : Prop :=
  (∀ (gid : Nat) (es : BitVec 8) (g : Group) (s : State), s.group? gid = some g → g.status = .parked (.waitany es) →
    let g1 := refreshLevels s g
    let k := lowestSlot (takeable g1 es)
    takeable g1 es ≠ 0 → preemptDue s gid g1 = false → (s.coreAt g1.core).scanning = false →
    (handlerOf g1 k &&& 3 = 0 → ∃ g', exec (.waitany_wake gid) s = .next ((ranHere s g).setGroup gid g') ∧
      g'.status = .ready ∧ g'.pc = (if handlerOf g1 k = 0 then g1.pc + 4 else handlerOf g1 k) ∧
      g'.ev.pend = g1.ev.pend &&& ~~~(slotBit k) ∧ g'.v = g1.v ∧ g'.amask = g1.amask) ∧
    (handlerOf g1 k &&& 3 ≠ 0 → exec (.waitany_wake gid) s =
      .next (parkedFault s gid g1 .align (handlerOf g1 k)))) ∧
  (∀ (cl b : Nat) (s : State), let o := get Barrier.idle (s.clusterAt cl).bars b
    o.isOpen = true → o.stall = false → barDbgBlk s o = false →
    100000000 ≤ since (s.ntime (dieOfCluster cl)) o.since → ∃ t, exec (.barrier_stall cl b) s = .next t ∧
      get Barrier.idle (t.clusterAt cl).bars b = { o with stall := true } ∧
      t.reports = s.reports ++ [.barStall cl b]) ∧
  (∀ (cl b : Nat) (s : State), let o := get Barrier.idle (s.clusterAt cl).bars b
    o.isOpen = true → barDbgBlk s o = true → ∃ t, exec (.barrier_stall cl b) s = .next t ∧ t.reports = s.reports ∧
      get Barrier.idle (t.clusterAt cl).bars b = { o with since := s.ntime (dieOfCluster cl), stall := false }) ∧
  (∀ (gid : Nat) (g : Group) (s : State), s.group? gid = some g → isSaved g = false →
    exec (.group_timer_match gid) s = .next (s.setGroup gid (refreshLevels s g))) ∧
  (∀ (gid : Nat) (b : Batch) (bs : List Batch) (g : Group) (s : State), s.group? gid = some g →
    g.mx.closed = b :: bs → batchQueued s gid g b.num = false → (s.coreAt g.core).scanning = false →
    let g' := finishBatch s (forcedDue s gid g) g b
    exec (.matrix_batch_complete gid) s =
      .next (lanesGone (uceLanes ((ranHere s g).setGroup gid g') gid b.kills g.pc) gid) ∧
    g'.mx.mbdone = b.num ∧ g'.mx.closed = bs ∧ g'.fst = g.fst ||| b.flags ∧ g'.mx.tiles = g.mx.tiles) ∧
  (∀ (gid : Nat) (g : Group) (s : State), s.group? gid = some g → (s.coreAt g.core).scanning = true →
    exec (.matrix_batch_complete gid) s = .next s ∧ exec (.forced_save gid) s = .next s) ∧
  (∀ (gid : Nat) (g : Group) (s : State), s.group? gid = some g → timerDue s g = true →
    exec (.trap_timer gid) s = .next (trapBoundary
      (s.setGroup gid { g with dbg := { g.dbg with tten := false } }) gid ⟨.timer, false, g.pc, g.pc, 0, 0, 0⟩)) ∧
  (∀ (gid : Nat) (g : Group) (s : State), s.group? gid = some g → breakpointDue s g = true →
    atBoundary s g = true → ∃ t g', exec (.breakpoint_halt gid) s = .next t ∧ t.group? gid = some g' ∧
      g'.status = .halted none ∧ g'.pc = g.pc ∧ g'.trap.tpc = g.pc ∧ g'.trap.tnext = g.pc ∧ g'.v = g.v ∧ g'.s = g.s ∧
      (t.coreAt g.core).bpHit = (s.coreAt g.core).bpHit ||| bpMatches (s.coreAt g.core) g.pc ∧
      t.reports = s.reports ++ [.halt gid]) ∧
  (∀ (gid : Nat) (g : Group) (s : State), s.group? gid = some g →
    let s1 := barRecount s gid g
    (∀ p, g.status = .halted (some p) →
      exec (.debug_release gid) s = .next (s1.setGroup gid { g with status := .parked p })) ∧
    (g.status = .halted none → g.trap.tnext &&& 3 = 0 → ∃ t g', exec (.debug_release gid) s = .next t ∧
      t.group? gid = some g' ∧ OthersSame s1 t gid ∧ t.mem = s.mem ∧ g'.status = .ready ∧ g'.dbg.passed = some g.trap.tnext ∧
      g'.pc = (resumeAt { g with status := .ready } g.trap.tnext).pc) ∧
    ((∀ p, g.status ≠ .halted p) → exec (.debug_release gid) s = .next s) ∧
    (g.status = .halted none → g.trap.tnext &&& 3 ≠ 0 → exec (.debug_release gid) s =
      .next (takeTrap (s1.setGroup gid { g with
          status := .ready, chain := { g.chain with specials := if g.trap.tnext = g.pc then g.chain.specials else [] } }) gid
        ⟨.align, false, g.pc, g.pc, 0, g.trap.tnext, 0⟩))) ∧
  (∀ (r : ResReq) (rs : List ResReq) (s : State), s.resq = r :: rs →
    exec .residency_request_forward s =
      .next { s with resq := rs, reports := s.reports ++ [.residency r] }) ∧
  (∀ (gid k : Nat) (l : PendLoad) (g : Group) (s : State), s.group? gid = some g → g.loads[k]? = some l →
    let before := isAtomic l && (g.loads.take k).any fun e => isAtomic e && sameBytes s (loadPlaces e) (loadPlaces l)
    exec (.load_return gid k) s = .next (if before then s else lanesGone
      ((returnLoad (s.setGroup gid { g with loads := g.loads.eraseIdx k }) gid l).updGroup gid (settleFences gid)) gid)) ∧
  (∀ (gid k : Nat) (w : PendStore) (g : Group) (s : State), s.group? gid = some g → g.wbuf[k]? = some w →
    exec (.write_reaches_home gid k) s =
      .next ((applyWrite (s.setGroup gid { g with wbuf := g.wbuf.eraseIdx k }) gid w).updGroup gid (settleFences gid))) ∧
  (∀ (gid off : Nat) (rest : List Nat) (b : Block) (g : Group) (s : State), s.group? gid = some g →
    g.fetches = off :: rest → s.block? g.block = some b → nextBlock s g = none →
    let s1 := s.setGroup gid { g with fetches := rest }
    let at_ := spadLoc b.cluster (b.spadBase + off)
    exec (.fetchw_delivery gid) s = .next (storeNat (storeNat s1 (at_ + 4) 12 0) at_ 4 2)) ∧
  (∀ (gid off : Nat) (rest : List Nat) (b : Block) (l : Launch) (w : DWord) (g : Group) (s : State),
    s.group? gid = some g → g.fetches = off :: rest → s.block? g.block = some b → nextBlock s g = some (l, w) →
    let s1 := (s.setGroup gid { g with fetches := rest }).setLaunch g.launch { l with cursor := l.cursor + 1 }
    let at_ := spadLoc b.cluster (b.spadBase + off)
    exec (.fetchw_delivery gid) s =
      .next (storeNat (storeNat s1 (at_ + 4) 12 (w.toNat * 2 ^ 32)) at_ 4 1))

/-- R87, R102 to R105, R234 to R242, R267, R366, R383; logs 6, 18, 26 and 29: A placement serves a launch of the
highest PRI among those that are not held out and fit on the die, and clears its count of passes on every die; a
finished launch completes, with status 2, or 3 when suspect, or none while it waits for confirmation, and gives a
PREEMPT of it status 4; a deadline passed is noted once; a group is forced to its save after PRETMO, also where it
waits, but not in hop, and saved when ready, its open batch closed first; what its save leaves is the group with its
control state and the registers of the plan, the others reading zero, and a save that finds no room fails as SAVEF. A
saved block is placed before the next fresh one, whole, on a new cluster; its groups go on at their saved PC (one at
ppt at its TNEXT), one in waitany executes it again, one at bar stays parked, one Halted stays Halted. That a deadline
passed gives status 5 also before the first block is resident is the model's choice (DESIGN CHOICE, log 26; R102), as
is that a group whose save failed and that retires before the end leaves status 2 (log 29). -/
def Obligations.LaunchSteps : Prop :=
  (∀ (die lid cl : Nat) (b : Bid) (s : State), serveBid die (bidsOf s die) = some b → b.lid = lid → b.cl = some cl →
    (nextPlace s b.l).isSome = true → ∃ m, exec (.block_placement die) s =
      .next (placeBid (clearPassed (s.setDie die { s.dieAt die with passed := m }) lid) b)) ∧
  (∀ (s : State) (b : Bid) (cl : Nat), b.cl = some cl →
    (nextPlace s b.l = some .fresh → placeBid s b = placeNew s b.lid b.l cl) ∧
    ∀ bid x, nextPlace s b.l = some (.restore bid x) → placeBid s b = placeSaved s b.lid b.l bid x cl) ∧
  (∀ (s : State) (l : Launch) (bid : Nat) (b : Block) (rest : List Nat), l.phase = .running → l.savedBlocks = bid :: rest →
    s.block? bid = some b → nextPlace s l = some (.restore bid b)) ∧
  (∀ (s : State) (lid : Nat) (l : Launch) (bid : Nat) (b : Block) (cl base : Nat), freeSlice s cl b.spad = some base →
    (placeSaved s lid l bid b cl).block? bid = some { b with
      cluster := cl, spadBase := base, savedCbs := [], savedBars := [], savedSpad := [], savedBad := [], ranges := [],
      fullSave := false, saved := false } ∧
    ∀ l', (placeSaved s lid l bid b cl).launch? lid = some l' → bid ∉ l'.savedBlocks) ∧
  (∀ (s : State) (gid : Nat) (g : Group), s.group? gid = some g →
    (∀ p h q, g.status = .saved p h →
      (h = true ∧ q = .halted p ∨ h = false ∧ p = none ∧ q = .ready ∨
        h = false ∧ (∃ b, p = some (.bar b)) ∧ q = .parked (p.getD .exit) ∨
        h = false ∧ (∃ m, p = some (.waitany m)) ∧ q = .ready) →
      ∃ g', resumeGroup s gid = s.setGroup gid g' ∧ g'.status = q ∧ g'.pc = g.pc ∧ g'.v = g.v ∧ g'.s = g.s ∧
        g'.m = g.m ∧ g'.amask = g.amask ∧ g'.lmask = g.lmask ∧ g'.trap = g.trap ∧ g'.mx = g.mx) ∧
    (∀ n, g.status = .saved (some (.save (some n))) false → g.trap.tnext &&& 3 = 0 →
      (∀ top rest, g.lstack = top :: rest → top.last ≠ g.trap.tnext - 4) →
      ∃ g', resumeGroup s gid = s.setGroup gid g' ∧ g'.status = .ready ∧ g'.pc = g.trap.tnext ∧ g'.v = g.v ∧
        g'.s = g.s ∧ g'.m = g.m ∧ g'.amask = g.amask)) ∧
  (∀ (s : State) (lid d : Nat), get 0 ((clearPassed s lid).dieAt d).passed lid = 0) ∧
  (∀ (die : Nat) (s : State) (b : Bid), serveBid die (bidsOf s die) = some b → b ∈ bidsOf s die ∧
    (∃ cl, b.cl = some cl ∧ dieOfCluster cl = die) ∧
    ∀ x ∈ bidsOf s die, (∃ cl, x.cl = some cl ∧ dieOfCluster cl = die) → heldOut (bidsOf s die) x = false →
      x.l.hdr.pri ≤ b.l.hdr.pri) ∧
  (∀ (lid : Nat) (l : Launch) (s : State), s.launch? lid = some l → launchDone s lid l = true → l.preempt = none →
    exec (.launch_complete lid) s = .next (startRestores (dropRef (writeFinal (s.setLaunch lid { l with
      phase := .complete, preempt := none, confirmed := l.ranOn.isEmpty && !l.suspect }) lid) (.launch lid)))) ∧
  (∀ (lid : Nat) (l : Launch) (p : PreemptRun) (s : State), s.launch? lid = some l → launchDone s lid l = true →
    l.preempt = some p → exec (.launch_complete lid) s = .next (startRestores (dropRef (writeFinal
      ((dropRef (statusWord s p.status 4) (.preempt lid)).setLaunch lid { l with
        phase := .complete, preempt := none, confirmed := l.ranOn.isEmpty && !l.suspect }) lid) (.launch lid)))) ∧
  (∀ l : Launch, (l.suspect = true → finalLaunchStatus l = some 3) ∧
    (l.suspect = false → l.hdr.conf = false → finalLaunchStatus l = some 2) ∧
    (l.suspect = false → l.hdr.conf = true → l.confirmed = false → finalLaunchStatus l = none)) ∧
  (∀ (lid : Nat) (l : Launch) (s : State), s.launch? lid = some l → l.phase = .running ∨ l.phase = .preempting →
    l.hdr.deadline ≠ 0 → l.pastDeadline = false → l.hdr.deadline.toNat < s.primaryTime.toNat →
    exec (.deadline_passed lid) s =
      .next ((launchStatus s lid 5).updLaunch lid fun l => { l with pastDeadline := true })) ∧
  (∀ (gid : Nat) (g : Group) (l : Launch) (r : PreemptRun) (s : State), s.group? gid = some g →
    s.launch? g.launch = some l → l.preempt = some r → preemptDue s gid g = true →
    max 1 s.ctl.pretmo.toNat * 1000 ≤ since s.primaryTime r.since → (s.coreAt g.core).scanning = false →
    (g.status = .ready → g.chain.fpFlags = 0 → atBoundary s g = true →
      exec (.forced_save gid) s =
        .next (s.setGroup gid { g with status := .parked (.save none), chain := g.chain.stop, dbg := { g.dbg with haltDue := haltOwed g } })) ∧
    (∀ p, (p = .transition ∨ p = .stalled ∨ (∃ t, p = .mwait t) ∨ ∃ d n b, p = .cbget d n b) → g.status = .parked p →
      gid ∉ r.forced → exec (.forced_save gid) s =
      .next (s.setLaunch g.launch { l with preempt := some { r with forced := r.forced ++ [gid] } })) ∧
    (g.status = .parked .hop ∨ g.status = .parked .room → exec (.forced_save gid) s = .next s)) ∧
  (∀ (gid : Nat) (g : Group) (l : Launch) (b : Block) (p : SavePlan) (s s' : State), s.group? gid = some g →
    saveReady s gid g = true → batchShut s gid g = true → g.mx.opening.ops = 0 → g.mx.closed = [] → s.launch? g.launch = some l →
    s.block? g.block = some b → (lastOfBlock s gid g.block = false ∨ ringsDone s g.block = true) →
    planOf s g l b.spad = .plan s' p →
    exec (.group_save gid) s = .next (saveGroup s' gid g l b p) ∧
    (∀ s1 r, saveRoom s' l (recordBytes false (notePlan b p) p) = (s1, some r) → lastOfBlock s' gid g.block = false →
      g.badS = [] → g.badV = [] → g.badSp = [] → g.badRow = [] → g.lmask ≠ 0 → (∀ h ∈ g.held, h.desc ≠ 63) →
      s1.group? gid = some g →
      ∃ t, exec (.group_save gid) s = .next t ∧ t.group? gid = some (savedGroup g p) ∧ isSaved (savedGroup g p) = true) ∧
    (∀ s1, saveRoom s' l (recordBytes (lastOfBlock s' gid g.block) (notePlan b p) p) = (s1, none) →
      exec (.group_save gid) s = .next (failSave s1 gid g))) ∧
  (∀ (gid : Nat) (g : Group) (s : State), s.group? gid = some g → saveReady s gid g = true →
    batchShut s gid g = false ∨ g.mx.opening.ops ≠ 0 → exec (.group_save gid) s = .next (shutBatch s gid g)) ∧
  (∀ (g : Group) (p : SavePlan) (c j : Nat), j < 32 →
    (c ∈ p.vecs → get 0 (savedGroup g p).v (c * 32 + j) = get 0 g.v (c * 32 + j)) ∧
    (c ∉ p.vecs → get 0 (savedGroup g p).v (c * 32 + j) = 0)) ∧
  (∀ (g : Group) (p : SavePlan) (n : Nat),
    (savedGroup g p).scalar n = if n ∈ p.scalars then g.scalar n else 0) ∧
  (∀ (g : Group) (p : SavePlan), (savedGroup g p).m = g.m ∧ (savedGroup g p).pc = g.pc ∧
    (savedGroup g p).trap = g.trap ∧ (savedGroup g p).mstack = g.mstack ∧ (savedGroup g p).lstack = g.lstack ∧
    (savedGroup g p).ev = g.ev ∧ (savedGroup g p).fmt = g.fmt ∧ (savedGroup g p).amask = g.amask)

/-- R25, R157, R160, R161, R289, R290, R292, R294, R298 to R300; logs 5, 13, 14, 17 and 29: A resize of the LLC
completes once no handle lies in its rows, and drops the lines of its stack; a spilling handle becomes spilled and a
restoring one resident, its bytes moved; a frame begins to move and flips; the next draw starts; a primitive is split
into pixel groups region by region, by the front end of each stack on its own; a coloured fragment is blended into its
pixel once no earlier one is in the way and its depth test has passed; the lane's depth fragment carries out the
requests sent to it, in order, each against the depth as it then stands: a failed test drops the lane's fragments that
still wait for one, a passed one frees that target's, and writes the depth where asked. That the bank uses stored
colour and depth as they are, though uncorrectable, and that a draw without a surface makes no pixel groups, are the
model's choices (DESIGN CHOICE, log 29). That a spill, a restore and a frame's flip empty every L1 is the model's
choice (log 5: a moved home makes every copy go). -/
def Obligations.SurfaceSteps : Prop :=
  (∀ (stack : Nat) (s : State), (s.stackAt stack).busy = true →
    (∀ e ∈ takers (clearLlcRows s stack), e.2.base + handleBytes e.2 ≤ llcStart (s.stackAt stack).target) →
    let s1 := clearLlcRows s stack
    exec (.llc_resize_complete stack) s =
      .next ({ s1 with llc := s1.llc.filter fun e => stackOfLine e.1 != stack }.setStack stack { s.stackAt stack with busy := false, llcsz := (s.stackAt stack).target })) ∧
  (∀ (ctx hn : Nat) (h : Sfte) (s : State), s.handle? ctx hn = some h → h.state = .spilling →
    ∃ t, exec (.spill_flip ctx hn) s = .next t ∧ t.handle? ctx hn = some { h with state := .spilled } ∧
      t.mem = (toCompressor s (ctx * 4096 + hn) h).mem ∧ t.l1 = []) ∧
  (∀ (ctx hn : Nat) (h : Sfte) (s : State), s.handle? ctx hn = some h → h.state = .restoring →
    ∃ t, exec (.restore_flip ctx hn) s = .next t ∧ t.handle? ctx hn = some { h with state := .resident } ∧
      t.mem = (toBanks s (ctx * 4096 + hn) h).mem ∧ t.l1 = []) ∧
  (∀ (src dst : Nat) (s : State), isFrame src = true → isFrame dst = true → src % 32 = dst % 32 →
    dst ≠ frameAt s src → (∀ m ∈ s.moves, m.1 ≠ src ∧ m.2 ≠ dst) →
    ∃ t, exec (.frame_migration src dst) s = .next t ∧ t.moves = s.moves ++ [(src, dst)] ∧ t.frames = s.frames) ∧
  (∀ (src dst : Nat) (s : State), s.moves.find? (fun m => m.1 == src) = some (src, dst) →
    ∃ t, exec (.frame_migration_flip src) s = .next t ∧ frameAt t src = dst ∧ (∀ f, f ≠ src → frameAt t f = frameAt s f) ∧
      (∀ m ∈ t.moves, m.1 ≠ src) ∧ t.mem = s.mem ∧ t.l1 = [] ∧ ∀ e ∈ t.llc, e.1 / 512 ≠ frameAt s src) ∧
  (∀ (lid : Nat) (l : Launch) (d : Draw) (s : State), drawNow s = none → nextDraw s = some (lid, l) →
    s.launch? lid = some l → l.draw = some d → ∃ t, exec .draw_start s = .next t ∧ t.dseq = s.dseq + 1 ∧
      t.launch? lid = some { l with draw := some { d with dseq := some s.dseq } } ∧ t.groups = s.groups ∧ t.mem = s.mem) ∧
  (∀ (lid : Nat) (l : Launch) (d : Draw) (s : State), drawNow s = some (lid, l, d) →
    (∀ t, advanceFront s lid l d 0 = some t → exec .primitive_rasterise s = .next t) ∧
    (∀ t, advanceFront s lid l d 0 = none → advanceFront s lid l d 1 = some t → exec .primitive_rasterise s = .next t) ∧
    (advanceFront s lid l d 0 = none → advanceFront s lid l d 1 = none → exec .primitive_rasterise s =
      .next (if inHand s 0 ≠ [] ∧ inHand s 1 ≠ [] then s else nextPrimitive s lid l d))) ∧
  (∀ (lid st : Nat) (l : Launch) (d : Draw) (r : RasterNow) (more : List RasterNow) (reg : Nat × Nat)
      (rest : List (Nat × Nat)) (tr : Tri) (h : Sfte) (s : State), inHand s st = r :: more → r.regions = reg :: rest →
    triOf d.cull r.record = some tr → drawSurface s l.ctx d = some h →
    (createPixel s lid l d r.prim r.record tr h reg = none → advanceFront s lid l d st = none) ∧
    ∀ t, createPixel s lid l d r.prim r.record tr h reg = some t → advanceFront s lid l d st =
      some (setHand t st (if rest.isEmpty then more else { r with regions := rest } :: more))) ∧
  (∀ (k : Nat) (f : Frag) (rgba : List Word) (d : Draw) (h : Sfte) (s : State), s.frags[k]? = some f →
    f.colour = some rgba → f.waits = false → (∀ e ∈ s.frags.take k, sameSample f e = false) →
    (s.launch? f.lid).bind (·.draw) = some d → find s.handles f.handle = some h →
    let s1 := { s with frags := s.frags.eraseIdx k }
    let at_ := homeIn s1 f.handle h (pixelAt h f.x f.y f.sample).1 (pixelAt h f.x f.y f.sample).2
    exec (.fragment_apply k) s = .next (touchKey (store s1 (cellsAt at_ (bytesOfNat (pixelBytes h.fmt)
      (blendPixel (d.blends.getD (f.target.getD 0) 0) h.fmt rgba (readNat s1 at_ (pixelBytes h.fmt)))))) f.handle)) ∧
  (∀ (k : Nat) (f : Frag) (q : DepthReq) (rest : List DepthReq) (d : Draw) (h : Sfte) (s : State), s.frags[k]? = some f →
    f.colour = none → f.tests = q :: rest → (∀ e ∈ s.frags.take k, sameSample f e = false) →
    (s.launch? f.lid).bind (·.draw) = some d → find s.handles f.handle = some h →
    let at_ := homeIn s f.handle h (pixelAt h f.x f.y f.sample).1 (pixelAt h f.x f.y f.sample).2
    let passes := depthPasses d.zfunc h.fmt f.depth (readNat s at_ (pixelBytes h.fmt))
    ∃ t, exec (.fragment_apply k) s = .next t ∧
      (q.test = true → passes = false → t.mem = s.mem ∧
        (∀ e ∈ t.frags, sameLane f e = true → e.target ≠ none ∧ e.colour ≠ none ∧ e.waits = false) ∧
        (∀ e, sameLane f e = false → (e ∈ t.frags ↔ e ∈ s.frags))) ∧
      (q.test = false ∨ passes = true →
        (∀ e, sameLane f e = false → (e ∈ t.frags ↔ e ∈ s.frags)) ∧
        (∀ e ∈ t.frags, sameLane f e = true → e.target = some q.target → e.waits = false) ∧
        (q.write = false → t.mem = s.mem) ∧
        (q.write = true → t = store { touchKey s f.handle with frags := t.frags }
          (cellsAt at_ (bytesOfNat (pixelBytes h.fmt) f.depth))))) ∧
  (∀ (k : Nat) (f : Frag) (s : State), s.frags[k]? = some f →
    (∃ e ∈ s.frags.take k, sameSample f e = true) ∨ f.waits = true ∧ f.colour ≠ none ∨ f.colour = none ∧ f.tests = [] →
    exec (.fragment_apply k) s = .next s)

/-- R271, R279, R306, R308, R311 to R313, R317 to R319, R389; logs 16, 27 and 29: A near-bank command with none before
it does its work and writes its final status, an ivsld channel by channel (their order: log 27), and waits behind an
earlier one; a copy moves its rows, waits for a slot or ends with its code; a ring reads NOTIFY, completes an entry
and writes DONE, ends with the code of an entry that fails, or ends detached; a combine tile leaves the package;
contributions add up until all have come, or 10 ms have passed. What the work is says EngineWork. That an entry with
uncorrectable source bytes counts as completed, no status carrying 0x82, is the model's choice (DESIGN CHOICE, log
29). -/
def Obligations.EngineSteps : Prop :=
  (∀ (oid : Nat) (o o' : EngineOp) (r : BankOut) (s t : State), s.op? oid = some o → bankBehind s oid o = false →
    (bankDo o s = some (.ends r) →
      exec (.nearbank_complete oid) s = .next (finishOp r.s oid (finalStatus r.code r.count r.fl))) ∧
    (bankDo o s = some (.goes t o') → exec (.nearbank_complete oid) s = .next (t.setOp oid o'))) ∧
  (∀ (oid : Nat) (o : EngineOp) (s : State), s.op? oid = some o → bankBehind s oid o = true →
    exec (.nearbank_complete oid) s = .next s) ∧
  (∀ (oid : Nat) (o : EngineOp) (bs : List Byte) (n : Nat) (b : Bool) (s t : State), s.op? oid = some o →
    o.kind = .copy bs → noSlice o bs = false →
    (∀ c, copyRows o bs (cdNy bs * cdNz bs - o.rows) o.rows o.poisoned s = (t, n, b, .code c) →
      exec (.copy_complete oid) s = .next (finishOp t oid (finalStatus c n 0))) ∧
    (copyRows o bs (cdNy bs * cdNz bs - o.rows) o.rows o.poisoned s = (t, n, b, .waits) →
      exec (.copy_complete oid) s = .next (t.setOp oid { o with rows := n, poisoned := b }))) ∧
  (∀ (oid : Nat) (o : EngineOp) (r : RingInfo) (s : State), s.op? oid = some o → o.kind = .ring r →
    (r.detaching = true → r.done = r.notify →
      exec (.copy_complete oid) s = .next (endRing s oid o (finalStatus 0 (ringCount r) 0))) ∧
    (r.detaching = false → let n := readNat s ((sliceOf s o).1 + r.header) 4
      exec (.ring_notify_read oid) s = .next (if 2 ^ r.log2n < ringLag r n
        then endRing s oid o (finalStatus 0x80 (ringCount r) 0)
        else s.setOp oid { o with kind := .ring { r with notify := n } }))) ∧
  (∀ (oid : Nat) (o : EngineOp) (r : RingInfo) (s t : State), s.op? oid = some o → o.kind = .ring r →
    let e := readBytes s ((sliceOf s o).1 + r.base + 32 * (r.done % 2 ^ r.log2n)) 32
    0 < ringLag r r.notify → r.done < 2 ^ 32 → r.finished = [] → ∀ b,
    (ringCopy o e s = (t, b, none) → exec (.ring_entry_complete oid r.done) s = .next (storeNat
      (t.setOp oid { o with kind := .ring { r with done := (r.done + 1) % 2 ^ 32, finished := [] } })
      ((sliceOf s o).1 + r.header + 4) 4 ((r.done + 1) % 2 ^ 32))) ∧
    ∀ c, ringCopy o e s = (t, b, some c) → exec (.ring_entry_complete oid r.done) s = .next (endRing
      (storeNat t ((sliceOf s o).1 + r.header + 8) 4 r.done) oid o (finalStatus c (ringCount r) 0))) ∧
  (∀ (oid : Nat) (o : EngineOp) (bs : List Byte) (tile : List (Byte × Bool)) (s t : State), s.op? oid = some o →
    o.kind = .cpred bs → tileRead o (cpLenu bs) (cpSrc bs) false s = (t, tile, none) → unreachable t (cpNode bs) = false →
    (∀ e ∈ tile, e.2 = false) → ∃ p : CombinePart,
      exec (.cpred_send_complete oid) s = .next (finishOp { t with parts := t.parts ++ [(cpNode bs, p)] } oid
        (finalStatus 0 o.engine 0)) ∧ p.count = 1 ∧ p.nsrc = cpNsrc bs ∧ p.gid = cpGid bs ∧ p.dst = cpDst bs ∧
      p.bad = [] ∧ p.vals = tileVals (cpType bs == 1) (tile.map (·.1))) ∧
  (∀ (p : CombinePart) (s : State), let s1 := { s with parts := s.parts.erase (s.pkgid, p) }
    s.combines.findIdx? (fun c => sameCombine c.part p) = none →
    exec (.combine_arrival p) s = .next (if p.nsrc ≤ p.count then combineWrite s1 p p.nsrc
      else { s1 with combines := s.combines ++ [⟨p, s.primaryTime⟩] })) ∧
  (∀ (p : CombinePart) (k : Nat) (c : Combine) (s : State), let s1 := { s with parts := s.parts.erase (s.pkgid, p) }
    s.combines.findIdx? (fun c => sameCombine c.part p) = some k → s.combines[k]? = some c →
    let q := { c.part with count := c.part.count + p.count,
                           vals := (c.part.vals.zip p.vals).map fun v => combineVal p.op v.1 v.2,
                           bad := distinct (c.part.bad ++ p.bad) }
    exec (.combine_arrival p) s = .next (if q.nsrc ≤ q.count
      then combineWrite { s1 with combines := s.combines.eraseIdx k } q q.nsrc
      else { s1 with combines := s.combines.set k { c with part := q } })) ∧
  (∀ (k : Nat) (c : Combine) (s : State), s.combines[k]? = some c → 10000000 ≤ since s.primaryTime c.since →
    exec (.combine_timeout k) s =
      .next (combineWrite { s with combines := s.combines.eraseIdx k } c.part (c.part.count + 2 ^ 31)))

/-- R274, R276 to R278, R306 to R308, R313, R317 to R319; logs 16 and 29: ivsld reads its units one after another,
ends with a fault's code or 0x18 in a secure region of the other world, and writes them, uncorrectable as read, into
the channel's IVS. bmac gives each row the accumulation, group of 32 by group, of its slice times IVS onto the old
value or 0, writes it at OUT in its order of rows (each before the next is read: DESIGN CHOICE, log 29), ends with
0x18 at a row of a secure region, with 0x84 at a slice outside the handle, and else with the rows done. embw reads an
index, its weight and the table's row, skips an index beyond the table, adds weight times element by a fused product
(or takes the maximum), and ends with sum, mean or maximum, 0x7FE0_0000 where an element was uncorrectable, each
written at its place from OUT on; minimum and maximum give the canonical NaN for a NaN. A copy moves each row element
by element from and to R308's addresses, its stores reading back, a fill its value, into slots where CB asks for them,
and ends with 0, 0x82, the code of a fault, or waits for a slot; a ring entry moves its bytes, 0x80 where a reserved
field is set. A tile is read 64 bytes after another, its elements f32 or widened bf16; contributions combine by sum,
minimum or maximum; the result is written, bf16 rounded to nearest even, before DONEW. -/
def Obligations.EngineWork : Prop :=
  (∀ (o : EngineOp) (k : Nat) (va : DWord) (seen : Bool) (s : State),
    bankRead o 0 va seen s = (s, [], none) ∧
    (∀ c, bankHit s o .load va 64 = .error c → bankRead o (k + 1) va seen s = (s, [], some c)) ∧
    ∀ h, bankHit s o .load va 64 = .ok h →
      let bs := (hitLocs s h 64).map fun l => (readByte s l, isBad s l)
      let r := bankRead o k (va + 64) (seen || bs.any (·.2)) (meet (opRead o s h 64) o seen (firstBad s (hitLocs s h 64)))
      bankRead o (k + 1) va seen s = (r.1, bs ++ r.2.1, r.2.2)) ∧
  (∀ (o : EngineOp) (r : List Byte) (s s1 : State) (ch : Nat) (chs : List Nat) (bs : List (Byte × Bool)),
    channelsLeft o = ch :: chs →
    (otherWorld s o ch = true → ivStep o r s = .ends ⟨s, 0x18, o.rows, 0⟩) ∧
    (otherWorld s o ch = false → bankRead o (ivUnits r) (ivSrc r) o.poisoned s = (s1, bs, none) →
      let bad := o.poisoned || bs.any (·.2)
      let t := ivsWrite s1 ch (64 * ivOff r) bs
      ivStep o r s = if chs.isEmpty then .ends ⟨t, if bad then 0x82 else 0, o.rows + 1, 0⟩
        else .goes t { o with rows := o.rows + 1, poisoned := bad })) ∧
  (∀ (s : State) (ch off : Nat) (bs : List (Byte × Bool)),
    (∀ k < bs.length, readByte (ivsWrite s ch off bs) (ivsLoc ch (off + k)) = (bs.getD k (0, false)).1 ∧
      isBad (ivsWrite s ch off bs) (ivsLoc ch (off + k)) = (bs.getD k (0, false)).2) ∧
    (∀ l, (∀ k < bs.length, l ≠ ivsLoc ch (off + k)) → readByte (ivsWrite s ch off bs) l = readByte s l)) ∧
  (∀ (s : State) (r : List Byte) (acc i : Nat),
    let la := fun t => surfPa (bmStk r) ((bmRow0 r + i / 32 * bmKs r + t) * 2 ^ 18 + bmCh r * 2048 + i % 32 * 64)
    let lx := fun t => ivsLoc (channelOf (bmStk r) (bmCh r)) (64 * bmIvOff r + 64 * t)
    (bmRow s r acc i).1.w = (List.range (bmKs r)).foldl (fun w t => (accumulate w (sumProds ((List.range 32).map fun k =>
      (unpack bf16 (readNat s (la t + 2 * k) 2), unpack bf16 (readNat s (lx t + 2 * k) 2))))).w) acc) ∧
  (∀ (o : EngineOp) (r : List Byte) (n i : Nat) (bad : Bool) (fl : BitVec 5) (s s1 : State) (acc : Nat) (h : Hit),
    let size := if bmObf r then 2 else 4
    let out := bmOut r + BitVec.ofNat 64 (size * i)
    (bmAcc r = false → bmOld o r out s = .ok (s, 0, none)) ∧
    (rowSecret s o r i = true → bmRun o r (n + 1) i bad fl s = ⟨s, 0x18, i, fl⟩) ∧
    (rowSecret s o r i = false → bmOld o r out s = .ok (s1, acc, none) → bankHit s o .store out size = .ok h →
      (bmRow s1 r acc i).2 = none →
      let v := outWord (bmObf r) (bmRow s1 r acc i).1
      bmRun o r (n + 1) i bad fl s = bmRun o r n (i + 1) bad (fl ||| v.fl)
        (engineStore o (markHit s1 h) h (bytesOfNat size v.w)))) ∧
  (∀ (o : EngineOp) (r : List Byte) (va : DWord) (i : Nat) (bad : Bool) (fl : BitVec 5) (s : State) (h : Hit) (x : Sfte),
    (bmAcc r = true → bankHit s o .load va 4 = .ok h →
      bmOld o r va s = .ok (opRead o s h 4, hitNat s h 4, firstBad s (hitLocs s h 4))) ∧
    bmRun o r 0 i bad fl s = ⟨s, if bad then 0x82 else 0, i, fl⟩ ∧
    (o.kind = .ivsld r → bankDo o s = some (ivStep o r s)) ∧
    (o.kind = .bmac r → otherWorld s o (channelOf (bmStk r) (bmCh r)) = false → s.handle? o.ctx (bmHandle r) = some x →
      bankDo o s = some (.ends (if slicesBad s x r then ⟨s, 0x84, 0, 0⟩
        else bmRun o r (bmM r) 0 false 0 (touchHandle s o.ctx (bmHandle r)))))) ∧
  (∀ (o : EngineOp) (r : List Byte) (k : EmWalk) (fl : BitVec 5) (s s1 s2 : State), o.kind = .embw r → emTv r = false →
    otherWorld s o (channelOf (emStk r) (emCh r)) = false →
    emWalk o r (emNidx r) 0 ⟨0, false, List.replicate (emElems r) ⟨0, 0, false⟩⟩ s = .ok (k, s1) →
    emOutput o r 0 (k.accs.map (emFinal r k.used)) 0 s1 = (s2, fl, none) →
    bankDo o s = some (.ends ⟨s2, if k.accs.any (·.bad) then 0x82 else if k.skipped then 0x81 else 0, k.used, fl⟩)) ∧
  (∀ (o : EngineOp) (r : List Byte) (i e : Nat) (k : EmWalk) (v : Res) (vs : List Res) (fl : BitVec 5) (s : State) (h : Hit),
    let size := if emObf r then 2 else 4
    emWalk o r 0 i k s = .ok (k, s) ∧ emOutput o r e [] fl s = (s, fl, none) ∧
    (bankHit s o .store (emOut r + BitVec.ofNat 64 (size * e)) size = .ok h →
      emOutput o r e (v :: vs) fl s =
        emOutput o r (e + 1) vs (fl ||| v.fl) (engineStore o (markHit s h) h (bytesOfNat size v.w)))) ∧
  (∀ (o : EngineOp) (r : List Byte) (n i : Nat) (k : EmWalk) (s s1 s2 s3 : State) (ix w : Nat) (bs : List (Byte × Bool)),
    emWord s o (emIdx r + BitVec.ofNat 64 (4 * i)) (k.accs.any (·.bad)) = .ok (s1, ix, false) →
    (emNrows r ≤ ix → emWalk o r (n + 1) i k s = emWalk o r n (i + 1) { k with skipped := true } s1) ∧
    (ix < emNrows r → emWeight s1 o r i (k.accs.any (·.bad)) = .ok (s2, w, false) →
      rowRead o r (emRowU r) (emTbl r + BitVec.ofNat 64 (64 * emRowU r * ix)) (k.accs.any (·.bad)) s2 = (s3, bs, none) →
      emWalk o r (n + 1) i k s = emWalk o r n (i + 1) { k with
        used := k.used + 1,
        accs := k.accs.zipIdx.map fun a => emStep r (k.used == 0) w (emElem r bs a.2).1 (emElem r bs a.2).2 a.1 } s3)) ∧
  (∀ (r : List Byte) (first : Bool) (w x : Nat) (bad : Bool) (a : EmAcc),
    (emPool r ≠ 2 → (emStep r first w x bad a).v = (ffma env32 false x w a.v).w) ∧
    (emPool r = 2 → (emStep r first w x bad a).v = if first then (fmul env32 x w).w else maxCanon a.v (fmul env32 x w).w) ∧
    (emStep r first w x bad a).bad = (a.bad || bad)) ∧
  (∀ (r : List Byte) (used : Nat) (a : EmAcc), emObf r = false →
    (a.bad = true → (emFinal r used a).w = 0x7FE00000) ∧
    (a.bad = false → emPool r ≠ 1 ∨ used = 0 → (emFinal r used a).w = a.v) ∧
    (a.bad = false → emPool r = 1 → 0 < used →
      (emFinal r used a).w = (fdiv env32 a.v (roundDyad f32 .rne false (Dyad.ofInt used)).w).w)) ∧
  (∀ a b : Nat, ((unpack f32 a).isNan = true ∨ (unpack f32 b).isNan = true → maxCanon a b = f32.nanBits ∧
      minCanon a b = f32.nanBits) ∧
    ((unpack f32 a).isNan = false → (unpack f32 b).isNan = false →
      orderOf (unpack f32 (maxCanon a b)) = max (orderOf (unpack f32 a)) (orderOf (unpack f32 b)) ∧
      orderOf (unpack f32 (minCanon a b)) = min (orderOf (unpack f32 a)) (orderOf (unpack f32 b)))) ∧
  (∀ (o : EngineOp) (size : Nat) (seen : Bool) (src dst : DWord) (s s1 : State) (bs : List Byte) (v : Nat) (h : Hit),
    (∀ hr, opHit s o .load src size = .ok hr → readElem o size (.ok src) s = .ok (opRead o s hr size,
      (hitLocs s hr size).map (readByte s), firstBad s (hitLocs s hr size))) ∧
    readElem o size (.error v) s = .ok (s, bytesOfNat size v, none) ∧
    (∀ x, readElem o size x s = .ok (s1, bs, none) → opHit s1 o .store dst size = .ok h →
      moveElem o size seen x (.error dst) s = .ok (engineStore o (markHit s1 h) h bs, false))) ∧
  (∀ (o : EngineOp) (s : State) (h : Hit) (bs : List Byte), s.late = false → h.cb = none →
    ((List.range bs.length).map fun i => homeOf s (h.place + i)).Nodup →
    (∀ i < bs.length, ∀ j < bs.length, mirrorOf s (homeOf s (h.place + i)) ≠ some (homeOf s (h.place + j)) ∧
      Unencoded s (homeOf s (h.place + i)) (homeOf s (h.place + j))) →
    ∀ i < bs.length, readByte (engineStore o s h bs) (homeOf s (h.place + i)) = bs.getD i 0) ∧
  (∀ (o : EngineOp) (size n x : Nat) (src : Nat → Except Nat DWord) (dst : Nat → Except DWord Nat) (bad b : Bool) (s s1 : State),
    moveRow o size src dst 0 x bad s = (s, bad, none) ∧
    (∀ c, moveElem o size bad (src x) (dst x) s = .error (c, s1) →
      moveRow o size src dst (n + 1) x bad s = (s1, bad, some c)) ∧
    (moveElem o size bad (src x) (dst x) s = .ok (s1, b) →
      moveRow o size src dst (n + 1) x bad s = moveRow o size src dst n (x + 1) (bad || b) s1)) ∧
  (∀ (r : List Byte) (row x : Nat), (cdFill r = true → rowSrc r row x = .error (cdFillv r % 256 ^ cdSize r)) ∧
    (cdFill r = false → rowSrc r row x = .ok (cdSrc r + BitVec.ofNat 64 (row / cdNy r) * cdSsz r +
      BitVec.ofNat 64 (row % cdNy r) * cdSsy r + BitVec.ofNat 64 (x * cdSize r))) ∧
    rowDst r row x = cdDst r + BitVec.ofNat 64 (row / cdNy r) * cdDsz r + BitVec.ofNat 64 (row % cdNy r) * cdDsy r +
      BitVec.ofNat 64 (x * cdSize r)) ∧
  (∀ (o : EngineOp) (r : List Byte) (n row : Nat) (bad b : Bool) (s s1 : State), cdCb r = false →
    copyRows o r 0 row bad s = (s, row, bad, .code (if bad then 0x82 else 0)) ∧
    (moveRow o (cdSize r) (rowSrc r row) (fun x => .error (rowDst r row x)) (cdNx r) 0 bad s = (s1, b, none) →
      copyRows o r (n + 1) row bad s = copyRows o r n (row + 1) b s1) ∧
    (∀ c, moveRow o (cdSize r) (rowSrc r row) (fun x => .error (rowDst r row x)) (cdNx r) 0 bad s = (s1, b, some c) →
      copyRows o r (n + 1) row bad s = (s1, row, b, .code c))) ∧
  (∀ (o : EngineOp) (r : List Byte) (n row loc : Nat) (bad b : Bool) (s s1 s2 s3 : State) (h : HeldSlot), cdCb r = true →
    (copySlot s o r = .ok none → copyRows o r (n + 1) row bad s = (s, row, bad, .waits)) ∧
    (∀ c, copySlot s o r = .error c → copyRows o r (n + 1) row bad s = (s, row, bad, .code c)) ∧
    (copySlot s o r = .ok (some (s1, loc, h)) → sourceRow o (cdSize r) (rowSrc r row) (cdNx r) 0 bad s = (s2, none) →
      moveRow o (cdSize r) (rowSrc r row) (fun x => .ok (loc + x * cdSize r)) (cdNx r) 0 bad s1 = (s3, b, none) →
      copyRows o r (n + 1) row bad s = copyRows o r n (row + 1) b (cbRelease s3 o.core h))) ∧
  (∀ (o : EngineOp) (e : List Byte) (s : State),
    (recField e 162 94 ≠ 0 → ringCopy o e s = (s, false, some 0x80)) ∧
    (recField e 162 94 = 0 → ringCopy o e s = moveRow o 1
      (fun x => if recField e 161 1 = 1 then .error (recField e 0 8) else .ok (recAddr e 0 + BitVec.ofNat 64 x))
      (fun x => .error (recAddr e 64 + BitVec.ofNat 64 x)) (recField e 128 32) 0 false s)) ∧
  (∀ (o : EngineOp) (k : Nat) (va : DWord) (seen : Bool) (s : State) (h : Hit), isGlobal va = true →
    opHit s o .load va 64 = .ok h →
    let bs := (hitLocs s h 64).map fun l => (readByte s l, isBad s l)
    let r := tileRead o k (va + 64) (seen || bs.any (·.2)) (meet (opRead o s h 64) o seen (firstBad s (hitLocs s h 64)))
    tileRead o (k + 1) va seen s = (r.1, bs ++ r.2.1, r.2.2)) ∧
  (∀ (bs : List Byte) (i : Nat),
    (4 * i + 4 ≤ bs.length → (tileVals false bs).getD i 0 = BitVec.ofNat 32 (natOfBytes ((bs.drop (4 * i)).take 4))) ∧
    (2 * i + 2 ≤ bs.length →
      (tileVals true bs).getD i 0 = BitVec.ofNat 32 (natOfBytes ((bs.drop (2 * i)).take 2) * 65536))) ∧
  (∀ a b : Word, (combineVal 0 a b).toNat = (fadd env32 a.toNat b.toNat).w ∧
    (combineVal 1 a b).toNat = minCanon a.toNat b.toNat ∧ (combineVal 2 a b).toNat = maxCanon a.toNat b.toNat) ∧
  (∀ (o : EngineOp) (bf : Bool) (va : DWord) (v : Word × Bool) (vs : List (Word × Bool)) (s : State) (h : Hit),
    let size := if bf then 2 else 4
    let w := if bf then (cvtFF f32 bf16 .rne v.1.toNat).w else v.1.toNat
    writeVals o bf va [] s = s ∧
    (opHit s o .store va size = .ok h → writeVals o bf va (v :: vs) s = writeVals o bf (va + BitVec.ofNat 64 size) vs
      (let t := storeUnder (markHit s h) (opPolicy o h) (hitCells (markHit s h) h (bytesOfNat size w))
       if v.2 then poison t ((hitCells (markHit s h) h (bytesOfNat size w)).map (·.1))
       else store (markHit s h) (hitCells (markHit s h) h (bytesOfNat size w))))) ∧
  (∀ (s : State) (p : CombinePart) (done : Nat) (o : EngineOp) (h : Hit), combineOp s p.podid = some o →
    let s1 := writeVals o p.bf16 p.dst (p.vals.zipIdx.map fun v => (v.1, p.bad.contains v.2)) s
    opHit s1 o .store p.donew 4 = .ok h → combineWrite s p done = storeHit (markHit s1 h) h 4 done)

/-! ## Invariants -/

/-- log 1: From every state whose memory is in canonical form (addresses strictly rising, no entry equal to what an
unlisted byte reads as, the model's choice of log 1), every next state of a step has its memory in canonical form. -/
def Obligations.MemCanonicalKept : Prop :=
  ∀ s t : State, MemCanonical s → step s = .next t → MemCanonical t

/-- R9, R24, R84, R94, R222, R243, R332; log 1: At reset no group, launch or handle exists, PRETMO is 1000, TLBINV is
done, SMCFG reads 2, TALLOW 255, VFSTAT 700 MHz and no step, and breakpoints, BPCTL and ASTAT are 0. The memory lists
nothing, so that every byte reads 0, and is canonical: the spec gives no contents, and this is the model's choice
(DESIGN CHOICE, log 1). A new group starts at its entry, Ready, with all lanes active and live, and every register,
mask, stack and trap and debug register zero or empty but TVEC. -/
def Obligations.ResetState : Prop :=
  MemCanonical State.reset ∧ State.reset.mem = [] ∧ State.reset.groups = [] ∧ State.reset.launches = [] ∧
  State.reset.handles = [] ∧ State.reset.ctl.pretmo = 1000 ∧ State.reset.ctl.tlbinvDone = true ∧
  State.reset.ctl.tlbinvErr = false ∧ State.reset.ctl.tlbinvCount = 0 ∧
  (∀ k, smcfg (State.reset.stackAt k) = 2) ∧
  (∀ d, (State.reset.dieAt d).tallow = 255 ∧ vfstat State.reset d = 0x02BC0000 ∧ (State.reset.dieAt d).pit.frozen = false) ∧
  (∀ c, (State.reset.coreAt c).bpa0 = 0 ∧ (State.reset.coreAt c).bpa1 = 0 ∧ (State.reset.coreAt c).bpa2 = 0 ∧
    (State.reset.coreAt c).bpa3 = 0 ∧ bpctl (State.reset.coreAt c) = 0 ∧ astat State.reset c = 0) ∧
  (∀ (l : Launch) (lid bid core slot gen : Nat) (wid entry : DWord) (k : Nat),
    let g := newGroup l lid bid core slot gen wid entry k
    g.pc = entry ∧ g.status = .ready ∧ g.amask = 0xFFFFFFFF ∧ g.lmask = 0xFFFFFFFF ∧ g.away = 0 ∧ g.wb = 0 ∧ g.fmt = 0 ∧
    g.mstack = [] ∧ g.lstack = [] ∧ g.fst = 0 ∧ g.trap.tvec = l.hdr.tvec ∧
    (∀ n ∈ [0x02, 0x03, 0x04, 0x05, 0x06, 0x07, 0x08, 0x0A, 0x0B, 0x0C, 0x0E], readTrap g n = 0) ∧
    (∀ n ∈ [0x59, 0x5A, 0x5B, 0x5C], readDebug State.reset g n = 0) ∧
    (∀ c j, g.vcode c j = 0) ∧ (∀ n, g.scalar n = 0) ∧ (∀ n, g.maskAt n = 0))

/-- R18: A core of a lower die has its partner directly above it: n + 144 for dies 0 and 2, n - 144 for dies 1 and 3;
partners are on different dies of one stack, are each other's partner, and hold the same cluster and core-in-cluster
positions. -/
def Obligations.PartnerRule : Prop :=
  ∀ n : Nat, n < 576 →
    (dieOfCore n = 0 ∨ dieOfCore n = 2 → partnerOf n = n + 144) ∧
    (dieOfCore n = 1 ∨ dieOfCore n = 3 → partnerOf n + 144 = n) ∧
    partnerOf n < 576 ∧ partnerOf (partnerOf n) = n ∧ dieOfCore (partnerOf n) ≠ dieOfCore n ∧
    stackOfDie (dieOfCore (partnerOf n)) = stackOfDie (dieOfCore n) ∧
    clusterOfCore (partnerOf n) % 36 = clusterOfCore n % 36 ∧ partnerOf n % 4 = n % 4
end

