-- ==== Sys2Proof/Laws/Assoc.lean ====
section
/-! SUPPORT. Sparse stores: reading after a write, and that writes keep the canonical form. -/

namespace Sys2Proof.Machine.Assoc

variable {α : Type}

/-! ### Keys above a bound -/

@[simp] theorem above_nil (k : Nat) : above k ([] : Map α) = true := rfl

@[simp] theorem above_cons (k : Nat) (e : Nat × α) (m : Map α) :
    above k (e :: m) = (decide (k < e.1) && above k m) := rfl

theorem above_iff (k : Nat) (m : Map α) : above k m = true ↔ ∀ e ∈ m, k < e.1 := by simp [above]

theorem above_of_lt {j k : Nat} {m : Map α} (h : above k m = true) (hj : j < k) : above j m = true := by
  rw [above_iff] at *
  exact fun e he => hj.trans (h e he)

theorem above_erase (j k : Nat) (m : Map α) (h : above j m = true) : above j (erase m k) = true := by
  induction m with
  | nil => exact h
  | cons e m ih =>
    obtain ⟨h1, h2⟩ : j < e.1 ∧ above j m = true := by simpa using h
    by_cases hk : e.1 = k <;> simp [erase, hk, ih h2]
    omega

theorem above_insert (j k : Nat) (v : α) (m : Map α) (h : above j m = true) (hj : j < k) :
    above j (insert m k v) = true := by
  induction m with
  | nil => simpa [insert] using hj
  | cons e m ih =>
    obtain ⟨h1, h2⟩ : j < e.1 ∧ above j m = true := by simpa using h
    by_cases hk : k < e.1 <;> simp [insert, hk, hj, h1, h2, ih h2]

/-! ### Sorted stores -/

@[simp] theorem sorted_nil : sorted ([] : Map α) = true := rfl

@[simp] theorem sorted_cons (e : Nat × α) (m : Map α) : sorted (e :: m) = (above e.1 m && sorted m) := rfl

theorem sorted_erase (k : Nat) (m : Map α) (h : sorted m = true) : sorted (erase m k) = true := by
  induction m with
  | nil => exact h
  | cons e m ih =>
    obtain ⟨h1, h2⟩ : above e.1 m = true ∧ sorted m = true := by simpa using h
    by_cases hk : e.1 = k
    · simpa [erase, hk] using ih h2
    · simp [erase, hk, ih h2, above_erase _ _ _ h1]

theorem not_mem_erase (k : Nat) (m : Map α) : ∀ e ∈ erase m k, e.1 ≠ k := by
  induction m with
  | nil => simp [erase]
  | cons e m ih =>
    by_cases hk : e.1 = k
    · simpa [erase, hk] using ih
    · simpa [erase, hk] using ih

theorem sorted_insert (k : Nat) (v : α) (m : Map α) (h : sorted m = true) (hk : ∀ e ∈ m, e.1 ≠ k) :
    sorted (insert m k v) = true := by
  induction m with
  | nil => simp [insert]
  | cons e m ih =>
    obtain ⟨h1, h2⟩ : above e.1 m = true ∧ sorted m = true := by simpa using h
    have hne : e.1 ≠ k := hk e (by simp)
    have hm : ∀ e ∈ m, e.1 ≠ k := fun x hx => hk x (by simp [hx])
    by_cases hlt : k < e.1
    · simp [insert, hlt, h1, h2, above_of_lt h1 hlt]
    · have hgt : e.1 < k := by omega
      simp [insert, hlt, ih h2 hm, above_insert _ _ v _ h1 hgt]

/-- A write of an option store keeps its keys increasing. -/
theorem sorted_set (m : Map α) (k : Nat) (v : α) (h : sorted m = true) : sorted (set m k v) = true :=
  sorted_insert k v _ (sorted_erase k m h) (not_mem_erase k m)

theorem sorted_put [DecidableEq α] (d : α) (m : Map α) (k : Nat) (v : α) (h : sorted m = true) :
    sorted (put d m k v) = true := by
  by_cases hv : v = d
  · simpa [put, hv] using sorted_erase k m h
  · simpa [put, hv, set] using sorted_set m k v h

theorem sorted_filter (m : Map α) (p : Nat × α → Bool) (h : sorted m = true) : sorted (m.filter p) = true := by
  induction m with
  | nil => exact h
  | cons e m ih =>
    obtain ⟨h1, h2⟩ : above e.1 m = true ∧ sorted m = true := by simpa using h
    by_cases hp : p e = true
    · have ha : above e.1 (m.filter p) = true := by
        rw [above_iff] at *
        exact fun x hx => h1 x (List.mem_of_mem_filter hx)
      simp [List.filter_cons_of_pos hp, ih h2, ha]
    · simpa [List.filter_cons_of_neg hp] using ih h2

/-! ### The canonical form -/

theorem all_erase (p : Nat × α → Bool) (m : Map α) (k : Nat) (h : m.all p = true) : (erase m k).all p = true := by
  induction m with
  | nil => exact h
  | cons e m ih =>
    obtain ⟨h1, h2⟩ : p e = true ∧ m.all p = true := by simpa using h
    by_cases hk : e.1 = k
    · simpa [erase, hk] using ih h2
    · have := ih h2
      simp [erase, hk, h1] at *
      exact this

theorem all_insert (p : Nat × α → Bool) (m : Map α) (k : Nat) (v : α) (h : m.all p = true) (hv : p (k, v) = true) :
    (insert m k v).all p = true := by
  induction m with
  | nil => simpa [insert] using hv
  | cons e m ih =>
    obtain ⟨h1, h2⟩ : p e = true ∧ m.all p = true := by simpa using h
    by_cases hk : k < e.1
    · simp [insert, hk, hv, h1] at *
      exact h2
    · have := ih h2
      simp [insert, hk, h1] at *
      exact this

section
variable [DecidableEq α]

theorem canon_iff (d : α) (m : Map α) :
    canon d m = true ↔ sorted m = true ∧ (m.all fun e => decide (e.2 ≠ d)) = true := by
  simp [canon]

/-- A write of a defaulted store keeps the canonical form. -/
theorem canon_put (d : α) (m : Map α) (k : Nat) (v : α) (h : canon d m = true) : canon d (put d m k v) = true := by
  rw [canon_iff] at *
  refine ⟨sorted_put d m k v h.1, ?_⟩
  by_cases hv : v = d
  · simpa [put, hv] using all_erase _ m k h.2
  · rw [put, if_neg hv]
    exact all_insert _ _ _ _ (all_erase _ m k h.2) (by simpa using hv)

theorem canon_puts (d : α) (es : List (Nat × α)) : ∀ m : Map α, canon d m = true → canon d (puts d m es) = true := by
  induction es with
  | nil => exact fun m h => h
  | cons e es ih => exact fun m h => ih _ (canon_put d m e.1 e.2 h)

theorem canon_filter (d : α) (m : Map α) (p : Nat × α → Bool) (h : canon d m = true) :
    canon d (m.filter p) = true := by
  rw [canon_iff] at *
  refine ⟨sorted_filter m p h.1, ?_⟩
  rw [List.all_eq_true] at *
  exact fun e he => h.2 e (List.mem_of_mem_filter he)

end

/-! ### Reading after a write -/

theorem get_erase_same (d : α) (m : Map α) (k : Nat) : get d (erase m k) k = d := by
  induction m with
  | nil => rfl
  | cons e m ih => by_cases hk : e.1 = k <;> simp [erase, hk, get, ih]

theorem get_erase_other (d : α) (m : Map α) {k k' : Nat} (h : k' ≠ k) : get d (erase m k) k' = get d m k' := by
  induction m with
  | nil => rfl
  | cons e m ih =>
    by_cases hk : e.1 = k
    · have : e.1 ≠ k' := by omega
      simp [erase, hk, get, ih]
      omega
    · simp [erase, hk, get, ih]

theorem get_insert_same (d : α) (m : Map α) (k : Nat) (v : α) (h : ∀ e ∈ m, e.1 ≠ k) :
    get d (insert m k v) k = v := by
  induction m with
  | nil => simp [insert, get]
  | cons e m ih =>
    have hne : e.1 ≠ k := h e (by simp)
    have hm : ∀ e ∈ m, e.1 ≠ k := fun x hx => h x (by simp [hx])
    by_cases hk : k < e.1 <;> simp [insert, hk, get, hne, ih hm]

theorem get_insert_other (d : α) (m : Map α) {k k' : Nat} (v : α) (h : k' ≠ k) :
    get d (insert m k v) k' = get d m k' := by
  induction m with
  | nil => simp [insert, get]; omega
  | cons e m ih =>
    by_cases hk : k < e.1 <;> simp [insert, hk, get, ih]
    omega

@[simp] theorem get_put_same [DecidableEq α] (d : α) (m : Map α) (k : Nat) (v : α) : get d (put d m k v) k = v := by
  by_cases hv : v = d
  · simp [put, hv, get_erase_same]
  · simpa [put, hv] using get_insert_same d _ k v (not_mem_erase k m)

theorem get_put_other [DecidableEq α] (d : α) (m : Map α) {k k' : Nat} (v : α) (h : k' ≠ k) :
    get d (put d m k v) k' = get d m k' := by
  by_cases hv : v = d
  · simp [put, hv, get_erase_other d m h]
  · simp [put, hv, get_insert_other d _ v h, get_erase_other d m h]

theorem find_erase_same (m : Map α) (k : Nat) : find (erase m k) k = none := by
  induction m with
  | nil => rfl
  | cons e m ih => by_cases hk : e.1 = k <;> simp [erase, hk, find, ih]

theorem find_erase_other (m : Map α) {k k' : Nat} (h : k' ≠ k) : find (erase m k) k' = find m k' := by
  induction m with
  | nil => rfl
  | cons e m ih =>
    by_cases hk : e.1 = k
    · simp [erase, hk, find, ih]
      omega
    · simp [erase, hk, find, ih]

theorem find_insert_same (m : Map α) (k : Nat) (v : α) (h : ∀ e ∈ m, e.1 ≠ k) : find (insert m k v) k = some v := by
  induction m with
  | nil => simp [insert, find]
  | cons e m ih =>
    have hne : e.1 ≠ k := h e (by simp)
    have hm : ∀ e ∈ m, e.1 ≠ k := fun x hx => h x (by simp [hx])
    by_cases hk : k < e.1 <;> simp [insert, hk, find, hne, ih hm]

theorem find_insert_other (m : Map α) {k k' : Nat} (v : α) (h : k' ≠ k) : find (insert m k v) k' = find m k' := by
  induction m with
  | nil => simp [insert, find]; omega
  | cons e m ih =>
    by_cases hk : k < e.1 <;> simp [insert, hk, find, ih]
    omega

@[simp] theorem find_set_same (m : Map α) (k : Nat) (v : α) : find (set m k v) k = some v :=
  find_insert_same _ k v (not_mem_erase k m)

theorem find_set_other (m : Map α) {k k' : Nat} (v : α) (h : k' ≠ k) : find (set m k v) k' = find m k' := by
  simp [set, find_insert_other _ v h, find_erase_other m h]

theorem find_upd (m : Map α) (k : Nat) (f : α → α) (k' : Nat) :
    find (upd m k f) k' = if k' = k then (find m k').map f else find m k' := by
  induction m with
  | nil => simp [upd, find]
  | cons e m ih =>
    by_cases h1 : e.1 = k <;> by_cases h2 : e.1 = k' <;> simp_all [upd, find]

theorem erase_erase (m : Map α) (k : Nat) : erase (erase m k) k = erase m k := by
  induction m with
  | nil => rfl
  | cons e m ih => by_cases hk : e.1 = k <;> simp [erase, hk, ih]

theorem erase_insert (m : Map α) (k : Nat) (v : α) : erase (insert m k v) k = erase m k := by
  induction m with
  | nil => simp [insert, erase]
  | cons e m ih =>
    by_cases hk : k < e.1
    · have : e.1 ≠ k := by omega
      simp [insert, hk, erase, this]
    · by_cases h2 : e.1 = k <;> simp [insert, hk, erase, h2, ih]

/-- Two writes of one key: the last stays. -/
@[simp] theorem set_set (m : Map α) (k : Nat) (v w : α) : set (set m k v) k w = set m k w := by
  simp [set, erase_insert, erase_erase]

end Sys2Proof.Machine.Assoc
end

