-- ==== Sys2Proof/Laws/Dispatch.lean ====
section
/-! SUPPORT. The meaning of each constructor, one equation each: `exec` of it is its own definition. -/

namespace Sys2Proof.Machine

@[simp] theorem exec_vadd (d a b nw s) : exec (.vadd d a b nw) s = execVadd d a b nw s := rfl
@[simp] theorem exec_vsub (d a b nw s) : exec (.vsub d a b nw) s = execVsub d a b nw s := rfl
@[simp] theorem exec_vmul (d a b nw s) : exec (.vmul d a b nw) s = execVmul d a b nw s := rfl
@[simp] theorem exec_vmulh (d a b nw s) : exec (.vmulh d a b nw) s = execVmulh d a b nw s := rfl
@[simp] theorem exec_vmulhu (d a b nw s) : exec (.vmulhu d a b nw) s = execVmulhu d a b nw s := rfl
@[simp] theorem exec_vand (d a b nw s) : exec (.vand d a b nw) s = execVand d a b nw s := rfl
@[simp] theorem exec_vor (d a b nw s) : exec (.vor d a b nw) s = execVor d a b nw s := rfl
@[simp] theorem exec_vxor (d a b nw s) : exec (.vxor d a b nw) s = execVxor d a b nw s := rfl
@[simp] theorem exec_vandn (d a b nw s) : exec (.vandn d a b nw) s = execVandn d a b nw s := rfl
@[simp] theorem exec_vshl (d a b nw s) : exec (.vshl d a b nw) s = execVshl d a b nw s := rfl
@[simp] theorem exec_vshr (d a b nw s) : exec (.vshr d a b nw) s = execVshr d a b nw s := rfl
@[simp] theorem exec_vsra (d a b nw s) : exec (.vsra d a b nw) s = execVsra d a b nw s := rfl
@[simp] theorem exec_vmin (d a b nw s) : exec (.vmin d a b nw) s = execVmin d a b nw s := rfl
@[simp] theorem exec_vmax (d a b nw s) : exec (.vmax d a b nw) s = execVmax d a b nw s := rfl
@[simp] theorem exec_vminu (d a b nw s) : exec (.vminu d a b nw) s = execVminu d a b nw s := rfl
@[simp] theorem exec_vmaxu (d a b nw s) : exec (.vmaxu d a b nw) s = execVmaxu d a b nw s := rfl
@[simp] theorem exec_vadds (d a b nw s) : exec (.vadds d a b nw) s = execVadds d a b nw s := rfl
@[simp] theorem exec_vaddus (d a b nw s) : exec (.vaddus d a b nw) s = execVaddus d a b nw s := rfl
@[simp] theorem exec_vsubs (d a b nw s) : exec (.vsubs d a b nw) s = execVsubs d a b nw s := rfl
@[simp] theorem exec_vsubus (d a b nw s) : exec (.vsubus d a b nw) s = execVsubus d a b nw s := rfl
@[simp] theorem exec_vabsd (d a b nw s) : exec (.vabsd d a b nw) s = execVabsd d a b nw s := rfl
@[simp] theorem exec_vpopc (d a nw s) : exec (.vpopc d a nw) s = execVpopc d a nw s := rfl
@[simp] theorem exec_vclz (d a nw s) : exec (.vclz d a nw) s = execVclz d a nw s := rfl
@[simp] theorem exec_vbrev (d a nw s) : exec (.vbrev d a nw) s = execVbrev d a nw s := rfl
@[simp] theorem exec_vbfx (d a b nw s) : exec (.vbfx d a b nw) s = execVbfx d a b nw s := rfl
@[simp] theorem exec_vbfi (d a b s) : exec (.vbfi d a b) s = execVbfi d a b s := rfl
@[simp] theorem exec_vmulw (d a b nw s) : exec (.vmulw d a b nw) s = execVmulw d a b nw s := rfl
@[simp] theorem exec_vadd64 (d a b nw s) : exec (.vadd64 d a b nw) s = execVadd64 d a b nw s := rfl
@[simp] theorem exec_vsub64 (d a b nw s) : exec (.vsub64 d a b nw) s = execVsub64 d a b nw s := rfl
@[simp] theorem exec_vshl64 (d a b nw s) : exec (.vshl64 d a b nw) s = execVshl64 d a b nw s := rfl
@[simp] theorem exec_vfadd (d a b nw s) : exec (.vfadd d a b nw) s = execVfadd d a b nw s := rfl
@[simp] theorem exec_vfsub (d a b nw s) : exec (.vfsub d a b nw) s = execVfsub d a b nw s := rfl
@[simp] theorem exec_vfmul (d a b nw s) : exec (.vfmul d a b nw) s = execVfmul d a b nw s := rfl
@[simp] theorem exec_vfmin (d a b nw s) : exec (.vfmin d a b nw) s = execVfmin d a b nw s := rfl
@[simp] theorem exec_vfmax (d a b nw s) : exec (.vfmax d a b nw) s = execVfmax d a b nw s := rfl
@[simp] theorem exec_vfabs (d a nw s) : exec (.vfabs d a nw) s = execVfabs d a nw s := rfl
@[simp] theorem exec_vfneg (d a nw s) : exec (.vfneg d a nw) s = execVfneg d a nw s := rfl
@[simp] theorem exec_vfdiv (d a b nw s) : exec (.vfdiv d a b nw) s = execVfdiv d a b nw s := rfl
@[simp] theorem exec_vfsqrt (d a nw s) : exec (.vfsqrt d a nw) s = execVfsqrt d a nw s := rfl
@[simp] theorem exec_vfrcp (d a nw s) : exec (.vfrcp d a nw) s = execVfrcp d a nw s := rfl
@[simp] theorem exec_vfrsq (d a nw s) : exec (.vfrsq d a nw) s = execVfrsq d a nw s := rfl
@[simp] theorem exec_vfex2 (d a nw s) : exec (.vfex2 d a nw) s = execVfex2 d a nw s := rfl
@[simp] theorem exec_vflg2 (d a nw s) : exec (.vflg2 d a nw) s = execVflg2 d a nw s := rfl
@[simp] theorem exec_vfsin (d a nw s) : exec (.vfsin d a nw) s = execVfsin d a nw s := rfl
@[simp] theorem exec_vfcos (d a nw s) : exec (.vfcos d a nw) s = execVfcos d a nw s := rfl
@[simp] theorem exec_vfdot2 (d a b nw s) : exec (.vfdot2 d a b nw) s = execVfdot2 d a b nw s := rfl
@[simp] theorem exec_vcmp_eq (d a b s) : exec (.vcmp_eq d a b) s = execVcmpEq d a b s := rfl
@[simp] theorem exec_vcmp_ne (d a b s) : exec (.vcmp_ne d a b) s = execVcmpNe d a b s := rfl
@[simp] theorem exec_vcmp_lt (d a b s) : exec (.vcmp_lt d a b) s = execVcmpLt d a b s := rfl
@[simp] theorem exec_vcmp_le (d a b s) : exec (.vcmp_le d a b) s = execVcmpLe d a b s := rfl
@[simp] theorem exec_vcmp_ltu (d a b s) : exec (.vcmp_ltu d a b) s = execVcmpLtu d a b s := rfl
@[simp] theorem exec_vcmp_leu (d a b s) : exec (.vcmp_leu d a b) s = execVcmpLeu d a b s := rfl
@[simp] theorem exec_vfcmp_eq (d a b s) : exec (.vfcmp_eq d a b) s = execVfcmpEq d a b s := rfl
@[simp] theorem exec_vfcmp_ne (d a b s) : exec (.vfcmp_ne d a b) s = execVfcmpNe d a b s := rfl
@[simp] theorem exec_vfcmp_lt (d a b s) : exec (.vfcmp_lt d a b) s = execVfcmpLt d a b s := rfl
@[simp] theorem exec_vfcmp_le (d a b s) : exec (.vfcmp_le d a b) s = execVfcmpLe d a b s := rfl
@[simp] theorem exec_vfcmp_un (d a b s) : exec (.vfcmp_un d a b) s = execVfcmpUn d a b s := rfl
@[simp] theorem exec_vfclass (d a imm s) : exec (.vfclass d a imm) s = execVfclass d a imm s := rfl
@[simp] theorem exec_vcvt (d a rnd src nw dst s) : exec (.vcvt d a rnd src nw dst) s = execVcvt d a rnd src nw dst s := rfl
@[simp] theorem exec_vcvtef (d a b s) : exec (.vcvtef d a b) s = execVcvtef d a b s := rfl
@[simp] theorem exec_vplane (d a nw s) : exec (.vplane d a nw) s = execVplane d a nw s := rfl
@[simp] theorem exec_vunpl (d a nw s) : exec (.vunpl d a nw) s = execVunpl d a nw s := rfl
@[simp] theorem exec_vshfl (d a b nw s) : exec (.vshfl d a b nw) s = execVshfl d a b nw s := rfl
@[simp] theorem exec_vshfx (d a b nw s) : exec (.vshfx d a b nw) s = execVshfx d a b nw s := rfl
@[simp] theorem exec_vbcl (d a b nw s) : exec (.vbcl d a b nw) s = execVbcl d a b nw s := rfl
@[simp] theorem exec_vfirst (d a nw s) : exec (.vfirst d a nw) s = execVfirst d a nw s := rfl
@[simp] theorem exec_vredadd_i (d a nw s) : exec (.vredadd_i d a nw) s = execVredaddI d a nw s := rfl
@[simp] theorem exec_vredadd_f (d a nw s) : exec (.vredadd_f d a nw) s = execVredaddF d a nw s := rfl
@[simp] theorem exec_vredmin_s (d a nw s) : exec (.vredmin_s d a nw) s = execVredminS d a nw s := rfl
@[simp] theorem exec_vredmin_u (d a nw s) : exec (.vredmin_u d a nw) s = execVredminU d a nw s := rfl
@[simp] theorem exec_vredmin_f (d a nw s) : exec (.vredmin_f d a nw) s = execVredminF d a nw s := rfl
@[simp] theorem exec_vredmax_s (d a nw s) : exec (.vredmax_s d a nw) s = execVredmaxS d a nw s := rfl
@[simp] theorem exec_vredmax_u (d a nw s) : exec (.vredmax_u d a nw) s = execVredmaxU d a nw s := rfl
@[simp] theorem exec_vredmax_f (d a nw s) : exec (.vredmax_f d a nw) s = execVredmaxF d a nw s := rfl
@[simp] theorem exec_vscan_i (d a nw s) : exec (.vscan_i d a nw) s = execVscanI d a nw s := rfl
@[simp] theorem exec_vscan_f (d a nw s) : exec (.vscan_f d a nw) s = execVscanF d a nw s := rfl
@[simp] theorem exec_vballot (d a nw s) : exec (.vballot d a nw) s = execVballot d a nw s := rfl
@[simp] theorem exec_vmov (d a nw s) : exec (.vmov d a nw) s = execVmov d a nw s := rfl
@[simp] theorem exec_vsel (d a b nw m s) : exec (.vsel d a b nw m) s = execVsel d a b nw m s := rfl
@[simp] theorem exec_mand (d a b s) : exec (.mand d a b) s = execMand d a b s := rfl
@[simp] theorem exec_mor (d a b s) : exec (.mor d a b) s = execMor d a b s := rfl
@[simp] theorem exec_mxor (d a b s) : exec (.mxor d a b) s = execMxor d a b s := rfl
@[simp] theorem exec_mandn (d a b s) : exec (.mandn d a b) s = execMandn d a b s := rfl
@[simp] theorem exec_mnot (d a s) : exec (.mnot d a) s = execMnot d a s := rfl
@[simp] theorem exec_mset (d a s) : exec (.mset d a) s = execMset d a s := rfl
@[simp] theorem exec_mget (d a nw s) : exec (.mget d a nw) s = execMget d a nw s := rfl
@[simp] theorem exec_mclr (d s) : exec (.mclr d) s = execMclr d s := rfl
@[simp] theorem exec_mcnt (d a nw s) : exec (.mcnt d a nw) s = execMcnt d a nw s := rfl
@[simp] theorem exec_sadd (d a b nw s) : exec (.sadd d a b nw) s = execSadd d a b nw s := rfl
@[simp] theorem exec_ssub (d a b nw s) : exec (.ssub d a b nw) s = execSsub d a b nw s := rfl
@[simp] theorem exec_smul (d a b nw s) : exec (.smul d a b nw) s = execSmul d a b nw s := rfl
@[simp] theorem exec_smulh (d a b nw s) : exec (.smulh d a b nw) s = execSmulh d a b nw s := rfl
@[simp] theorem exec_sand (d a b nw s) : exec (.sand d a b nw) s = execSand d a b nw s := rfl
@[simp] theorem exec_sor (d a b nw s) : exec (.sor d a b nw) s = execSor d a b nw s := rfl
@[simp] theorem exec_sxor (d a b nw s) : exec (.sxor d a b nw) s = execSxor d a b nw s := rfl
@[simp] theorem exec_sshl (d a b nw s) : exec (.sshl d a b nw) s = execSshl d a b nw s := rfl
@[simp] theorem exec_sshr (d a b nw s) : exec (.sshr d a b nw) s = execSshr d a b nw s := rfl
@[simp] theorem exec_ssra (d a b nw s) : exec (.ssra d a b nw) s = execSsra d a b nw s := rfl
@[simp] theorem exec_smin (d a b nw s) : exec (.smin d a b nw) s = execSmin d a b nw s := rfl
@[simp] theorem exec_smax (d a b nw s) : exec (.smax d a b nw) s = execSmax d a b nw s := rfl
@[simp] theorem exec_sslt (d a b nw s) : exec (.sslt d a b nw) s = execSslt d a b nw s := rfl
@[simp] theorem exec_ssltu (d a b nw s) : exec (.ssltu d a b nw) s = execSsltu d a b nw s := rfl
@[simp] theorem exec_saddx (d a b nw s) : exec (.saddx d a b nw) s = execSaddx d a b nw s := rfl
@[simp] theorem exec_saddi (d a imm s) : exec (.saddi d a imm) s = execSaddi d a imm s := rfl
@[simp] theorem exec_sandi (d a imm s) : exec (.sandi d a imm) s = execSandi d a imm s := rfl
@[simp] theorem exec_sori (d a imm s) : exec (.sori d a imm) s = execSori d a imm s := rfl
@[simp] theorem exec_sxori (d a imm s) : exec (.sxori d a imm) s = execSxori d a imm s := rfl
@[simp] theorem exec_sshli (d a imm s) : exec (.sshli d a imm) s = execSshli d a imm s := rfl
@[simp] theorem exec_sshri (d a imm s) : exec (.sshri d a imm) s = execSshri d a imm s := rfl
@[simp] theorem exec_ssrai (d a imm s) : exec (.ssrai d a imm) s = execSsrai d a imm s := rfl
@[simp] theorem exec_sslti (d a imm s) : exec (.sslti d a imm) s = execSslti d a imm s := rfl
@[simp] theorem exec_sli (d imm s) : exec (.sli d imm) s = execSli d imm s := rfl
@[simp] theorem exec_slui (d imm s) : exec (.slui d imm) s = execSlui d imm s := rfl
@[simp] theorem exec_vaddi (d a imm s) : exec (.vaddi d a imm) s = execVaddi d a imm s := rfl
@[simp] theorem exec_b_eq (a off s) : exec (.b_eq a off) s = execBEq a off s := rfl
@[simp] theorem exec_b_ne (a off s) : exec (.b_ne a off) s = execBNe a off s := rfl
@[simp] theorem exec_b_lt (a off s) : exec (.b_lt a off) s = execBLt a off s := rfl
@[simp] theorem exec_b_ge (a off s) : exec (.b_ge a off) s = execBGe a off s := rfl
@[simp] theorem exec_b_gt (a off s) : exec (.b_gt a off) s = execBGt a off s := rfl
@[simp] theorem exec_b_le (a off s) : exec (.b_le a off) s = execBLe a off s := rfl
@[simp] theorem exec_bm_any (a off s) : exec (.bm_any a off) s = execBmAny a off s := rfl
@[simp] theorem exec_bm_none (a off s) : exec (.bm_none a off) s = execBmNone a off s := rfl
@[simp] theorem exec_bm_all (a off s) : exec (.bm_all a off) s = execBmAll a off s := rfl
@[simp] theorem exec_j (off s) : exec (.j off) s = execJ off s := rfl
@[simp] theorem exec_call (off s) : exec (.call off) s = execCall off s := rfl
@[simp] theorem exec_jr (a s) : exec (.jr a) s = execJr a s := rfl
@[simp] theorem exec_ret (s) : exec .ret s = execRet s := rfl
@[simp] theorem exec_exit (s) : exec .exit s = execExit s := rfl
@[simp] theorem exec_vif (a s) : exec (.vif a) s = execVif a s := rfl
@[simp] theorem exec_velse (s) : exec .velse s = execVelse s := rfl
@[simp] theorem exec_vendif (s) : exec .vendif s = execVendif s := rfl
@[simp] theorem exec_vkill (a s) : exec (.vkill a) s = execVkill a s := rfl
@[simp] theorem exec_fmt (a s) : exec (.fmt a) s = execFmt a s := rfl
@[simp] theorem exec_winb (a s) : exec (.winb a) s = execWinb a s := rfl
@[simp] theorem exec_trap (imm s) : exec (.trap imm) s = execTrap imm s := rfl
@[simp] theorem exec_rett (s) : exec .rett s = execRett s := rfl
@[simp] theorem exec_brk (imm s) : exec (.brk imm) s = execBrk imm s := rfl
@[simp] theorem exec_nop (s) : exec .nop s = execNop s := rfl
@[simp] theorem exec_loop (a end12 s) : exec (.loop a end12) s = execLoop a end12 s := rfl
@[simp] theorem exec_ppt (imm s) : exec (.ppt imm) s = execPpt imm s := rfl
@[simp] theorem exec_vld_s8 (d a b st x s) : exec (.vld_s8 d a b st x) s = execVldS8 d a b st x s := rfl
@[simp] theorem exec_vld_z8 (d a b st x s) : exec (.vld_z8 d a b st x) s = execVldZ8 d a b st x s := rfl
@[simp] theorem exec_vld_s16 (d a b st x s) : exec (.vld_s16 d a b st x) s = execVldS16 d a b st x s := rfl
@[simp] theorem exec_vld_z16 (d a b st x s) : exec (.vld_z16 d a b st x) s = execVldZ16 d a b st x s := rfl
@[simp] theorem exec_vld_w (d a b st x s) : exec (.vld_w d a b st x) s = execVldW d a b st x s := rfl
@[simp] theorem exec_vld_d (d a b st x s) : exec (.vld_d d a b st x) s = execVldD d a b st x s := rfl
@[simp] theorem exec_vst_b (d a b st x s) : exec (.vst_b d a b st x) s = execVstB d a b st x s := rfl
@[simp] theorem exec_vst_h (d a b st x s) : exec (.vst_h d a b st x) s = execVstH d a b st x s := rfl
@[simp] theorem exec_vst_w (d a b st x s) : exec (.vst_w d a b st x) s = execVstW d a b st x s := rfl
@[simp] theorem exec_vst_d (d a b st x s) : exec (.vst_d d a b st x) s = execVstD d a b st x s := rfl
@[simp] theorem exec_vldc (d a b st x s) : exec (.vldc d a b st x) s = execVldc d a b st x s := rfl
@[simp] theorem exec_vstc (d a b st x s) : exec (.vstc d a b st x) s = execVstc d a b st x s := rfl
@[simp] theorem exec_sld_w (d a b st x s) : exec (.sld_w d a b st x) s = execSldW d a b st x s := rfl
@[simp] theorem exec_sld_d (d a b st x s) : exec (.sld_d d a b st x) s = execSldD d a b st x s := rfl
@[simp] theorem exec_sst_w (d a b st x s) : exec (.sst_w d a b st x) s = execSstW d a b st x s := rfl
@[simp] theorem exec_sst_d (d a b st x s) : exec (.sst_d d a b st x) s = execSstD d a b st x s := rfl
@[simp] theorem exec_vatom_iadd (d a b st s) : exec (.vatom_iadd d a b st) s = execVatomIadd d a b st s := rfl
@[simp] theorem exec_vatom_fadd (d a b st s) : exec (.vatom_fadd d a b st) s = execVatomFadd d a b st s := rfl
@[simp] theorem exec_vatom_and (d a b st s) : exec (.vatom_and d a b st) s = execVatomAnd d a b st s := rfl
@[simp] theorem exec_vatom_or (d a b st s) : exec (.vatom_or d a b st) s = execVatomOr d a b st s := rfl
@[simp] theorem exec_vatom_smin (d a b st s) : exec (.vatom_smin d a b st) s = execVatomSmin d a b st s := rfl
@[simp] theorem exec_vatom_smax (d a b st s) : exec (.vatom_smax d a b st) s = execVatomSmax d a b st s := rfl
@[simp] theorem exec_vatom_xchg (d a b st s) : exec (.vatom_xchg d a b st) s = execVatomXchg d a b st s := rfl
@[simp] theorem exec_vatom_cas (d a b st s) : exec (.vatom_cas d a b st) s = execVatomCas d a b st s := rfl
@[simp] theorem exec_fence (st scope s) : exec (.fence st scope) s = execFence st scope s := rfl
@[simp] theorem exec_xfence (scope a s) : exec (.xfence scope a) s = execXfence scope a s := rfl
@[simp] theorem exec_sattr (st a s) : exec (.sattr st a) s = execSattr st a s := rfl
@[simp] theorem exec_bar (a s) : exec (.bar a) s = execBar a s := rfl
@[simp] theorem exec_cflush (st a b s) : exec (.cflush st a b) s = execCflush st a b s := rfl
@[simp] theorem exec_cinv (st a b s) : exec (.cinv st a b) s = execCinv st a b s := rfl
@[simp] theorem exec_czero (st a b s) : exec (.czero st a b) s = execCzero st a b s := rfl
@[simp] theorem exec_vpreq (d a b s) : exec (.vpreq d a b) s = execVpreq d a b s := rfl
@[simp] theorem exec_cbget (d a s) : exec (.cbget d a) s = execCbget d a s := rfl
@[simp] theorem exec_cbput (a s) : exec (.cbput a) s = execCbput a s := rfl
@[simp] theorem exec_evbind (d a b s) : exec (.evbind d a b) s = execEvbind d a b s := rfl
@[simp] theorem exec_evmask (a s) : exec (.evmask a) s = execEvmask a s := rfl
@[simp] theorem exec_evclr (a s) : exec (.evclr a) s = execEvclr a s := rfl
@[simp] theorem exec_evpend (d s) : exec (.evpend d) s = execEvpend d s := rfl
@[simp] theorem exec_waitany (a s) : exec (.waitany a) s = execWaitany a s := rfl
@[simp] theorem exec_fetchw (a s) : exec (.fetchw a) s = execFetchw a s := rfl
@[simp] theorem exec_spawn (d a b s) : exec (.spawn d a b) s = execSpawn d a b s := rfl
@[simp] theorem exec_hop (a s) : exec (.hop a) s = execHop a s := rfl
@[simp] theorem exec_hopback (s) : exec .hopback s = execHopback s := rfl
@[simp] theorem exec_rejoin (s) : exec .rejoin s = execRejoin s := rfl
@[simp] theorem exec_owner (d a nw s) : exec (.owner d a nw) s = execOwner d a nw s := rfl
@[simp] theorem exec_hopcfg (a s) : exec (.hopcfg a) s = execHopcfg a s := rfl
@[simp] theorem exec_hopx (a s) : exec (.hopx a) s = execHopx a s := rfl
@[simp] theorem exec_tshape (d a s) : exec (.tshape d a) s = execTshape d a s := rfl
@[simp] theorem exec_mma (d a b s) : exec (.mma d a b) s = execMma d a b s := rfl
@[simp] theorem exec_mmab (d a b s) : exec (.mmab d a b) s = execMmab d a b s := rfl
@[simp] theorem exec_mzero (d s) : exec (.mzero d) s = execMzero d s := rfl
@[simp] theorem exec_mrd (d a b s) : exec (.mrd d a b) s = execMrd d a b s := rfl
@[simp] theorem exec_mwr (d a b s) : exec (.mwr d a b) s = execMwr d a b s := rfl
@[simp] theorem exec_mfence (d s) : exec (.mfence d) s = execMfence d s := rfl
@[simp] theorem exec_mwait (a s) : exec (.mwait a) s = execMwait a s := rfl
@[simp] theorem exec_msurf (d a b s) : exec (.msurf d a b) s = execMsurf d a b s := rfl
@[simp] theorem exec_ivsld (d a st s) : exec (.ivsld d a st) s = execIvsld d a st s := rfl
@[simp] theorem exec_bmac (d a st s) : exec (.bmac d a st) s = execBmac d a st s := rfl
@[simp] theorem exec_embw (d a st s) : exec (.embw d a st) s = execEmbw d a st s := rfl
@[simp] theorem exec_cpa (d a st s) : exec (.cpa d a st) s = execCpa d a st s := rfl
@[simp] theorem exec_cpa_ring (d a st s) : exec (.cpa_ring d a st) s = execCpaRing d a st s := rfl
@[simp] theorem exec_cpred (d a st s) : exec (.cpred d a st) s = execCpred d a st s := rfl
@[simp] theorem exec_sfld (d a b s) : exec (.sfld d a b) s = execSfld d a b s := rfl
@[simp] theorem exec_sfst (d a b s) : exec (.sfst d a b) s = execSfst d a b s := rfl
@[simp] theorem exec_zt (d s) : exec (.zt d) s = execZt d s := rfl
@[simp] theorem exec_pxout (a b s) : exec (.pxout a b) s = execPxout a b s := rfl
@[simp] theorem exec_vtxout (d a b s) : exec (.vtxout d a b) s = execVtxout d a b s := rfl
@[simp] theorem exec_vinterp (d a nw s) : exec (.vinterp d a nw) s = execVinterp d a nw s := rfl
@[simp] theorem exec_tsmp (d a b s) : exec (.tsmp d a b) s = execTsmp d a b s := rfl
@[simp] theorem exec_csrr (d b nw s) : exec (.csrr d b nw) s = execCsrr d b nw s := rfl
@[simp] theorem exec_csrw (a b s) : exec (.csrw a b) s = execCsrw a b s := rfl
@[simp] theorem exec_vfma (d a b c s) : exec (.vfma d a b c) s = execVfma d a b c s := rfl
@[simp] theorem exec_vfnma (d a b c s) : exec (.vfnma d a b c) s = execVfnma d a b c s := rfl
@[simp] theorem exec_launch (q s) : exec (.launch q) s = execLaunch q s := rfl
@[simp] theorem exec_launchi (q s) : exec (.launchi q) s = execLaunchi q s := rfl
@[simp] theorem exec_loop_counted (q s) : exec (.loop_counted q) s = execLoopCounted q s := rfl
@[simp] theorem exec_loop_conditional (q s) : exec (.loop_conditional q) s = execLoopConditional q s := rfl
@[simp] theorem exec_endloop (q s) : exec (.endloop q) s = execEndloop q s := rfl
@[simp] theorem exec_cmd_if (q s) : exec (.cmd_if q) s = execCmdIf q s := rfl
@[simp] theorem exec_cmd_else (q s) : exec (.cmd_else q) s = execCmdElse q s := rfl
@[simp] theorem exec_cmd_endif (q s) : exec (.cmd_endif q) s = execCmdEndif q s := rfl
@[simp] theorem exec_waitmem (q s) : exec (.waitmem q) s = execWaitmem q s := rfl
@[simp] theorem exec_signal (q s) : exec (.signal q) s = execSignal q s := rfl
@[simp] theorem exec_signal_confirmed (q s) : exec (.signal_confirmed q) s = execSignalConfirmed q s := rfl
@[simp] theorem exec_sfalloc (q base s) : exec (.sfalloc q base) s = execSfalloc q base s := rfl
@[simp] theorem exec_sffree (q s) : exec (.sffree q) s = execSffree q s := rfl
@[simp] theorem exec_copy (q s) : exec (.copy q) s = execCopy q s := rfl
@[simp] theorem exec_preempt (q s) : exec (.preempt q) s = execPreempt q s := rfl
@[simp] theorem exec_vfset (q s) : exec (.vfset q) s = execVfset q s := rfl
@[simp] theorem exec_cpgate_gate (q s) : exec (.cpgate_gate q) s = execCpgateGate q s := rfl
@[simp] theorem exec_cpgate_ungate (q s) : exec (.cpgate_ungate q) s = execCpgateUngate q s := rfl
@[simp] theorem exec_fence_cmd (q s) : exec (.fence_cmd q) s = execFenceCmd q s := rfl
@[simp] theorem exec_llcsz_write (stack v s) : exec (.llcsz_write stack v) s = execLlcszWrite stack v s := rfl
@[simp] theorem exec_tlbinv_write (v s) : exec (.tlbinv_write v) s = execTlbinvWrite v s := rfl
@[simp] theorem exec_frozen_clear (die v s) : exec (.frozen_clear die v) s = execFrozenClear die v s := rfl
@[simp] theorem exec_queue_tail_write (q tail s) : exec (.queue_tail_write q tail) s = execQueueTailWrite q tail s := rfl
@[simp] theorem exec_cb_descriptor_write (n off size v s) : exec (.cb_descriptor_write n off size v) s = execCbDescriptorWrite n off size v s := rfl
@[simp] theorem exec_mtcap_write (v s) : exec (.mtcap_write v) s = execMtcapWrite v s := rfl
@[simp] theorem exec_evpend_write (v s) : exec (.evpend_write v) s = execEvpendWrite v s := rfl
@[simp] theorem exec_ldtmo_write (v s) : exec (.ldtmo_write v) s = execLdtmoWrite v s := rfl
@[simp] theorem exec_tstat_write (v s) : exec (.tstat_write v) s = execTstatWrite v s := rfl
@[simp] theorem exec_fstr_write (v s) : exec (.fstr_write v) s = execFstrWrite v s := rfl
@[simp] theorem exec_register_write (r v s) : exec (.register_write r v) s = execRegisterWrite r v s := rfl
@[simp] theorem exec_attestation_quote (nonce s) : exec (.attestation_quote nonce) s = execAttestationQuote nonce s := rfl
@[simp] theorem exec_package_reset (boot s) : exec (.package_reset boot) s = execPackageReset boot s := rfl
@[simp] theorem exec_llc_resize_complete (stack s) : exec (.llc_resize_complete stack) s = execLlcResizeComplete stack s := rfl
@[simp] theorem exec_tlbinv_done (s) : exec .tlbinv_done s = execTlbinvDone s := rfl
@[simp] theorem exec_block_placement (die s) : exec (.block_placement die) s = execBlockPlacement die s := rfl
@[simp] theorem exec_fetchw_delivery (gid s) : exec (.fetchw_delivery gid) s = execFetchwDelivery gid s := rfl
@[simp] theorem exec_launch_complete (lid s) : exec (.launch_complete lid) s = execLaunchComplete lid s := rfl
@[simp] theorem exec_deadline_passed (lid s) : exec (.deadline_passed lid) s = execDeadlinePassed lid s := rfl
@[simp] theorem exec_waitmem_timeout (q s) : exec (.waitmem_timeout q) s = execWaitmemTimeout q s := rfl
@[simp] theorem exec_token_refill (cluster s) : exec (.token_refill cluster) s = execTokenRefill cluster s := rfl
@[simp] theorem exec_frequency_change (die s) : exec (.frequency_change die) s = execFrequencyChange die s := rfl
@[simp] theorem exec_vfset_timeout (die s) : exec (.vfset_timeout die) s = execVfsetTimeout die s := rfl
@[simp] theorem exec_core_gate (core s) : exec (.core_gate core) s = execCoreGate core s := rfl
@[simp] theorem exec_forced_save (gid s) : exec (.forced_save gid) s = execForcedSave gid s := rfl
@[simp] theorem exec_group_save (gid s) : exec (.group_save gid) s = execGroupSave gid s := rfl
@[simp] theorem exec_continuation_arrival (k s) : exec (.continuation_arrival k) s = execContinuationArrival k s := rfl
@[simp] theorem exec_pool_due (core k s) : exec (.pool_due core k) s = execPoolDue core k s := rfl
@[simp] theorem exec_migrant_launch (core s) : exec (.migrant_launch core) s = execMigrantLaunch core s := rfl
@[simp] theorem exec_return_arrival (k s) : exec (.return_arrival k) s = execReturnArrival k s := rfl
@[simp] theorem exec_rejoin_apply (gid s) : exec (.rejoin_apply gid) s = execRejoinApply gid s := rfl
@[simp] theorem exec_exit_away_retire (gid s) : exec (.exit_away_retire gid) s = execExitAwayRetire gid s := rfl
@[simp] theorem exec_site_notice (k s) : exec (.site_notice k) s = execSiteNotice k s := rfl
@[simp] theorem exec_package_fenced (pkg s) : exec (.package_fenced pkg) s = execPackageFenced pkg s := rfl
@[simp] theorem exec_waitany_wake (gid s) : exec (.waitany_wake gid) s = execWaitanyWake gid s := rfl
@[simp] theorem exec_barrier_stall (cluster b s) : exec (.barrier_stall cluster b) s = execBarrierStall cluster b s := rfl
@[simp] theorem exec_matrix_batch_complete (gid s) : exec (.matrix_batch_complete gid) s = execMatrixBatchComplete gid s := rfl
@[simp] theorem exec_nearbank_complete (oid s) : exec (.nearbank_complete oid) s = execNearbankComplete oid s := rfl
@[simp] theorem exec_copy_complete (oid s) : exec (.copy_complete oid) s = execCopyComplete oid s := rfl
@[simp] theorem exec_ring_notify_read (oid s) : exec (.ring_notify_read oid) s = execRingNotifyRead oid s := rfl
@[simp] theorem exec_ring_entry_complete (oid idx s) : exec (.ring_entry_complete oid idx) s = execRingEntryComplete oid idx s := rfl
@[simp] theorem exec_cpred_send_complete (oid s) : exec (.cpred_send_complete oid) s = execCpredSendComplete oid s := rfl
@[simp] theorem exec_combine_arrival (p s) : exec (.combine_arrival p) s = execCombineArrival p s := rfl
@[simp] theorem exec_combine_timeout (k s) : exec (.combine_timeout k) s = execCombineTimeout k s := rfl
@[simp] theorem exec_spill_flip (ctx h s) : exec (.spill_flip ctx h) s = execSpillFlip ctx h s := rfl
@[simp] theorem exec_restore_flip (ctx h s) : exec (.restore_flip ctx h) s = execRestoreFlip ctx h s := rfl
@[simp] theorem exec_frame_migration (src dst s) : exec (.frame_migration src dst) s = execFrameMigration src dst s := rfl
@[simp] theorem exec_frame_migration_flip (src s) : exec (.frame_migration_flip src) s = execFrameMigrationFlip src s := rfl
@[simp] theorem exec_draw_start (s) : exec .draw_start s = execDrawStart s := rfl
@[simp] theorem exec_primitive_rasterise (s) : exec .primitive_rasterise s = execPrimitiveRasterise s := rfl
@[simp] theorem exec_fragment_apply (k s) : exec (.fragment_apply k) s = execFragmentApply k s := rfl
@[simp] theorem exec_assay_slot_open (die s) : exec (.assay_slot_open die) s = execAssaySlotOpen die s := rfl
@[simp] theorem exec_assay_scan_start (die s) : exec (.assay_scan_start die) s = execAssayScanStart die s := rfl
@[simp] theorem exec_assay_scan_end (die pass s) : exec (.assay_scan_end die pass) s = execAssayScanEnd die pass s := rfl
@[simp] theorem exec_assay_skip (die s) : exec (.assay_skip die) s = execAssaySkip die s := rfl
@[simp] theorem exec_canary_warning (dom s) : exec (.canary_warning dom) s = execCanaryWarning dom s := rfl
@[simp] theorem exec_voltage_step_down (dom s) : exec (.voltage_step_down dom) s = execVoltageStepDown dom s := rfl
@[simp] theorem exec_canary_fatal (dom s) : exec (.canary_fatal dom) s = execCanaryFatal dom s := rfl
@[simp] theorem exec_fatal_error (s) : exec .fatal_error s = execFatalError s := rfl
@[simp] theorem exec_droop_trip (cluster s) : exec (.droop_trip cluster) s = execDroopTrip cluster s := rfl
@[simp] theorem exec_tallow_update (die temp s) : exec (.tallow_update die temp) s = execTallowUpdate die temp s := rfl
@[simp] theorem exec_gddr_overheat (ctrl temp s) : exec (.gddr_overheat ctrl temp) s = execGddrOverheat ctrl temp s := rfl
@[simp] theorem exec_trap_timer (gid s) : exec (.trap_timer gid) s = execTrapTimer gid s := rfl
@[simp] theorem exec_breakpoint_halt (gid s) : exec (.breakpoint_halt gid) s = execBreakpointHalt gid s := rfl
@[simp] theorem exec_debug_release (gid s) : exec (.debug_release gid) s = execDebugRelease gid s := rfl
@[simp] theorem exec_residency_request_forward (s) : exec .residency_request_forward s = execResidencyRequestForward s := rfl
@[simp] theorem exec_undefined_word (w s) : exec (.undefined_word w) s = execUndefinedWord w s := rfl
@[simp] theorem exec_fetch_fault (s) : exec .fetch_fault s = execFetchFault s := rfl
@[simp] theorem exec_undefined_command (q s) : exec (.undefined_command q) s = execUndefinedCommand q s := rfl
@[simp] theorem exec_load_return (gid k s) : exec (.load_return gid k) s = execLoadReturn gid k s := rfl
@[simp] theorem exec_write_reaches_home (gid k s) : exec (.write_reaches_home gid k) s = execWriteReachesHome gid k s := rfl
@[simp] theorem exec_group_timer_match (gid s) : exec (.group_timer_match gid) s = execGroupTimerMatch gid s := rfl
@[simp] theorem exec_droop_end (cluster s) : exec (.droop_end cluster) s = execDroopEnd cluster s := rfl
@[simp] theorem exec_remote_access_arrival (a s) : exec (.remote_access_arrival a) s = execRemoteAccessArrival a s := rfl
@[simp] theorem exec_fabric_bring_up (pkg key s) : exec (.fabric_bring_up pkg key) s = execFabricBringUp pkg key s := rfl
@[simp] theorem exec_debugger_attach (lid on s) : exec (.debugger_attach lid on) s = execDebuggerAttach lid on s := rfl

end Sys2Proof.Machine
end

