-- ==== Sys2Proof/Laws/State.lean ====
section
/-! SUPPORT. What each update of the state and of a group leaves in each field: one lemma per field per update. -/

namespace Sys2Proof.Machine

open Assoc

namespace State

section
variable (s : State) (n : Nat) (x : Core)

@[simp] theorem setCore_mem : (s.setCore n x).mem = s.mem := rfl
@[simp] theorem setCore_badMem : (s.setCore n x).badMem = s.badMem := rfl
@[simp] theorem setCore_l1 : (s.setCore n x).l1 = s.l1 := rfl
@[simp] theorem setCore_llc : (s.setCore n x).llc = s.llc := rfl
@[simp] theorem setCore_msgs : (s.setCore n x).msgs = s.msgs := rfl
@[simp] theorem setCore_writes : (s.setCore n x).writes = s.writes := rfl
@[simp] theorem setCore_groups : (s.setCore n x).groups = s.groups := rfl
@[simp] theorem setCore_cores : (s.setCore n x).cores = put Core.reset s.cores n x := rfl
@[simp] theorem setCore_clusters : (s.setCore n x).clusters = s.clusters := rfl
@[simp] theorem setCore_dies : (s.setCore n x).dies = s.dies := rfl
@[simp] theorem setCore_domains : (s.setCore n x).domains = s.domains := rfl
@[simp] theorem setCore_stk : (s.setCore n x).stk = s.stk := rfl
@[simp] theorem setCore_gddr : (s.setCore n x).gddr = s.gddr := rfl
@[simp] theorem setCore_ctl : (s.setCore n x).ctl = s.ctl := rfl
@[simp] theorem setCore_queues : (s.setCore n x).queues = s.queues := rfl
@[simp] theorem setCore_rota : (s.setCore n x).rota = s.rota := rfl
@[simp] theorem setCore_launches : (s.setCore n x).launches = s.launches := rfl
@[simp] theorem setCore_blocks : (s.setCore n x).blocks = s.blocks := rfl
@[simp] theorem setCore_handles : (s.setCore n x).handles = s.handles := rfl
@[simp] theorem setCore_ops : (s.setCore n x).ops = s.ops := rfl
@[simp] theorem setCore_combines : (s.setCore n x).combines = s.combines := rfl
@[simp] theorem setCore_parts : (s.setCore n x).parts = s.parts := rfl
@[simp] theorem setCore_conts : (s.setCore n x).conts = s.conts := rfl
@[simp] theorem setCore_rets : (s.setCore n x).rets = s.rets := rfl
@[simp] theorem setCore_notices : (s.setCore n x).notices = s.notices := rfl
@[simp] theorem setCore_resq : (s.setCore n x).resq = s.resq := rfl
@[simp] theorem setCore_resSeq : (s.setCore n x).resSeq = s.resSeq := rfl
@[simp] theorem setCore_reports : (s.setCore n x).reports = s.reports := rfl
@[simp] theorem setCore_raster : (s.setCore n x).raster = s.raster := rfl
@[simp] theorem setCore_dseq : (s.setCore n x).dseq = s.dseq := rfl
@[simp] theorem setCore_frags : (s.setCore n x).frags = s.frags := rfl
@[simp] theorem setCore_frames : (s.setCore n x).frames = s.frames := rfl
@[simp] theorem setCore_moves : (s.setCore n x).moves = s.moves := rfl
@[simp] theorem setCore_lnum : (s.setCore n x).lnum = s.lnum := rfl
@[simp] theorem setCore_pkgid : (s.setCore n x).pkgid = s.pkgid := rfl
@[simp] theorem setCore_fabric : (s.setCore n x).fabric = s.fabric := rfl
@[simp] theorem setCore_key : (s.setCore n x).key = s.key := rfl
@[simp] theorem setCore_fenced : (s.setCore n x).fenced = s.fenced := rfl
@[simp] theorem setCore_secRegions : (s.setCore n x).secRegions = s.secRegions := rfl
@[simp] theorem setCore_secEngines : (s.setCore n x).secEngines = s.secEngines := rfl
@[simp] theorem setCore_secChannels : (s.setCore n x).secChannels = s.secChannels := rfl
@[simp] theorem setCore_fuses : (s.setCore n x).fuses = s.fuses := rfl
@[simp] theorem setCore_images : (s.setCore n x).images = s.images := rfl
@[simp] theorem setCore_fatal : (s.setCore n x).fatal = s.fatal := rfl
@[simp] theorem setCore_recovery : (s.setCore n x).recovery = s.recovery := rfl
@[simp] theorem setCore_quote : (s.setCore n x).quote = s.quote := rfl
@[simp] theorem setCore_cur : (s.setCore n x).cur = s.cur := rfl
@[simp] theorem setCore_turn : (s.setCore n x).turn = s.turn := rfl
@[simp] theorem setCore_agenda : (s.setCore n x).agenda = s.agenda := rfl
@[simp] theorem setCore_late : (s.setCore n x).late = s.late := rfl
@[simp] theorem setCore_stale : (s.setCore n x).stale = s.stale := rfl
@[simp] theorem setCore_ctr : (s.setCore n x).ctr = s.ctr := rfl
@[simp] theorem setCore_nextId : (s.setCore n x).nextId = s.nextId := rfl

end

section
variable (s : State) (n : Nat) (x : Cluster)

@[simp] theorem setCluster_mem : (s.setCluster n x).mem = s.mem := rfl
@[simp] theorem setCluster_badMem : (s.setCluster n x).badMem = s.badMem := rfl
@[simp] theorem setCluster_l1 : (s.setCluster n x).l1 = s.l1 := rfl
@[simp] theorem setCluster_llc : (s.setCluster n x).llc = s.llc := rfl
@[simp] theorem setCluster_msgs : (s.setCluster n x).msgs = s.msgs := rfl
@[simp] theorem setCluster_writes : (s.setCluster n x).writes = s.writes := rfl
@[simp] theorem setCluster_groups : (s.setCluster n x).groups = s.groups := rfl
@[simp] theorem setCluster_cores : (s.setCluster n x).cores = s.cores := rfl
@[simp] theorem setCluster_clusters : (s.setCluster n x).clusters = put Cluster.reset s.clusters n x := rfl
@[simp] theorem setCluster_dies : (s.setCluster n x).dies = s.dies := rfl
@[simp] theorem setCluster_domains : (s.setCluster n x).domains = s.domains := rfl
@[simp] theorem setCluster_stk : (s.setCluster n x).stk = s.stk := rfl
@[simp] theorem setCluster_gddr : (s.setCluster n x).gddr = s.gddr := rfl
@[simp] theorem setCluster_ctl : (s.setCluster n x).ctl = s.ctl := rfl
@[simp] theorem setCluster_queues : (s.setCluster n x).queues = s.queues := rfl
@[simp] theorem setCluster_rota : (s.setCluster n x).rota = s.rota := rfl
@[simp] theorem setCluster_launches : (s.setCluster n x).launches = s.launches := rfl
@[simp] theorem setCluster_blocks : (s.setCluster n x).blocks = s.blocks := rfl
@[simp] theorem setCluster_handles : (s.setCluster n x).handles = s.handles := rfl
@[simp] theorem setCluster_ops : (s.setCluster n x).ops = s.ops := rfl
@[simp] theorem setCluster_combines : (s.setCluster n x).combines = s.combines := rfl
@[simp] theorem setCluster_parts : (s.setCluster n x).parts = s.parts := rfl
@[simp] theorem setCluster_conts : (s.setCluster n x).conts = s.conts := rfl
@[simp] theorem setCluster_rets : (s.setCluster n x).rets = s.rets := rfl
@[simp] theorem setCluster_notices : (s.setCluster n x).notices = s.notices := rfl
@[simp] theorem setCluster_resq : (s.setCluster n x).resq = s.resq := rfl
@[simp] theorem setCluster_resSeq : (s.setCluster n x).resSeq = s.resSeq := rfl
@[simp] theorem setCluster_reports : (s.setCluster n x).reports = s.reports := rfl
@[simp] theorem setCluster_raster : (s.setCluster n x).raster = s.raster := rfl
@[simp] theorem setCluster_dseq : (s.setCluster n x).dseq = s.dseq := rfl
@[simp] theorem setCluster_frags : (s.setCluster n x).frags = s.frags := rfl
@[simp] theorem setCluster_frames : (s.setCluster n x).frames = s.frames := rfl
@[simp] theorem setCluster_moves : (s.setCluster n x).moves = s.moves := rfl
@[simp] theorem setCluster_lnum : (s.setCluster n x).lnum = s.lnum := rfl
@[simp] theorem setCluster_pkgid : (s.setCluster n x).pkgid = s.pkgid := rfl
@[simp] theorem setCluster_fabric : (s.setCluster n x).fabric = s.fabric := rfl
@[simp] theorem setCluster_key : (s.setCluster n x).key = s.key := rfl
@[simp] theorem setCluster_fenced : (s.setCluster n x).fenced = s.fenced := rfl
@[simp] theorem setCluster_secRegions : (s.setCluster n x).secRegions = s.secRegions := rfl
@[simp] theorem setCluster_secEngines : (s.setCluster n x).secEngines = s.secEngines := rfl
@[simp] theorem setCluster_secChannels : (s.setCluster n x).secChannels = s.secChannels := rfl
@[simp] theorem setCluster_fuses : (s.setCluster n x).fuses = s.fuses := rfl
@[simp] theorem setCluster_images : (s.setCluster n x).images = s.images := rfl
@[simp] theorem setCluster_fatal : (s.setCluster n x).fatal = s.fatal := rfl
@[simp] theorem setCluster_recovery : (s.setCluster n x).recovery = s.recovery := rfl
@[simp] theorem setCluster_quote : (s.setCluster n x).quote = s.quote := rfl
@[simp] theorem setCluster_cur : (s.setCluster n x).cur = s.cur := rfl
@[simp] theorem setCluster_turn : (s.setCluster n x).turn = s.turn := rfl
@[simp] theorem setCluster_agenda : (s.setCluster n x).agenda = s.agenda := rfl
@[simp] theorem setCluster_late : (s.setCluster n x).late = s.late := rfl
@[simp] theorem setCluster_stale : (s.setCluster n x).stale = s.stale := rfl
@[simp] theorem setCluster_ctr : (s.setCluster n x).ctr = s.ctr := rfl
@[simp] theorem setCluster_nextId : (s.setCluster n x).nextId = s.nextId := rfl

end

section
variable (s : State) (n : Nat) (x : Die)

@[simp] theorem setDie_mem : (s.setDie n x).mem = s.mem := rfl
@[simp] theorem setDie_badMem : (s.setDie n x).badMem = s.badMem := rfl
@[simp] theorem setDie_l1 : (s.setDie n x).l1 = s.l1 := rfl
@[simp] theorem setDie_llc : (s.setDie n x).llc = s.llc := rfl
@[simp] theorem setDie_msgs : (s.setDie n x).msgs = s.msgs := rfl
@[simp] theorem setDie_writes : (s.setDie n x).writes = s.writes := rfl
@[simp] theorem setDie_groups : (s.setDie n x).groups = s.groups := rfl
@[simp] theorem setDie_cores : (s.setDie n x).cores = s.cores := rfl
@[simp] theorem setDie_clusters : (s.setDie n x).clusters = s.clusters := rfl
@[simp] theorem setDie_dies : (s.setDie n x).dies = put Die.reset s.dies n x := rfl
@[simp] theorem setDie_domains : (s.setDie n x).domains = s.domains := rfl
@[simp] theorem setDie_stk : (s.setDie n x).stk = s.stk := rfl
@[simp] theorem setDie_gddr : (s.setDie n x).gddr = s.gddr := rfl
@[simp] theorem setDie_ctl : (s.setDie n x).ctl = s.ctl := rfl
@[simp] theorem setDie_queues : (s.setDie n x).queues = s.queues := rfl
@[simp] theorem setDie_rota : (s.setDie n x).rota = s.rota := rfl
@[simp] theorem setDie_launches : (s.setDie n x).launches = s.launches := rfl
@[simp] theorem setDie_blocks : (s.setDie n x).blocks = s.blocks := rfl
@[simp] theorem setDie_handles : (s.setDie n x).handles = s.handles := rfl
@[simp] theorem setDie_ops : (s.setDie n x).ops = s.ops := rfl
@[simp] theorem setDie_combines : (s.setDie n x).combines = s.combines := rfl
@[simp] theorem setDie_parts : (s.setDie n x).parts = s.parts := rfl
@[simp] theorem setDie_conts : (s.setDie n x).conts = s.conts := rfl
@[simp] theorem setDie_rets : (s.setDie n x).rets = s.rets := rfl
@[simp] theorem setDie_notices : (s.setDie n x).notices = s.notices := rfl
@[simp] theorem setDie_resq : (s.setDie n x).resq = s.resq := rfl
@[simp] theorem setDie_resSeq : (s.setDie n x).resSeq = s.resSeq := rfl
@[simp] theorem setDie_reports : (s.setDie n x).reports = s.reports := rfl
@[simp] theorem setDie_raster : (s.setDie n x).raster = s.raster := rfl
@[simp] theorem setDie_dseq : (s.setDie n x).dseq = s.dseq := rfl
@[simp] theorem setDie_frags : (s.setDie n x).frags = s.frags := rfl
@[simp] theorem setDie_frames : (s.setDie n x).frames = s.frames := rfl
@[simp] theorem setDie_moves : (s.setDie n x).moves = s.moves := rfl
@[simp] theorem setDie_lnum : (s.setDie n x).lnum = s.lnum := rfl
@[simp] theorem setDie_pkgid : (s.setDie n x).pkgid = s.pkgid := rfl
@[simp] theorem setDie_fabric : (s.setDie n x).fabric = s.fabric := rfl
@[simp] theorem setDie_key : (s.setDie n x).key = s.key := rfl
@[simp] theorem setDie_fenced : (s.setDie n x).fenced = s.fenced := rfl
@[simp] theorem setDie_secRegions : (s.setDie n x).secRegions = s.secRegions := rfl
@[simp] theorem setDie_secEngines : (s.setDie n x).secEngines = s.secEngines := rfl
@[simp] theorem setDie_secChannels : (s.setDie n x).secChannels = s.secChannels := rfl
@[simp] theorem setDie_fuses : (s.setDie n x).fuses = s.fuses := rfl
@[simp] theorem setDie_images : (s.setDie n x).images = s.images := rfl
@[simp] theorem setDie_fatal : (s.setDie n x).fatal = s.fatal := rfl
@[simp] theorem setDie_recovery : (s.setDie n x).recovery = s.recovery := rfl
@[simp] theorem setDie_quote : (s.setDie n x).quote = s.quote := rfl
@[simp] theorem setDie_cur : (s.setDie n x).cur = s.cur := rfl
@[simp] theorem setDie_turn : (s.setDie n x).turn = s.turn := rfl
@[simp] theorem setDie_agenda : (s.setDie n x).agenda = s.agenda := rfl
@[simp] theorem setDie_late : (s.setDie n x).late = s.late := rfl
@[simp] theorem setDie_stale : (s.setDie n x).stale = s.stale := rfl
@[simp] theorem setDie_ctr : (s.setDie n x).ctr = s.ctr := rfl
@[simp] theorem setDie_nextId : (s.setDie n x).nextId = s.nextId := rfl

end

section
variable (s : State) (n : Nat) (x : Domain)

@[simp] theorem setDomain_mem : (s.setDomain n x).mem = s.mem := rfl
@[simp] theorem setDomain_badMem : (s.setDomain n x).badMem = s.badMem := rfl
@[simp] theorem setDomain_l1 : (s.setDomain n x).l1 = s.l1 := rfl
@[simp] theorem setDomain_llc : (s.setDomain n x).llc = s.llc := rfl
@[simp] theorem setDomain_msgs : (s.setDomain n x).msgs = s.msgs := rfl
@[simp] theorem setDomain_writes : (s.setDomain n x).writes = s.writes := rfl
@[simp] theorem setDomain_groups : (s.setDomain n x).groups = s.groups := rfl
@[simp] theorem setDomain_cores : (s.setDomain n x).cores = s.cores := rfl
@[simp] theorem setDomain_clusters : (s.setDomain n x).clusters = s.clusters := rfl
@[simp] theorem setDomain_dies : (s.setDomain n x).dies = s.dies := rfl
@[simp] theorem setDomain_domains : (s.setDomain n x).domains = put Domain.reset s.domains n x := rfl
@[simp] theorem setDomain_stk : (s.setDomain n x).stk = s.stk := rfl
@[simp] theorem setDomain_gddr : (s.setDomain n x).gddr = s.gddr := rfl
@[simp] theorem setDomain_ctl : (s.setDomain n x).ctl = s.ctl := rfl
@[simp] theorem setDomain_queues : (s.setDomain n x).queues = s.queues := rfl
@[simp] theorem setDomain_rota : (s.setDomain n x).rota = s.rota := rfl
@[simp] theorem setDomain_launches : (s.setDomain n x).launches = s.launches := rfl
@[simp] theorem setDomain_blocks : (s.setDomain n x).blocks = s.blocks := rfl
@[simp] theorem setDomain_handles : (s.setDomain n x).handles = s.handles := rfl
@[simp] theorem setDomain_ops : (s.setDomain n x).ops = s.ops := rfl
@[simp] theorem setDomain_combines : (s.setDomain n x).combines = s.combines := rfl
@[simp] theorem setDomain_parts : (s.setDomain n x).parts = s.parts := rfl
@[simp] theorem setDomain_conts : (s.setDomain n x).conts = s.conts := rfl
@[simp] theorem setDomain_rets : (s.setDomain n x).rets = s.rets := rfl
@[simp] theorem setDomain_notices : (s.setDomain n x).notices = s.notices := rfl
@[simp] theorem setDomain_resq : (s.setDomain n x).resq = s.resq := rfl
@[simp] theorem setDomain_resSeq : (s.setDomain n x).resSeq = s.resSeq := rfl
@[simp] theorem setDomain_reports : (s.setDomain n x).reports = s.reports := rfl
@[simp] theorem setDomain_raster : (s.setDomain n x).raster = s.raster := rfl
@[simp] theorem setDomain_dseq : (s.setDomain n x).dseq = s.dseq := rfl
@[simp] theorem setDomain_frags : (s.setDomain n x).frags = s.frags := rfl
@[simp] theorem setDomain_frames : (s.setDomain n x).frames = s.frames := rfl
@[simp] theorem setDomain_moves : (s.setDomain n x).moves = s.moves := rfl
@[simp] theorem setDomain_lnum : (s.setDomain n x).lnum = s.lnum := rfl
@[simp] theorem setDomain_pkgid : (s.setDomain n x).pkgid = s.pkgid := rfl
@[simp] theorem setDomain_fabric : (s.setDomain n x).fabric = s.fabric := rfl
@[simp] theorem setDomain_key : (s.setDomain n x).key = s.key := rfl
@[simp] theorem setDomain_fenced : (s.setDomain n x).fenced = s.fenced := rfl
@[simp] theorem setDomain_secRegions : (s.setDomain n x).secRegions = s.secRegions := rfl
@[simp] theorem setDomain_secEngines : (s.setDomain n x).secEngines = s.secEngines := rfl
@[simp] theorem setDomain_secChannels : (s.setDomain n x).secChannels = s.secChannels := rfl
@[simp] theorem setDomain_fuses : (s.setDomain n x).fuses = s.fuses := rfl
@[simp] theorem setDomain_images : (s.setDomain n x).images = s.images := rfl
@[simp] theorem setDomain_fatal : (s.setDomain n x).fatal = s.fatal := rfl
@[simp] theorem setDomain_recovery : (s.setDomain n x).recovery = s.recovery := rfl
@[simp] theorem setDomain_quote : (s.setDomain n x).quote = s.quote := rfl
@[simp] theorem setDomain_cur : (s.setDomain n x).cur = s.cur := rfl
@[simp] theorem setDomain_turn : (s.setDomain n x).turn = s.turn := rfl
@[simp] theorem setDomain_agenda : (s.setDomain n x).agenda = s.agenda := rfl
@[simp] theorem setDomain_late : (s.setDomain n x).late = s.late := rfl
@[simp] theorem setDomain_stale : (s.setDomain n x).stale = s.stale := rfl
@[simp] theorem setDomain_ctr : (s.setDomain n x).ctr = s.ctr := rfl
@[simp] theorem setDomain_nextId : (s.setDomain n x).nextId = s.nextId := rfl

end

section
variable (s : State) (n : Nat) (x : Stack)

@[simp] theorem setStack_mem : (s.setStack n x).mem = s.mem := rfl
@[simp] theorem setStack_badMem : (s.setStack n x).badMem = s.badMem := rfl
@[simp] theorem setStack_l1 : (s.setStack n x).l1 = s.l1 := rfl
@[simp] theorem setStack_llc : (s.setStack n x).llc = s.llc := rfl
@[simp] theorem setStack_msgs : (s.setStack n x).msgs = s.msgs := rfl
@[simp] theorem setStack_writes : (s.setStack n x).writes = s.writes := rfl
@[simp] theorem setStack_groups : (s.setStack n x).groups = s.groups := rfl
@[simp] theorem setStack_cores : (s.setStack n x).cores = s.cores := rfl
@[simp] theorem setStack_clusters : (s.setStack n x).clusters = s.clusters := rfl
@[simp] theorem setStack_dies : (s.setStack n x).dies = s.dies := rfl
@[simp] theorem setStack_domains : (s.setStack n x).domains = s.domains := rfl
@[simp] theorem setStack_stk : (s.setStack n x).stk = put Stack.reset s.stk n x := rfl
@[simp] theorem setStack_gddr : (s.setStack n x).gddr = s.gddr := rfl
@[simp] theorem setStack_ctl : (s.setStack n x).ctl = s.ctl := rfl
@[simp] theorem setStack_queues : (s.setStack n x).queues = s.queues := rfl
@[simp] theorem setStack_rota : (s.setStack n x).rota = s.rota := rfl
@[simp] theorem setStack_launches : (s.setStack n x).launches = s.launches := rfl
@[simp] theorem setStack_blocks : (s.setStack n x).blocks = s.blocks := rfl
@[simp] theorem setStack_handles : (s.setStack n x).handles = s.handles := rfl
@[simp] theorem setStack_ops : (s.setStack n x).ops = s.ops := rfl
@[simp] theorem setStack_combines : (s.setStack n x).combines = s.combines := rfl
@[simp] theorem setStack_parts : (s.setStack n x).parts = s.parts := rfl
@[simp] theorem setStack_conts : (s.setStack n x).conts = s.conts := rfl
@[simp] theorem setStack_rets : (s.setStack n x).rets = s.rets := rfl
@[simp] theorem setStack_notices : (s.setStack n x).notices = s.notices := rfl
@[simp] theorem setStack_resq : (s.setStack n x).resq = s.resq := rfl
@[simp] theorem setStack_resSeq : (s.setStack n x).resSeq = s.resSeq := rfl
@[simp] theorem setStack_reports : (s.setStack n x).reports = s.reports := rfl
@[simp] theorem setStack_raster : (s.setStack n x).raster = s.raster := rfl
@[simp] theorem setStack_dseq : (s.setStack n x).dseq = s.dseq := rfl
@[simp] theorem setStack_frags : (s.setStack n x).frags = s.frags := rfl
@[simp] theorem setStack_frames : (s.setStack n x).frames = s.frames := rfl
@[simp] theorem setStack_moves : (s.setStack n x).moves = s.moves := rfl
@[simp] theorem setStack_lnum : (s.setStack n x).lnum = s.lnum := rfl
@[simp] theorem setStack_pkgid : (s.setStack n x).pkgid = s.pkgid := rfl
@[simp] theorem setStack_fabric : (s.setStack n x).fabric = s.fabric := rfl
@[simp] theorem setStack_key : (s.setStack n x).key = s.key := rfl
@[simp] theorem setStack_fenced : (s.setStack n x).fenced = s.fenced := rfl
@[simp] theorem setStack_secRegions : (s.setStack n x).secRegions = s.secRegions := rfl
@[simp] theorem setStack_secEngines : (s.setStack n x).secEngines = s.secEngines := rfl
@[simp] theorem setStack_secChannels : (s.setStack n x).secChannels = s.secChannels := rfl
@[simp] theorem setStack_fuses : (s.setStack n x).fuses = s.fuses := rfl
@[simp] theorem setStack_images : (s.setStack n x).images = s.images := rfl
@[simp] theorem setStack_fatal : (s.setStack n x).fatal = s.fatal := rfl
@[simp] theorem setStack_recovery : (s.setStack n x).recovery = s.recovery := rfl
@[simp] theorem setStack_quote : (s.setStack n x).quote = s.quote := rfl
@[simp] theorem setStack_cur : (s.setStack n x).cur = s.cur := rfl
@[simp] theorem setStack_turn : (s.setStack n x).turn = s.turn := rfl
@[simp] theorem setStack_agenda : (s.setStack n x).agenda = s.agenda := rfl
@[simp] theorem setStack_late : (s.setStack n x).late = s.late := rfl
@[simp] theorem setStack_stale : (s.setStack n x).stale = s.stale := rfl
@[simp] theorem setStack_ctr : (s.setStack n x).ctr = s.ctr := rfl
@[simp] theorem setStack_nextId : (s.setStack n x).nextId = s.nextId := rfl

end

section
variable (s : State) (n : Nat) (x : Queue)

@[simp] theorem setQueue_mem : (s.setQueue n x).mem = s.mem := rfl
@[simp] theorem setQueue_badMem : (s.setQueue n x).badMem = s.badMem := rfl
@[simp] theorem setQueue_l1 : (s.setQueue n x).l1 = s.l1 := rfl
@[simp] theorem setQueue_llc : (s.setQueue n x).llc = s.llc := rfl
@[simp] theorem setQueue_msgs : (s.setQueue n x).msgs = s.msgs := rfl
@[simp] theorem setQueue_writes : (s.setQueue n x).writes = s.writes := rfl
@[simp] theorem setQueue_groups : (s.setQueue n x).groups = s.groups := rfl
@[simp] theorem setQueue_cores : (s.setQueue n x).cores = s.cores := rfl
@[simp] theorem setQueue_clusters : (s.setQueue n x).clusters = s.clusters := rfl
@[simp] theorem setQueue_dies : (s.setQueue n x).dies = s.dies := rfl
@[simp] theorem setQueue_domains : (s.setQueue n x).domains = s.domains := rfl
@[simp] theorem setQueue_stk : (s.setQueue n x).stk = s.stk := rfl
@[simp] theorem setQueue_gddr : (s.setQueue n x).gddr = s.gddr := rfl
@[simp] theorem setQueue_ctl : (s.setQueue n x).ctl = s.ctl := rfl
@[simp] theorem setQueue_queues : (s.setQueue n x).queues = put Queue.reset s.queues n x := rfl
@[simp] theorem setQueue_rota : (s.setQueue n x).rota = s.rota := rfl
@[simp] theorem setQueue_launches : (s.setQueue n x).launches = s.launches := rfl
@[simp] theorem setQueue_blocks : (s.setQueue n x).blocks = s.blocks := rfl
@[simp] theorem setQueue_handles : (s.setQueue n x).handles = s.handles := rfl
@[simp] theorem setQueue_ops : (s.setQueue n x).ops = s.ops := rfl
@[simp] theorem setQueue_combines : (s.setQueue n x).combines = s.combines := rfl
@[simp] theorem setQueue_parts : (s.setQueue n x).parts = s.parts := rfl
@[simp] theorem setQueue_conts : (s.setQueue n x).conts = s.conts := rfl
@[simp] theorem setQueue_rets : (s.setQueue n x).rets = s.rets := rfl
@[simp] theorem setQueue_notices : (s.setQueue n x).notices = s.notices := rfl
@[simp] theorem setQueue_resq : (s.setQueue n x).resq = s.resq := rfl
@[simp] theorem setQueue_resSeq : (s.setQueue n x).resSeq = s.resSeq := rfl
@[simp] theorem setQueue_reports : (s.setQueue n x).reports = s.reports := rfl
@[simp] theorem setQueue_raster : (s.setQueue n x).raster = s.raster := rfl
@[simp] theorem setQueue_dseq : (s.setQueue n x).dseq = s.dseq := rfl
@[simp] theorem setQueue_frags : (s.setQueue n x).frags = s.frags := rfl
@[simp] theorem setQueue_frames : (s.setQueue n x).frames = s.frames := rfl
@[simp] theorem setQueue_moves : (s.setQueue n x).moves = s.moves := rfl
@[simp] theorem setQueue_lnum : (s.setQueue n x).lnum = s.lnum := rfl
@[simp] theorem setQueue_pkgid : (s.setQueue n x).pkgid = s.pkgid := rfl
@[simp] theorem setQueue_fabric : (s.setQueue n x).fabric = s.fabric := rfl
@[simp] theorem setQueue_key : (s.setQueue n x).key = s.key := rfl
@[simp] theorem setQueue_fenced : (s.setQueue n x).fenced = s.fenced := rfl
@[simp] theorem setQueue_secRegions : (s.setQueue n x).secRegions = s.secRegions := rfl
@[simp] theorem setQueue_secEngines : (s.setQueue n x).secEngines = s.secEngines := rfl
@[simp] theorem setQueue_secChannels : (s.setQueue n x).secChannels = s.secChannels := rfl
@[simp] theorem setQueue_fuses : (s.setQueue n x).fuses = s.fuses := rfl
@[simp] theorem setQueue_images : (s.setQueue n x).images = s.images := rfl
@[simp] theorem setQueue_fatal : (s.setQueue n x).fatal = s.fatal := rfl
@[simp] theorem setQueue_recovery : (s.setQueue n x).recovery = s.recovery := rfl
@[simp] theorem setQueue_quote : (s.setQueue n x).quote = s.quote := rfl
@[simp] theorem setQueue_cur : (s.setQueue n x).cur = s.cur := rfl
@[simp] theorem setQueue_turn : (s.setQueue n x).turn = s.turn := rfl
@[simp] theorem setQueue_agenda : (s.setQueue n x).agenda = s.agenda := rfl
@[simp] theorem setQueue_late : (s.setQueue n x).late = s.late := rfl
@[simp] theorem setQueue_stale : (s.setQueue n x).stale = s.stale := rfl
@[simp] theorem setQueue_ctr : (s.setQueue n x).ctr = s.ctr := rfl
@[simp] theorem setQueue_nextId : (s.setQueue n x).nextId = s.nextId := rfl

end

section
variable (s : State) (n : Nat) (x : Gddr)

@[simp] theorem setGddr_mem : (s.setGddr n x).mem = s.mem := rfl
@[simp] theorem setGddr_badMem : (s.setGddr n x).badMem = s.badMem := rfl
@[simp] theorem setGddr_l1 : (s.setGddr n x).l1 = s.l1 := rfl
@[simp] theorem setGddr_llc : (s.setGddr n x).llc = s.llc := rfl
@[simp] theorem setGddr_msgs : (s.setGddr n x).msgs = s.msgs := rfl
@[simp] theorem setGddr_writes : (s.setGddr n x).writes = s.writes := rfl
@[simp] theorem setGddr_groups : (s.setGddr n x).groups = s.groups := rfl
@[simp] theorem setGddr_cores : (s.setGddr n x).cores = s.cores := rfl
@[simp] theorem setGddr_clusters : (s.setGddr n x).clusters = s.clusters := rfl
@[simp] theorem setGddr_dies : (s.setGddr n x).dies = s.dies := rfl
@[simp] theorem setGddr_domains : (s.setGddr n x).domains = s.domains := rfl
@[simp] theorem setGddr_stk : (s.setGddr n x).stk = s.stk := rfl
@[simp] theorem setGddr_gddr : (s.setGddr n x).gddr = put Gddr.reset s.gddr n x := rfl
@[simp] theorem setGddr_ctl : (s.setGddr n x).ctl = s.ctl := rfl
@[simp] theorem setGddr_queues : (s.setGddr n x).queues = s.queues := rfl
@[simp] theorem setGddr_rota : (s.setGddr n x).rota = s.rota := rfl
@[simp] theorem setGddr_launches : (s.setGddr n x).launches = s.launches := rfl
@[simp] theorem setGddr_blocks : (s.setGddr n x).blocks = s.blocks := rfl
@[simp] theorem setGddr_handles : (s.setGddr n x).handles = s.handles := rfl
@[simp] theorem setGddr_ops : (s.setGddr n x).ops = s.ops := rfl
@[simp] theorem setGddr_combines : (s.setGddr n x).combines = s.combines := rfl
@[simp] theorem setGddr_parts : (s.setGddr n x).parts = s.parts := rfl
@[simp] theorem setGddr_conts : (s.setGddr n x).conts = s.conts := rfl
@[simp] theorem setGddr_rets : (s.setGddr n x).rets = s.rets := rfl
@[simp] theorem setGddr_notices : (s.setGddr n x).notices = s.notices := rfl
@[simp] theorem setGddr_resq : (s.setGddr n x).resq = s.resq := rfl
@[simp] theorem setGddr_resSeq : (s.setGddr n x).resSeq = s.resSeq := rfl
@[simp] theorem setGddr_reports : (s.setGddr n x).reports = s.reports := rfl
@[simp] theorem setGddr_raster : (s.setGddr n x).raster = s.raster := rfl
@[simp] theorem setGddr_dseq : (s.setGddr n x).dseq = s.dseq := rfl
@[simp] theorem setGddr_frags : (s.setGddr n x).frags = s.frags := rfl
@[simp] theorem setGddr_frames : (s.setGddr n x).frames = s.frames := rfl
@[simp] theorem setGddr_moves : (s.setGddr n x).moves = s.moves := rfl
@[simp] theorem setGddr_lnum : (s.setGddr n x).lnum = s.lnum := rfl
@[simp] theorem setGddr_pkgid : (s.setGddr n x).pkgid = s.pkgid := rfl
@[simp] theorem setGddr_fabric : (s.setGddr n x).fabric = s.fabric := rfl
@[simp] theorem setGddr_key : (s.setGddr n x).key = s.key := rfl
@[simp] theorem setGddr_fenced : (s.setGddr n x).fenced = s.fenced := rfl
@[simp] theorem setGddr_secRegions : (s.setGddr n x).secRegions = s.secRegions := rfl
@[simp] theorem setGddr_secEngines : (s.setGddr n x).secEngines = s.secEngines := rfl
@[simp] theorem setGddr_secChannels : (s.setGddr n x).secChannels = s.secChannels := rfl
@[simp] theorem setGddr_fuses : (s.setGddr n x).fuses = s.fuses := rfl
@[simp] theorem setGddr_images : (s.setGddr n x).images = s.images := rfl
@[simp] theorem setGddr_fatal : (s.setGddr n x).fatal = s.fatal := rfl
@[simp] theorem setGddr_recovery : (s.setGddr n x).recovery = s.recovery := rfl
@[simp] theorem setGddr_quote : (s.setGddr n x).quote = s.quote := rfl
@[simp] theorem setGddr_cur : (s.setGddr n x).cur = s.cur := rfl
@[simp] theorem setGddr_turn : (s.setGddr n x).turn = s.turn := rfl
@[simp] theorem setGddr_agenda : (s.setGddr n x).agenda = s.agenda := rfl
@[simp] theorem setGddr_late : (s.setGddr n x).late = s.late := rfl
@[simp] theorem setGddr_stale : (s.setGddr n x).stale = s.stale := rfl
@[simp] theorem setGddr_ctr : (s.setGddr n x).ctr = s.ctr := rfl
@[simp] theorem setGddr_nextId : (s.setGddr n x).nextId = s.nextId := rfl

end

section
variable (s : State) (n : Nat) (x : Group)

@[simp] theorem setGroup_mem : (s.setGroup n x).mem = s.mem := rfl
@[simp] theorem setGroup_badMem : (s.setGroup n x).badMem = s.badMem := rfl
@[simp] theorem setGroup_l1 : (s.setGroup n x).l1 = s.l1 := rfl
@[simp] theorem setGroup_llc : (s.setGroup n x).llc = s.llc := rfl
@[simp] theorem setGroup_msgs : (s.setGroup n x).msgs = s.msgs := rfl
@[simp] theorem setGroup_writes : (s.setGroup n x).writes = s.writes := rfl
@[simp] theorem setGroup_groups : (s.setGroup n x).groups = set s.groups n x := rfl
@[simp] theorem setGroup_cores : (s.setGroup n x).cores = s.cores := rfl
@[simp] theorem setGroup_clusters : (s.setGroup n x).clusters = s.clusters := rfl
@[simp] theorem setGroup_dies : (s.setGroup n x).dies = s.dies := rfl
@[simp] theorem setGroup_domains : (s.setGroup n x).domains = s.domains := rfl
@[simp] theorem setGroup_stk : (s.setGroup n x).stk = s.stk := rfl
@[simp] theorem setGroup_gddr : (s.setGroup n x).gddr = s.gddr := rfl
@[simp] theorem setGroup_ctl : (s.setGroup n x).ctl = s.ctl := rfl
@[simp] theorem setGroup_queues : (s.setGroup n x).queues = s.queues := rfl
@[simp] theorem setGroup_rota : (s.setGroup n x).rota = s.rota := rfl
@[simp] theorem setGroup_launches : (s.setGroup n x).launches = s.launches := rfl
@[simp] theorem setGroup_blocks : (s.setGroup n x).blocks = s.blocks := rfl
@[simp] theorem setGroup_handles : (s.setGroup n x).handles = s.handles := rfl
@[simp] theorem setGroup_ops : (s.setGroup n x).ops = s.ops := rfl
@[simp] theorem setGroup_combines : (s.setGroup n x).combines = s.combines := rfl
@[simp] theorem setGroup_parts : (s.setGroup n x).parts = s.parts := rfl
@[simp] theorem setGroup_conts : (s.setGroup n x).conts = s.conts := rfl
@[simp] theorem setGroup_rets : (s.setGroup n x).rets = s.rets := rfl
@[simp] theorem setGroup_notices : (s.setGroup n x).notices = s.notices := rfl
@[simp] theorem setGroup_resq : (s.setGroup n x).resq = s.resq := rfl
@[simp] theorem setGroup_resSeq : (s.setGroup n x).resSeq = s.resSeq := rfl
@[simp] theorem setGroup_reports : (s.setGroup n x).reports = s.reports := rfl
@[simp] theorem setGroup_raster : (s.setGroup n x).raster = s.raster := rfl
@[simp] theorem setGroup_dseq : (s.setGroup n x).dseq = s.dseq := rfl
@[simp] theorem setGroup_frags : (s.setGroup n x).frags = s.frags := rfl
@[simp] theorem setGroup_frames : (s.setGroup n x).frames = s.frames := rfl
@[simp] theorem setGroup_moves : (s.setGroup n x).moves = s.moves := rfl
@[simp] theorem setGroup_lnum : (s.setGroup n x).lnum = s.lnum := rfl
@[simp] theorem setGroup_pkgid : (s.setGroup n x).pkgid = s.pkgid := rfl
@[simp] theorem setGroup_fabric : (s.setGroup n x).fabric = s.fabric := rfl
@[simp] theorem setGroup_key : (s.setGroup n x).key = s.key := rfl
@[simp] theorem setGroup_fenced : (s.setGroup n x).fenced = s.fenced := rfl
@[simp] theorem setGroup_secRegions : (s.setGroup n x).secRegions = s.secRegions := rfl
@[simp] theorem setGroup_secEngines : (s.setGroup n x).secEngines = s.secEngines := rfl
@[simp] theorem setGroup_secChannels : (s.setGroup n x).secChannels = s.secChannels := rfl
@[simp] theorem setGroup_fuses : (s.setGroup n x).fuses = s.fuses := rfl
@[simp] theorem setGroup_images : (s.setGroup n x).images = s.images := rfl
@[simp] theorem setGroup_fatal : (s.setGroup n x).fatal = s.fatal := rfl
@[simp] theorem setGroup_recovery : (s.setGroup n x).recovery = s.recovery := rfl
@[simp] theorem setGroup_quote : (s.setGroup n x).quote = s.quote := rfl
@[simp] theorem setGroup_cur : (s.setGroup n x).cur = s.cur := rfl
@[simp] theorem setGroup_turn : (s.setGroup n x).turn = s.turn := rfl
@[simp] theorem setGroup_agenda : (s.setGroup n x).agenda = s.agenda := rfl
@[simp] theorem setGroup_late : (s.setGroup n x).late = s.late := rfl
@[simp] theorem setGroup_stale : (s.setGroup n x).stale = s.stale := rfl
@[simp] theorem setGroup_ctr : (s.setGroup n x).ctr = s.ctr := rfl
@[simp] theorem setGroup_nextId : (s.setGroup n x).nextId = s.nextId := rfl

end

section
variable (s : State) (n : Nat) (f : Group → Group)

@[simp] theorem updGroup_mem : (s.updGroup n f).mem = s.mem := rfl
@[simp] theorem updGroup_badMem : (s.updGroup n f).badMem = s.badMem := rfl
@[simp] theorem updGroup_l1 : (s.updGroup n f).l1 = s.l1 := rfl
@[simp] theorem updGroup_llc : (s.updGroup n f).llc = s.llc := rfl
@[simp] theorem updGroup_msgs : (s.updGroup n f).msgs = s.msgs := rfl
@[simp] theorem updGroup_writes : (s.updGroup n f).writes = s.writes := rfl
@[simp] theorem updGroup_groups : (s.updGroup n f).groups = upd s.groups n f := rfl
@[simp] theorem updGroup_cores : (s.updGroup n f).cores = s.cores := rfl
@[simp] theorem updGroup_clusters : (s.updGroup n f).clusters = s.clusters := rfl
@[simp] theorem updGroup_dies : (s.updGroup n f).dies = s.dies := rfl
@[simp] theorem updGroup_domains : (s.updGroup n f).domains = s.domains := rfl
@[simp] theorem updGroup_stk : (s.updGroup n f).stk = s.stk := rfl
@[simp] theorem updGroup_gddr : (s.updGroup n f).gddr = s.gddr := rfl
@[simp] theorem updGroup_ctl : (s.updGroup n f).ctl = s.ctl := rfl
@[simp] theorem updGroup_queues : (s.updGroup n f).queues = s.queues := rfl
@[simp] theorem updGroup_rota : (s.updGroup n f).rota = s.rota := rfl
@[simp] theorem updGroup_launches : (s.updGroup n f).launches = s.launches := rfl
@[simp] theorem updGroup_blocks : (s.updGroup n f).blocks = s.blocks := rfl
@[simp] theorem updGroup_handles : (s.updGroup n f).handles = s.handles := rfl
@[simp] theorem updGroup_ops : (s.updGroup n f).ops = s.ops := rfl
@[simp] theorem updGroup_combines : (s.updGroup n f).combines = s.combines := rfl
@[simp] theorem updGroup_parts : (s.updGroup n f).parts = s.parts := rfl
@[simp] theorem updGroup_conts : (s.updGroup n f).conts = s.conts := rfl
@[simp] theorem updGroup_rets : (s.updGroup n f).rets = s.rets := rfl
@[simp] theorem updGroup_notices : (s.updGroup n f).notices = s.notices := rfl
@[simp] theorem updGroup_resq : (s.updGroup n f).resq = s.resq := rfl
@[simp] theorem updGroup_resSeq : (s.updGroup n f).resSeq = s.resSeq := rfl
@[simp] theorem updGroup_reports : (s.updGroup n f).reports = s.reports := rfl
@[simp] theorem updGroup_raster : (s.updGroup n f).raster = s.raster := rfl
@[simp] theorem updGroup_dseq : (s.updGroup n f).dseq = s.dseq := rfl
@[simp] theorem updGroup_frags : (s.updGroup n f).frags = s.frags := rfl
@[simp] theorem updGroup_frames : (s.updGroup n f).frames = s.frames := rfl
@[simp] theorem updGroup_moves : (s.updGroup n f).moves = s.moves := rfl
@[simp] theorem updGroup_lnum : (s.updGroup n f).lnum = s.lnum := rfl
@[simp] theorem updGroup_pkgid : (s.updGroup n f).pkgid = s.pkgid := rfl
@[simp] theorem updGroup_fabric : (s.updGroup n f).fabric = s.fabric := rfl
@[simp] theorem updGroup_key : (s.updGroup n f).key = s.key := rfl
@[simp] theorem updGroup_fenced : (s.updGroup n f).fenced = s.fenced := rfl
@[simp] theorem updGroup_secRegions : (s.updGroup n f).secRegions = s.secRegions := rfl
@[simp] theorem updGroup_secEngines : (s.updGroup n f).secEngines = s.secEngines := rfl
@[simp] theorem updGroup_secChannels : (s.updGroup n f).secChannels = s.secChannels := rfl
@[simp] theorem updGroup_fuses : (s.updGroup n f).fuses = s.fuses := rfl
@[simp] theorem updGroup_images : (s.updGroup n f).images = s.images := rfl
@[simp] theorem updGroup_fatal : (s.updGroup n f).fatal = s.fatal := rfl
@[simp] theorem updGroup_recovery : (s.updGroup n f).recovery = s.recovery := rfl
@[simp] theorem updGroup_quote : (s.updGroup n f).quote = s.quote := rfl
@[simp] theorem updGroup_cur : (s.updGroup n f).cur = s.cur := rfl
@[simp] theorem updGroup_turn : (s.updGroup n f).turn = s.turn := rfl
@[simp] theorem updGroup_agenda : (s.updGroup n f).agenda = s.agenda := rfl
@[simp] theorem updGroup_late : (s.updGroup n f).late = s.late := rfl
@[simp] theorem updGroup_stale : (s.updGroup n f).stale = s.stale := rfl
@[simp] theorem updGroup_ctr : (s.updGroup n f).ctr = s.ctr := rfl
@[simp] theorem updGroup_nextId : (s.updGroup n f).nextId = s.nextId := rfl

end

section
variable (s : State) (n : Nat) (x : Launch)

@[simp] theorem setLaunch_mem : (s.setLaunch n x).mem = s.mem := rfl
@[simp] theorem setLaunch_badMem : (s.setLaunch n x).badMem = s.badMem := rfl
@[simp] theorem setLaunch_l1 : (s.setLaunch n x).l1 = s.l1 := rfl
@[simp] theorem setLaunch_llc : (s.setLaunch n x).llc = s.llc := rfl
@[simp] theorem setLaunch_msgs : (s.setLaunch n x).msgs = s.msgs := rfl
@[simp] theorem setLaunch_writes : (s.setLaunch n x).writes = s.writes := rfl
@[simp] theorem setLaunch_groups : (s.setLaunch n x).groups = s.groups := rfl
@[simp] theorem setLaunch_cores : (s.setLaunch n x).cores = s.cores := rfl
@[simp] theorem setLaunch_clusters : (s.setLaunch n x).clusters = s.clusters := rfl
@[simp] theorem setLaunch_dies : (s.setLaunch n x).dies = s.dies := rfl
@[simp] theorem setLaunch_domains : (s.setLaunch n x).domains = s.domains := rfl
@[simp] theorem setLaunch_stk : (s.setLaunch n x).stk = s.stk := rfl
@[simp] theorem setLaunch_gddr : (s.setLaunch n x).gddr = s.gddr := rfl
@[simp] theorem setLaunch_ctl : (s.setLaunch n x).ctl = s.ctl := rfl
@[simp] theorem setLaunch_queues : (s.setLaunch n x).queues = s.queues := rfl
@[simp] theorem setLaunch_rota : (s.setLaunch n x).rota = s.rota := rfl
@[simp] theorem setLaunch_launches : (s.setLaunch n x).launches = set s.launches n x := rfl
@[simp] theorem setLaunch_blocks : (s.setLaunch n x).blocks = s.blocks := rfl
@[simp] theorem setLaunch_handles : (s.setLaunch n x).handles = s.handles := rfl
@[simp] theorem setLaunch_ops : (s.setLaunch n x).ops = s.ops := rfl
@[simp] theorem setLaunch_combines : (s.setLaunch n x).combines = s.combines := rfl
@[simp] theorem setLaunch_parts : (s.setLaunch n x).parts = s.parts := rfl
@[simp] theorem setLaunch_conts : (s.setLaunch n x).conts = s.conts := rfl
@[simp] theorem setLaunch_rets : (s.setLaunch n x).rets = s.rets := rfl
@[simp] theorem setLaunch_notices : (s.setLaunch n x).notices = s.notices := rfl
@[simp] theorem setLaunch_resq : (s.setLaunch n x).resq = s.resq := rfl
@[simp] theorem setLaunch_resSeq : (s.setLaunch n x).resSeq = s.resSeq := rfl
@[simp] theorem setLaunch_reports : (s.setLaunch n x).reports = s.reports := rfl
@[simp] theorem setLaunch_raster : (s.setLaunch n x).raster = s.raster := rfl
@[simp] theorem setLaunch_dseq : (s.setLaunch n x).dseq = s.dseq := rfl
@[simp] theorem setLaunch_frags : (s.setLaunch n x).frags = s.frags := rfl
@[simp] theorem setLaunch_frames : (s.setLaunch n x).frames = s.frames := rfl
@[simp] theorem setLaunch_moves : (s.setLaunch n x).moves = s.moves := rfl
@[simp] theorem setLaunch_lnum : (s.setLaunch n x).lnum = s.lnum := rfl
@[simp] theorem setLaunch_pkgid : (s.setLaunch n x).pkgid = s.pkgid := rfl
@[simp] theorem setLaunch_fabric : (s.setLaunch n x).fabric = s.fabric := rfl
@[simp] theorem setLaunch_key : (s.setLaunch n x).key = s.key := rfl
@[simp] theorem setLaunch_fenced : (s.setLaunch n x).fenced = s.fenced := rfl
@[simp] theorem setLaunch_secRegions : (s.setLaunch n x).secRegions = s.secRegions := rfl
@[simp] theorem setLaunch_secEngines : (s.setLaunch n x).secEngines = s.secEngines := rfl
@[simp] theorem setLaunch_secChannels : (s.setLaunch n x).secChannels = s.secChannels := rfl
@[simp] theorem setLaunch_fuses : (s.setLaunch n x).fuses = s.fuses := rfl
@[simp] theorem setLaunch_images : (s.setLaunch n x).images = s.images := rfl
@[simp] theorem setLaunch_fatal : (s.setLaunch n x).fatal = s.fatal := rfl
@[simp] theorem setLaunch_recovery : (s.setLaunch n x).recovery = s.recovery := rfl
@[simp] theorem setLaunch_quote : (s.setLaunch n x).quote = s.quote := rfl
@[simp] theorem setLaunch_cur : (s.setLaunch n x).cur = s.cur := rfl
@[simp] theorem setLaunch_turn : (s.setLaunch n x).turn = s.turn := rfl
@[simp] theorem setLaunch_agenda : (s.setLaunch n x).agenda = s.agenda := rfl
@[simp] theorem setLaunch_late : (s.setLaunch n x).late = s.late := rfl
@[simp] theorem setLaunch_stale : (s.setLaunch n x).stale = s.stale := rfl
@[simp] theorem setLaunch_ctr : (s.setLaunch n x).ctr = s.ctr := rfl
@[simp] theorem setLaunch_nextId : (s.setLaunch n x).nextId = s.nextId := rfl

end

section
variable (s : State) (n : Nat) (f : Launch → Launch)

@[simp] theorem updLaunch_mem : (s.updLaunch n f).mem = s.mem := rfl
@[simp] theorem updLaunch_badMem : (s.updLaunch n f).badMem = s.badMem := rfl
@[simp] theorem updLaunch_l1 : (s.updLaunch n f).l1 = s.l1 := rfl
@[simp] theorem updLaunch_llc : (s.updLaunch n f).llc = s.llc := rfl
@[simp] theorem updLaunch_msgs : (s.updLaunch n f).msgs = s.msgs := rfl
@[simp] theorem updLaunch_writes : (s.updLaunch n f).writes = s.writes := rfl
@[simp] theorem updLaunch_groups : (s.updLaunch n f).groups = s.groups := rfl
@[simp] theorem updLaunch_cores : (s.updLaunch n f).cores = s.cores := rfl
@[simp] theorem updLaunch_clusters : (s.updLaunch n f).clusters = s.clusters := rfl
@[simp] theorem updLaunch_dies : (s.updLaunch n f).dies = s.dies := rfl
@[simp] theorem updLaunch_domains : (s.updLaunch n f).domains = s.domains := rfl
@[simp] theorem updLaunch_stk : (s.updLaunch n f).stk = s.stk := rfl
@[simp] theorem updLaunch_gddr : (s.updLaunch n f).gddr = s.gddr := rfl
@[simp] theorem updLaunch_ctl : (s.updLaunch n f).ctl = s.ctl := rfl
@[simp] theorem updLaunch_queues : (s.updLaunch n f).queues = s.queues := rfl
@[simp] theorem updLaunch_rota : (s.updLaunch n f).rota = s.rota := rfl
@[simp] theorem updLaunch_launches : (s.updLaunch n f).launches = upd s.launches n f := rfl
@[simp] theorem updLaunch_blocks : (s.updLaunch n f).blocks = s.blocks := rfl
@[simp] theorem updLaunch_handles : (s.updLaunch n f).handles = s.handles := rfl
@[simp] theorem updLaunch_ops : (s.updLaunch n f).ops = s.ops := rfl
@[simp] theorem updLaunch_combines : (s.updLaunch n f).combines = s.combines := rfl
@[simp] theorem updLaunch_parts : (s.updLaunch n f).parts = s.parts := rfl
@[simp] theorem updLaunch_conts : (s.updLaunch n f).conts = s.conts := rfl
@[simp] theorem updLaunch_rets : (s.updLaunch n f).rets = s.rets := rfl
@[simp] theorem updLaunch_notices : (s.updLaunch n f).notices = s.notices := rfl
@[simp] theorem updLaunch_resq : (s.updLaunch n f).resq = s.resq := rfl
@[simp] theorem updLaunch_resSeq : (s.updLaunch n f).resSeq = s.resSeq := rfl
@[simp] theorem updLaunch_reports : (s.updLaunch n f).reports = s.reports := rfl
@[simp] theorem updLaunch_raster : (s.updLaunch n f).raster = s.raster := rfl
@[simp] theorem updLaunch_dseq : (s.updLaunch n f).dseq = s.dseq := rfl
@[simp] theorem updLaunch_frags : (s.updLaunch n f).frags = s.frags := rfl
@[simp] theorem updLaunch_frames : (s.updLaunch n f).frames = s.frames := rfl
@[simp] theorem updLaunch_moves : (s.updLaunch n f).moves = s.moves := rfl
@[simp] theorem updLaunch_lnum : (s.updLaunch n f).lnum = s.lnum := rfl
@[simp] theorem updLaunch_pkgid : (s.updLaunch n f).pkgid = s.pkgid := rfl
@[simp] theorem updLaunch_fabric : (s.updLaunch n f).fabric = s.fabric := rfl
@[simp] theorem updLaunch_key : (s.updLaunch n f).key = s.key := rfl
@[simp] theorem updLaunch_fenced : (s.updLaunch n f).fenced = s.fenced := rfl
@[simp] theorem updLaunch_secRegions : (s.updLaunch n f).secRegions = s.secRegions := rfl
@[simp] theorem updLaunch_secEngines : (s.updLaunch n f).secEngines = s.secEngines := rfl
@[simp] theorem updLaunch_secChannels : (s.updLaunch n f).secChannels = s.secChannels := rfl
@[simp] theorem updLaunch_fuses : (s.updLaunch n f).fuses = s.fuses := rfl
@[simp] theorem updLaunch_images : (s.updLaunch n f).images = s.images := rfl
@[simp] theorem updLaunch_fatal : (s.updLaunch n f).fatal = s.fatal := rfl
@[simp] theorem updLaunch_recovery : (s.updLaunch n f).recovery = s.recovery := rfl
@[simp] theorem updLaunch_quote : (s.updLaunch n f).quote = s.quote := rfl
@[simp] theorem updLaunch_cur : (s.updLaunch n f).cur = s.cur := rfl
@[simp] theorem updLaunch_turn : (s.updLaunch n f).turn = s.turn := rfl
@[simp] theorem updLaunch_agenda : (s.updLaunch n f).agenda = s.agenda := rfl
@[simp] theorem updLaunch_late : (s.updLaunch n f).late = s.late := rfl
@[simp] theorem updLaunch_stale : (s.updLaunch n f).stale = s.stale := rfl
@[simp] theorem updLaunch_ctr : (s.updLaunch n f).ctr = s.ctr := rfl
@[simp] theorem updLaunch_nextId : (s.updLaunch n f).nextId = s.nextId := rfl

end

section
variable (s : State) (n : Nat) (x : Block)

@[simp] theorem setBlock_mem : (s.setBlock n x).mem = s.mem := rfl
@[simp] theorem setBlock_badMem : (s.setBlock n x).badMem = s.badMem := rfl
@[simp] theorem setBlock_l1 : (s.setBlock n x).l1 = s.l1 := rfl
@[simp] theorem setBlock_llc : (s.setBlock n x).llc = s.llc := rfl
@[simp] theorem setBlock_msgs : (s.setBlock n x).msgs = s.msgs := rfl
@[simp] theorem setBlock_writes : (s.setBlock n x).writes = s.writes := rfl
@[simp] theorem setBlock_groups : (s.setBlock n x).groups = s.groups := rfl
@[simp] theorem setBlock_cores : (s.setBlock n x).cores = s.cores := rfl
@[simp] theorem setBlock_clusters : (s.setBlock n x).clusters = s.clusters := rfl
@[simp] theorem setBlock_dies : (s.setBlock n x).dies = s.dies := rfl
@[simp] theorem setBlock_domains : (s.setBlock n x).domains = s.domains := rfl
@[simp] theorem setBlock_stk : (s.setBlock n x).stk = s.stk := rfl
@[simp] theorem setBlock_gddr : (s.setBlock n x).gddr = s.gddr := rfl
@[simp] theorem setBlock_ctl : (s.setBlock n x).ctl = s.ctl := rfl
@[simp] theorem setBlock_queues : (s.setBlock n x).queues = s.queues := rfl
@[simp] theorem setBlock_rota : (s.setBlock n x).rota = s.rota := rfl
@[simp] theorem setBlock_launches : (s.setBlock n x).launches = s.launches := rfl
@[simp] theorem setBlock_blocks : (s.setBlock n x).blocks = set s.blocks n x := rfl
@[simp] theorem setBlock_handles : (s.setBlock n x).handles = s.handles := rfl
@[simp] theorem setBlock_ops : (s.setBlock n x).ops = s.ops := rfl
@[simp] theorem setBlock_combines : (s.setBlock n x).combines = s.combines := rfl
@[simp] theorem setBlock_parts : (s.setBlock n x).parts = s.parts := rfl
@[simp] theorem setBlock_conts : (s.setBlock n x).conts = s.conts := rfl
@[simp] theorem setBlock_rets : (s.setBlock n x).rets = s.rets := rfl
@[simp] theorem setBlock_notices : (s.setBlock n x).notices = s.notices := rfl
@[simp] theorem setBlock_resq : (s.setBlock n x).resq = s.resq := rfl
@[simp] theorem setBlock_resSeq : (s.setBlock n x).resSeq = s.resSeq := rfl
@[simp] theorem setBlock_reports : (s.setBlock n x).reports = s.reports := rfl
@[simp] theorem setBlock_raster : (s.setBlock n x).raster = s.raster := rfl
@[simp] theorem setBlock_dseq : (s.setBlock n x).dseq = s.dseq := rfl
@[simp] theorem setBlock_frags : (s.setBlock n x).frags = s.frags := rfl
@[simp] theorem setBlock_frames : (s.setBlock n x).frames = s.frames := rfl
@[simp] theorem setBlock_moves : (s.setBlock n x).moves = s.moves := rfl
@[simp] theorem setBlock_lnum : (s.setBlock n x).lnum = s.lnum := rfl
@[simp] theorem setBlock_pkgid : (s.setBlock n x).pkgid = s.pkgid := rfl
@[simp] theorem setBlock_fabric : (s.setBlock n x).fabric = s.fabric := rfl
@[simp] theorem setBlock_key : (s.setBlock n x).key = s.key := rfl
@[simp] theorem setBlock_fenced : (s.setBlock n x).fenced = s.fenced := rfl
@[simp] theorem setBlock_secRegions : (s.setBlock n x).secRegions = s.secRegions := rfl
@[simp] theorem setBlock_secEngines : (s.setBlock n x).secEngines = s.secEngines := rfl
@[simp] theorem setBlock_secChannels : (s.setBlock n x).secChannels = s.secChannels := rfl
@[simp] theorem setBlock_fuses : (s.setBlock n x).fuses = s.fuses := rfl
@[simp] theorem setBlock_images : (s.setBlock n x).images = s.images := rfl
@[simp] theorem setBlock_fatal : (s.setBlock n x).fatal = s.fatal := rfl
@[simp] theorem setBlock_recovery : (s.setBlock n x).recovery = s.recovery := rfl
@[simp] theorem setBlock_quote : (s.setBlock n x).quote = s.quote := rfl
@[simp] theorem setBlock_cur : (s.setBlock n x).cur = s.cur := rfl
@[simp] theorem setBlock_turn : (s.setBlock n x).turn = s.turn := rfl
@[simp] theorem setBlock_agenda : (s.setBlock n x).agenda = s.agenda := rfl
@[simp] theorem setBlock_late : (s.setBlock n x).late = s.late := rfl
@[simp] theorem setBlock_stale : (s.setBlock n x).stale = s.stale := rfl
@[simp] theorem setBlock_ctr : (s.setBlock n x).ctr = s.ctr := rfl
@[simp] theorem setBlock_nextId : (s.setBlock n x).nextId = s.nextId := rfl

end

section
variable (s : State) (n : Nat) (x : EngineOp)

@[simp] theorem setOp_mem : (s.setOp n x).mem = s.mem := rfl
@[simp] theorem setOp_badMem : (s.setOp n x).badMem = s.badMem := rfl
@[simp] theorem setOp_l1 : (s.setOp n x).l1 = s.l1 := rfl
@[simp] theorem setOp_llc : (s.setOp n x).llc = s.llc := rfl
@[simp] theorem setOp_msgs : (s.setOp n x).msgs = s.msgs := rfl
@[simp] theorem setOp_writes : (s.setOp n x).writes = s.writes := rfl
@[simp] theorem setOp_groups : (s.setOp n x).groups = s.groups := rfl
@[simp] theorem setOp_cores : (s.setOp n x).cores = s.cores := rfl
@[simp] theorem setOp_clusters : (s.setOp n x).clusters = s.clusters := rfl
@[simp] theorem setOp_dies : (s.setOp n x).dies = s.dies := rfl
@[simp] theorem setOp_domains : (s.setOp n x).domains = s.domains := rfl
@[simp] theorem setOp_stk : (s.setOp n x).stk = s.stk := rfl
@[simp] theorem setOp_gddr : (s.setOp n x).gddr = s.gddr := rfl
@[simp] theorem setOp_ctl : (s.setOp n x).ctl = s.ctl := rfl
@[simp] theorem setOp_queues : (s.setOp n x).queues = s.queues := rfl
@[simp] theorem setOp_rota : (s.setOp n x).rota = s.rota := rfl
@[simp] theorem setOp_launches : (s.setOp n x).launches = s.launches := rfl
@[simp] theorem setOp_blocks : (s.setOp n x).blocks = s.blocks := rfl
@[simp] theorem setOp_handles : (s.setOp n x).handles = s.handles := rfl
@[simp] theorem setOp_ops : (s.setOp n x).ops = set s.ops n x := rfl
@[simp] theorem setOp_combines : (s.setOp n x).combines = s.combines := rfl
@[simp] theorem setOp_parts : (s.setOp n x).parts = s.parts := rfl
@[simp] theorem setOp_conts : (s.setOp n x).conts = s.conts := rfl
@[simp] theorem setOp_rets : (s.setOp n x).rets = s.rets := rfl
@[simp] theorem setOp_notices : (s.setOp n x).notices = s.notices := rfl
@[simp] theorem setOp_resq : (s.setOp n x).resq = s.resq := rfl
@[simp] theorem setOp_resSeq : (s.setOp n x).resSeq = s.resSeq := rfl
@[simp] theorem setOp_reports : (s.setOp n x).reports = s.reports := rfl
@[simp] theorem setOp_raster : (s.setOp n x).raster = s.raster := rfl
@[simp] theorem setOp_dseq : (s.setOp n x).dseq = s.dseq := rfl
@[simp] theorem setOp_frags : (s.setOp n x).frags = s.frags := rfl
@[simp] theorem setOp_frames : (s.setOp n x).frames = s.frames := rfl
@[simp] theorem setOp_moves : (s.setOp n x).moves = s.moves := rfl
@[simp] theorem setOp_lnum : (s.setOp n x).lnum = s.lnum := rfl
@[simp] theorem setOp_pkgid : (s.setOp n x).pkgid = s.pkgid := rfl
@[simp] theorem setOp_fabric : (s.setOp n x).fabric = s.fabric := rfl
@[simp] theorem setOp_key : (s.setOp n x).key = s.key := rfl
@[simp] theorem setOp_fenced : (s.setOp n x).fenced = s.fenced := rfl
@[simp] theorem setOp_secRegions : (s.setOp n x).secRegions = s.secRegions := rfl
@[simp] theorem setOp_secEngines : (s.setOp n x).secEngines = s.secEngines := rfl
@[simp] theorem setOp_secChannels : (s.setOp n x).secChannels = s.secChannels := rfl
@[simp] theorem setOp_fuses : (s.setOp n x).fuses = s.fuses := rfl
@[simp] theorem setOp_images : (s.setOp n x).images = s.images := rfl
@[simp] theorem setOp_fatal : (s.setOp n x).fatal = s.fatal := rfl
@[simp] theorem setOp_recovery : (s.setOp n x).recovery = s.recovery := rfl
@[simp] theorem setOp_quote : (s.setOp n x).quote = s.quote := rfl
@[simp] theorem setOp_cur : (s.setOp n x).cur = s.cur := rfl
@[simp] theorem setOp_turn : (s.setOp n x).turn = s.turn := rfl
@[simp] theorem setOp_agenda : (s.setOp n x).agenda = s.agenda := rfl
@[simp] theorem setOp_late : (s.setOp n x).late = s.late := rfl
@[simp] theorem setOp_stale : (s.setOp n x).stale = s.stale := rfl
@[simp] theorem setOp_ctr : (s.setOp n x).ctr = s.ctr := rfl
@[simp] theorem setOp_nextId : (s.setOp n x).nextId = s.nextId := rfl

end

section
variable (s : State) (c h : Nat) (x : Sfte)

@[simp] theorem setHandle_mem : (s.setHandle c h x).mem = s.mem := rfl
@[simp] theorem setHandle_badMem : (s.setHandle c h x).badMem = s.badMem := rfl
@[simp] theorem setHandle_l1 : (s.setHandle c h x).l1 = s.l1 := rfl
@[simp] theorem setHandle_llc : (s.setHandle c h x).llc = s.llc := rfl
@[simp] theorem setHandle_msgs : (s.setHandle c h x).msgs = s.msgs := rfl
@[simp] theorem setHandle_writes : (s.setHandle c h x).writes = s.writes := rfl
@[simp] theorem setHandle_groups : (s.setHandle c h x).groups = s.groups := rfl
@[simp] theorem setHandle_cores : (s.setHandle c h x).cores = s.cores := rfl
@[simp] theorem setHandle_clusters : (s.setHandle c h x).clusters = s.clusters := rfl
@[simp] theorem setHandle_dies : (s.setHandle c h x).dies = s.dies := rfl
@[simp] theorem setHandle_domains : (s.setHandle c h x).domains = s.domains := rfl
@[simp] theorem setHandle_stk : (s.setHandle c h x).stk = s.stk := rfl
@[simp] theorem setHandle_gddr : (s.setHandle c h x).gddr = s.gddr := rfl
@[simp] theorem setHandle_ctl : (s.setHandle c h x).ctl = s.ctl := rfl
@[simp] theorem setHandle_queues : (s.setHandle c h x).queues = s.queues := rfl
@[simp] theorem setHandle_rota : (s.setHandle c h x).rota = s.rota := rfl
@[simp] theorem setHandle_launches : (s.setHandle c h x).launches = s.launches := rfl
@[simp] theorem setHandle_blocks : (s.setHandle c h x).blocks = s.blocks := rfl
@[simp] theorem setHandle_handles : (s.setHandle c h x).handles = set s.handles (c * 4096 + h) x := rfl
@[simp] theorem setHandle_ops : (s.setHandle c h x).ops = s.ops := rfl
@[simp] theorem setHandle_combines : (s.setHandle c h x).combines = s.combines := rfl
@[simp] theorem setHandle_parts : (s.setHandle c h x).parts = s.parts := rfl
@[simp] theorem setHandle_conts : (s.setHandle c h x).conts = s.conts := rfl
@[simp] theorem setHandle_rets : (s.setHandle c h x).rets = s.rets := rfl
@[simp] theorem setHandle_notices : (s.setHandle c h x).notices = s.notices := rfl
@[simp] theorem setHandle_resq : (s.setHandle c h x).resq = s.resq := rfl
@[simp] theorem setHandle_resSeq : (s.setHandle c h x).resSeq = s.resSeq := rfl
@[simp] theorem setHandle_reports : (s.setHandle c h x).reports = s.reports := rfl
@[simp] theorem setHandle_raster : (s.setHandle c h x).raster = s.raster := rfl
@[simp] theorem setHandle_dseq : (s.setHandle c h x).dseq = s.dseq := rfl
@[simp] theorem setHandle_frags : (s.setHandle c h x).frags = s.frags := rfl
@[simp] theorem setHandle_frames : (s.setHandle c h x).frames = s.frames := rfl
@[simp] theorem setHandle_moves : (s.setHandle c h x).moves = s.moves := rfl
@[simp] theorem setHandle_lnum : (s.setHandle c h x).lnum = s.lnum := rfl
@[simp] theorem setHandle_pkgid : (s.setHandle c h x).pkgid = s.pkgid := rfl
@[simp] theorem setHandle_fabric : (s.setHandle c h x).fabric = s.fabric := rfl
@[simp] theorem setHandle_key : (s.setHandle c h x).key = s.key := rfl
@[simp] theorem setHandle_fenced : (s.setHandle c h x).fenced = s.fenced := rfl
@[simp] theorem setHandle_secRegions : (s.setHandle c h x).secRegions = s.secRegions := rfl
@[simp] theorem setHandle_secEngines : (s.setHandle c h x).secEngines = s.secEngines := rfl
@[simp] theorem setHandle_secChannels : (s.setHandle c h x).secChannels = s.secChannels := rfl
@[simp] theorem setHandle_fuses : (s.setHandle c h x).fuses = s.fuses := rfl
@[simp] theorem setHandle_images : (s.setHandle c h x).images = s.images := rfl
@[simp] theorem setHandle_fatal : (s.setHandle c h x).fatal = s.fatal := rfl
@[simp] theorem setHandle_recovery : (s.setHandle c h x).recovery = s.recovery := rfl
@[simp] theorem setHandle_quote : (s.setHandle c h x).quote = s.quote := rfl
@[simp] theorem setHandle_cur : (s.setHandle c h x).cur = s.cur := rfl
@[simp] theorem setHandle_turn : (s.setHandle c h x).turn = s.turn := rfl
@[simp] theorem setHandle_agenda : (s.setHandle c h x).agenda = s.agenda := rfl
@[simp] theorem setHandle_late : (s.setHandle c h x).late = s.late := rfl
@[simp] theorem setHandle_stale : (s.setHandle c h x).stale = s.stale := rfl
@[simp] theorem setHandle_ctr : (s.setHandle c h x).ctr = s.ctr := rfl
@[simp] theorem setHandle_nextId : (s.setHandle c h x).nextId = s.nextId := rfl

end

end State

section
variable (s : State) (r : Report)

@[simp] theorem report_mem : (report s r).mem = s.mem := rfl
@[simp] theorem report_badMem : (report s r).badMem = s.badMem := rfl
@[simp] theorem report_l1 : (report s r).l1 = s.l1 := rfl
@[simp] theorem report_llc : (report s r).llc = s.llc := rfl
@[simp] theorem report_msgs : (report s r).msgs = s.msgs := rfl
@[simp] theorem report_writes : (report s r).writes = s.writes := rfl
@[simp] theorem report_groups : (report s r).groups = s.groups := rfl
@[simp] theorem report_cores : (report s r).cores = s.cores := rfl
@[simp] theorem report_clusters : (report s r).clusters = s.clusters := rfl
@[simp] theorem report_dies : (report s r).dies = s.dies := rfl
@[simp] theorem report_domains : (report s r).domains = s.domains := rfl
@[simp] theorem report_stk : (report s r).stk = s.stk := rfl
@[simp] theorem report_gddr : (report s r).gddr = s.gddr := rfl
@[simp] theorem report_ctl : (report s r).ctl = s.ctl := rfl
@[simp] theorem report_queues : (report s r).queues = s.queues := rfl
@[simp] theorem report_rota : (report s r).rota = s.rota := rfl
@[simp] theorem report_launches : (report s r).launches = s.launches := rfl
@[simp] theorem report_blocks : (report s r).blocks = s.blocks := rfl
@[simp] theorem report_handles : (report s r).handles = s.handles := rfl
@[simp] theorem report_ops : (report s r).ops = s.ops := rfl
@[simp] theorem report_combines : (report s r).combines = s.combines := rfl
@[simp] theorem report_parts : (report s r).parts = s.parts := rfl
@[simp] theorem report_conts : (report s r).conts = s.conts := rfl
@[simp] theorem report_rets : (report s r).rets = s.rets := rfl
@[simp] theorem report_notices : (report s r).notices = s.notices := rfl
@[simp] theorem report_resq : (report s r).resq = s.resq := rfl
@[simp] theorem report_resSeq : (report s r).resSeq = s.resSeq := rfl
@[simp] theorem report_reports : (report s r).reports = s.reports ++ [r] := rfl
@[simp] theorem report_raster : (report s r).raster = s.raster := rfl
@[simp] theorem report_dseq : (report s r).dseq = s.dseq := rfl
@[simp] theorem report_frags : (report s r).frags = s.frags := rfl
@[simp] theorem report_frames : (report s r).frames = s.frames := rfl
@[simp] theorem report_moves : (report s r).moves = s.moves := rfl
@[simp] theorem report_lnum : (report s r).lnum = s.lnum := rfl
@[simp] theorem report_pkgid : (report s r).pkgid = s.pkgid := rfl
@[simp] theorem report_fabric : (report s r).fabric = s.fabric := rfl
@[simp] theorem report_key : (report s r).key = s.key := rfl
@[simp] theorem report_fenced : (report s r).fenced = s.fenced := rfl
@[simp] theorem report_secRegions : (report s r).secRegions = s.secRegions := rfl
@[simp] theorem report_secEngines : (report s r).secEngines = s.secEngines := rfl
@[simp] theorem report_secChannels : (report s r).secChannels = s.secChannels := rfl
@[simp] theorem report_fuses : (report s r).fuses = s.fuses := rfl
@[simp] theorem report_images : (report s r).images = s.images := rfl
@[simp] theorem report_fatal : (report s r).fatal = s.fatal := rfl
@[simp] theorem report_recovery : (report s r).recovery = s.recovery := rfl
@[simp] theorem report_quote : (report s r).quote = s.quote := rfl
@[simp] theorem report_cur : (report s r).cur = s.cur := rfl
@[simp] theorem report_turn : (report s r).turn = s.turn := rfl
@[simp] theorem report_agenda : (report s r).agenda = s.agenda := rfl
@[simp] theorem report_late : (report s r).late = s.late := rfl
@[simp] theorem report_stale : (report s r).stale = s.stale := rfl
@[simp] theorem report_ctr : (report s r).ctr = s.ctr := rfl
@[simp] theorem report_nextId : (report s r).nextId = s.nextId := rfl

end

section
variable (s : State) (loc : Nat) (b : Byte)

@[simp] theorem putByte_mem : (putByte s loc b).mem = put 0 s.mem loc b := rfl
@[simp] theorem putByte_badMem : (putByte s loc b).badMem = s.badMem.filter (· != loc) := rfl
@[simp] theorem putByte_l1 : (putByte s loc b).l1 = s.l1 := rfl
@[simp] theorem putByte_llc : (putByte s loc b).llc = s.llc := rfl
@[simp] theorem putByte_msgs : (putByte s loc b).msgs = s.msgs := rfl
@[simp] theorem putByte_writes : (putByte s loc b).writes = s.writes := rfl
@[simp] theorem putByte_groups : (putByte s loc b).groups = s.groups := rfl
@[simp] theorem putByte_cores : (putByte s loc b).cores = s.cores := rfl
@[simp] theorem putByte_clusters : (putByte s loc b).clusters = s.clusters := rfl
@[simp] theorem putByte_dies : (putByte s loc b).dies = s.dies := rfl
@[simp] theorem putByte_domains : (putByte s loc b).domains = s.domains := rfl
@[simp] theorem putByte_stk : (putByte s loc b).stk = s.stk := rfl
@[simp] theorem putByte_gddr : (putByte s loc b).gddr = s.gddr := rfl
@[simp] theorem putByte_ctl : (putByte s loc b).ctl = s.ctl := rfl
@[simp] theorem putByte_queues : (putByte s loc b).queues = s.queues := rfl
@[simp] theorem putByte_rota : (putByte s loc b).rota = s.rota := rfl
@[simp] theorem putByte_launches : (putByte s loc b).launches = s.launches := rfl
@[simp] theorem putByte_blocks : (putByte s loc b).blocks = s.blocks := rfl
@[simp] theorem putByte_handles : (putByte s loc b).handles = s.handles := rfl
@[simp] theorem putByte_ops : (putByte s loc b).ops = s.ops := rfl
@[simp] theorem putByte_combines : (putByte s loc b).combines = s.combines := rfl
@[simp] theorem putByte_parts : (putByte s loc b).parts = s.parts := rfl
@[simp] theorem putByte_conts : (putByte s loc b).conts = s.conts := rfl
@[simp] theorem putByte_rets : (putByte s loc b).rets = s.rets := rfl
@[simp] theorem putByte_notices : (putByte s loc b).notices = s.notices := rfl
@[simp] theorem putByte_resq : (putByte s loc b).resq = s.resq := rfl
@[simp] theorem putByte_resSeq : (putByte s loc b).resSeq = s.resSeq := rfl
@[simp] theorem putByte_reports : (putByte s loc b).reports = s.reports := rfl
@[simp] theorem putByte_raster : (putByte s loc b).raster = s.raster := rfl
@[simp] theorem putByte_dseq : (putByte s loc b).dseq = s.dseq := rfl
@[simp] theorem putByte_frags : (putByte s loc b).frags = s.frags := rfl
@[simp] theorem putByte_frames : (putByte s loc b).frames = s.frames := rfl
@[simp] theorem putByte_moves : (putByte s loc b).moves = s.moves := rfl
@[simp] theorem putByte_lnum : (putByte s loc b).lnum = s.lnum := rfl
@[simp] theorem putByte_pkgid : (putByte s loc b).pkgid = s.pkgid := rfl
@[simp] theorem putByte_fabric : (putByte s loc b).fabric = s.fabric := rfl
@[simp] theorem putByte_key : (putByte s loc b).key = s.key := rfl
@[simp] theorem putByte_fenced : (putByte s loc b).fenced = s.fenced := rfl
@[simp] theorem putByte_secRegions : (putByte s loc b).secRegions = s.secRegions := rfl
@[simp] theorem putByte_secEngines : (putByte s loc b).secEngines = s.secEngines := rfl
@[simp] theorem putByte_secChannels : (putByte s loc b).secChannels = s.secChannels := rfl
@[simp] theorem putByte_fuses : (putByte s loc b).fuses = s.fuses := rfl
@[simp] theorem putByte_images : (putByte s loc b).images = s.images := rfl
@[simp] theorem putByte_fatal : (putByte s loc b).fatal = s.fatal := rfl
@[simp] theorem putByte_recovery : (putByte s loc b).recovery = s.recovery := rfl
@[simp] theorem putByte_quote : (putByte s loc b).quote = s.quote := rfl
@[simp] theorem putByte_cur : (putByte s loc b).cur = s.cur := rfl
@[simp] theorem putByte_turn : (putByte s loc b).turn = s.turn := rfl
@[simp] theorem putByte_agenda : (putByte s loc b).agenda = s.agenda := rfl
@[simp] theorem putByte_late : (putByte s loc b).late = s.late := rfl
@[simp] theorem putByte_stale : (putByte s loc b).stale = s.stale := rfl
@[simp] theorem putByte_ctr : (putByte s loc b).ctr = s.ctr := rfl
@[simp] theorem putByte_nextId : (putByte s loc b).nextId = s.nextId := rfl

end

namespace Group

section
variable (g : Group) (n : Nat) (w : Word)

@[simp] theorem setS_core : (g.setS n w).core = g.core := rfl
@[simp] theorem setS_slot : (g.setS n w).slot = g.slot := rfl
@[simp] theorem setS_gen : (g.setS n w).gen = g.gen := rfl
@[simp] theorem setS_launch : (g.setS n w).launch = g.launch := rfl
@[simp] theorem setS_block : (g.setS n w).block = g.block := rfl
@[simp] theorem setS_ctx : (g.setS n w).ctx = g.ctx := rfl
@[simp] theorem setS_wid : (g.setS n w).wid = g.wid := rfl
@[simp] theorem setS_priv : (g.setS n w).priv = g.priv := rfl
@[simp] theorem setS_secure : (g.setS n w).secure = g.secure := rfl
@[simp] theorem setS_kind : (g.setS n w).kind = g.kind := rfl
@[simp] theorem setS_status : (g.setS n w).status = g.status := rfl
@[simp] theorem setS_pc : (g.setS n w).pc = g.pc := rfl
@[simp] theorem setS_ins : (g.setS n w).ins = g.ins := rfl
@[simp] theorem setS_vregs : (g.setS n w).vregs = g.vregs := rfl
@[simp] theorem setS_accs : (g.setS n w).accs = g.accs := rfl
@[simp] theorem setS_wb : (g.setS n w).wb = g.wb := rfl
@[simp] theorem setS_v : (g.setS n w).v = g.v := rfl
@[simp] theorem setS_s : (g.setS n w).s = put 0 g.s n w := rfl
@[simp] theorem setS_m : (g.setS n w).m = g.m := rfl
@[simp] theorem setS_amask : (g.setS n w).amask = g.amask := rfl
@[simp] theorem setS_lmask : (g.setS n w).lmask = g.lmask := rfl
@[simp] theorem setS_away : (g.setS n w).away = g.away := rfl
@[simp] theorem setS_killed : (g.setS n w).killed = g.killed := rfl
@[simp] theorem setS_mstack : (g.setS n w).mstack = g.mstack := rfl
@[simp] theorem setS_lstack : (g.setS n w).lstack = g.lstack := rfl
@[simp] theorem setS_fmt : (g.setS n w).fmt = g.fmt := rfl
@[simp] theorem setS_fst : (g.setS n w).fst = g.fst := rfl
@[simp] theorem setS_chain : (g.setS n w).chain = g.chain := rfl
@[simp] theorem setS_trap : (g.setS n w).trap = g.trap := rfl
@[simp] theorem setS_cont : (g.setS n w).cont = g.cont := rfl
@[simp] theorem setS_sattr : (g.setS n w).sattr = g.sattr := rfl
@[simp] theorem setS_ev : (g.setS n w).ev = g.ev := rfl
@[simp] theorem setS_mx : (g.setS n w).mx = g.mx := rfl
@[simp] theorem setS_dbg : (g.setS n w).dbg = g.dbg := rfl
@[simp] theorem setS_gtim : (g.setS n w).gtim = g.gtim := rfl
@[simp] theorem setS_held : (g.setS n w).held = g.held := rfl
@[simp] theorem setS_stackNo : (g.setS n w).stackNo = g.stackNo := rfl
@[simp] theorem setS_pending : (g.setS n w).pending = g.pending := rfl
@[simp] theorem setS_loads : (g.setS n w).loads = g.loads := rfl
@[simp] theorem setS_wbuf : (g.setS n w).wbuf = g.wbuf := rfl
@[simp] theorem setS_fences : (g.setS n w).fences = g.fences := rfl
@[simp] theorem setS_ahead : (g.setS n w).ahead = g.ahead := rfl
@[simp] theorem setS_view : (g.setS n w).view = g.view := rfl
@[simp] theorem setS_fetches : (g.setS n w).fetches = g.fetches := rfl
@[simp] theorem setS_badV : (g.setS n w).badV = g.badV := rfl
@[simp] theorem setS_badS : (g.setS n w).badS = g.badS.filter (· != n) := rfl
@[simp] theorem setS_badRow : (g.setS n w).badRow = g.badRow := rfl
@[simp] theorem setS_badSp : (g.setS n w).badSp = g.badSp := rfl

end

section
variable (g : Group) (n : Nat) (w : Word)

@[simp] theorem setM_core : (g.setM n w).core = g.core := rfl
@[simp] theorem setM_slot : (g.setM n w).slot = g.slot := rfl
@[simp] theorem setM_gen : (g.setM n w).gen = g.gen := rfl
@[simp] theorem setM_launch : (g.setM n w).launch = g.launch := rfl
@[simp] theorem setM_block : (g.setM n w).block = g.block := rfl
@[simp] theorem setM_ctx : (g.setM n w).ctx = g.ctx := rfl
@[simp] theorem setM_wid : (g.setM n w).wid = g.wid := rfl
@[simp] theorem setM_priv : (g.setM n w).priv = g.priv := rfl
@[simp] theorem setM_secure : (g.setM n w).secure = g.secure := rfl
@[simp] theorem setM_kind : (g.setM n w).kind = g.kind := rfl
@[simp] theorem setM_status : (g.setM n w).status = g.status := rfl
@[simp] theorem setM_pc : (g.setM n w).pc = g.pc := rfl
@[simp] theorem setM_ins : (g.setM n w).ins = g.ins := rfl
@[simp] theorem setM_vregs : (g.setM n w).vregs = g.vregs := rfl
@[simp] theorem setM_accs : (g.setM n w).accs = g.accs := rfl
@[simp] theorem setM_wb : (g.setM n w).wb = g.wb := rfl
@[simp] theorem setM_v : (g.setM n w).v = g.v := rfl
@[simp] theorem setM_s : (g.setM n w).s = g.s := rfl
@[simp] theorem setM_m : (g.setM n w).m = put 0 g.m n w := rfl
@[simp] theorem setM_amask : (g.setM n w).amask = g.amask := rfl
@[simp] theorem setM_lmask : (g.setM n w).lmask = g.lmask := rfl
@[simp] theorem setM_away : (g.setM n w).away = g.away := rfl
@[simp] theorem setM_killed : (g.setM n w).killed = g.killed := rfl
@[simp] theorem setM_mstack : (g.setM n w).mstack = g.mstack := rfl
@[simp] theorem setM_lstack : (g.setM n w).lstack = g.lstack := rfl
@[simp] theorem setM_fmt : (g.setM n w).fmt = g.fmt := rfl
@[simp] theorem setM_fst : (g.setM n w).fst = g.fst := rfl
@[simp] theorem setM_chain : (g.setM n w).chain = g.chain := rfl
@[simp] theorem setM_trap : (g.setM n w).trap = g.trap := rfl
@[simp] theorem setM_cont : (g.setM n w).cont = g.cont := rfl
@[simp] theorem setM_sattr : (g.setM n w).sattr = g.sattr := rfl
@[simp] theorem setM_ev : (g.setM n w).ev = g.ev := rfl
@[simp] theorem setM_mx : (g.setM n w).mx = g.mx := rfl
@[simp] theorem setM_dbg : (g.setM n w).dbg = g.dbg := rfl
@[simp] theorem setM_gtim : (g.setM n w).gtim = g.gtim := rfl
@[simp] theorem setM_held : (g.setM n w).held = g.held := rfl
@[simp] theorem setM_stackNo : (g.setM n w).stackNo = g.stackNo := rfl
@[simp] theorem setM_pending : (g.setM n w).pending = g.pending := rfl
@[simp] theorem setM_loads : (g.setM n w).loads = g.loads := rfl
@[simp] theorem setM_wbuf : (g.setM n w).wbuf = g.wbuf := rfl
@[simp] theorem setM_fences : (g.setM n w).fences = g.fences := rfl
@[simp] theorem setM_ahead : (g.setM n w).ahead = g.ahead := rfl
@[simp] theorem setM_view : (g.setM n w).view = g.view := rfl
@[simp] theorem setM_fetches : (g.setM n w).fetches = g.fetches := rfl
@[simp] theorem setM_badV : (g.setM n w).badV = g.badV := rfl
@[simp] theorem setM_badS : (g.setM n w).badS = g.badS := rfl
@[simp] theorem setM_badRow : (g.setM n w).badRow = g.badRow := rfl
@[simp] theorem setM_badSp : (g.setM n w).badSp = g.badSp := rfl

end

section
variable (g : Group) (c lane : Nat) (w : Word)

@[simp] theorem setElem_core : (g.setElem c lane w).core = g.core := rfl
@[simp] theorem setElem_slot : (g.setElem c lane w).slot = g.slot := rfl
@[simp] theorem setElem_gen : (g.setElem c lane w).gen = g.gen := rfl
@[simp] theorem setElem_launch : (g.setElem c lane w).launch = g.launch := rfl
@[simp] theorem setElem_block : (g.setElem c lane w).block = g.block := rfl
@[simp] theorem setElem_ctx : (g.setElem c lane w).ctx = g.ctx := rfl
@[simp] theorem setElem_wid : (g.setElem c lane w).wid = g.wid := rfl
@[simp] theorem setElem_priv : (g.setElem c lane w).priv = g.priv := rfl
@[simp] theorem setElem_secure : (g.setElem c lane w).secure = g.secure := rfl
@[simp] theorem setElem_kind : (g.setElem c lane w).kind = g.kind := rfl
@[simp] theorem setElem_status : (g.setElem c lane w).status = g.status := rfl
@[simp] theorem setElem_pc : (g.setElem c lane w).pc = g.pc := rfl
@[simp] theorem setElem_ins : (g.setElem c lane w).ins = g.ins := rfl
@[simp] theorem setElem_vregs : (g.setElem c lane w).vregs = g.vregs := rfl
@[simp] theorem setElem_accs : (g.setElem c lane w).accs = g.accs := rfl
@[simp] theorem setElem_wb : (g.setElem c lane w).wb = g.wb := rfl
@[simp] theorem setElem_v : (g.setElem c lane w).v = put 0 g.v (elemOf (g.wb + c) lane) w := rfl
@[simp] theorem setElem_s : (g.setElem c lane w).s = g.s := rfl
@[simp] theorem setElem_m : (g.setElem c lane w).m = g.m := rfl
@[simp] theorem setElem_amask : (g.setElem c lane w).amask = g.amask := rfl
@[simp] theorem setElem_lmask : (g.setElem c lane w).lmask = g.lmask := rfl
@[simp] theorem setElem_away : (g.setElem c lane w).away = g.away := rfl
@[simp] theorem setElem_killed : (g.setElem c lane w).killed = g.killed := rfl
@[simp] theorem setElem_mstack : (g.setElem c lane w).mstack = g.mstack := rfl
@[simp] theorem setElem_lstack : (g.setElem c lane w).lstack = g.lstack := rfl
@[simp] theorem setElem_fmt : (g.setElem c lane w).fmt = g.fmt := rfl
@[simp] theorem setElem_fst : (g.setElem c lane w).fst = g.fst := rfl
@[simp] theorem setElem_chain : (g.setElem c lane w).chain = g.chain := rfl
@[simp] theorem setElem_trap : (g.setElem c lane w).trap = g.trap := rfl
@[simp] theorem setElem_cont : (g.setElem c lane w).cont = g.cont := rfl
@[simp] theorem setElem_sattr : (g.setElem c lane w).sattr = g.sattr := rfl
@[simp] theorem setElem_ev : (g.setElem c lane w).ev = g.ev := rfl
@[simp] theorem setElem_mx : (g.setElem c lane w).mx = g.mx := rfl
@[simp] theorem setElem_dbg : (g.setElem c lane w).dbg = g.dbg := rfl
@[simp] theorem setElem_gtim : (g.setElem c lane w).gtim = g.gtim := rfl
@[simp] theorem setElem_held : (g.setElem c lane w).held = g.held := rfl
@[simp] theorem setElem_stackNo : (g.setElem c lane w).stackNo = g.stackNo := rfl
@[simp] theorem setElem_pending : (g.setElem c lane w).pending = g.pending := rfl
@[simp] theorem setElem_loads : (g.setElem c lane w).loads = g.loads := rfl
@[simp] theorem setElem_wbuf : (g.setElem c lane w).wbuf = g.wbuf := rfl
@[simp] theorem setElem_fences : (g.setElem c lane w).fences = g.fences := rfl
@[simp] theorem setElem_ahead : (g.setElem c lane w).ahead = g.ahead := rfl
@[simp] theorem setElem_view : (g.setElem c lane w).view = g.view := rfl
@[simp] theorem setElem_fetches : (g.setElem c lane w).fetches = g.fetches := rfl
@[simp] theorem setElem_badV : (g.setElem c lane w).badV = g.badV.filter (· != elemOf (g.wb + c) lane) := rfl
@[simp] theorem setElem_badS : (g.setElem c lane w).badS = g.badS := rfl
@[simp] theorem setElem_badRow : (g.setElem c lane w).badRow = g.badRow := rfl
@[simp] theorem setElem_badSp : (g.setElem c lane w).badSp = g.badSp := rfl

end

section
variable (g : Group) (n : Nat) (w : DWord)

@[simp] theorem setSPair_core : (g.setSPair n w).core = g.core := rfl
@[simp] theorem setSPair_slot : (g.setSPair n w).slot = g.slot := rfl
@[simp] theorem setSPair_gen : (g.setSPair n w).gen = g.gen := rfl
@[simp] theorem setSPair_launch : (g.setSPair n w).launch = g.launch := rfl
@[simp] theorem setSPair_block : (g.setSPair n w).block = g.block := rfl
@[simp] theorem setSPair_ctx : (g.setSPair n w).ctx = g.ctx := rfl
@[simp] theorem setSPair_wid : (g.setSPair n w).wid = g.wid := rfl
@[simp] theorem setSPair_priv : (g.setSPair n w).priv = g.priv := rfl
@[simp] theorem setSPair_secure : (g.setSPair n w).secure = g.secure := rfl
@[simp] theorem setSPair_kind : (g.setSPair n w).kind = g.kind := rfl
@[simp] theorem setSPair_status : (g.setSPair n w).status = g.status := rfl
@[simp] theorem setSPair_pc : (g.setSPair n w).pc = g.pc := rfl
@[simp] theorem setSPair_ins : (g.setSPair n w).ins = g.ins := rfl
@[simp] theorem setSPair_vregs : (g.setSPair n w).vregs = g.vregs := rfl
@[simp] theorem setSPair_accs : (g.setSPair n w).accs = g.accs := rfl
@[simp] theorem setSPair_wb : (g.setSPair n w).wb = g.wb := rfl
@[simp] theorem setSPair_v : (g.setSPair n w).v = g.v := rfl
@[simp] theorem setSPair_m : (g.setSPair n w).m = g.m := rfl
@[simp] theorem setSPair_amask : (g.setSPair n w).amask = g.amask := rfl
@[simp] theorem setSPair_lmask : (g.setSPair n w).lmask = g.lmask := rfl
@[simp] theorem setSPair_away : (g.setSPair n w).away = g.away := rfl
@[simp] theorem setSPair_killed : (g.setSPair n w).killed = g.killed := rfl
@[simp] theorem setSPair_mstack : (g.setSPair n w).mstack = g.mstack := rfl
@[simp] theorem setSPair_lstack : (g.setSPair n w).lstack = g.lstack := rfl
@[simp] theorem setSPair_fmt : (g.setSPair n w).fmt = g.fmt := rfl
@[simp] theorem setSPair_fst : (g.setSPair n w).fst = g.fst := rfl
@[simp] theorem setSPair_chain : (g.setSPair n w).chain = g.chain := rfl
@[simp] theorem setSPair_trap : (g.setSPair n w).trap = g.trap := rfl
@[simp] theorem setSPair_cont : (g.setSPair n w).cont = g.cont := rfl
@[simp] theorem setSPair_sattr : (g.setSPair n w).sattr = g.sattr := rfl
@[simp] theorem setSPair_ev : (g.setSPair n w).ev = g.ev := rfl
@[simp] theorem setSPair_mx : (g.setSPair n w).mx = g.mx := rfl
@[simp] theorem setSPair_dbg : (g.setSPair n w).dbg = g.dbg := rfl
@[simp] theorem setSPair_gtim : (g.setSPair n w).gtim = g.gtim := rfl
@[simp] theorem setSPair_held : (g.setSPair n w).held = g.held := rfl
@[simp] theorem setSPair_stackNo : (g.setSPair n w).stackNo = g.stackNo := rfl
@[simp] theorem setSPair_pending : (g.setSPair n w).pending = g.pending := rfl
@[simp] theorem setSPair_loads : (g.setSPair n w).loads = g.loads := rfl
@[simp] theorem setSPair_wbuf : (g.setSPair n w).wbuf = g.wbuf := rfl
@[simp] theorem setSPair_fences : (g.setSPair n w).fences = g.fences := rfl
@[simp] theorem setSPair_ahead : (g.setSPair n w).ahead = g.ahead := rfl
@[simp] theorem setSPair_view : (g.setSPair n w).view = g.view := rfl
@[simp] theorem setSPair_fetches : (g.setSPair n w).fetches = g.fetches := rfl
@[simp] theorem setSPair_badV : (g.setSPair n w).badV = g.badV := rfl
@[simp] theorem setSPair_badRow : (g.setSPair n w).badRow = g.badRow := rfl
@[simp] theorem setSPair_badSp : (g.setSPair n w).badSp = g.badSp := rfl

end

section
variable (g : Group) (c : Nat) (js : List Nat) (f : Nat → Word)

/-- What every element write keeps, a write of lanes keeps. -/
theorem setLanes_keeps {β : Type} (p : Group → β) (h : ∀ g c j w, p (Group.setElem g c j w) = p g) :
    p (g.setLanes c js f) = p g := by
  induction js generalizing g with
  | nil => rfl
  | cons j js ih => exact (ih _).trans (h g c j (f j))

@[simp] theorem setLanes_core : (g.setLanes c js f).core = g.core := setLanes_keeps g c js f (·.core) fun _ _ _ _ => rfl
@[simp] theorem setLanes_slot : (g.setLanes c js f).slot = g.slot := setLanes_keeps g c js f (·.slot) fun _ _ _ _ => rfl
@[simp] theorem setLanes_gen : (g.setLanes c js f).gen = g.gen := setLanes_keeps g c js f (·.gen) fun _ _ _ _ => rfl
@[simp] theorem setLanes_launch : (g.setLanes c js f).launch = g.launch := setLanes_keeps g c js f (·.launch) fun _ _ _ _ => rfl
@[simp] theorem setLanes_block : (g.setLanes c js f).block = g.block := setLanes_keeps g c js f (·.block) fun _ _ _ _ => rfl
@[simp] theorem setLanes_ctx : (g.setLanes c js f).ctx = g.ctx := setLanes_keeps g c js f (·.ctx) fun _ _ _ _ => rfl
@[simp] theorem setLanes_wid : (g.setLanes c js f).wid = g.wid := setLanes_keeps g c js f (·.wid) fun _ _ _ _ => rfl
@[simp] theorem setLanes_priv : (g.setLanes c js f).priv = g.priv := setLanes_keeps g c js f (·.priv) fun _ _ _ _ => rfl
@[simp] theorem setLanes_secure : (g.setLanes c js f).secure = g.secure := setLanes_keeps g c js f (·.secure) fun _ _ _ _ => rfl
@[simp] theorem setLanes_kind : (g.setLanes c js f).kind = g.kind := setLanes_keeps g c js f (·.kind) fun _ _ _ _ => rfl
@[simp] theorem setLanes_status : (g.setLanes c js f).status = g.status := setLanes_keeps g c js f (·.status) fun _ _ _ _ => rfl
@[simp] theorem setLanes_pc : (g.setLanes c js f).pc = g.pc := setLanes_keeps g c js f (·.pc) fun _ _ _ _ => rfl
@[simp] theorem setLanes_ins : (g.setLanes c js f).ins = g.ins := setLanes_keeps g c js f (·.ins) fun _ _ _ _ => rfl
@[simp] theorem setLanes_vregs : (g.setLanes c js f).vregs = g.vregs := setLanes_keeps g c js f (·.vregs) fun _ _ _ _ => rfl
@[simp] theorem setLanes_accs : (g.setLanes c js f).accs = g.accs := setLanes_keeps g c js f (·.accs) fun _ _ _ _ => rfl
@[simp] theorem setLanes_wb : (g.setLanes c js f).wb = g.wb := setLanes_keeps g c js f (·.wb) fun _ _ _ _ => rfl
@[simp] theorem setLanes_s : (g.setLanes c js f).s = g.s := setLanes_keeps g c js f (·.s) fun _ _ _ _ => rfl
@[simp] theorem setLanes_m : (g.setLanes c js f).m = g.m := setLanes_keeps g c js f (·.m) fun _ _ _ _ => rfl
@[simp] theorem setLanes_amask : (g.setLanes c js f).amask = g.amask := setLanes_keeps g c js f (·.amask) fun _ _ _ _ => rfl
@[simp] theorem setLanes_lmask : (g.setLanes c js f).lmask = g.lmask := setLanes_keeps g c js f (·.lmask) fun _ _ _ _ => rfl
@[simp] theorem setLanes_away : (g.setLanes c js f).away = g.away := setLanes_keeps g c js f (·.away) fun _ _ _ _ => rfl
@[simp] theorem setLanes_killed : (g.setLanes c js f).killed = g.killed := setLanes_keeps g c js f (·.killed) fun _ _ _ _ => rfl
@[simp] theorem setLanes_mstack : (g.setLanes c js f).mstack = g.mstack := setLanes_keeps g c js f (·.mstack) fun _ _ _ _ => rfl
@[simp] theorem setLanes_lstack : (g.setLanes c js f).lstack = g.lstack := setLanes_keeps g c js f (·.lstack) fun _ _ _ _ => rfl
@[simp] theorem setLanes_fmt : (g.setLanes c js f).fmt = g.fmt := setLanes_keeps g c js f (·.fmt) fun _ _ _ _ => rfl
@[simp] theorem setLanes_fst : (g.setLanes c js f).fst = g.fst := setLanes_keeps g c js f (·.fst) fun _ _ _ _ => rfl
@[simp] theorem setLanes_chain : (g.setLanes c js f).chain = g.chain := setLanes_keeps g c js f (·.chain) fun _ _ _ _ => rfl
@[simp] theorem setLanes_trap : (g.setLanes c js f).trap = g.trap := setLanes_keeps g c js f (·.trap) fun _ _ _ _ => rfl
@[simp] theorem setLanes_cont : (g.setLanes c js f).cont = g.cont := setLanes_keeps g c js f (·.cont) fun _ _ _ _ => rfl
@[simp] theorem setLanes_sattr : (g.setLanes c js f).sattr = g.sattr := setLanes_keeps g c js f (·.sattr) fun _ _ _ _ => rfl
@[simp] theorem setLanes_ev : (g.setLanes c js f).ev = g.ev := setLanes_keeps g c js f (·.ev) fun _ _ _ _ => rfl
@[simp] theorem setLanes_mx : (g.setLanes c js f).mx = g.mx := setLanes_keeps g c js f (·.mx) fun _ _ _ _ => rfl
@[simp] theorem setLanes_dbg : (g.setLanes c js f).dbg = g.dbg := setLanes_keeps g c js f (·.dbg) fun _ _ _ _ => rfl
@[simp] theorem setLanes_gtim : (g.setLanes c js f).gtim = g.gtim := setLanes_keeps g c js f (·.gtim) fun _ _ _ _ => rfl
@[simp] theorem setLanes_held : (g.setLanes c js f).held = g.held := setLanes_keeps g c js f (·.held) fun _ _ _ _ => rfl
@[simp] theorem setLanes_stackNo : (g.setLanes c js f).stackNo = g.stackNo := setLanes_keeps g c js f (·.stackNo) fun _ _ _ _ => rfl
@[simp] theorem setLanes_pending : (g.setLanes c js f).pending = g.pending := setLanes_keeps g c js f (·.pending) fun _ _ _ _ => rfl
@[simp] theorem setLanes_loads : (g.setLanes c js f).loads = g.loads := setLanes_keeps g c js f (·.loads) fun _ _ _ _ => rfl
@[simp] theorem setLanes_wbuf : (g.setLanes c js f).wbuf = g.wbuf := setLanes_keeps g c js f (·.wbuf) fun _ _ _ _ => rfl
@[simp] theorem setLanes_fences : (g.setLanes c js f).fences = g.fences := setLanes_keeps g c js f (·.fences) fun _ _ _ _ => rfl
@[simp] theorem setLanes_ahead : (g.setLanes c js f).ahead = g.ahead := setLanes_keeps g c js f (·.ahead) fun _ _ _ _ => rfl
@[simp] theorem setLanes_view : (g.setLanes c js f).view = g.view := setLanes_keeps g c js f (·.view) fun _ _ _ _ => rfl
@[simp] theorem setLanes_fetches : (g.setLanes c js f).fetches = g.fetches := setLanes_keeps g c js f (·.fetches) fun _ _ _ _ => rfl
@[simp] theorem setLanes_badS : (g.setLanes c js f).badS = g.badS := setLanes_keeps g c js f (·.badS) fun _ _ _ _ => rfl
@[simp] theorem setLanes_badRow : (g.setLanes c js f).badRow = g.badRow := setLanes_keeps g c js f (·.badRow) fun _ _ _ _ => rfl
@[simp] theorem setLanes_badSp : (g.setLanes c js f).badSp = g.badSp := setLanes_keeps g c js f (·.badSp) fun _ _ _ _ => rfl

end

section
variable (g : Group) (c : Nat) (js : List Nat) (f : Nat → DWord)

@[simp] theorem setLanes64_core : (g.setLanes64 c js f).core = g.core := by simp [setLanes64]
@[simp] theorem setLanes64_slot : (g.setLanes64 c js f).slot = g.slot := by simp [setLanes64]
@[simp] theorem setLanes64_gen : (g.setLanes64 c js f).gen = g.gen := by simp [setLanes64]
@[simp] theorem setLanes64_launch : (g.setLanes64 c js f).launch = g.launch := by simp [setLanes64]
@[simp] theorem setLanes64_block : (g.setLanes64 c js f).block = g.block := by simp [setLanes64]
@[simp] theorem setLanes64_ctx : (g.setLanes64 c js f).ctx = g.ctx := by simp [setLanes64]
@[simp] theorem setLanes64_wid : (g.setLanes64 c js f).wid = g.wid := by simp [setLanes64]
@[simp] theorem setLanes64_priv : (g.setLanes64 c js f).priv = g.priv := by simp [setLanes64]
@[simp] theorem setLanes64_secure : (g.setLanes64 c js f).secure = g.secure := by simp [setLanes64]
@[simp] theorem setLanes64_kind : (g.setLanes64 c js f).kind = g.kind := by simp [setLanes64]
@[simp] theorem setLanes64_status : (g.setLanes64 c js f).status = g.status := by simp [setLanes64]
@[simp] theorem setLanes64_pc : (g.setLanes64 c js f).pc = g.pc := by simp [setLanes64]
@[simp] theorem setLanes64_ins : (g.setLanes64 c js f).ins = g.ins := by simp [setLanes64]
@[simp] theorem setLanes64_vregs : (g.setLanes64 c js f).vregs = g.vregs := by simp [setLanes64]
@[simp] theorem setLanes64_accs : (g.setLanes64 c js f).accs = g.accs := by simp [setLanes64]
@[simp] theorem setLanes64_wb : (g.setLanes64 c js f).wb = g.wb := by simp [setLanes64]
@[simp] theorem setLanes64_s : (g.setLanes64 c js f).s = g.s := by simp [setLanes64]
@[simp] theorem setLanes64_m : (g.setLanes64 c js f).m = g.m := by simp [setLanes64]
@[simp] theorem setLanes64_amask : (g.setLanes64 c js f).amask = g.amask := by simp [setLanes64]
@[simp] theorem setLanes64_lmask : (g.setLanes64 c js f).lmask = g.lmask := by simp [setLanes64]
@[simp] theorem setLanes64_away : (g.setLanes64 c js f).away = g.away := by simp [setLanes64]
@[simp] theorem setLanes64_killed : (g.setLanes64 c js f).killed = g.killed := by simp [setLanes64]
@[simp] theorem setLanes64_mstack : (g.setLanes64 c js f).mstack = g.mstack := by simp [setLanes64]
@[simp] theorem setLanes64_lstack : (g.setLanes64 c js f).lstack = g.lstack := by simp [setLanes64]
@[simp] theorem setLanes64_fmt : (g.setLanes64 c js f).fmt = g.fmt := by simp [setLanes64]
@[simp] theorem setLanes64_fst : (g.setLanes64 c js f).fst = g.fst := by simp [setLanes64]
@[simp] theorem setLanes64_chain : (g.setLanes64 c js f).chain = g.chain := by simp [setLanes64]
@[simp] theorem setLanes64_trap : (g.setLanes64 c js f).trap = g.trap := by simp [setLanes64]
@[simp] theorem setLanes64_cont : (g.setLanes64 c js f).cont = g.cont := by simp [setLanes64]
@[simp] theorem setLanes64_sattr : (g.setLanes64 c js f).sattr = g.sattr := by simp [setLanes64]
@[simp] theorem setLanes64_ev : (g.setLanes64 c js f).ev = g.ev := by simp [setLanes64]
@[simp] theorem setLanes64_mx : (g.setLanes64 c js f).mx = g.mx := by simp [setLanes64]
@[simp] theorem setLanes64_dbg : (g.setLanes64 c js f).dbg = g.dbg := by simp [setLanes64]
@[simp] theorem setLanes64_gtim : (g.setLanes64 c js f).gtim = g.gtim := by simp [setLanes64]
@[simp] theorem setLanes64_held : (g.setLanes64 c js f).held = g.held := by simp [setLanes64]
@[simp] theorem setLanes64_stackNo : (g.setLanes64 c js f).stackNo = g.stackNo := by simp [setLanes64]
@[simp] theorem setLanes64_pending : (g.setLanes64 c js f).pending = g.pending := by simp [setLanes64]
@[simp] theorem setLanes64_loads : (g.setLanes64 c js f).loads = g.loads := by simp [setLanes64]
@[simp] theorem setLanes64_wbuf : (g.setLanes64 c js f).wbuf = g.wbuf := by simp [setLanes64]
@[simp] theorem setLanes64_fences : (g.setLanes64 c js f).fences = g.fences := by simp [setLanes64]
@[simp] theorem setLanes64_ahead : (g.setLanes64 c js f).ahead = g.ahead := by simp [setLanes64]
@[simp] theorem setLanes64_view : (g.setLanes64 c js f).view = g.view := by simp [setLanes64]
@[simp] theorem setLanes64_fetches : (g.setLanes64 c js f).fetches = g.fetches := by simp [setLanes64]
@[simp] theorem setLanes64_badS : (g.setLanes64 c js f).badS = g.badS := by simp [setLanes64]
@[simp] theorem setLanes64_badRow : (g.setLanes64 c js f).badRow = g.badRow := by simp [setLanes64]
@[simp] theorem setLanes64_badSp : (g.setLanes64 c js f).badSp = g.badSp := by simp [setLanes64]

end

end Group

end Sys2Proof.Machine
end

