-- ==== Sys2Proof/Laws/Issue.lean ====
section
/-! SUPPORT. What the issue of an instruction can do, said once (Machine/Issue.lean). -/

namespace Sys2Proof.Machine

open Assoc Bits

@[simp] theorem consume_zero (s : State) (gid : Nat) (ws : List RegId) (pc : DWord) : consume s gid ws 0#32 pc = s := by
  simp [consume]

@[simp] theorem standAside_zero (s : State) (gid : Nat) (sp : Map Word) : standAside s gid 0#32 sp = s := by simp [standAside]

@[simp] theorem Effect.alsoLanes_zero (e : Effect) : e.alsoLanes 0#32 = e := by cases e <;> simp [Effect.alsoLanes]

/-- Nothing more is done to the state of an effect. -/
@[simp] theorem Effect.map_id (e : Effect) : (e.map fun s => s) = e := by cases e <;> rfl

@[simp] theorem group?_setGroup_same (s : State) (gid : Nat) (g : Group) : (s.setGroup gid g).group? gid = some g := by
  simp [State.group?]

theorem group?_setGroup_other (s : State) {gid gid' : Nat} (g : Group) (h : gid' ≠ gid) :
    (s.setGroup gid g).group? gid' = s.group? gid' := by
  simp [State.group?, find_set_other _ _ h]

@[simp] theorem setGroup_setGroup (s : State) (gid : Nat) (g g' : Group) :
    (s.setGroup gid g).setGroup gid g' = s.setGroup gid g' := by
  simp [State.setGroup]

/-- An instruction that the group admits comes to what its effect comes to. -/
theorem issue_of_admits {i : Instr} {s : State} {g : Group} (h : Admits i s g)
    (body : State → Nat → Group → Effect) :
    issue i body s = .next (settle s s.cur g i (oprsOf g.fmt i) (chainAt g (oprsOf g.fmt i)) (body s s.cur g)) := by
  obtain ⟨hg, hs, hd, hst, hb, hu, hc⟩ := h
  simp [issue, hg, hs, hd, hst, hb, hc, readState, hu, ite_self]

/-- An instruction whose decode checks fail faults (R57). -/
theorem issue_of_decodeFault {i : Instr} {s : State} {g : Group} {c : Cause} (hg : s.group? s.cur = some g)
    (hs : g.status = .ready) (hc : (s.coreAt g.core).scanning = false) (hd : decodeFault s g i = some c)
    (body : State → Nat → Group → Effect) :
    issue i body s = .next (raise (ranHere s g) s.cur g (faultJoins s g i) c 0 0 (insWord i)) := by
  simp [issue, hg, hs, hc, hd]

/-- A group on a core that is being scanned issues nothing (R322). -/
theorem issue_of_scanning {i : Instr} {s : State} {g : Group} (hg : s.group? s.cur = some g)
    (hc : (s.coreAt g.core).scanning = true) (body : State → Nat → Group → Effect) : issue i body s = .next s := by
  simp [issue, hg, hc]

/-- A group that is not Ready issues nothing. -/
theorem issue_of_not_ready {i : Instr} {s : State} {g : Group} (hg : s.group? s.cur = some g)
    (hs : g.status ≠ .ready) (body : State → Nat → Group → Effect) : issue i body s = .next s := by
  simp [issue, hg, hs]

/-- Every instruction word answers a next state, whatever the state. -/
theorem issue_next (i : Instr) (body : State → Nat → Group → Effect) (s : State) : ∃ t, issue i body s = .next t := by
  unfold issue
  split
  · exact ⟨_, rfl⟩
  · split
    · exact ⟨_, rfl⟩
    · dsimp only
      split
      · exact ⟨_, rfl⟩
      · split
        · exact ⟨_, rfl⟩
        · split
          · exact ⟨_, rfl⟩
          · split <;> exact ⟨_, rfl⟩

end Sys2Proof.Machine
end

