-- ==== Sys2Proof/Laws/Effects.lean ====
section
/-! SUPPORT. What an instruction that the group admits leaves, by the effect that its meaning comes to: one lemma for
each, in the terms of the statements (Safety.lean). -/

namespace Sys2Proof.Machine

open Assoc Bits

variable {i : Instr} {s s' : State} {g : Group} {body : State → Nat → Group → Effect}

/-- Completed, with a latch. -/
theorem issue_done {l : Latch} (h : Admits i s g) (hb : body s s.cur g = .done s' l 0 0) :
    issue i body s = .next (after i s g s' l) := by
  rw [issue_of_admits h, hb]; rfl

/-- Completed, without one. -/
theorem issue_plain (h : Admits i s g) (hb : body s s.cur g = .plain s') :
    issue i body s = .next (after i s g s' .none) := issue_done h hb

/-- Completed, with enabled FP exceptions. -/
theorem issue_fp {l : Latch} {fp : BitVec 5} {lanes : Word} (h : Admits i s g)
    (hb : body s s.cur g = .done s' l fp lanes) : issue i body s = .next (afterFp i s g s' l fp lanes) := by
  rw [issue_of_admits h, hb]; rfl

/-- A control transfer. -/
theorem issue_jump (h : Admits i s g) (hb : body s s.cur g = .jump s') : issue i body s = .next (jumped i s g s') := by
  rw [issue_of_admits h, hb]; rfl

/-- Issued and parked. -/
theorem issue_park (h : Admits i s g) (hb : body s s.cur g = .park s') : issue i body s = .next (parkedAt i s g s') := by
  rw [issue_of_admits h, hb]; rfl

/-- Waiting where it stands. -/
theorem issue_hold (h : Admits i s g) (hb : body s s.cur g = .hold s') : issue i body s = .next (heldAt i s g s') := by
  rw [issue_of_admits h, hb]; rfl

/-- It does not issue. -/
theorem issue_stall (h : Admits i s g) (hb : body s s.cur g = .stall) : issue i body s = .next s := by
  rw [issue_of_admits h, hb]; rfl

/-- The group has gone. -/
theorem issue_gone (h : Admits i s g) (hb : body s s.cur g = .gone s') : issue i body s = .next (ranHere s' g) := by
  rw [issue_of_admits h, hb]; rfl

/-- A fault at issue. -/
theorem issue_fault {c : Cause} {lanes : Word} {a : DWord} (h : Admits i s g)
    (hb : body s s.cur g = .fault c lanes a) : issue i body s = .next (faulted i s g c lanes a) := by
  rw [issue_of_admits h, hb]; rfl

/-- A trap after it. -/
theorem issue_thenTrap {c : Cause} {lanes : Word} (h : Admits i s g) (hb : body s s.cur g = .thenTrap s' c lanes) :
    issue i body s = .next (trapped i s g s' c lanes) := by
  rw [issue_of_admits h, hb]; rfl

end Sys2Proof.Machine
end

