-- ==== Sys2Proof/Laws/Encoding.lean ====
section
/-! SUPPORT. Reading back the fields of a packed word, one lemma per format (R32). -/

namespace Sys2Proof

open Machine.Bits

theorem field_eq {k n : Nat} {w : BitVec k} {lo : Nat} {c : BitVec n} (h : w.toNat / 2 ^ lo % 2 ^ n = c.toNat) :
    field w lo n = c := by
  apply BitVec.eq_of_toNat_eq
  simpa [field] using h

section
variable (maj fn : Nat) (d a b c : Code) (nw x : Bool) (st : BitVec 4) (imm : BitVec 12) (imm19 : BitVec 19)
  (off16 : BitVec 16) (off26 : BitVec 26)

theorem packF3_toNat (hm : maj < 64) (hf : fn < 16) : (packF3 maj fn d a b nw).toNat =
    maj * 2 ^ 26 + d.toNat * 2 ^ 19 + a.toNat * 2 ^ 12 + b.toNat * 2 ^ 5 + nw.toNat * 2 ^ 4 + fn := by
  have := d.isLt; have := a.isLt; have := b.isLt; have := nw.toNat_le
  simp only [packF3, BitVec.toNat_ofNat]
  omega

theorem major_packF3 (hm : maj < 64) (hf : fn < 16) : fieldNat (packF3 maj fn d a b nw) 26 6 = maj := by
  have := d.isLt; have := a.isLt; have := b.isLt; have := nw.toNat_le
  simp only [fieldNat, packF3_toNat maj fn d a b nw hm hf]
  omega

theorem f3_packF3 (hm : maj < 64) (hf : fn < 16) : f3 (packF3 maj fn d a b nw) = ⟨d, a, b, nw, fn⟩ := by
  have hd := d.isLt; have ha := a.isLt; have hb := b.isLt; have := nw.toNat_le
  have h := packF3_toNat maj fn d a b nw hm hf
  have e4 : bit (packF3 maj fn d a b nw) 4 = nw := by
    simp only [bit, h]
    cases nw <;> simp <;> omega
  have e5 : fieldNat (packF3 maj fn d a b nw) 0 4 = fn := by simp only [fieldNat, h]; omega
  rw [f3, e4, e5, field_eq (c := d) (by rw [h]; omega), field_eq (c := a) (by rw [h]; omega),
    field_eq (c := b) (by rw [h]; omega)]

theorem packFM_toNat (hm : maj < 64) : (packFM maj d a b st x).toNat =
    maj * 2 ^ 26 + d.toNat * 2 ^ 19 + a.toNat * 2 ^ 12 + b.toNat * 2 ^ 5 + st.toNat * 2 + x.toNat := by
  have := d.isLt; have := a.isLt; have := b.isLt; have := st.isLt; have := x.toNat_le
  simp only [packFM, BitVec.toNat_ofNat]
  omega

theorem major_packFM (hm : maj < 64) : fieldNat (packFM maj d a b st x) 26 6 = maj := by
  have := d.isLt; have := a.isLt; have := b.isLt; have := st.isLt; have := x.toNat_le
  simp only [fieldNat, packFM_toNat maj d a b x st hm]
  omega

theorem fm_packFM (hm : maj < 64) : fm (packFM maj d a b st x) = ⟨d, a, b, st, x⟩ := by
  have hd := d.isLt; have ha := a.isLt; have hb := b.isLt; have hs := st.isLt; have := x.toNat_le
  have h := packFM_toNat maj d a b x st hm
  have e4 : bit (packFM maj d a b st x) 0 = x := by
    simp only [bit, h]
    cases x <;> simp <;> omega
  rw [fm, e4, field_eq (c := d) (by rw [h]; omega), field_eq (c := a) (by rw [h]; omega),
    field_eq (c := b) (by rw [h]; omega), field_eq (c := st) (by rw [h]; omega)]

theorem packFI_fields (hm : maj < 64) : fieldNat (packFI maj d a imm) 26 6 = maj ∧
    field (packFI maj d a imm) 19 7 = d ∧ field (packFI maj d a imm) 12 7 = a ∧
    field (packFI maj d a imm) 0 12 = imm := by
  have hd := d.isLt; have ha := a.isLt; have hi := imm.isLt
  have h : (packFI maj d a imm).toNat = maj * 2 ^ 26 + d.toNat * 2 ^ 19 + a.toNat * 2 ^ 12 + imm.toNat := by
    simp only [packFI, BitVec.toNat_ofNat]; omega
  refine ⟨by simp only [fieldNat, h]; omega, field_eq ?_, field_eq ?_, field_eq ?_⟩ <;> rw [h] <;> omega

theorem packFK_fields (hm : maj < 64) : fieldNat (packFK maj d imm19) 26 6 = maj ∧
    field (packFK maj d imm19) 19 7 = d ∧ field (packFK maj d imm19) 0 19 = imm19 := by
  have hd := d.isLt; have hi := imm19.isLt
  have h : (packFK maj d imm19).toNat = maj * 2 ^ 26 + d.toNat * 2 ^ 19 + imm19.toNat := by
    simp only [packFK, BitVec.toNat_ofNat]; omega
  refine ⟨by simp only [fieldNat, h]; omega, field_eq ?_, field_eq ?_⟩ <;> rw [h] <;> omega

theorem packFB_fields (hm : maj < 64) (cnd : Nat) (hc : cnd < 8) : fieldNat (packFB maj cnd a off16) 26 6 = maj ∧
    fieldNat (packFB maj cnd a off16) 16 3 = cnd ∧ field (packFB maj cnd a off16) 19 7 = a ∧
    field (packFB maj cnd a off16) 0 16 = off16 := by
  have ha := a.isLt; have hi := off16.isLt
  have h : (packFB maj cnd a off16).toNat = maj * 2 ^ 26 + a.toNat * 2 ^ 19 + cnd * 2 ^ 16 + off16.toNat := by
    simp only [packFB, BitVec.toNat_ofNat]; omega
  refine ⟨by simp only [fieldNat, h]; omega, by simp only [fieldNat, h]; omega, field_eq ?_, field_eq ?_⟩ <;>
    rw [h] <;> omega

theorem packFJ_fields (hm : maj < 64) : fieldNat (packFJ maj off26) 26 6 = maj ∧
    field (packFJ maj off26) 0 26 = off26 := by
  have hi := off26.isLt
  have h : (packFJ maj off26).toNat = maj * 2 ^ 26 + off26.toNat := by
    simp only [packFJ, BitVec.toNat_ofNat]; omega
  refine ⟨by simp only [fieldNat, h]; omega, field_eq ?_⟩
  rw [h]; omega

theorem packFL_fields : fieldNat (packFL a imm) 26 6 = 0x1A ∧ field (packFL a imm) 19 7 = a ∧
    field (packFL a imm) 7 12 = imm ∧ fieldNat (packFL a imm) 7 12 = imm.toNat ∧ fieldNat (packFL a imm) 0 7 = 0 := by
  have ha := a.isLt; have hi := imm.isLt
  have h : (packFL a imm).toNat = 0x1A * 2 ^ 26 + a.toNat * 2 ^ 19 + imm.toNat * 2 ^ 7 := by
    simp only [packFL, BitVec.toNat_ofNat]; omega
  refine ⟨by simp only [fieldNat, h]; omega, field_eq ?_, field_eq ?_, by simp only [fieldNat, h]; omega,
    by simp only [fieldNat, h]; omega⟩ <;> rw [h] <;> omega

theorem packF4_fields (f : Nat) (hf : f < 2) : 0x38 ≤ fieldNat (packF4 f d a b c) 26 6 ∧
    fieldNat (packF4 f d a b c) 26 6 < 64 ∧ bit (packF4 f d a b c) 28 = (f == 1) ∧
    field (packF4 f d a b c) 21 7 = d ∧ field (packF4 f d a b c) 14 7 = a ∧ field (packF4 f d a b c) 7 7 = b ∧
    field (packF4 f d a b c) 0 7 = c := by
  have hd := d.isLt; have ha := a.isLt; have hb := b.isLt; have hc := c.isLt
  have h : (packF4 f d a b c).toNat =
      7 * 2 ^ 29 + f * 2 ^ 28 + d.toNat * 2 ^ 21 + a.toNat * 2 ^ 14 + b.toNat * 2 ^ 7 + c.toNat := by
    simp only [packF4, BitVec.toNat_ofNat]; omega
  refine ⟨by simp only [fieldNat, h]; omega, by simp only [fieldNat, h]; omega, ?_, field_eq ?_, field_eq ?_,
    field_eq ?_, field_eq ?_⟩
  · simp only [bit, h]
    obtain rfl | rfl : f = 0 ∨ f = 1 := by omega
    all_goals simp
    all_goals omega
  all_goals rw [h]; omega

end

end Sys2Proof
end

