-- ==== Sys2Proof/Laws/Memory.lean ====
section
/-! SUPPORT. Memory: every operation over it keeps the canonical form, a read after a write gives the value written,
and a write leaves every other location alone. -/

namespace Sys2Proof.Machine

open Assoc Bits

/-! ### The canonical form -/

theorem putByte_wf (s : State) (loc : Nat) (b : Byte) (h : s.mem.wf = true) : (putByte s loc b).mem.wf = true :=
  canon_put 0 s.mem loc b h

theorem writeByte_wf (s : State) (loc : Nat) (b : Byte) (h : s.mem.wf = true) : (writeByte s loc b).mem.wf = true := by
  unfold writeByte
  split
  · exact putByte_wf _ _ _ (putByte_wf _ _ _ h)
  · exact putByte_wf _ _ _ h

theorem writeCells_wf (bs : List (Nat × Byte)) : ∀ s : State, s.mem.wf = true → (writeCells s bs).mem.wf = true := by
  induction bs with
  | nil => exact fun s h => h
  | cons e bs ih => exact fun s h => ih _ (writeByte_wf s e.1 e.2 h)

@[simp] theorem mailboxEdges_mem (s : State) (locs : List Nat) : (mailboxEdges s locs).mem = s.mem := rfl

@[simp] theorem poison_mem (s : State) (locs : List Nat) : (poison s locs).mem = s.mem := rfl

/-! What the caches note of a write concerns no byte (Machine/Caches.lean). -/

theorem dropCopy_frame (s : State) (core line : Nat) : ∃ x, dropCopy s core line = { s with l1 := x } := ⟨_, rfl⟩

theorem noteLine_frame (w : Writer) (n : Nat) (s : State) (line : Nat) (offs : List Nat) :
    ∃ x y, noteLine w n s line offs = { s with l1 := x, msgs := y } := by
  simp only [noteLine]
  split <;> exact ⟨_, _, rfl⟩

theorem foldl_noteLine_frame (w : Writer) (n : Nat) (f : Nat → List Nat) (ls : List Nat) :
    ∀ s : State, ∃ x y, ls.foldl (fun s l => noteLine w n s l (f l)) s = { s with l1 := x, msgs := y } := by
  induction ls with
  | nil => exact fun s => ⟨_, _, rfl⟩
  | cons l ls ih =>
    intro s
    obtain ⟨x, y, h⟩ := noteLine_frame w n s l (f l)
    obtain ⟨x', y', h'⟩ := ih (noteLine w n s l (f l))
    exact ⟨x', y', by rw [List.foldl_cons, h', h]⟩

/-- A write noted changes the copies, what readers follow and the number of the next write, and nothing else. -/
theorem noteWrite_frame (w : Writer) (s : State) (locs : List Nat) :
    ∃ x y n, noteWrite w s locs = { s with l1 := x, msgs := y, writes := n } := by
  simp only [noteWrite]
  split
  · exact ⟨_, _, _, rfl⟩
  · obtain ⟨x, y, h⟩ := foldl_noteLine_frame w s.writes
      (fun l => (locs.filter fun x => x / 128 == l).map (· % 128)) (linesOf locs) s
    rw [h]
    split <;> exact ⟨_, _, _, rfl⟩

theorem llcPut_frame (s : State) (line : Nat) (e : LlcLine) : ∃ x, llcPut s line e = { s with llc := x } := by
  unfold llcPut
  split
  · exact ⟨_, rfl⟩
  · split
    · exact ⟨_, rfl⟩
    · split <;> exact ⟨_, rfl⟩

theorem llcWrite_frame (s : State) (line : Nat) (u : Bool) : ∃ x, llcWrite s line u = { s with llc := x } := by
  unfold llcWrite
  split
  · exact ⟨_, rfl⟩
  all_goals exact llcPut_frame _ _ _

theorem foldl_llcWrite_frame (u : Bool) (ls : List Nat) :
    ∀ s : State, ∃ x, ls.foldl (fun s l => llcWrite s l u) s = { s with llc := x } := by
  induction ls with
  | nil => exact fun s => ⟨_, rfl⟩
  | cons l ls ih =>
    intro s
    obtain ⟨x, h⟩ := llcWrite_frame s l u
    obtain ⟨x', h'⟩ := ih (llcWrite s l u)
    exact ⟨x', by rw [List.foldl_cons, h', h]⟩

@[simp] theorem noteWrite_mem (w : Writer) (s : State) (locs : List Nat) : (noteWrite w s locs).mem = s.mem := by
  obtain ⟨_, _, _, h⟩ := noteWrite_frame w s locs
  rw [h]

@[simp] theorem llcPut_mem (s : State) (line : Nat) (e : LlcLine) : (llcPut s line e).mem = s.mem := by
  obtain ⟨_, h⟩ := llcPut_frame s line e
  rw [h]

@[simp] theorem foldl_llcWrite_mem (u : Bool) (ls : List Nat) (s : State) :
    (ls.foldl (fun s l => llcWrite s l u) s).mem = s.mem := by
  obtain ⟨_, h⟩ := foldl_llcWrite_frame u ls s
  rw [h]

/-! What keeps memory canonical, step by step of a fold, keeps it over the fold. -/

theorem foldl_wf {α : Type} {f : State → α → State} (hf : ∀ s a, s.mem.wf = true → (f s a).mem.wf = true)
    (as : List α) : ∀ s : State, s.mem.wf = true → (as.foldl f s).mem.wf = true := by
  induction as with
  | nil => exact fun s h => h
  | cons a as ih => exact fun s h => ih _ (hf s a h)

theorem putPhys_wf (s : State) (pa : Nat) (b : Byte) (h : s.mem.wf = true) : (putPhys s pa b).mem.wf = true :=
  writeByte_wf s _ b h

theorem encodeBlock_wf (key : Nat) (x : Sfte) (s : State) (b : Nat) (h : s.mem.wf = true) :
    (encodeBlock key x s b).mem.wf = true :=
  putPhys_wf _ _ _ (foldl_wf (fun _ _ h => putPhys_wf _ _ _ h) _ _ h)

theorem recompress_wf (s : State) (locs : List Nat) (h : s.mem.wf = true) : (recompress s locs).mem.wf = true := by
  refine foldl_wf (fun s e h => ?_) _ _ h
  split
  · exact encodeBlock_wf _ _ _ _ h
  · exact h

/-- Every write of bytes at their homes. -/
theorem storeBy_wf (w : Writer) (s : State) (bs : List (Nat × Byte)) (h : s.mem.wf = true) :
    (storeBy w s bs).mem.wf = true := by
  have h1 := writeCells_wf bs (noteWrite w s (bs.map (·.1))) (by simpa using h)
  have h2 : ∀ ls : List Nat, (ls.foldl (fun s l => llcWrite s l w.uncached)
      (writeCells (noteWrite w s (bs.map (·.1))) bs)).mem.wf = true := fun ls => by simpa using h1
  unfold storeBy
  dsimp only
  split
  · split
    · exact recompress_wf _ _ (h2 _)
    · exact h2 _
  · rw [mailboxEdges_mem]
    split
    · exact recompress_wf _ _ (h2 _)
    · exact h2 _

theorem store_wf (s : State) (bs : List (Nat × Byte)) (h : s.mem.wf = true) : (store s bs).mem.wf = true :=
  storeBy_wf _ s bs h

theorem storeUnder_wf (s : State) (cp : Option Nat) (bs : List (Nat × Byte)) (h : s.mem.wf = true) :
    (storeUnder s cp bs).mem.wf = true := storeBy_wf _ s bs h

@[simp] theorem fillLlc_mem (s : State) (cp : Option Nat) (locs : List Nat) : (fillLlc s cp locs).mem = s.mem := by
  have h : ∀ (ls : List Nat) (s : State), (ls.foldl llcRead s).mem = s.mem := by
    intro ls
    induction ls with
    | nil => exact fun _ => rfl
    | cons l ls ih =>
      intro s
      rw [List.foldl_cons, ih]
      unfold llcRead
      split <;> simp
  unfold fillLlc
  split
  · rfl
  · rfl
  · exact h _ _

theorem storeNat_wf (s : State) (loc n v : Nat) (h : s.mem.wf = true) : (storeNat s loc n v).mem.wf = true :=
  store_wf s _ h

theorem zeroRange_wf (s : State) (loc n : Nat) (h : s.mem.wf = true) : (zeroRange s loc n).mem.wf = true :=
  canon_filter 0 s.mem _ h

theorem zeroLine_wf (w : Writer) (s : State) (line : Nat) (h : s.mem.wf = true) : (zeroLine w s line).mem.wf = true := by
  have h1 : ∀ l, (zeroRange (noteWrite w s l) (128 * line) 128).mem.wf = true :=
    fun l => zeroRange_wf _ _ _ (by simpa using h)
  have h3 : ∀ (p : Prop) [Decidable p] (t : State) l, t.mem.wf = true →
      (if p then recompress t l else t).mem.wf = true := by
    intro p _ t l ht
    split
    · exact recompress_wf _ _ ht
    · exact ht
  have h4 : ∀ (t : State) (u : Bool), t.mem.wf = true → (match find t.llc line, u with
      | none, true => t
      | some _, _ | none, false => llcPut t line { dirty := true, zero := true }).mem.wf = true := by
    intro t u ht
    split <;> simpa using ht
  exact h4 _ _ (h3 _ _ _ (h1 _))

theorem zeroPlaces_wf (w : Writer) (s : State) (p : Nat) (h : s.mem.wf = true) : (zeroPlaces w s p).mem.wf = true := by
  unfold zeroPlaces
  dsimp only
  split
  · exact zeroLine_wf _ _ _ h
  · exact storeBy_wf _ _ _ h

theorem copyRange_wf (s : State) (src dst n : Nat) (h : s.mem.wf = true) : (copyRange s src dst n).mem.wf = true := by
  simpa only [copyRange, poison_mem] using writeCells_wf _ _ (zeroRange_wf s dst n h)

theorem moveHandle_wf (s : State) (x : Sfte) (src dst : Nat → Nat → Nat) (h : s.mem.wf = true) :
    (moveHandle s x src dst).mem.wf = true := by
  refine foldl_wf (fun s st h => ?_) _ _ h
  split
  · refine foldl_wf (fun s o h => ?_) _ _ h
    dsimp only
    split
    · simpa using writeByte_wf _ _ _ h
    · exact writeByte_wf _ _ _ h
  · exact foldl_wf (fun _ _ h => copyRange_wf _ _ _ _ h) _ _ h

theorem toCompressor_wf (s : State) (key : Nat) (x : Sfte) (h : s.mem.wf = true) :
    (toCompressor s key x).mem.wf = true :=
  foldl_wf (fun _ _ h => encodeBlock_wf _ _ _ _ h) _ _ (moveHandle_wf _ _ _ _ h)

theorem toBanks_wf (s : State) (key : Nat) (x : Sfte) (h : s.mem.wf = true) : (toBanks s key x).mem.wf = true :=
  moveHandle_wf _ _ _ _ h

theorem markLeaf_wf (s : State) (locs : List Nat) (d : Bool) (h : s.mem.wf = true) : (markLeaf s locs d).mem.wf = true := by
  have key : ∀ p : Prop, ∀ (_ : Decidable p) bs, (if p then s else store s bs).mem.wf = true := by
    intro p _ bs
    split
    · exact h
    · exact store_wf _ _ h
  exact key _ _ _

@[simp] theorem touchKey_mem (s : State) (key : Nat) : (touchKey s key).mem = s.mem := rfl

@[simp] theorem touchPlace_mem (s : State) (p : Nat) : (touchPlace s p).mem = s.mem := by
  unfold touchPlace
  split
  · rfl
  · split
    · split <;> rfl
    · rfl

@[simp] theorem tlbFill_mem (s : State) (core : Nat) (e : TlbEntry) : (tlbFill s core e).mem = s.mem := by
  simp only [tlbFill]
  split
  · rfl
  · split <;> rfl

theorem markHit_wf (s : State) (x : Hit) (h : s.mem.wf = true) : (markHit s x).mem.wf = true := by
  have key : ∀ s' : State, s'.mem.wf = true →
      (touchPlace (match x.fill with | some (core, e) => tlbFill s' core e | none => s') x.place).mem.wf = true := by
    intro s' h'
    rw [touchPlace_mem]
    split
    · simpa using h'
    · exact h'
  unfold markHit
  split
  · exact key _ (markLeaf_wf _ _ _ h)
  · exact key _ h

theorem markHits_wf (hs : List Hit) : ∀ s : State, s.mem.wf = true → (markHits s hs).mem.wf = true := by
  induction hs with
  | nil => exact fun s h => h
  | cons x hs ih => exact fun s h => ih _ (markHit_wf s x h)

theorem statusWord_wf (s : State) (a : StatusAddr) (v : Nat) (h : s.mem.wf = true) :
    (statusWord s a v).mem.wf = true := by
  unfold statusWord
  split
  · exact h
  · split
    · exact markHit_wf _ _ (storeUnder_wf _ _ _ h)
    · exact h

/-! ### Reading and writing -/

@[simp] theorem readByte_putByte_same (s : State) (loc : Nat) (b : Byte) : readByte (putByte s loc b) loc = b := by
  simp [readByte]

theorem readByte_putByte_other (s : State) {loc a : Nat} (b : Byte) (h : a ≠ loc) :
    readByte (putByte s loc b) a = readByte s a := by
  simp [readByte, get_put_other _ _ _ h]

/-- No frame is on the move (R157): a write has one copy. -/
theorem mirrorOf_none {s : State} (h : s.moves = []) (loc : Nat) : mirrorOf s loc = none := by
  unfold mirrorOf
  split <;> simp [h]

theorem writeByte_eq_putByte {s : State} (h : s.moves = []) (loc : Nat) (b : Byte) :
    writeByte s loc b = putByte s loc b := by
  simp [writeByte, mirrorOf_none h]

/-- A write leaves every location outside it alone. -/
theorem readByte_writeCells_other (bs : List (Nat × Byte)) : ∀ (s : State) (a : Nat), s.moves = [] →
    (∀ e ∈ bs, e.1 ≠ a) → readByte (writeCells s bs) a = readByte s a := by
  induction bs with
  | nil => exact fun s a _ _ => rfl
  | cons e bs ih =>
    intro s a hm h
    have hs : (writeByte s e.1 e.2).moves = [] := by rw [writeByte_eq_putByte hm]; exact hm
    have step : writeCells s (e :: bs) = writeCells (writeByte s e.1 e.2) bs := rfl
    rw [step, ih _ a hs fun x hx => h x (by simp [hx]), writeByte_eq_putByte hm]
    exact readByte_putByte_other s e.2 (Ne.symm (h e (by simp)))

theorem cellsAt_fst (bs : List Byte) : ∀ (loc : Nat), ∀ e ∈ cellsAt loc bs, loc ≤ e.1 ∧ e.1 < loc + bs.length := by
  induction bs with
  | nil => simp [cellsAt]
  | cons b bs ih =>
    intro loc e he
    rcases List.mem_cons.1 he with rfl | he
    · simp
    · have := ih _ e he
      simp only [List.length_cons]
      omega

@[simp] theorem length_bytesOfNat (n : Nat) : ∀ v, (bytesOfNat n v).length = n := by
  induction n with
  | zero => exact fun _ => rfl
  | succ n ih => intro v; simp [bytesOfNat, ih]

@[simp] theorem readByte_mailboxEdges (s : State) (locs : List Nat) (a : Nat) :
    readByte (mailboxEdges s locs) a = readByte s a := rfl

/-- What a byte of memory reads after writes depends on memory and the frames on the move alone. -/
theorem readByte_writeCells_congr (bs : List (Nat × Byte)) : ∀ (s t : State) (a : Nat), s.mem = t.mem →
    s.moves = t.moves → s.frames = t.frames → readByte (writeCells s bs) a = readByte (writeCells t bs) a := by
  induction bs with
  | nil =>
    intro s t a h _ _
    change get 0 s.mem a = get 0 t.mem a
    rw [h]
  | cons e bs ih =>
    intro s t a h hm hf
    have hmir : mirrorOf s e.1 = mirrorOf t e.1 := by simp [mirrorOf, hm, hf]
    change readByte (writeCells (writeByte s e.1 e.2) bs) a = readByte (writeCells (writeByte t e.1 e.2) bs) a
    apply ih <;> (unfold writeByte; rw [hmir]; split <;> simp [putByte, h, hm, hf])

/-- Bytes written at homes outside compressors read as the bytes themselves say. -/
theorem readByte_storeBy (w : Writer) (s : State) (bs : List (Nat × Byte)) (a : Nat) (hb : ∀ e ∈ bs, e.1 < 2 ^ 90) :
    readByte (storeBy w s bs) a = readByte (writeCells s bs) a := by
  have hcomp : ((bs.map (·.1)).any (2 ^ 90 ≤ ·)) = false := by
    simp only [List.any_eq_false, List.mem_map, decide_eq_true_eq, not_le]
    rintro _ ⟨e, he, rfl⟩
    exact hb e he
  have hcells : readByte (writeCells (noteWrite w s (bs.map (·.1))) bs) a = readByte (writeCells s bs) a := by
    obtain ⟨x, y, n, h⟩ := noteWrite_frame w s (bs.map (·.1))
    exact readByte_writeCells_congr bs _ _ a (by rw [h]) (by rw [h]) (by rw [h])
  have hllc : ∀ ls : List Nat, readByte (ls.foldl (fun s l => llcWrite s l w.uncached)
      (writeCells (noteWrite w s (bs.map (·.1))) bs)) a = readByte (writeCells s bs) a := by
    intro ls
    rw [← hcells, readByte, foldl_llcWrite_mem]
    rfl
  unfold storeBy
  simp only [hcomp]
  split
  · exact hllc _
  · rw [readByte_mailboxEdges]
    exact hllc _

theorem readByte_store (s : State) (bs : List (Nat × Byte)) (a : Nat) (hb : ∀ e ∈ bs, e.1 < 2 ^ 90) :
    readByte (store s bs) a = readByte (writeCells s bs) a := readByte_storeBy _ s bs a hb

/-- A little-endian store outside compressors leaves every location outside its bytes alone. -/
theorem readByte_storeNat_other (s : State) (loc n v a : Nat) (hm : s.moves = []) (hl : loc + n ≤ 2 ^ 90)
    (h : a < loc ∨ loc + n ≤ a) : readByte (storeNat s loc n v) a = readByte s a := by
  have hc : ∀ e ∈ cellsAt loc (bytesOfNat n v), loc ≤ e.1 ∧ e.1 < loc + n := fun e he => by
    simpa using cellsAt_fst _ _ e he
  rw [storeNat, readByte_store _ _ _ fun e he => by have := hc e he; omega]
  refine readByte_writeCells_other _ _ _ hm fun e he => ?_
  have := hc e he
  omega

/-- Reset memory is canonical. -/
theorem reset_mem_wf : State.reset.mem.wf = true := rfl

end Sys2Proof.Machine
end

