-- ==== Sys2Proof/Laws/PerInstr.lean ====
section
/-! SUPPORT. Lemmas per instruction. Family `Operands`: a row of the opcode table that has no word (a step of the device)
names no operand, in any format; so the operand checks of R57 concern the 213 words only. -/

namespace Sys2Proof.Laws.Operands

open Sys2Proof.Machine

def Statement (i : Instr) : Prop := encode i = none → ∀ fmt : Word, oprsOf fmt i = []

theorem vadd (d a b : Code) (nw : Bool) : Statement (.vadd d a b nw) := nofun
theorem vsub (d a b : Code) (nw : Bool) : Statement (.vsub d a b nw) := nofun
theorem vmul (d a b : Code) (nw : Bool) : Statement (.vmul d a b nw) := nofun
theorem vmulh (d a b : Code) (nw : Bool) : Statement (.vmulh d a b nw) := nofun
theorem vmulhu (d a b : Code) (nw : Bool) : Statement (.vmulhu d a b nw) := nofun
theorem vand (d a b : Code) (nw : Bool) : Statement (.vand d a b nw) := nofun
theorem vor (d a b : Code) (nw : Bool) : Statement (.vor d a b nw) := nofun
theorem vxor (d a b : Code) (nw : Bool) : Statement (.vxor d a b nw) := nofun
theorem vandn (d a b : Code) (nw : Bool) : Statement (.vandn d a b nw) := nofun
theorem vshl (d a b : Code) (nw : Bool) : Statement (.vshl d a b nw) := nofun
theorem vshr (d a b : Code) (nw : Bool) : Statement (.vshr d a b nw) := nofun
theorem vsra (d a b : Code) (nw : Bool) : Statement (.vsra d a b nw) := nofun
theorem vmin (d a b : Code) (nw : Bool) : Statement (.vmin d a b nw) := nofun
theorem vmax (d a b : Code) (nw : Bool) : Statement (.vmax d a b nw) := nofun
theorem vminu (d a b : Code) (nw : Bool) : Statement (.vminu d a b nw) := nofun
theorem vmaxu (d a b : Code) (nw : Bool) : Statement (.vmaxu d a b nw) := nofun
theorem vadds (d a b : Code) (nw : Bool) : Statement (.vadds d a b nw) := nofun
theorem vaddus (d a b : Code) (nw : Bool) : Statement (.vaddus d a b nw) := nofun
theorem vsubs (d a b : Code) (nw : Bool) : Statement (.vsubs d a b nw) := nofun
theorem vsubus (d a b : Code) (nw : Bool) : Statement (.vsubus d a b nw) := nofun
theorem vabsd (d a b : Code) (nw : Bool) : Statement (.vabsd d a b nw) := nofun
theorem vpopc (d a : Code) (nw : Bool) : Statement (.vpopc d a nw) := nofun
theorem vclz (d a : Code) (nw : Bool) : Statement (.vclz d a nw) := nofun
theorem vbrev (d a : Code) (nw : Bool) : Statement (.vbrev d a nw) := nofun
theorem vbfx (d a b : Code) (nw : Bool) : Statement (.vbfx d a b nw) := nofun
theorem vbfi (d a b : Code) : Statement (.vbfi d a b) := nofun
theorem vmulw (d a b : Code) (nw : Bool) : Statement (.vmulw d a b nw) := nofun
theorem vadd64 (d a b : Code) (nw : Bool) : Statement (.vadd64 d a b nw) := nofun
theorem vsub64 (d a b : Code) (nw : Bool) : Statement (.vsub64 d a b nw) := nofun
theorem vshl64 (d a b : Code) (nw : Bool) : Statement (.vshl64 d a b nw) := nofun
theorem vfadd (d a b : Code) (nw : Bool) : Statement (.vfadd d a b nw) := nofun
theorem vfsub (d a b : Code) (nw : Bool) : Statement (.vfsub d a b nw) := nofun
theorem vfmul (d a b : Code) (nw : Bool) : Statement (.vfmul d a b nw) := nofun
theorem vfmin (d a b : Code) (nw : Bool) : Statement (.vfmin d a b nw) := nofun
theorem vfmax (d a b : Code) (nw : Bool) : Statement (.vfmax d a b nw) := nofun
theorem vfabs (d a : Code) (nw : Bool) : Statement (.vfabs d a nw) := nofun
theorem vfneg (d a : Code) (nw : Bool) : Statement (.vfneg d a nw) := nofun
theorem vfdiv (d a b : Code) (nw : Bool) : Statement (.vfdiv d a b nw) := nofun
theorem vfsqrt (d a : Code) (nw : Bool) : Statement (.vfsqrt d a nw) := nofun
theorem vfrcp (d a : Code) (nw : Bool) : Statement (.vfrcp d a nw) := nofun
theorem vfrsq (d a : Code) (nw : Bool) : Statement (.vfrsq d a nw) := nofun
theorem vfex2 (d a : Code) (nw : Bool) : Statement (.vfex2 d a nw) := nofun
theorem vflg2 (d a : Code) (nw : Bool) : Statement (.vflg2 d a nw) := nofun
theorem vfsin (d a : Code) (nw : Bool) : Statement (.vfsin d a nw) := nofun
theorem vfcos (d a : Code) (nw : Bool) : Statement (.vfcos d a nw) := nofun
theorem vfdot2 (d a b : Code) (nw : Bool) : Statement (.vfdot2 d a b nw) := nofun
theorem vcmp_eq (d a b : Code) : Statement (.vcmp_eq d a b) := nofun
theorem vcmp_ne (d a b : Code) : Statement (.vcmp_ne d a b) := nofun
theorem vcmp_lt (d a b : Code) : Statement (.vcmp_lt d a b) := nofun
theorem vcmp_le (d a b : Code) : Statement (.vcmp_le d a b) := nofun
theorem vcmp_ltu (d a b : Code) : Statement (.vcmp_ltu d a b) := nofun
theorem vcmp_leu (d a b : Code) : Statement (.vcmp_leu d a b) := nofun
theorem vfcmp_eq (d a b : Code) : Statement (.vfcmp_eq d a b) := nofun
theorem vfcmp_ne (d a b : Code) : Statement (.vfcmp_ne d a b) := nofun
theorem vfcmp_lt (d a b : Code) : Statement (.vfcmp_lt d a b) := nofun
theorem vfcmp_le (d a b : Code) : Statement (.vfcmp_le d a b) := nofun
theorem vfcmp_un (d a b : Code) : Statement (.vfcmp_un d a b) := nofun
theorem vfclass (d a : Code) (imm : BitVec 7) : Statement (.vfclass d a imm) := nofun
theorem vcvt (d a : Code) (rnd : BitVec 3) (src : BitVec 4) (nw : Bool) (dst : BitVec 4) : Statement (.vcvt d a rnd src nw dst) :=
  nofun
theorem vcvtef (d a b : Code) : Statement (.vcvtef d a b) := nofun
theorem vplane (d a : Code) (nw : Bool) : Statement (.vplane d a nw) := nofun
theorem vunpl (d a : Code) (nw : Bool) : Statement (.vunpl d a nw) := nofun
theorem vshfl (d a b : Code) (nw : Bool) : Statement (.vshfl d a b nw) := nofun
theorem vshfx (d a b : Code) (nw : Bool) : Statement (.vshfx d a b nw) := nofun
theorem vbcl (d a b : Code) (nw : Bool) : Statement (.vbcl d a b nw) := nofun
theorem vfirst (d a : Code) (nw : Bool) : Statement (.vfirst d a nw) := nofun
theorem vredadd_i (d a : Code) (nw : Bool) : Statement (.vredadd_i d a nw) := nofun
theorem vredadd_f (d a : Code) (nw : Bool) : Statement (.vredadd_f d a nw) := nofun
theorem vredmin_s (d a : Code) (nw : Bool) : Statement (.vredmin_s d a nw) := nofun
theorem vredmin_u (d a : Code) (nw : Bool) : Statement (.vredmin_u d a nw) := nofun
theorem vredmin_f (d a : Code) (nw : Bool) : Statement (.vredmin_f d a nw) := nofun
theorem vredmax_s (d a : Code) (nw : Bool) : Statement (.vredmax_s d a nw) := nofun
theorem vredmax_u (d a : Code) (nw : Bool) : Statement (.vredmax_u d a nw) := nofun
theorem vredmax_f (d a : Code) (nw : Bool) : Statement (.vredmax_f d a nw) := nofun
theorem vscan_i (d a : Code) (nw : Bool) : Statement (.vscan_i d a nw) := nofun
theorem vscan_f (d a : Code) (nw : Bool) : Statement (.vscan_f d a nw) := nofun
theorem vballot (d a : Code) (nw : Bool) : Statement (.vballot d a nw) := nofun
theorem vmov (d a : Code) (nw : Bool) : Statement (.vmov d a nw) := nofun
theorem vsel (d a b : Code) (nw : Bool) (m : BitVec 3) : Statement (.vsel d a b nw m) := nofun
theorem mand (d a b : Code) : Statement (.mand d a b) := nofun
theorem mor (d a b : Code) : Statement (.mor d a b) := nofun
theorem mxor (d a b : Code) : Statement (.mxor d a b) := nofun
theorem mandn (d a b : Code) : Statement (.mandn d a b) := nofun
theorem mnot (d a : Code) : Statement (.mnot d a) := nofun
theorem mset (d a : Code) : Statement (.mset d a) := nofun
theorem mget (d a : Code) (nw : Bool) : Statement (.mget d a nw) := nofun
theorem mclr (d : Code) : Statement (.mclr d) := nofun
theorem mcnt (d a : Code) (nw : Bool) : Statement (.mcnt d a nw) := nofun
theorem sadd (d a b : Code) (nw : Bool) : Statement (.sadd d a b nw) := nofun
theorem ssub (d a b : Code) (nw : Bool) : Statement (.ssub d a b nw) := nofun
theorem smul (d a b : Code) (nw : Bool) : Statement (.smul d a b nw) := nofun
theorem smulh (d a b : Code) (nw : Bool) : Statement (.smulh d a b nw) := nofun
theorem sand (d a b : Code) (nw : Bool) : Statement (.sand d a b nw) := nofun
theorem sor (d a b : Code) (nw : Bool) : Statement (.sor d a b nw) := nofun
theorem sxor (d a b : Code) (nw : Bool) : Statement (.sxor d a b nw) := nofun
theorem sshl (d a b : Code) (nw : Bool) : Statement (.sshl d a b nw) := nofun
theorem sshr (d a b : Code) (nw : Bool) : Statement (.sshr d a b nw) := nofun
theorem ssra (d a b : Code) (nw : Bool) : Statement (.ssra d a b nw) := nofun
theorem smin (d a b : Code) (nw : Bool) : Statement (.smin d a b nw) := nofun
theorem smax (d a b : Code) (nw : Bool) : Statement (.smax d a b nw) := nofun
theorem sslt (d a b : Code) (nw : Bool) : Statement (.sslt d a b nw) := nofun
theorem ssltu (d a b : Code) (nw : Bool) : Statement (.ssltu d a b nw) := nofun
theorem saddx (d a b : Code) (nw : Bool) : Statement (.saddx d a b nw) := nofun
theorem saddi (d a : Code) (imm : BitVec 12) : Statement (.saddi d a imm) := nofun
theorem sandi (d a : Code) (imm : BitVec 12) : Statement (.sandi d a imm) := nofun
theorem sori (d a : Code) (imm : BitVec 12) : Statement (.sori d a imm) := nofun
theorem sxori (d a : Code) (imm : BitVec 12) : Statement (.sxori d a imm) := nofun
theorem sshli (d a : Code) (imm : BitVec 5) : Statement (.sshli d a imm) := nofun
theorem sshri (d a : Code) (imm : BitVec 5) : Statement (.sshri d a imm) := nofun
theorem ssrai (d a : Code) (imm : BitVec 5) : Statement (.ssrai d a imm) := nofun
theorem sslti (d a : Code) (imm : BitVec 12) : Statement (.sslti d a imm) := nofun
theorem sli (d : Code) (imm : BitVec 19) : Statement (.sli d imm) := nofun
theorem slui (d : Code) (imm : BitVec 19) : Statement (.slui d imm) := nofun
theorem vaddi (d a : Code) (imm : BitVec 12) : Statement (.vaddi d a imm) := nofun
theorem b_eq (a : Code) (off : BitVec 16) : Statement (.b_eq a off) := nofun
theorem b_ne (a : Code) (off : BitVec 16) : Statement (.b_ne a off) := nofun
theorem b_lt (a : Code) (off : BitVec 16) : Statement (.b_lt a off) := nofun
theorem b_ge (a : Code) (off : BitVec 16) : Statement (.b_ge a off) := nofun
theorem b_gt (a : Code) (off : BitVec 16) : Statement (.b_gt a off) := nofun
theorem b_le (a : Code) (off : BitVec 16) : Statement (.b_le a off) := nofun
theorem bm_any (a : Code) (off : BitVec 16) : Statement (.bm_any a off) := nofun
theorem bm_none (a : Code) (off : BitVec 16) : Statement (.bm_none a off) := nofun
theorem bm_all (a : Code) (off : BitVec 16) : Statement (.bm_all a off) := nofun
theorem j (off : BitVec 26) : Statement (.j off) := nofun
theorem call (off : BitVec 26) : Statement (.call off) := nofun
theorem jr (a : Code) : Statement (.jr a) := nofun
theorem ret : Statement (.ret) := nofun
theorem exit : Statement (.exit) := nofun
theorem vif (a : Code) : Statement (.vif a) := nofun
theorem velse : Statement (.velse) := nofun
theorem vendif : Statement (.vendif) := nofun
theorem vkill (a : Code) : Statement (.vkill a) := nofun
theorem fmt (a : Code) : Statement (.fmt a) := nofun
theorem winb (a : Code) : Statement (.winb a) := nofun
theorem trap (imm : BitVec 7) : Statement (.trap imm) := nofun
theorem rett : Statement (.rett) := nofun
theorem brk (imm : BitVec 7) : Statement (.brk imm) := nofun
theorem nop : Statement (.nop) := nofun
theorem loop (a : Code) (end12 : BitVec 12) : Statement (.loop a end12) := nofun
theorem ppt (imm : BitVec 19) : Statement (.ppt imm) := nofun
theorem vld_s8 (d a b : Code) (st : BitVec 4) (x : Bool) : Statement (.vld_s8 d a b st x) := nofun
theorem vld_z8 (d a b : Code) (st : BitVec 4) (x : Bool) : Statement (.vld_z8 d a b st x) := nofun
theorem vld_s16 (d a b : Code) (st : BitVec 4) (x : Bool) : Statement (.vld_s16 d a b st x) := nofun
theorem vld_z16 (d a b : Code) (st : BitVec 4) (x : Bool) : Statement (.vld_z16 d a b st x) := nofun
theorem vld_w (d a b : Code) (st : BitVec 4) (x : Bool) : Statement (.vld_w d a b st x) := nofun
theorem vld_d (d a b : Code) (st : BitVec 4) (x : Bool) : Statement (.vld_d d a b st x) := nofun
theorem vst_b (d a b : Code) (st : BitVec 4) (x : Bool) : Statement (.vst_b d a b st x) := nofun
theorem vst_h (d a b : Code) (st : BitVec 4) (x : Bool) : Statement (.vst_h d a b st x) := nofun
theorem vst_w (d a b : Code) (st : BitVec 4) (x : Bool) : Statement (.vst_w d a b st x) := nofun
theorem vst_d (d a b : Code) (st : BitVec 4) (x : Bool) : Statement (.vst_d d a b st x) := nofun
theorem vldc (d a b : Code) (st : BitVec 4) (x : Bool) : Statement (.vldc d a b st x) := nofun
theorem vstc (d a b : Code) (st : BitVec 4) (x : Bool) : Statement (.vstc d a b st x) := nofun
theorem sld_w (d a b : Code) (st : BitVec 4) (x : Bool) : Statement (.sld_w d a b st x) := nofun
theorem sld_d (d a b : Code) (st : BitVec 4) (x : Bool) : Statement (.sld_d d a b st x) := nofun
theorem sst_w (d a b : Code) (st : BitVec 4) (x : Bool) : Statement (.sst_w d a b st x) := nofun
theorem sst_d (d a b : Code) (st : BitVec 4) (x : Bool) : Statement (.sst_d d a b st x) := nofun
theorem vatom_iadd (d a b : Code) (st : BitVec 4) : Statement (.vatom_iadd d a b st) := nofun
theorem vatom_fadd (d a b : Code) (st : BitVec 4) : Statement (.vatom_fadd d a b st) := nofun
theorem vatom_and (d a b : Code) (st : BitVec 4) : Statement (.vatom_and d a b st) := nofun
theorem vatom_or (d a b : Code) (st : BitVec 4) : Statement (.vatom_or d a b st) := nofun
theorem vatom_smin (d a b : Code) (st : BitVec 4) : Statement (.vatom_smin d a b st) := nofun
theorem vatom_smax (d a b : Code) (st : BitVec 4) : Statement (.vatom_smax d a b st) := nofun
theorem vatom_xchg (d a b : Code) (st : BitVec 4) : Statement (.vatom_xchg d a b st) := nofun
theorem vatom_cas (d a b : Code) (st : BitVec 4) : Statement (.vatom_cas d a b st) := nofun
theorem fence (st : BitVec 4) (scope : BitVec 3) : Statement (.fence st scope) := nofun
theorem xfence (scope : BitVec 3) (a : Code) : Statement (.xfence scope a) := nofun
theorem sattr (st : BitVec 4) (a : Code) : Statement (.sattr st a) := nofun
theorem bar (a : Code) : Statement (.bar a) := nofun
theorem cflush (st : BitVec 4) (a b : Code) : Statement (.cflush st a b) := nofun
theorem cinv (st : BitVec 4) (a b : Code) : Statement (.cinv st a b) := nofun
theorem czero (st : BitVec 4) (a b : Code) : Statement (.czero st a b) := nofun
theorem vpreq (d a b : Code) : Statement (.vpreq d a b) := nofun
theorem cbget (d a : Code) : Statement (.cbget d a) := nofun
theorem cbput (a : Code) : Statement (.cbput a) := nofun
theorem evbind (d a b : Code) : Statement (.evbind d a b) := nofun
theorem evmask (a : Code) : Statement (.evmask a) := nofun
theorem evclr (a : Code) : Statement (.evclr a) := nofun
theorem evpend (d : Code) : Statement (.evpend d) := nofun
theorem waitany (a : Code) : Statement (.waitany a) := nofun
theorem fetchw (a : Code) : Statement (.fetchw a) := nofun
theorem spawn (d a b : Code) : Statement (.spawn d a b) := nofun
theorem hop (a : Code) : Statement (.hop a) := nofun
theorem hopback : Statement (.hopback) := nofun
theorem rejoin : Statement (.rejoin) := nofun
theorem owner (d a : Code) (nw : Bool) : Statement (.owner d a nw) := nofun
theorem hopcfg (a : Code) : Statement (.hopcfg a) := nofun
theorem hopx (a : Code) : Statement (.hopx a) := nofun
theorem tshape (d a : Code) : Statement (.tshape d a) := nofun
theorem mma (d a b : Code) : Statement (.mma d a b) := nofun
theorem mmab (d a b : Code) : Statement (.mmab d a b) := nofun
theorem mzero (d : Code) : Statement (.mzero d) := nofun
theorem mrd (d a b : Code) : Statement (.mrd d a b) := nofun
theorem mwr (d a b : Code) : Statement (.mwr d a b) := nofun
theorem mfence (d : Code) : Statement (.mfence d) := nofun
theorem mwait (a : Code) : Statement (.mwait a) := nofun
theorem msurf (d a b : Code) : Statement (.msurf d a b) := nofun
theorem ivsld (d a : Code) (st : BitVec 4) : Statement (.ivsld d a st) := nofun
theorem bmac (d a : Code) (st : BitVec 4) : Statement (.bmac d a st) := nofun
theorem embw (d a : Code) (st : BitVec 4) : Statement (.embw d a st) := nofun
theorem cpa (d a : Code) (st : BitVec 4) : Statement (.cpa d a st) := nofun
theorem cpa_ring (d a : Code) (st : BitVec 4) : Statement (.cpa_ring d a st) := nofun
theorem cpred (d a : Code) (st : BitVec 4) : Statement (.cpred d a st) := nofun
theorem sfld (d a b : Code) : Statement (.sfld d a b) := nofun
theorem sfst (d a b : Code) : Statement (.sfst d a b) := nofun
theorem zt (d : Code) : Statement (.zt d) := nofun
theorem pxout (a b : Code) : Statement (.pxout a b) := nofun
theorem vtxout (d a b : Code) : Statement (.vtxout d a b) := nofun
theorem vinterp (d a : Code) (nw : Bool) : Statement (.vinterp d a nw) := nofun
theorem tsmp (d a b : Code) : Statement (.tsmp d a b) := nofun
theorem csrr (d b : Code) (nw : Bool) : Statement (.csrr d b nw) := nofun
theorem csrw (a b : Code) : Statement (.csrw a b) := nofun
theorem vfma (d a b c : Code) : Statement (.vfma d a b c) := nofun
theorem vfnma (d a b c : Code) : Statement (.vfnma d a b c) := nofun
theorem launch (q : Nat) : Statement (.launch q) := fun _ _ => rfl
theorem launchi (q : Nat) : Statement (.launchi q) := fun _ _ => rfl
theorem loop_counted (q : Nat) : Statement (.loop_counted q) := fun _ _ => rfl
theorem loop_conditional (q : Nat) : Statement (.loop_conditional q) := fun _ _ => rfl
theorem endloop (q : Nat) : Statement (.endloop q) := fun _ _ => rfl
theorem cmd_if (q : Nat) : Statement (.cmd_if q) := fun _ _ => rfl
theorem cmd_else (q : Nat) : Statement (.cmd_else q) := fun _ _ => rfl
theorem cmd_endif (q : Nat) : Statement (.cmd_endif q) := fun _ _ => rfl
theorem waitmem (q : Nat) : Statement (.waitmem q) := fun _ _ => rfl
theorem signal (q : Nat) : Statement (.signal q) := fun _ _ => rfl
theorem signal_confirmed (q : Nat) : Statement (.signal_confirmed q) := fun _ _ => rfl
theorem sfalloc (q base : Nat) : Statement (.sfalloc q base) := fun _ _ => rfl
theorem sffree (q : Nat) : Statement (.sffree q) := fun _ _ => rfl
theorem copy (q : Nat) : Statement (.copy q) := fun _ _ => rfl
theorem preempt (q : Nat) : Statement (.preempt q) := fun _ _ => rfl
theorem vfset (q : Nat) : Statement (.vfset q) := fun _ _ => rfl
theorem cpgate_gate (q : Nat) : Statement (.cpgate_gate q) := fun _ _ => rfl
theorem cpgate_ungate (q : Nat) : Statement (.cpgate_ungate q) := fun _ _ => rfl
theorem fence_cmd (q : Nat) : Statement (.fence_cmd q) := fun _ _ => rfl
theorem llcsz_write (stack : Nat) (v : Word) : Statement (.llcsz_write stack v) := fun _ _ => rfl
theorem tlbinv_write (v : DWord) : Statement (.tlbinv_write v) := fun _ _ => rfl
theorem frozen_clear (die : Nat) (v : Word) : Statement (.frozen_clear die v) := fun _ _ => rfl
theorem queue_tail_write (q : Nat) (tail : Word) : Statement (.queue_tail_write q tail) := fun _ _ => rfl
theorem cb_descriptor_write (n off size : Nat) (v : DWord) : Statement (.cb_descriptor_write n off size v) :=
  fun _ _ => rfl
theorem mtcap_write (v : Word) : Statement (.mtcap_write v) := fun _ _ => rfl
theorem evpend_write (v : Word) : Statement (.evpend_write v) := fun _ _ => rfl
theorem ldtmo_write (v : Word) : Statement (.ldtmo_write v) := fun _ _ => rfl
theorem tstat_write (v : Word) : Statement (.tstat_write v) := fun _ _ => rfl
theorem fstr_write (v : Word) : Statement (.fstr_write v) := fun _ _ => rfl
theorem register_write (r : RegTarget) (v : DWord) : Statement (.register_write r v) := fun _ _ => rfl
theorem attestation_quote (nonce : BitVec 256) : Statement (.attestation_quote nonce) := fun _ _ => rfl
theorem package_reset (boot : BootChoice) : Statement (.package_reset boot) := fun _ _ => rfl
theorem llc_resize_complete (stack : Nat) : Statement (.llc_resize_complete stack) := fun _ _ => rfl
theorem tlbinv_done : Statement (.tlbinv_done) := fun _ _ => rfl
theorem block_placement (die : Nat) : Statement (.block_placement die) := fun _ _ => rfl
theorem fetchw_delivery (gid : Nat) : Statement (.fetchw_delivery gid) := fun _ _ => rfl
theorem launch_complete (lid : Nat) : Statement (.launch_complete lid) := fun _ _ => rfl
theorem deadline_passed (lid : Nat) : Statement (.deadline_passed lid) := fun _ _ => rfl
theorem waitmem_timeout (q : Nat) : Statement (.waitmem_timeout q) := fun _ _ => rfl
theorem token_refill (cluster : Nat) : Statement (.token_refill cluster) := fun _ _ => rfl
theorem frequency_change (die : Nat) : Statement (.frequency_change die) := fun _ _ => rfl
theorem vfset_timeout (die : Nat) : Statement (.vfset_timeout die) := fun _ _ => rfl
theorem core_gate (core : Nat) : Statement (.core_gate core) := fun _ _ => rfl
theorem forced_save (gid : Nat) : Statement (.forced_save gid) := fun _ _ => rfl
theorem group_save (gid : Nat) : Statement (.group_save gid) := fun _ _ => rfl
theorem continuation_arrival (k : Nat) : Statement (.continuation_arrival k) := fun _ _ => rfl
theorem pool_due (core k : Nat) : Statement (.pool_due core k) := fun _ _ => rfl
theorem migrant_launch (core : Nat) : Statement (.migrant_launch core) := fun _ _ => rfl
theorem return_arrival (k : Nat) : Statement (.return_arrival k) := fun _ _ => rfl
theorem rejoin_apply (gid : Nat) : Statement (.rejoin_apply gid) := fun _ _ => rfl
theorem exit_away_retire (gid : Nat) : Statement (.exit_away_retire gid) := fun _ _ => rfl
theorem site_notice (k : Nat) : Statement (.site_notice k) := fun _ _ => rfl
theorem package_fenced (pkg : Nat) : Statement (.package_fenced pkg) := fun _ _ => rfl
theorem waitany_wake (gid : Nat) : Statement (.waitany_wake gid) := fun _ _ => rfl
theorem barrier_stall (cluster b : Nat) : Statement (.barrier_stall cluster b) := fun _ _ => rfl
theorem matrix_batch_complete (gid : Nat) : Statement (.matrix_batch_complete gid) := fun _ _ => rfl
theorem nearbank_complete (oid : Nat) : Statement (.nearbank_complete oid) := fun _ _ => rfl
theorem copy_complete (oid : Nat) : Statement (.copy_complete oid) := fun _ _ => rfl
theorem ring_notify_read (oid : Nat) : Statement (.ring_notify_read oid) := fun _ _ => rfl
theorem ring_entry_complete (oid idx : Nat) : Statement (.ring_entry_complete oid idx) := fun _ _ => rfl
theorem cpred_send_complete (oid : Nat) : Statement (.cpred_send_complete oid) := fun _ _ => rfl
theorem combine_arrival (p : CombinePart) : Statement (.combine_arrival p) := fun _ _ => rfl
theorem combine_timeout (k : Nat) : Statement (.combine_timeout k) := fun _ _ => rfl
theorem spill_flip (ctx h : Nat) : Statement (.spill_flip ctx h) := fun _ _ => rfl
theorem restore_flip (ctx h : Nat) : Statement (.restore_flip ctx h) := fun _ _ => rfl
theorem frame_migration (src dst : Nat) : Statement (.frame_migration src dst) := fun _ _ => rfl
theorem frame_migration_flip (src : Nat) : Statement (.frame_migration_flip src) := fun _ _ => rfl
theorem draw_start : Statement (.draw_start) := fun _ _ => rfl
theorem primitive_rasterise : Statement (.primitive_rasterise) := fun _ _ => rfl
theorem fragment_apply (k : Nat) : Statement (.fragment_apply k) := fun _ _ => rfl
theorem assay_slot_open (die : Nat) : Statement (.assay_slot_open die) := fun _ _ => rfl
theorem assay_scan_start (die : Nat) : Statement (.assay_scan_start die) := fun _ _ => rfl
theorem assay_scan_end (die : Nat) (pass : Bool) : Statement (.assay_scan_end die pass) := fun _ _ => rfl
theorem assay_skip (die : Nat) : Statement (.assay_skip die) := fun _ _ => rfl
theorem canary_warning (dom : Nat) : Statement (.canary_warning dom) := fun _ _ => rfl
theorem voltage_step_down (dom : Nat) : Statement (.voltage_step_down dom) := fun _ _ => rfl
theorem canary_fatal (dom : Nat) : Statement (.canary_fatal dom) := fun _ _ => rfl
theorem fatal_error : Statement (.fatal_error) := fun _ _ => rfl
theorem droop_trip (cluster : Nat) : Statement (.droop_trip cluster) := fun _ _ => rfl
theorem tallow_update (die : Nat) (temp : Int) : Statement (.tallow_update die temp) := fun _ _ => rfl
theorem gddr_overheat (ctrl : Nat) (temp : Int) : Statement (.gddr_overheat ctrl temp) := fun _ _ => rfl
theorem trap_timer (gid : Nat) : Statement (.trap_timer gid) := fun _ _ => rfl
theorem breakpoint_halt (gid : Nat) : Statement (.breakpoint_halt gid) := fun _ _ => rfl
theorem debug_release (gid : Nat) : Statement (.debug_release gid) := fun _ _ => rfl
theorem residency_request_forward : Statement (.residency_request_forward) := fun _ _ => rfl
theorem undefined_word (w : Word) : Statement (.undefined_word w) := fun _ _ => rfl
theorem fetch_fault : Statement (.fetch_fault) := fun _ _ => rfl
theorem undefined_command (q : Nat) : Statement (.undefined_command q) := fun _ _ => rfl
theorem load_return (gid k : Nat) : Statement (.load_return gid k) := fun _ _ => rfl
theorem write_reaches_home (gid k : Nat) : Statement (.write_reaches_home gid k) := fun _ _ => rfl
theorem group_timer_match (gid : Nat) : Statement (.group_timer_match gid) := fun _ _ => rfl
theorem droop_end (cluster : Nat) : Statement (.droop_end cluster) := fun _ _ => rfl
theorem remote_access_arrival (a : RemoteAccess) : Statement (.remote_access_arrival a) := fun _ _ => rfl
theorem fabric_bring_up (pkg key : Nat) : Statement (.fabric_bring_up pkg key) := fun _ _ => rfl
theorem debugger_attach (lid : Nat) (on : Bool) : Statement (.debugger_attach lid on) := fun _ _ => rfl

end Sys2Proof.Laws.Operands
end

