-- ==== Sys2Proof/Laws/Queues.lean ====
section
/-! SUPPORT. What a command at the HEAD of a queue can do, said once (Machine/Queues.lean). -/

namespace Sys2Proof.Machine

open Assoc Bits

/-- A record that its queue is served for, that no block passes over and that the step is about either stops the queue with
the first error that holds, what it has read by then being done, or has its effect (R96 to R98). -/
theorem withCmd_served {q : Nat} {s s0 : State} {c : Cmd} (hf : fetchCmd s q = .cmd s0 c) (hm : mayServe s q = true)
    (hk : skipping ((serve s0 q).queueAt q).opens = false) {p : Cmd → Bool} (hp : p c = true)
    (errs : State → Cmd → List (Nat × Bool)) (body reads : State → Cmd → State) :
    withCmd s q p errs body reads = (match (errs (serve s0 q) c).find? (·.2) with
      | some e => .next (stopQueue (reads (serve s0 q) c) q e.1)
      | none => .next (body (serve s0 q) c)) := by
  unfold withCmd; rw [hf]; simp only [hp, hm, hk]; rfl

/-- A queue that is not served does nothing. -/
theorem withCmd_unserved {q : Nat} {s s0 : State} {c : Cmd} (hf : fetchCmd s q = .cmd s0 c) (hm : mayServe s q = false)
    (p : Cmd → Bool) (errs : State → Cmd → List (Nat × Bool)) (body reads : State → Cmd → State) :
    withCmd s q p errs body reads = .next s := by
  unfold withCmd; rw [hf]; simp [hm]

end Sys2Proof.Machine
end

