-- ==== Sys2Proof/Machine/Aliases.lean ====
section
/-! DEFINITION. The second spellings that the assembler expands (R67), and the offsets of memory operands (R64). They
have no word of their own. -/

namespace Sys2Proof.Machine

open Bits

/-- `smov sD, sA`. -/
def aliasSmov (d a : Code) : List Instr := [.sor d a 64 false]

/-- `sneg sD, sA`. -/
def aliasSneg (d a : Code) : List Instr := [.ssub d 64 a false]

/-- `sset sD, V`: any 32-bit value in two words. -/
def aliasSset (d : Code) (v : Word) : List Instr :=
  [.sli d ((v.extractLsb' 0 13).setWidth 19), .slui d (v.extractLsb' 13 19)]

/-- `vzero vD`. -/
def aliasVzero (d : Code) : List Instr := [.vxor d d d false]

/-- The field B of a memory operand with a byte offset: a multiple of the scale, in a signed field of 7 bits. -/
def offsetCode (scale : Nat) (imm : Int) : Option Code :=
  if imm % scale = 0 ∧ -64 ≤ imm / scale ∧ imm / scale ≤ 63 then some (BitVec.ofInt 7 (imm / scale)) else none

end Sys2Proof.Machine
end

