-- ==== Sys2Proof/Tests/Slice0.lean ====
section
/-! SUPPORT. Tests: words written out from the encodings and what they decode to; ill-formed terms that WellFormed
refuses; single steps with results worked out by hand from the rules; and for each statement with hypotheses, states
and operands that meet them, clause by clause (`test_wit_<statement>`). -/

namespace Sys2Proof.Tests

open Sys2Proof.Machine Sys2Proof.Machine.Assoc Sys2Proof.Machine.Bits Sys2Proof.Machine.Float Sys2Proof.Claims

-- One theorem after the other: each may hold a thread while the kernel evaluates.
set_option Elab.async false

/-! ### Helpers -/

/-- `Admits`, decided. -/
def admitsB (i : Instr) (s : State) (g : Group) : Bool :=
  decide (s.group? s.cur = some g) && decide (g.status = .ready) && decide ((s.coreAt g.core).scanning = false) &&
  decide (decodeFault s g i = none) && !stalled g i && !readsBadScalar g i &&
  decide (unreadBy g i = []) && decide (consuming s g i (oprsOf g.fmt i) = 0)

theorem admits_iff (i : Instr) (s : State) (g : Group) : Admits i s g ↔ admitsB i s g = true := by
  simp [Admits, admitsB, and_assoc]

/-- `Calm`, decided. -/
def calmB (i : Instr) (g : Group) : Bool :=
  decide (g.lmask ≠ 0 ∧ g.dbg.step = false ∧ g.dbg.haltDue = false ∧ (chainAt g (oprsOf g.fmt i)).fpFlags = 0)

theorem calm_iff (i : Instr) (g : Group) : Calm i g ↔ calmB i g = true := by simp [Calm, calmB]

/-- An answer is a value, and the value passes a test. -/
def okIs {ε α : Type} (e : Except ε α) (p : α → Bool) : Bool := match e with | .ok a => p a | .error _ => false

def someIs {α : Type} (o : Option α) (p : α → Bool) : Bool := match o with | some a => p a | none => false

/-- What a run of one step leaves, when it answers a next state. -/
def nextIs (o : Outcome) (p : State → Bool) : Bool := match o with | .next s => p s | _ => false

/-- The group that the placed program starts as: launch 1, block 1, core 0, user mode, PC 0x10000. -/
def g0 : Group := newGroup placeLaunch 1 1 0 0 0 0 0x10000 0

/-- A state in which that group executes; its page at 0x10000 may be read, written, fetched and used for atomics. -/
def s0 : State := { State.reset.withFetchWord 32 0 with agenda := [], cur := 1 }

/-- The same with the group as given. -/
def at_ (g : Group) : State := s0.setGroup 1 g

/-- The group with scalars, or one scalar pair. -/
def gs (g : Group) (l : List (Nat × Word)) : Group := l.foldl (fun g e => g.setS e.1 e.2) g

def privG : Group := { g0 with priv := true }

/-- The group in the format of a given FMT. -/
def fmtG (w : Word) : Group := { g0 with fmt := w }

def loopG (l : List LoopEntry) : Group := { g0 with lstack := l }

/-- A group with a handler at 0x10100. -/
def trapG : Group := { g0 with trap := { g0.trap with tvec := 0x10100 } }

/-- The launch watched by a debugger. -/
def debugged (s : State) : State := s.updLaunch 1 fun l => { l with debugger := true }

/-- A migrant group. -/
def migG : Group := { g0 with kind := .migrant 0 [] }

/-! ### Words -/

/-- R32, R427: major 01, D = v5, A = v3, B = q2 (0x6A), NW = 0, FN = 0. -/
theorem test_decode_vadd : decode 0b000001_0000101_0000011_1101010_0_0000 = .ok (.vadd 5 3 0x6A false) := by decide +kernel

/-- R428: major 02. -/
theorem test_decode_vabsd : decode 0b000010_0000001_0000010_0000011_0_0100 = .ok (.vabsd 1 2 3 false) := by decide +kernel

/-- R408: major 09, FN 1; NW = 1 with D = 0. -/
theorem test_decode_ssub_nw : decode 0b001001_0000000_0000010_0000011_1_0001 = .ok (.ssub 0 2 3 true) := by decide +kernel

/-- R394: major 08. -/
theorem test_decode_mand : decode 0x20082060 = .ok (.mand 1 2 3) := by decide +kernel

/-- R410: major 0A, IMM12 in bits 11 to 0. -/
theorem test_decode_saddi : decode 0x28183FFF = .ok (.saddi 3 3 0xFFF) := by decide +kernel

/-- R412: major 12, IMM19. -/
theorem test_decode_sli : decode 0b010010_0010100_0000000000000000111 = .ok (.sli 20 7) := by decide +kernel

/-- R358: major 15, CND 0, off16. -/
theorem test_decode_beq : decode 0x5448003E = .ok (.b_eq 9 0x3E) := by decide +kernel

/-- R446, R30: vldc in format FM, stream and X bit. -/
theorem test_decode_vldc : decode 0x98202042 = .ok (.vldc 4 2 2 1 false) := by decide +kernel

/-- R365: cbget. -/
theorem test_decode_cbget : decode 0xC0284008 = .ok (.cbget 5 4) := by decide +kernel

/-- R373: evmask. -/
theorem test_decode_evmask : decode 0xC4005001 = .ok (.evmask 5) := by decide +kernel

/-- R192: hopcfg. -/
theorem test_decode_hopcfg : decode 0xC8005004 = .ok (.hopcfg 5) := by decide +kernel

/-- R259: mfence. -/
theorem test_decode_mfence : decode 0xCC500006 = .ok (.mfence 10) := by decide +kernel

/-- R42: winb. -/
theorem test_decode_winb : decode 0b011001_0000000_0000101_0000000_0_1000 = .ok (.winb 5) := by decide +kernel

/-- R47: a word of zeros is undefined. -/
theorem test_decode_zero : decode 0 = .error .undef := by decide +kernel
/-! One word of every instruction: the fixed bits of its row in the opcode table, and the same operands
everywhere (D = 0x45, A = 0x36, B = 0x2B, C = 0x19, stream 13, X = 1, immediates with no symmetry). -/

/-- R32, R52 to R55: rows 1 to 24 of the opcode table. -/
theorem test_words_1 :
    decode 0x062B6560 = .ok (.vadd 0x45 0x36 0x2B false) ∧
    decode 0x062B6561 = .ok (.vsub 0x45 0x36 0x2B false) ∧
    decode 0x062B6562 = .ok (.vmul 0x45 0x36 0x2B false) ∧
    decode 0x062B6563 = .ok (.vmulh 0x45 0x36 0x2B false) ∧
    decode 0x062B6564 = .ok (.vmulhu 0x45 0x36 0x2B false) ∧
    decode 0x062B6565 = .ok (.vand 0x45 0x36 0x2B false) ∧
    decode 0x062B6566 = .ok (.vor 0x45 0x36 0x2B false) ∧
    decode 0x062B6567 = .ok (.vxor 0x45 0x36 0x2B false) ∧
    decode 0x062B6568 = .ok (.vandn 0x45 0x36 0x2B false) ∧
    decode 0x062B6569 = .ok (.vshl 0x45 0x36 0x2B false) ∧
    decode 0x062B656A = .ok (.vshr 0x45 0x36 0x2B false) ∧
    decode 0x062B656B = .ok (.vsra 0x45 0x36 0x2B false) ∧
    decode 0x062B656C = .ok (.vmin 0x45 0x36 0x2B false) ∧
    decode 0x062B656D = .ok (.vmax 0x45 0x36 0x2B false) ∧
    decode 0x062B656E = .ok (.vminu 0x45 0x36 0x2B false) ∧
    decode 0x062B656F = .ok (.vmaxu 0x45 0x36 0x2B false) ∧
    decode 0x0A2B6560 = .ok (.vadds 0x45 0x36 0x2B false) ∧
    decode 0x0A2B6561 = .ok (.vaddus 0x45 0x36 0x2B false) ∧
    decode 0x0A2B6562 = .ok (.vsubs 0x45 0x36 0x2B false) ∧
    decode 0x0A2B6563 = .ok (.vsubus 0x45 0x36 0x2B false) ∧
    decode 0x0A2B6564 = .ok (.vabsd 0x45 0x36 0x2B false) ∧
    decode 0x0A2B6005 = .ok (.vpopc 0x45 0x36 false) ∧
    decode 0x0A2B6006 = .ok (.vclz 0x45 0x36 false) ∧
    decode 0x0A2B6007 = .ok (.vbrev 0x45 0x36 false) := by decide +kernel

/-- R32, R52 to R55: rows 25 to 48 of the opcode table. -/
theorem test_words_2 :
    decode 0x0A2B6568 = .ok (.vbfx 0x45 0x36 0x2B false) ∧
    decode 0x0A2B6569 = .ok (.vbfi 0x45 0x36 0x2B) ∧
    decode 0x0A2B656A = .ok (.vmulw 0x45 0x36 0x2B false) ∧
    decode 0x0A2B656B = .ok (.vadd64 0x45 0x36 0x2B false) ∧
    decode 0x0A2B656C = .ok (.vsub64 0x45 0x36 0x2B false) ∧
    decode 0x0A2B656D = .ok (.vshl64 0x45 0x36 0x2B false) ∧
    decode 0x0E2B6560 = .ok (.vfadd 0x45 0x36 0x2B false) ∧
    decode 0x0E2B6561 = .ok (.vfsub 0x45 0x36 0x2B false) ∧
    decode 0x0E2B6562 = .ok (.vfmul 0x45 0x36 0x2B false) ∧
    decode 0x0E2B6563 = .ok (.vfmin 0x45 0x36 0x2B false) ∧
    decode 0x0E2B6564 = .ok (.vfmax 0x45 0x36 0x2B false) ∧
    decode 0x0E2B6005 = .ok (.vfabs 0x45 0x36 false) ∧
    decode 0x0E2B6006 = .ok (.vfneg 0x45 0x36 false) ∧
    decode 0x0E2B6567 = .ok (.vfdiv 0x45 0x36 0x2B false) ∧
    decode 0x0E2B6008 = .ok (.vfsqrt 0x45 0x36 false) ∧
    decode 0x0E2B6009 = .ok (.vfrcp 0x45 0x36 false) ∧
    decode 0x0E2B600A = .ok (.vfrsq 0x45 0x36 false) ∧
    decode 0x0E2B600B = .ok (.vfex2 0x45 0x36 false) ∧
    decode 0x0E2B600C = .ok (.vflg2 0x45 0x36 false) ∧
    decode 0x0E2B600D = .ok (.vfsin 0x45 0x36 false) ∧
    decode 0x0E2B600E = .ok (.vfcos 0x45 0x36 false) ∧
    decode 0x0E2B656F = .ok (.vfdot2 0x45 0x36 0x2B false) ∧
    decode 0x122B6560 = .ok (.vcmp_eq 0x45 0x36 0x2B) ∧
    decode 0x122B6561 = .ok (.vcmp_ne 0x45 0x36 0x2B) := by decide +kernel

/-- R32, R52 to R55: rows 49 to 72 of the opcode table. -/
theorem test_words_3 :
    decode 0x122B6562 = .ok (.vcmp_lt 0x45 0x36 0x2B) ∧
    decode 0x122B6563 = .ok (.vcmp_le 0x45 0x36 0x2B) ∧
    decode 0x122B6564 = .ok (.vcmp_ltu 0x45 0x36 0x2B) ∧
    decode 0x122B6565 = .ok (.vcmp_leu 0x45 0x36 0x2B) ∧
    decode 0x122B6566 = .ok (.vfcmp_eq 0x45 0x36 0x2B) ∧
    decode 0x122B6567 = .ok (.vfcmp_ne 0x45 0x36 0x2B) ∧
    decode 0x122B6568 = .ok (.vfcmp_lt 0x45 0x36 0x2B) ∧
    decode 0x122B6569 = .ok (.vfcmp_le 0x45 0x36 0x2B) ∧
    decode 0x122B656A = .ok (.vfcmp_un 0x45 0x36 0x2B) ∧
    decode 0x122B6A6B = .ok (.vfclass 0x45 0x36 0x53) ∧
    decode 0x162B66A9 = .ok (.vcvt 0x45 0x36 0x3 0x5 false 0x9) ∧
    decode 0x1A2B6560 = .ok (.vcvtef 0x45 0x36 0x2B) ∧
    decode 0x1A2B6001 = .ok (.vplane 0x45 0x36 false) ∧
    decode 0x1A2B6002 = .ok (.vunpl 0x45 0x36 false) ∧
    decode 0x1A2B6563 = .ok (.vshfl 0x45 0x36 0x2B false) ∧
    decode 0x1A2B6564 = .ok (.vshfx 0x45 0x36 0x2B false) ∧
    decode 0x1A2B6565 = .ok (.vbcl 0x45 0x36 0x2B false) ∧
    decode 0x1A2B6006 = .ok (.vfirst 0x45 0x36 false) ∧
    decode 0x1A2B6007 = .ok (.vredadd_i 0x45 0x36 false) ∧
    decode 0x1A2B6027 = .ok (.vredadd_f 0x45 0x36 false) ∧
    decode 0x1A2B6008 = .ok (.vredmin_s 0x45 0x36 false) ∧
    decode 0x1A2B6028 = .ok (.vredmin_u 0x45 0x36 false) ∧
    decode 0x1A2B6048 = .ok (.vredmin_f 0x45 0x36 false) ∧
    decode 0x1A2B6009 = .ok (.vredmax_s 0x45 0x36 false) := by decide +kernel

/-- R32, R52 to R55: rows 73 to 96 of the opcode table. -/
theorem test_words_4 :
    decode 0x1A2B6029 = .ok (.vredmax_u 0x45 0x36 false) ∧
    decode 0x1A2B6049 = .ok (.vredmax_f 0x45 0x36 false) ∧
    decode 0x1A2B600A = .ok (.vscan_i 0x45 0x36 false) ∧
    decode 0x1A2B602A = .ok (.vscan_f 0x45 0x36 false) ∧
    decode 0x1A2B600B = .ok (.vballot 0x45 0x36 false) ∧
    decode 0x1A2B600C = .ok (.vmov 0x45 0x36 false) ∧
    decode 0x1E2B6566 = .ok (.vsel 0x45 0x36 0x2B false 0x6) ∧
    decode 0x222B6560 = .ok (.mand 0x45 0x36 0x2B) ∧
    decode 0x222B6561 = .ok (.mor 0x45 0x36 0x2B) ∧
    decode 0x222B6562 = .ok (.mxor 0x45 0x36 0x2B) ∧
    decode 0x222B6563 = .ok (.mandn 0x45 0x36 0x2B) ∧
    decode 0x222B6004 = .ok (.mnot 0x45 0x36) ∧
    decode 0x222B6005 = .ok (.mset 0x45 0x36) ∧
    decode 0x222B6006 = .ok (.mget 0x45 0x36 false) ∧
    decode 0x22280007 = .ok (.mclr 0x45) ∧
    decode 0x222B6008 = .ok (.mcnt 0x45 0x36 false) ∧
    decode 0x262B6560 = .ok (.sadd 0x45 0x36 0x2B false) ∧
    decode 0x262B6561 = .ok (.ssub 0x45 0x36 0x2B false) ∧
    decode 0x262B6562 = .ok (.smul 0x45 0x36 0x2B false) ∧
    decode 0x262B6563 = .ok (.smulh 0x45 0x36 0x2B false) ∧
    decode 0x262B6564 = .ok (.sand 0x45 0x36 0x2B false) ∧
    decode 0x262B6565 = .ok (.sor 0x45 0x36 0x2B false) ∧
    decode 0x262B6566 = .ok (.sxor 0x45 0x36 0x2B false) ∧
    decode 0x262B6567 = .ok (.sshl 0x45 0x36 0x2B false) := by decide +kernel

/-- R32, R52 to R55: rows 97 to 120 of the opcode table. -/
theorem test_words_5 :
    decode 0x262B6568 = .ok (.sshr 0x45 0x36 0x2B false) ∧
    decode 0x262B6569 = .ok (.ssra 0x45 0x36 0x2B false) ∧
    decode 0x262B656A = .ok (.smin 0x45 0x36 0x2B false) ∧
    decode 0x262B656B = .ok (.smax 0x45 0x36 0x2B false) ∧
    decode 0x262B656C = .ok (.sslt 0x45 0x36 0x2B false) ∧
    decode 0x262B656D = .ok (.ssltu 0x45 0x36 0x2B false) ∧
    decode 0x262B656E = .ok (.saddx 0x45 0x36 0x2B false) ∧
    decode 0x2A2B6A6C = .ok (.saddi 0x45 0x36 0xA6C) ∧
    decode 0x2E2B6A6C = .ok (.sandi 0x45 0x36 0xA6C) ∧
    decode 0x322B6A6C = .ok (.sori 0x45 0x36 0xA6C) ∧
    decode 0x362B6A6C = .ok (.sxori 0x45 0x36 0xA6C) ∧
    decode 0x3A2B6013 = .ok (.sshli 0x45 0x36 0x13) ∧
    decode 0x3E2B6013 = .ok (.sshri 0x45 0x36 0x13) ∧
    decode 0x422B6013 = .ok (.ssrai 0x45 0x36 0x13) ∧
    decode 0x462B6A6C = .ok (.sslti 0x45 0x36 0xA6C) ∧
    decode 0x4A2DC3A9 = .ok (.sli 0x45 0x5C3A9) ∧
    decode 0x4E2DC3A9 = .ok (.slui 0x45 0x5C3A9) ∧
    decode 0x522B6A6C = .ok (.vaddi 0x45 0x36 0xA6C) ∧
    decode 0x55B09E35 = .ok (.b_eq 0x36 0x9E35) ∧
    decode 0x55B19E35 = .ok (.b_ne 0x36 0x9E35) ∧
    decode 0x55B29E35 = .ok (.b_lt 0x36 0x9E35) ∧
    decode 0x55B39E35 = .ok (.b_ge 0x36 0x9E35) ∧
    decode 0x55B49E35 = .ok (.b_gt 0x36 0x9E35) ∧
    decode 0x55B59E35 = .ok (.b_le 0x36 0x9E35) := by decide +kernel

/-- R32, R52 to R55: rows 121 to 144 of the opcode table. -/
theorem test_words_6 :
    decode 0x59B09E35 = .ok (.bm_any 0x36 0x9E35) ∧
    decode 0x59B19E35 = .ok (.bm_none 0x36 0x9E35) ∧
    decode 0x59B29E35 = .ok (.bm_all 0x36 0x9E35) ∧
    decode 0x5ED1B3C7 = .ok (.j 0x2D1B3C7) ∧
    decode 0x62D1B3C7 = .ok (.call 0x2D1B3C7) ∧
    decode 0x64036000 = .ok (.jr 0x36) ∧
    decode 0x64000001 = .ok .ret ∧
    decode 0x64000002 = .ok .exit ∧
    decode 0x64036003 = .ok (.vif 0x36) ∧
    decode 0x64000004 = .ok .velse ∧
    decode 0x64000005 = .ok .vendif ∧
    decode 0x64036006 = .ok (.vkill 0x36) ∧
    decode 0x64036007 = .ok (.fmt 0x36) ∧
    decode 0x64036008 = .ok (.winb 0x36) ∧
    decode 0x64000A69 = .ok (.trap 0x53) ∧
    decode 0x6400000A = .ok .rett ∧
    decode 0x64000A6B = .ok (.brk 0x53) ∧
    decode 0x6400000C = .ok .nop ∧
    decode 0x69B4D380 = .ok (.loop 0x36 0x9A7) ∧
    decode 0x6C05C3A9 = .ok (.ppt 0x5C3A9) ∧
    decode 0x722B657B = .ok (.vld_s8 0x45 0x36 0x2B 0xD true) ∧
    decode 0x762B657B = .ok (.vld_z8 0x45 0x36 0x2B 0xD true) ∧
    decode 0x7A2B657B = .ok (.vld_s16 0x45 0x36 0x2B 0xD true) ∧
    decode 0x7E2B657B = .ok (.vld_z16 0x45 0x36 0x2B 0xD true) := by decide +kernel

/-- R32, R52 to R55: rows 145 to 168 of the opcode table. -/
theorem test_words_7 :
    decode 0x822B657B = .ok (.vld_w 0x45 0x36 0x2B 0xD true) ∧
    decode 0x862B657B = .ok (.vld_d 0x45 0x36 0x2B 0xD true) ∧
    decode 0x8A2B657B = .ok (.vst_b 0x45 0x36 0x2B 0xD true) ∧
    decode 0x8E2B657B = .ok (.vst_h 0x45 0x36 0x2B 0xD true) ∧
    decode 0x922B657B = .ok (.vst_w 0x45 0x36 0x2B 0xD true) ∧
    decode 0x962B657B = .ok (.vst_d 0x45 0x36 0x2B 0xD true) ∧
    decode 0x9A2B657B = .ok (.vldc 0x45 0x36 0x2B 0xD true) ∧
    decode 0x9E2B657B = .ok (.vstc 0x45 0x36 0x2B 0xD true) ∧
    decode 0xA22B657B = .ok (.sld_w 0x45 0x36 0x2B 0xD true) ∧
    decode 0xA62B657B = .ok (.sld_d 0x45 0x36 0x2B 0xD true) ∧
    decode 0xAA2B657B = .ok (.sst_w 0x45 0x36 0x2B 0xD true) ∧
    decode 0xAE2B657B = .ok (.sst_d 0x45 0x36 0x2B 0xD true) ∧
    decode 0xB22B657A = .ok (.vatom_iadd 0x45 0x36 0x2B 0xD) ∧
    decode 0xB22B657B = .ok (.vatom_fadd 0x45 0x36 0x2B 0xD) ∧
    decode 0xB62B657A = .ok (.vatom_and 0x45 0x36 0x2B 0xD) ∧
    decode 0xB62B657B = .ok (.vatom_or 0x45 0x36 0x2B 0xD) ∧
    decode 0xBA2B657A = .ok (.vatom_smin 0x45 0x36 0x2B 0xD) ∧
    decode 0xBA2B657B = .ok (.vatom_smax 0x45 0x36 0x2B 0xD) ∧
    decode 0xBE2B657A = .ok (.vatom_xchg 0x45 0x36 0x2B 0xD) ∧
    decode 0xBE2B657B = .ok (.vatom_cas 0x45 0x36 0x2B 0xD) ∧
    decode 0xC0684000 = .ok (.fence 0xD 0x4) ∧
    decode 0xC0236001 = .ok (.xfence 0x4 0x36) ∧
    decode 0xC06B6002 = .ok (.sattr 0xD 0x36) ∧
    decode 0xC0036003 = .ok (.bar 0x36) := by decide +kernel

/-- R32, R52 to R55: rows 169 to 192 of the opcode table. -/
theorem test_words_8 :
    decode 0xC06B6564 = .ok (.cflush 0xD 0x36 0x2B) ∧
    decode 0xC06B6565 = .ok (.cinv 0xD 0x36 0x2B) ∧
    decode 0xC06B6566 = .ok (.czero 0xD 0x36 0x2B) ∧
    decode 0xC22B6567 = .ok (.vpreq 0x45 0x36 0x2B) ∧
    decode 0xC22B6008 = .ok (.cbget 0x45 0x36) ∧
    decode 0xC0036009 = .ok (.cbput 0x36) ∧
    decode 0xC62B6560 = .ok (.evbind 0x45 0x36 0x2B) ∧
    decode 0xC4036001 = .ok (.evmask 0x36) ∧
    decode 0xC4036002 = .ok (.evclr 0x36) ∧
    decode 0xC6280003 = .ok (.evpend 0x45) ∧
    decode 0xC4036004 = .ok (.waitany 0x36) ∧
    decode 0xC4036005 = .ok (.fetchw 0x36) ∧
    decode 0xC62B6566 = .ok (.spawn 0x45 0x36 0x2B) ∧
    decode 0xC8036000 = .ok (.hop 0x36) ∧
    decode 0xC8000001 = .ok .hopback ∧
    decode 0xC8000002 = .ok .rejoin ∧
    decode 0xCA2B6003 = .ok (.owner 0x45 0x36 false) ∧
    decode 0xC8036004 = .ok (.hopcfg 0x36) ∧
    decode 0xC8036005 = .ok (.hopx 0x36) ∧
    decode 0xCE2B6000 = .ok (.tshape 0x45 0x36) ∧
    decode 0xCE2B6561 = .ok (.mma 0x45 0x36 0x2B) ∧
    decode 0xCE2B6562 = .ok (.mmab 0x45 0x36 0x2B) ∧
    decode 0xCE280003 = .ok (.mzero 0x45) ∧
    decode 0xCE2B6564 = .ok (.mrd 0x45 0x36 0x2B) := by decide +kernel

/-- R32, R52 to R55: rows 193 to 213 of the opcode table. -/
theorem test_words_9 :
    decode 0xCE2B6565 = .ok (.mwr 0x45 0x36 0x2B) ∧
    decode 0xCE280006 = .ok (.mfence 0x45) ∧
    decode 0xCC036007 = .ok (.mwait 0x36) ∧
    decode 0xCE2B6568 = .ok (.msurf 0x45 0x36 0x2B) ∧
    decode 0xD22B61A0 = .ok (.ivsld 0x45 0x36 0xD) ∧
    decode 0xD22B61A1 = .ok (.bmac 0x45 0x36 0xD) ∧
    decode 0xD22B61A2 = .ok (.embw 0x45 0x36 0xD) ∧
    decode 0xD62B61A0 = .ok (.cpa 0x45 0x36 0xD) ∧
    decode 0xD62B63A0 = .ok (.cpa_ring 0x45 0x36 0xD) ∧
    decode 0xD62B61A1 = .ok (.cpred 0x45 0x36 0xD) ∧
    decode 0xDA2B6560 = .ok (.sfld 0x45 0x36 0x2B) ∧
    decode 0xDA2B6561 = .ok (.sfst 0x45 0x36 0x2B) ∧
    decode 0xDA280002 = .ok (.zt 0x45) ∧
    decode 0xD8036563 = .ok (.pxout 0x36 0x2B) ∧
    decode 0xDA2B6564 = .ok (.vtxout 0x45 0x36 0x2B) ∧
    decode 0xDA2B6005 = .ok (.vinterp 0x45 0x36 false) ∧
    decode 0xDA2B6566 = .ok (.tsmp 0x45 0x36 0x2B) ∧
    decode 0xDE280560 = .ok (.csrr 0x45 0x2B false) ∧
    decode 0xDC036561 = .ok (.csrw 0x36 0x2B) ∧
    decode 0xE8AD9599 = .ok (.vfma 0x45 0x36 0x2B 0x19) ∧
    decode 0xF8AD9599 = .ok (.vfnma 0x45 0x36 0x2B 0x19) := by decide +kernel

/-! ### Well-formedness: one ill-formed term for each check -/

/-- NW = 1 with D not 0 (R47); with D = 0 it is well formed. -/
theorem test_wf_nw : (Instr.vadd 5 3 4 true).wellFormed = false ∧ (Instr.vadd 0 3 4 true).wellFormed = true := by
  decide +kernel

/-- Numbers of system registers that no map assigns (R371): 0x09 in csrr, 0x66 in csrw. -/
theorem test_wf_csr : (Instr.csrr 5 0x09 false).wellFormed = false ∧ (Instr.csrw 5 0x66).wellFormed = false ∧
    (Instr.csrr 5 0x08 false).wellFormed = true := by decide +kernel

/-- vcvt: rounding 5, source type 15, destination type 15 (R439). -/
theorem test_wf_vcvt : (Instr.vcvt 5 3 5 0 false 1).wellFormed = false ∧ (Instr.vcvt 5 3 0 15 false 1).wellFormed = false ∧
    (Instr.vcvt 5 3 0 0 false 15).wellFormed = false ∧ (Instr.vcvt 5 3 4 0 false 1).wellFormed = true := by decide +kernel

/-- END12 = 0 (R47); scopes 5 to 7 (R168). -/
theorem test_wf_loop_scope : (Instr.loop 5 0).wellFormed = false ∧ (Instr.fence 0 5).wellFormed = false ∧
    (Instr.xfence 7 5).wellFormed = false ∧ (Instr.fence 15 4).wellFormed = true := by decide +kernel

/-- Codes that a kind does not admit: v96 as a destination, an odd pair, mask 8, tile 16, a latch as a destination
(R36 to R38). -/
theorem test_wf_codes : (Instr.vadd 96 3 4 false).wellFormed = false ∧ (Instr.vadd64 5 2 4 false).wellFormed = false ∧
    (Instr.mand 8 1 2).wellFormed = false ∧ (Instr.mzero 16).wellFormed = false ∧ (Instr.sadd 96 1 2 false).wellFormed = false ∧
    (Instr.vadd 95 127 0 false).wellFormed = true := by decide +kernel

/-- Unit numbers out of range: queue 64, stack 2, die 4, cluster 144, core 576, domain 8 (R13 to R20, R93). -/
theorem test_wf_units : (Instr.launch 64).wellFormed = false ∧ (Instr.llcsz_write 2 0).wellFormed = false ∧
    (Instr.frozen_clear 4 0).wellFormed = false ∧ (Instr.token_refill 144).wellFormed = false ∧
    (Instr.core_gate 576).wellFormed = false ∧ (Instr.canary_warning 8).wellFormed = false ∧
    (Instr.launch 63).wellFormed = true ∧ (Instr.core_gate 575).wellFormed = true := by decide +kernel

/-- A descriptor write: descriptor 63, offset 16, size 2, a misaligned offset (R139, R140). -/
theorem test_wf_descriptor : (Instr.cb_descriptor_write 63 0 4 0).wellFormed = false ∧
    (Instr.cb_descriptor_write 0 16 4 0).wellFormed = false ∧ (Instr.cb_descriptor_write 0 0 2 0).wellFormed = false ∧
    (Instr.cb_descriptor_write 0 4 8 0).wellFormed = false ∧ (Instr.cb_descriptor_write 62 8 8 0).wellFormed = true := by
  decide +kernel

/-- Contexts, handles, controllers, frames, packages, keys and registers that do not exist. -/
theorem test_wf_more : (Instr.spill_flip 4096 0).wellFormed = false ∧ (Instr.restore_flip 0 4096).wellFormed = false ∧
    (Instr.gddr_overheat 32 0).wellFormed = false ∧ (Instr.frame_migration 2097152 0).wellFormed = false ∧
    (Instr.frame_migration_flip 2097152).wellFormed = false ∧ (Instr.package_fenced 262144).wellFormed = false ∧
    (Instr.fabric_bring_up 0 1048576).wellFormed = false ∧ (Instr.register_write (.ctl 2 0) 0).wellFormed = false ∧
    (Instr.register_write (.group 1 0x09) 0).wellFormed = false ∧ (Instr.register_write (.group 1 0x60) 0).wellFormed = true ∧
    (Instr.register_write (.core 576 0x50) 0).wellFormed = false ∧ (Instr.register_write (.core 575 0x50) 0).wellFormed = true := by
  decide +kernel

/-! ### Single steps -/

/-- The group 1 after one step of a state. -/
def afterStep (s : State) (p : Group → Bool) : Bool := nextIs (step s) fun t => someIs (t.group? 1) p

/-- A program word about to be fetched, the group as given. -/
def run (w : Nat) (g : Group) : State := (State.reset.withFetchWord 32 w).setGroup 1 g

/-- R410: saddi s3, s3, -1 on 0 leaves 0xFFFFFFFF, and the PC advances by 4. -/
theorem test_saddi_wraps : afterStep (run 0x28183FFF g0) (fun g => g.scalar 3 == 0xFFFFFFFF && g.pc == 0x10004) = true := by
  decide +kernel

/-- R418: slui s5, 0x201 keeps bits 12 to 0 of s5: 0x201 * 8192 + 0x1FFF = 0x403FFF. -/
theorem test_slui_keeps_low : afterStep (run 0x4C280201 (gs g0 [(5, 0xFFFFFFFF)])) (fun g => g.scalar 5 == 0x00403FFF) =
    true := by decide +kernel

/-- R358: b.eq s9, +0x3E words, taken at 0: 0x10000 + 4 * 0x3E = 0x100F8. -/
theorem test_branch_taken : afterStep (run 0x5448003E g0) (fun g => g.pc == 0x100F8) = true := by decide +kernel

theorem test_branch_not_taken : afterStep (run 0x5448003E (gs g0 [(9, 1)])) (fun g => g.pc == 0x10004) = true := by
  decide +kernel

/-- R394: mand m1, m2, m3. -/
theorem test_mand : afterStep (run 0x20082060 ((g0.setM 2 0xF0F0F0F0).setM 3 0xFF00FF00)) (fun g =>
    g.maskAt 1 == 0xF000F000) = true := by decide +kernel


/-- R70, R427: vsub v5, v3, v4 in lanes 0 and 31 alone: 1 - 2 wraps in lane 31, the idle lane 1 keeps 9. -/
theorem test_vsub_lanes : afterStep (run 0x04283081 ((({ g0 with amask := 0x80000001 } : Group).setLanes 3 [0, 1, 31] fun _ => 1)
      |>.setLanes 4 [0, 1, 31] (fun _ => 2) |>.setLanes 5 [1] fun _ => 9))
    (fun g => g.vcode 5 31 == 0xFFFFFFFF && g.vcode 5 1 == 9 && g.vcode 5 0 == 0xFFFFFFFF) = true := by decide +kernel

/-- R228, R224: trap 3 at 0x10000 with TVEC 0x10100: PC at the handler, TPC at the trap, TNEXT after it. -/
theorem test_trap_enters : afterStep (run 0x64000069 trapG) (fun g => g.pc == 0x10100 && g.trap.tpc == 0x10000 &&
    g.trap.tnext == 0x10004 && g.trap.intrap) = true := by decide +kernel

/-- R225: a trap with TVEC = 0 and no debugger ends the group, and reports the fault. -/
theorem test_trap_kills : nextIs (step (run 0x64000069 g0)) (fun t => (t.group? 1).isNone && t.reports.length == 1) =
    true := by decide +kernel

/-- R56: a word of zeros raises UNDEF (1) to the handler, TPC = TNEXT at it. -/
theorem test_undefined_word : afterStep (run 0 trapG) (fun g => g.pc == 0x10100 && g.trap.cause == causeCode .undef &&
    g.trap.tnext == 0x10000) = true := by decide +kernel

/-- R229: rett goes to TNEXT and clears INTRAP. -/
theorem test_rett : afterStep (run 0x6400000A { trapG with trap := { trapG.trap with intrap := true, tnext := 0x10020 } })
    (fun g => g.pc == 0x10020 && !g.trap.intrap) = true := by decide +kernel

/-- R77, R78: loop s5, 1 with s5 = 2 pushes the body at 0x10004 to 0x10004, two passes. -/
theorem test_loop : afterStep (run 0x68280080 (gs g0 [(5, 2)])) (fun g => g.lstack == [⟨0x10004, 0x10004, 2⟩] &&
    g.pc == 0x10004) = true := by decide +kernel

/-- R77: with a count of 0 the body is passed over. -/
theorem test_loop_zero : afterStep (run 0x68280080 g0) (fun g => g.lstack.isEmpty && g.pc == 0x10008) = true := by
  decide +kernel

/-- R73: vif m2 pushes AMASK and narrows it. -/
theorem test_vif : afterStep (run 0x64002003 (g0.setM 2 0x0000FFFF)) (fun g => g.amask == 0x0000FFFF &&
    g.mstack == [⟨0xFFFFFFFF, 0⟩]) = true := by decide +kernel

/-- R415, R417: sst.w of s8 at sp10 + 4 * 4, and sld.w of the same word; bytes little-endian (R4). -/
theorem test_sst_w : nextIs (step (run 0xA840A080 (gs g0 [(8, 0x11223344), (10, 0x10100)])))
    (fun t => readBytes t 0x100110 4 == [0x44, 0x33, 0x22, 0x11]) = true := by decide +kernel

theorem test_sld_w : afterStep (storeNat (run 0xA040A080 (gs g0 [(10, 0x10100)])) 0x100110 4 0x55667788)
    (fun g => g.scalar 8 == 0x55667788) = true := by decide +kernel

/-- R371: in user mode csrr of 0x60 raises PRIV. -/
theorem test_csrr_priv : afterStep (run 0xDC280C00 trapG) (fun g => g.trap.cause == causeCode .priv) = true := by
  decide +kernel

/-- R41, R42: winb s5 with s5 = 16 moves the window; 17 raises WINDOW. -/
theorem test_winb : afterStep (run 0x64005008 (gs g0 [(5, 16)])) (fun g => g.wb == 16) = true ∧
    afterStep (run 0x64005008 (gs trapG [(5, 17)])) (fun g => g.wb == 0 && g.trap.cause == causeCode .window) = true := by
  decide +kernel

/-- R126: 1.0 + 1.0 = 2.0 in binary32, exactly. -/
theorem test_vfadd : afterStep (run 0x0C283080 (g0.setLanes 3 [0] (fun _ => 0x3F800000) |>.setLanes 4 [0] fun _ => 0x3F800000))
    (fun g => g.vcode 5 0 == 0x40000000 && g.fst == 0) = true := by decide +kernel

/-- R86: exit of the only group of a launch retires it. -/
theorem test_exit : nextIs (step (run 0x64000002 g0)) (fun t => (t.group? 1).isNone) = true := by decide +kernel

/-- R399: nop only advances. -/
theorem test_nop : afterStep (run 0x6400000C g0) (fun g => g.pc == 0x10004 && g.v == g0.v && g.s == g0.s) = true := by
  decide +kernel

/-- R338: after a fatal error nothing issues. -/
theorem test_fatal_stops : (match step { run 0x6400000C g0 with fatal := true } with
    | .fault .issueStopped => true | _ => false) = true := by decide +kernel

/-! ### Witnesses: words and the step -/

theorem test_wit_DecodeOfEncode : (Instr.vadd 5 3 106 false).shapeOk = true ∧
    encode (.vadd 5 3 106 false) = some 0x04283D40 ∧ (Instr.fence 15 4).shapeOk = true ∧
    (encode (.fence 15 4)).isSome = true := by decide +kernel

theorem test_wit_EncodeOfDecode : decode 0x04283D40 = .ok (.vadd 5 3 106 false) := by decide +kernel

/-- A word of a major and an FN. -/
def wordOf (major fn : Nat) : Word := BitVec.ofNat 32 (major * 2 ^ 26 + fn)

theorem test_wit_ReservedWords : fieldNat (0x03FFFFFF : Word) 26 6 = 0 ∧
    (∀ e ∈ reservedFns, fieldNat (wordOf e.1 e.2) 26 6 = e.1 ∧ e.2 ≤ fieldNat (wordOf e.1 e.2) 0 4) ∧
    (fieldNat (0x1400000F : Word) 0 4 = 15 ∧ fieldNat (0x140001E0 : Word) 5 4 = 15 ∧ 5 ≤ fieldNat (0x14000A00 : Word) 9 3 ∧
      fieldNat (0x1400000F : Word) 26 6 = 0x05) ∧
    (5 ≤ fieldNat (wordOf 0x30 (5 * 2 ^ 12)) 12 3 ∧ 5 ≤ fieldNat (wordOf 0x30 (1 + 5 * 2 ^ 19)) 19 3 ∧
      fieldNat (wordOf 0x30 (1 + 5 * 2 ^ 19)) 0 4 = 1) ∧
    (fieldNat (0x544E0000 : Word) 26 6 = 0x15 ∧ 6 ≤ fieldNat (0x544E0000 : Word) 16 3) ∧
    (fieldNat (0x583B0000 : Word) 26 6 = 0x16 ∧ 3 ≤ fieldNat (0x583B0000 : Word) 16 3) ∧
    (fieldNat (0x68280000 : Word) 26 6 = 0x1A ∧ fieldNat (0x68280000 : Word) 7 12 = 0) := by decide +kernel

theorem test_wit_ReservedWords_bits :
    (∀ e ∈ zeroBits, let w := wordOf e.1 e.2.1 ||| e.2.2
     fieldNat w 26 6 = e.1 ∧ fieldNat w 0 4 = e.2.1 ∧ w &&& e.2.2 ≠ 0) ∧
    (∀ e ∈ nwForms, let w := wordOf e.1 (e.2 + 16 + 2 ^ 25)
     fieldNat w 26 6 = e.1 ∧ fieldNat w 0 4 = e.2 ∧ bit w 4 = true ∧ fieldNat w 19 7 ≠ 0) ∧
    (let w := wordOf 0x05 (14 + 14 * 2 ^ 5 + 4 * 2 ^ 9 + 16 + 2 ^ 19)
     fieldNat w 26 6 = 0x05 ∧ fieldNat w 0 4 ≠ 15 ∧ fieldNat w 5 4 ≠ 15 ∧ fieldNat w 9 3 < 5 ∧ bit w 4 = true ∧
      fieldNat w 19 7 ≠ 0) ∧
    (∀ n ∈ [8, 9], let w := wordOf 0x06 (n + 96)
     fieldNat w 26 6 = 0x06 ∧ fieldNat w 0 4 = n ∧ fieldNat w 5 2 = 3) ∧
    (let w := wordOf 0x30 (4 * 2 ^ 12 + 2 ^ 25)
     fieldNat w 26 6 = 0x30 ∧ fieldNat w 0 4 = 0 ∧ fieldNat w 12 3 < 5 ∧ w &&& 0x3878FF0 ≠ 0) ∧
    (let w := wordOf 0x30 (1 + 4 * 2 ^ 19 + 16)
     fieldNat w 26 6 = 0x30 ∧ fieldNat w 0 4 = 1 ∧ fieldNat w 19 3 < 5 ∧ w &&& 0x3C00FF0 ≠ 0) ∧
    (∀ m ∈ [0x0E, 0x0F, 0x10], fieldNat (wordOf m (2 ^ 11)) 26 6 = m ∧ fieldNat (wordOf m (2 ^ 11)) 5 7 ≠ 0) ∧
    (fieldNat (wordOf 0x1A (2 ^ 7 + 1)) 7 12 ≠ 0 ∧ fieldNat (wordOf 0x1A (2 ^ 7 + 1)) 0 7 ≠ 0) ∧
    (fieldNat (wordOf 0x1B (2 ^ 19)) 26 6 = 0x1B ∧ fieldNat (wordOf 0x1B (2 ^ 19)) 19 7 ≠ 0) := by decide +kernel

/-- `Free`, decided. -/
def freeB (s : State) (gid : Nat) (g : Group) : Bool :=
  decide (s.group? gid = some g) && decide (g.status = .ready) && decide ((s.coreAt g.core).scanning = false) &&
  decide (quarterTaken s gid g = false) && decide (g.lmask ≠ 0 ∨ chainOver s g g.pc = false) &&
  decide (fpDue s g = false) && decide (haltOwed g = false ∨ atBoundary s g = false) && decide (timerDue s g = false) &&
  decide (breakpointDue s g = false)

theorem free_iff (s : State) (gid : Nat) (g : Group) : Free s gid g ↔ freeB s gid g = true := by
  simp [Free, freeB, and_assoc]

/-- The turn of group 1 begins. -/
def turn (s : State) : State := turnOf s 1 false false []

/-- What StepRunsDecoded and StepOfNoInstruction ask of a state besides the fetch. -/
def readyToFetch (s : State) (g : Group) : Bool :=
  decide (s.agenda = [.issue 1 false]) && !s.fatal && !s.recovery && freeB (turn s) 1 g

/-- What the group fetches. -/
def fetches (s : State) (p : Except Cause (Word × Hit) → Bool) : Bool :=
  someIs (s.group? 1) fun g => p (fetchAt (turn s) g g.pc)

theorem test_wit_StepRunsDecoded : readyToFetch (run 0x28183FFF g0) g0 = true ∧
    fetches (run 0x28183FFF g0) (okIs · fun r => r.1 == 0x28183FFF && !hitBad (turn (run 0x28183FFF g0)) r.2 4 &&
      !headWaits (markHit (turn (run 0x28183FFF g0)) r.2) g0 (.saddi 3 3 0xFFF)) = true ∧
    decode 0x28183FFF = .ok (.saddi 3 3 0xFFF) := by decide +kernel

theorem test_wit_StepOfNoInstruction : readyToFetch (run 0 g0) g0 = true ∧
    fetches (run 0 g0) (okIs · fun r => r.1 == 0 && !hitBad (turn (run 0 g0)) r.2 4) = true ∧ decode 0 = .error .undef ∧
    (let g := { g0 with pc := 0x20000 }
     readyToFetch (run 0 g) g = true ∧
     fetches (run 0 g) (fun e => match e with | .error c => c == .nomap | .ok _ => false) = true) ∧
    decode 0x04283090 = .error .rsvbit ∧ undefWord 0 0x04283090 = false ∧
    (let w : Word := 0b000011_0000101_0000011_0000100_1_1111
     decode w = .error .rsvbit ∧ undefWord 0 w = true) ∧
    s0.group? s0.cur = some g0 ∧ g0.status = .ready ∧ (s0.coreAt g0.core).scanning = false ∧
    (let s := s0.setCore 0 { Core.reset with scanning := true }
     s.group? s.cur = some g0 ∧ (s.coreAt g0.core).scanning = true) ∧
    (let s := poison s0 [0x100003]
     s.group? s.cur = some g0 ∧ okIs (fetchAt s g0 g0.pc) (fun r => hitBad s r.2 4) = true) := by decide +kernel

theorem test_wit_FatalStops : (run 0 g0).agenda = [.issue 1 false] ∧
    { run 0 g0 with fatal := true }.fatal = true ∧ ({ run 0 g0 with recovery := true }.fatal = false ∧
    { run 0 g0 with recovery := true }.recovery = true) := by decide +kernel

theorem test_wit_CalmCompletion : Calm (.saddi 3 3 0xFFF) g0 ∧ s0.group? s0.cur = some g0 ∧ g0.status = .ready ∧
    g0.lmask ≠ 0 ∧ g0.dbg.step = false ∧ g0.dbg.haltDue = false := by simp only [calm_iff]; decide +kernel

theorem test_wit_CalmCompletion_advance : atLoopEnd g0 g0.pc = false ∧
    (atLoopEnd (loopG [⟨0x10000, 0x10000, 2⟩]) 0x10000 = true ∧ 1 < 2) ∧
    (atLoopEnd (loopG [⟨0x10000, 0x10000, 1⟩]) 0x10000 = true ∧ 1 ≤ 1) ∧
    (atLoopEnd (loopG [⟨0x10000, 0x10000, 1⟩, ⟨0x10000, 0x10004, 2⟩]) 0x10000 = true ∧ (0x10004 : DWord) ≠ 0x10000) ∧
    (let g := loopG [⟨0x10000, 0x10000, 1⟩, ⟨0xFFFC, 0x10000, 2⟩]
     atLoopEnd g g.pc = true ∧ (0x10000 : DWord) = g.pc ∧ g.loopBase < 1) ∧
    (let g := { loopG [⟨0x10000, 0x10000, 1⟩, ⟨0xFFFC, 0x10000, 2⟩] with
                  trap := { g0.trap with intrap := true, lbase := 1 } }
     atLoopEnd g g.pc = true ∧ 1 ≤ g.loopBase) := by
  decide +kernel

/-- A group whose chain, of one instruction, has raised an enabled exception. -/
def fpG : Group := { g0 with chain := { Chain.none with ended := false, head := 0xFFFC, latches := [.none], fpFlags := 1,
                                                        fpLanes := 1, fpIns := 7 } }

theorem test_wit_ChainEndTrap :
    ((5 : BitVec 5) ≠ 0 ∧ g0.pc = g0.pc ∧
      (sideEffect (.fence 15 4) = true ∧ (chainAt fpG (oprsOf fpG.fmt (.vadd 5 96 3 false))).fpFlags ≠ 0) ∧
      atLoopEnd (loopG [⟨0x10000, 0x10000, 1⟩]) 0x10000 = true ∧
      okIs (fetchAt s0 g0 (g0.pc + 4)) (fun r => match decode r.1 with | .error _ => true | .ok _ => false) = true) ∧
    (sideEffect (.vfadd 5 3 4 false) = false ∧ atLoopEnd g0 g0.pc = false ∧
      okIs (fetchAt s0 { g0 with pc := 0x1FFFC } 0x20000) (fun _ => true) = false) ∧
    (let g := { g0 with dbg := { g0.dbg with step := true } }
     (at_ g).group? 1 = some g ∧ g.lmask ≠ 0 ∧ g.dbg.step = true ∧ g.status = .ready) := by decide +kernel

/-! ### Witnesses: traps -/

theorem test_wit_TrapEntry : (at_ trapG).group? 1 = some trapG ∧ causeToHandler .swtrap = true ∧ trapG.trap.tvec ≠ 0 ∧
    trapG.trap.tvec &&& 3 = 0 ∧ trapG.trap.intrap = false := by decide +kernel

theorem test_wit_TrapUndeliverable : s0.group? 1 = some g0 ∧ deliverable g0 .swtrap = false ∧
    debuggerOn (debugged s0) g0 = true ∧ isMigrant g0 = false ∧ debuggerOn s0 g0 = false ∧
    (debugged s0).group? 1 = some g0 ∧ ((at_ migG).group? 1 = some migG ∧ isMigrant migG = true ∧
      deliverable migG .swtrap = false) := by decide +kernel

/-- A group in its handler, at loop depth 2 with LBASE 1, to return to 0x10004: its outer loop ends just before there or
not. -/
def handlerG (last : DWord) : Group :=
  { loopG [⟨0x10100, 0x10110, 3⟩, ⟨0x10000, last, 2⟩] with
    trap := { trapG.trap with intrap := true, lbase := 1, tnext := 0x10004 } }

theorem test_wit_TrapReturn : (handlerG 0x10000).trap.intrap = true ∧ (handlerG 0x10008).lstack.drop 1 = [⟨0x10000, 0x10008, 2⟩] ∧
    ((0x10008 : DWord) ≠ (handlerG 0x10008).trap.tnext - 4 ∧ (0x10000 : DWord) = (handlerG 0x10000).trap.tnext - 4) := by
  decide +kernel

/-- R226, R229: the handler's loop is popped; a body that ends just before TNEXT begins its next pass. -/
theorem test_rett_pops : (returnFromTrap (handlerG 0x10008)).lstack = [⟨0x10000, 0x10008, 2⟩] ∧
    (returnFromTrap (handlerG 0x10008)).pc = 0x10004 ∧ (returnFromTrap (handlerG 0x10000)).lstack = [⟨0x10000, 0x10000, 1⟩] ∧
    (returnFromTrap (handlerG 0x10000)).pc = 0x10000 := by decide +kernel

theorem test_wit_DecodeFaultRaised : s0.group? s0.cur = some g0 ∧ g0.status = .ready ∧
    (s0.coreAt g0.core).scanning = false ∧
    decodeFault s0 g0 (.vfdot2 5 3 4 false) = some .undef ∧ undefByFmt g0.fmt (.vfdot2 5 3 4 false) = true ∧
    (decodeFault s0 g0 (.csrr 5 0x60 false) = some .priv ∧ csrNumber (.csrr 5 0x60 false) = some 0x60 ∧ g0.priv = false) ∧
    (decodeFault s0 g0 (.hopcfg 90) = some .opnd ∧ csrNumber (.hopcfg 90) = none ∧
      codesOk (oprsOf 0 (.hopcfg 90)) = false) := by decide +kernel

theorem test_wit_FaultIsPrecise : (at_ trapG).group? 1 = some trapG ∧ deliverable trapG .permr = true ∧
    trapG.lmask ≠ 0 := by decide +kernel

/-! ### Witnesses: arithmetic -/

theorem test_wit_VectorIntegerResult : (∀ f ∈ vecForms ++ vecForms2, Admits (f.1 95 127 0 false) s0 g0) ∧
    (∀ f ∈ vecForms1, Admits (f.1 5 3 false) s0 g0) ∧ (∀ f ∈ vecPairForms, Admits (f.1 94 6 127 false) s0 g0) ∧
    Admits (.vmulw 4 3 127 false) s0 g0 ∧ Admits (.vbfi 5 3 4) s0 g0 ∧ Admits (.vaddi 5 3 0x800) s0 g0 := by
  simp only [admits_iff]; decide +kernel

theorem test_wit_LaneFunctions : (0x80000000 : Word) ≠ 0 := by decide

theorem test_wit_ScalarResult : (∀ f ∈ scaForms, Admits (f.1 63 86 0 false) s0 g0) ∧ Admits (.saddx 62 4 3 false) s0 g0 ∧
    (∀ f ∈ immForms, Admits (f.1 5 3 0x800) s0 g0) ∧ (∀ f ∈ shiftForms, Admits (f.1 5 3 31) s0 g0) ∧
    Admits (.sli 63 0x40000) s0 g0 ∧ Admits (.slui 5 0x40000) s0 g0 := by simp only [admits_iff]; decide +kernel

theorem test_wit_ScalarResult_masks : (∀ f ∈ maskForms, Admits (f.1 7 0 3) s0 g0) ∧ Admits (.mnot 7 0) s0 g0 ∧
    Admits (.mset 7 5) s0 g0 ∧ Admits (.mclr 7) s0 g0 ∧ Admits (.mget 5 7 false) s0 g0 ∧ Admits (.mcnt 5 7 false) s0 g0 := by
  simp only [admits_iff]; decide +kernel

/-- The encodings 0x7FC00000 and 0x3F800000 of binary32 are a NaN and a number. -/
def env32 : Env := envOf 0

theorem test_wit_CompareResult : (∀ f ∈ cmpForms, Admits (f.1 7 3 4) s0 g0) ∧ (∀ f ∈ fcmpForms, Admits (f.1 7 3 4) s0 g0) ∧
    Admits (.vfclass 7 3 0x7F) s0 g0 ∧ (unpack env32.f (env32.rd 0x7FC00000)).isNan = true ∧
    (unpack env32.f (env32.rd 0x3F800000)).isNan = false := by simp only [admits_iff]; decide +kernel

theorem test_wit_FloatResult : (∀ f ∈ floatForms2, Admits (f.1 4 6 8 false) s0 g0 ∧
      Admits (f.1 4 6 8 false) (at_ (fmtG 3)) (fmtG 3)) ∧
    (∀ f ∈ floatForms1, Admits (f.1 4 6 false) s0 g0) ∧ (∀ f ∈ floatForms3, Admits (f.1 4 6 8 10) s0 g0) ∧
    Admits (.vfdot2 4 6 8 false) (at_ (fmtG 1)) (fmtG 1) ∧
    (unpack env32.f (env32.rd 0x7FC00000)).isNan = true ∧ (unpack env32.f (env32.rd 0x3F800000)).isNan = false := by
  simp only [admits_iff]; decide +kernel

theorem test_wit_ConvertResult : Admits (.vcvt 5 3 4 0 false 1) s0 g0 ∧ Admits (.vcvtef 5 3 4) s0 g0 ∧
    (cvtType 6 = .int true 32 ∧ cvtType 10 = .int true 8) ∧ (cvtType 6 = .int true 32 ∧ cvtType 11 = .int false 8) := by
  simp only [admits_iff]; decide +kernel

theorem test_wit_CrossLaneResult : (∀ f ∈ moveForms1, Admits (f.1 5 3 false) s0 g0) ∧
    (∀ f ∈ moveForms2, Admits (f.1 5 3 4 false) s0 g0) ∧ Admits (.vsel 5 3 4 false 7) s0 g0 ∧
    (103 < 104 ∧ { g0 with lmask := 0x7FFFFFFF }.live 31 = false) := by simp only [admits_iff]; decide +kernel

theorem test_wit_ReductionResult : (∀ f ∈ reduceForms, Admits (f.1 5 3 false) s0 g0) ∧
    (∀ f ∈ floatReduceForms, Admits (f.1 4 6 false) s0 g0 ∧ Admits (f.1 4 6 false) (at_ (fmtG 3)) (fmtG 3)) ∧
    Admits (.vscan_f 4 6 false) s0 g0 ∧ Admits (.vfirst 5 3 false) s0 g0 ∧ Admits (.vballot 5 3 false) s0 g0 := by
  simp only [admits_iff]; decide +kernel

theorem test_wit_RegisterFrame :
    (∀ f ∈ vecForms ++ vecForms2, Admits (f.1 5 3 4 false) s0 g0 ∧ Calm (f.1 5 3 4 false) g0) ∧
    (∀ f ∈ scaForms, Admits (f.1 5 3 4 false) s0 g0 ∧ Calm (f.1 5 3 4 false) g0) ∧
    (∀ f ∈ immForms, Admits (f.1 5 3 4) s0 g0 ∧ Calm (f.1 5 3 4) g0) ∧
    (∀ f ∈ maskForms, Admits (f.1 5 3 4) s0 g0 ∧ Calm (f.1 5 3 4) g0) ∧
    (∀ f ∈ cmpForms, Admits (f.1 5 3 4) s0 g0 ∧ Calm (f.1 5 3 4) g0) ∧
    (∀ f ∈ floatForms2, Admits (f.1 4 6 8 false) s0 g0 ∧ Calm (f.1 4 6 8 false) g0) ∧ trapEnables g0.fmt = 0 ∧
    (∀ b ∈ [0x0E, 0x30], Admits (.csrr 5 b false) s0 g0 ∧ Calm (.csrr 5 b false) g0 ∧ Admits (.csrw 63 b) s0 g0 ∧
      Calm (.csrw 63 b) g0) := by
  simp only [admits_iff, calm_iff]; decide +kernel

/-! ### Witnesses: control -/

/-- sp10 = 0x10100, an address of the page. -/
def memG : Group := gs g0 [(10, 0x10100)]

theorem test_wit_ControlResult_branches : (∀ f ∈ branchForms, Admits (f.1 63 0x8000) s0 g0) ∧
    (∀ f ∈ maskBranchForms, Admits (f.1 7 0x7FFF) s0 g0) ∧
    (let g := loopG [⟨0x10000, 0x10000, 2⟩, ⟨0x10000, 0x10040, 2⟩]
     (branchTo g 0x10020).lstack = ⟨0x10000, 0x10040, 2⟩ :: [] ∧ g.loopBase < 1) := by
  simp only [admits_iff]; decide +kernel

theorem test_wit_ControlResult : Admits (.j 0x2000000) s0 g0 ∧ Admits (.call 0x1FFFFFF) s0 g0 ∧
    (Admits (.jr 10) (at_ memG) memG ∧ srcSP (at_ memG) memG 10 &&& 3 = 0) ∧
    (Admits (.jr 10) (at_ (gs g0 [(10, 3)])) (gs g0 [(10, 3)]) ∧ srcSP s0 (gs g0 [(10, 3)]) 10 &&& 3 ≠ 0) ∧
    (Admits .ret s0 g0 ∧ g0.scalarPair 62 &&& 3 = 0) ∧
    (let g := gs g0 [(5, 1)]
     Admits (.loop 5 0xFFF) (at_ g) g ∧ srcS s0 g 5 ≠ 0 ∧ g.lstack.length ≤ g.loopBase ∧ g.lstack.length ≠ 4) ∧
    (let g := gs (loopG [⟨0x10000, 0x10010, 2⟩]) [(5, 1)]
     Admits (.loop 5 4) (at_ g) g ∧ srcS s0 g 5 ≠ 0 ∧ (g.pc + 4 * (4 : BitVec 12).setWidth 64).toNat ≤ 0x10010) ∧
    (Admits (.loop 5 1) s0 g0 ∧ srcS s0 g0 5 = 0 ∧ atLoopEnd g0 (g0.pc + 4 * (1 : BitVec 12).setWidth 64) = false) := by
  simp only [admits_iff]; decide +kernel

theorem test_wit_ControlResult_faults :
    (let g := gs g0 [(62, 0x10002)]
     Admits .ret (at_ g) g ∧ g.scalarPair 62 &&& 3 ≠ 0) ∧
    (let g := loopG [⟨0x10000, 0x10004, 2⟩]
     Admits (.loop 5 1) (at_ g) g ∧ srcS s0 g 5 = 0 ∧ atLoopEnd g (g.pc + 4 * (1 : BitVec 12).setWidth 64) = true) ∧
    (let g := gs (loopG [⟨0x10000, 0x10004, 2⟩]) [(5, 1)]
     Admits (.loop 5 2) (at_ g) g ∧ srcS s0 g 5 ≠ 0 ∧ g.loopBase < g.lstack.length ∧
      (0x10004 : DWord).toNat < (g.pc + 4 * (2 : BitVec 12).setWidth 64).toNat) ∧
    (let g := gs (loopG (List.replicate 4 ⟨0x10000, 0x10010, 2⟩)) [(5, 1)]
     Admits (.loop 5 4) (at_ g) g ∧ srcS s0 g 5 ≠ 0 ∧ g.lstack.length = 4 ∧
      (g.pc + 4 * (4 : BitVec 12).setWidth 64).toNat ≤ (0x10010 : DWord).toNat) := by
  simp only [admits_iff]; decide +kernel

/-- Mask stacks of 15, 16 and 1 entries. -/
def stackG (n : Nat) : Group := { g0 with mstack := List.replicate n ⟨0xFFFFFFFF, 0⟩ }

theorem test_wit_MaskStackResult : (Admits (.vif 7) (at_ (stackG 15)) (stackG 15) ∧ (stackG 15).mstack.length ≠ 16) ∧
    (Admits (.vif 7) (at_ (stackG 16)) (stackG 16) ∧ (stackG 16).mstack.length = 16) ∧
    (Admits .velse (at_ (stackG 1)) (stackG 1) ∧ Admits .vendif (at_ (stackG 1)) (stackG 1) ∧
      (stackG 1).mstack = [⟨0xFFFFFFFF, 0⟩]) ∧
    (Admits .velse s0 g0 ∧ Admits .vendif s0 g0 ∧ g0.mstack = []) ∧ Admits (.vkill 7) s0 g0 ∧ isMigrant g0 = false ∧
    (Admits (.fmt 5) s0 g0 ∧ fmtReserved (srcS s0 g0 5) = false) ∧
    (let g := gs g0 [(5, 0xFFFFFFFF)]
     Admits (.fmt 5) (at_ g) g ∧ fmtReserved (srcS s0 g 5) = true) ∧ Admits .nop s0 g0 := by
  simp only [admits_iff]; decide +kernel

theorem test_wit_WindowBase : (let g := gs g0 [(5, 496)]
     Admits (.winb 5) (at_ g) g ∧ (srcS s0 g 5).toNat % 16 = 0 ∧ (srcS s0 g 5).toNat < g.vregs) ∧
    (let g := gs g0 [(5, 512)]
     Admits (.winb 5) (at_ g) g ∧ g.vregs ≤ (srcS s0 g 5).toNat) ∧
    (let g := gs g0 [(5, 8)]
     Admits (.winb 5) (at_ g) g ∧ (srcS s0 g 5).toNat % 16 ≠ 0) ∧ (95 : Code).toNat ≤ 95 := by
  simp only [admits_iff]; decide +kernel

theorem test_wit_TrapInstrResult : Admits (.trap 127) s0 g0 ∧ (Admits (.brk 127) s0 g0 ∧ debuggerOn s0 g0 = false) ∧
    (Admits (.brk 0) (debugged s0) g0 ∧ debuggerOn (debugged s0) g0 = true) ∧
    (Admits .rett s0 g0 ∧ g0.trap.tnext &&& 3 = 0) ∧
    (let g := { g0 with trap := { g0.trap with tnext := 0x10001 } }
     Admits .rett (at_ g) g ∧ g.trap.tnext &&& 3 ≠ 0) ∧ (Admits .exit s0 g0 ∧ isMigrant g0 = false) ∧
    (Admits .exit (at_ migG) migG ∧ isMigrant migG = true) ∧
    (Admits (.ppt 0x7FFFF) s0 g0 ∧ preemptDue s0 1 g0 = false ∧ vfHolds s0 g0 = false) ∧
    (let s := s0.updLaunch 1 fun l => { l with phase := .preempting, preempt := some ⟨⟨0, 0, false⟩, 0, [], [], []⟩ }
     Admits (.ppt 0) s g0 ∧ preemptDue s s.cur g0 = true) := by simp only [admits_iff]; decide +kernel

/-! ### Witnesses: memory -/

/-- A core whose L1 holds an old byte of the line at 0x10100, of which write 3 was missed. -/
def oldState : State :=
  { at_ memG with l1 := [(0x100100 / 128, [⟨0, [], [⟨0, 0x55, [3]⟩]⟩])], writes := 4 }

/-- A load of that byte. -/
def oldLoad : PendLoad :=
  ⟨15, false, 4, false, true, [⟨some 31, 95, [0x100100], some 0, none, false, none, none⟩], 0⟩

theorem test_wit_LoadResult :
    (∀ f ∈ loadForms, Admits (f.1 94 10 4 15 true) (at_ memG) memG ∧
      okIs (laneHits (at_ memG) memG .load f.2.1 (laneAddr (at_ memG) memG 10 4)) (fun hits =>
        !loadWaits (at_ memG) memG 15 true (loadPlaces (gatherOf (at_ memG) memG 94 15 true f.2.1 f.2.2.1 f.2.2.2 hits))) =
        true) ∧
    (Admits (.vldc 95 10 0x40 0 false) (at_ (gs g0 [(10, 0x12000)])) (gs g0 [(10, 0x12000)]) ∧
      okIs (lineHits (at_ memG) memG .load 0x10000) (fun hits =>
        !loadWaits (at_ memG) memG 0 false (loadPlaces (gatherOf (at_ memG) memG 95 0 false 4 false false hits))) = true) ∧
    (∀ f ∈ scaLoadForms, Admits (f.1 62 10 0x40 0 false) (at_ memG) memG ∧
      okIs (checkedHit (at_ memG) (agentOf (at_ memG) memG none) .load 0x10100 f.2) (fun h =>
        !loadWaits (at_ memG) memG 0 false (loadPlaces (scalarLoadOf (at_ memG) memG 62 0 false f.2 h))) = true) ∧
    ((hitAt 0x100100).cb = none ∧ (hitAt 0x100100).nonres = false ∧ g0.wbuf = [] ∧ oldLoad.stream = 15 ∧ 0 < 8 ∧
      8 ≤ 8) ∧
    (oldCopy oldState 1 memG oldLoad ⟨some 31, 95, [0x100100], some 0, none, false, none, none⟩).isSome = true := by
  simp only [admits_iff]; decide +kernel

/-- sp10 = 0x20000, an address that is not mapped. -/
def lostG : Group := gs g0 [(10, 0x20000)]

/-- sp10 = 0xFFFFFF80000003E0, descriptor 62; s5 and v5 hold a word that it refuses (EN with NSLOT = 0). -/
def refusedG : Group := (gs g0 [(10, 0x3E0), (11, 0xFFFFFF80), (5, 0x80000000)]).setLanes 5 (List.range 32) fun _ => 0x80000000

theorem test_wit_AccessFaults :
    (∀ f ∈ loadForms, Admits (f.1 94 10 4 0 false) (at_ lostG) lostG ∧
      okIs (laneHits (at_ lostG) lostG .load f.2.1 (laneAddr (at_ lostG) lostG 10 4)) (fun _ => true) = false) ∧
    (∀ f ∈ scaLoadForms, Admits (f.1 62 10 0 0 false) (at_ lostG) lostG ∧
      okIs (checkedHit (at_ lostG) (agentOf (at_ lostG) lostG none) .load 0x20000 f.2) (fun _ => true) = false) ∧
    (∀ f ∈ scaStoreForms, Admits (f.1 62 10 0 0 false) (at_ lostG) lostG ∧
      okIs (checkedHit (at_ lostG) (agentOf (at_ lostG) lostG none) .store 0x20000 f.2) (fun _ => true) = false) ∧
    (∀ f ∈ atomForms, Admits (f.1 4 10 5 15) (at_ lostG) lostG ∧
      okIs (laneHits (at_ lostG) lostG .atomic 4 (laneAddr (at_ lostG) lostG 10 5)) (fun _ => true) = false) ∧
    (0x10001 : DWord).toNat % 2 ≠ 0 ∧
    (Admits (.sst_w 5 10 0 0 false) (at_ refusedG) refusedG ∧
      okIs (checkedHit (at_ refusedG) (agentOf (at_ refusedG) refusedG none) .store (srcSP (at_ refusedG) refusedG 10) 4)
        (fun h => someIs h.cb fun c => (cbStore (at_ refusedG) 0 1 c.1 c.2 4 0x80000000).isNone) = true) ∧
    (Admits (.vst_w 5 10 4 0 false) (at_ refusedG) refusedG ∧
      okIs (laneHits (at_ refusedG) refusedG .store 4 (laneAddr (at_ refusedG) refusedG 10 4)) (fun hits =>
        !(cbStores (at_ refusedG) refusedG 4 hits (storeData refusedG 5 false)).2.isEmpty) = true) := by
  simp only [admits_iff]; decide +kernel

theorem test_wit_StoreResult :
    (∀ f ∈ storeForms, Admits (f.1 94 10 4 15 true) (at_ memG) memG ∧
      okIs (laneHits (at_ memG) memG .store f.2.1 (laneAddr (at_ memG) memG 10 4)) (fun hits =>
        (cbStores (at_ memG) memG f.2.1 hits (storeData memG 94 f.2.2)).2.isEmpty &&
        !storeWaits (at_ memG) memG 15 ((laneStores (at_ memG) 1 memG 15 true f.2.1 hits (storeData memG 94 f.2.2)).flatMap
          storePlaces)) = true) ∧
    (Admits (.vstc 95 10 0 0 false) (at_ memG) memG ∧
      okIs (lineHits (at_ memG) memG .store 0x10100) (fun hits =>
        (cbStores (at_ memG) memG 4 hits (storeData memG 95 false)).2.isEmpty &&
        !storeWaits (at_ memG) memG 0 ((laneStores (at_ memG) 1 memG 0 false 4 hits (storeData memG 95 false)).flatMap storePlaces)) =
        true) ∧
    (∀ f ∈ scaStoreForms, Admits (f.1 62 10 0 0 false) (at_ memG) memG ∧
      okIs (checkedHit (at_ memG) (agentOf (at_ memG) memG none) .store 0x10100 f.2) (fun h => h.cb.isNone &&
        !storeWaits (at_ memG) memG 0 (storePlaces (storeOf (at_ memG) 1 memG 0 false f.2 none h 0))) = true) ∧
    (let g := gs g0 [(10, 0x3E0), (11, 0xFFFFFF80)]
     ∀ f ∈ scaStoreForms, Admits (f.1 62 10 0 0 false) (at_ g) g ∧ storeWaits (at_ g) g 0 [] = false ∧
      okIs (checkedHit (at_ g) (agentOf (at_ g) g none) .store (srcSP (at_ g) g 10) f.2) (fun h => someIs h.cb fun c =>
        (cbStore (at_ g) 0 1 c.1 c.2 f.2 0).isSome) = true) ∧
    (({ at_ memG with late := true }).late = true ∧ (at_ memG).late = false ∧ ((at_ memG).group? 1).isSome = true) ∧
    (∀ e ∈ cellsAt 0x100100 (bytesOfNat 8 0), homeOf s0 e.1 < 2 ^ 90 ∧ ∀ e' ∈ cellsAt 0x100100 (bytesOfNat 8 0),
      mirrorOf s0 (homeOf s0 e.1) ≠ some (homeOf s0 e'.1) ∧ (homeOf s0 e.1 = homeOf s0 e'.1 → e = e')) := by
  simp only [admits_iff]; decide +kernel

/-- `Apart`, decided. -/
def apartB (s : State) (x l : Nat) : Bool :=
  x != l && mirrorOf s x != some l && (x < 2 ^ 90 || 2 ^ 91 ≤ x)

theorem apart_of_apartB (s : State) (x l : Nat) (h : apartB s x l = true) : Apart s x l := by
  simp only [apartB, Bool.and_eq_true, bne_iff_ne, Bool.or_eq_true, decide_eq_true_eq] at h
  exact ⟨h.1.1, h.1.2, fun h1 h2 => absurd h.2 (by omega)⟩

/-- Every byte of a hit, and of the leaf entry that it marks, is apart from a location. -/
def hitApart (s : State) (h : Hit) (n l : Nat) : Bool :=
  ((List.range n).all fun i => apartB s (homeOf s (h.place + i)) l) &&
  match h.leaf with
  | some (ps, _) => ps.all fun p => apartB s p l
  | none => true

theorem test_wit_MemoryFrame :
    (∀ f ∈ storeForms, Admits (f.1 94 10 4 0 false) (at_ memG) memG ∧ Calm (f.1 94 10 4 0 false) memG ∧
      (at_ memG).late = false ∧
      okIs (laneHits (at_ memG) memG .store f.2.1 (laneAddr (at_ memG) memG 10 4)) (fun hits =>
        hits.all fun e => e.2.cb.isNone && hitApart (at_ memG) e.2 f.2.1 0x1000FF) = true ∧ nextIs (exec (f.1 94 10 4 0 false) (at_ memG)) (fun _ => true) = true) ∧
    (∀ f ∈ scaStoreForms, Admits (f.1 62 10 0 0 false) (at_ memG) memG ∧ Calm (f.1 62 10 0 0 false) memG ∧
      okIs (checkedHit (at_ memG) (agentOf (at_ memG) memG none) .store 0x10100 f.2) (fun h => h.cb.isNone &&
        hitApart (at_ memG) h f.2 0x1000FF) = true ∧
      nextIs (exec (f.1 62 10 0 0 false) (at_ memG)) (fun _ => true) = true) ∧
    (∀ f ∈ loadForms, Admits (f.1 94 10 4 0 false) (at_ memG) memG ∧ Calm (f.1 94 10 4 0 false) memG ∧
      (at_ memG).badMem = [] ∧
      okIs (laneHits (at_ memG) memG .load f.2.1 (laneAddr (at_ memG) memG 10 4)) (fun hits =>
        (hits.all fun e => e.2.cb.isNone && hitApart (at_ memG) e.2 0 0x100100 &&
          match e.2.leaf with | some (ps, _) => ps.all (· < 2 ^ 60) | none => true) &&
        !loadWaits (at_ memG) memG 0 false
          (loadPlaces (gatherOf (at_ memG) memG 94 0 false f.2.1 f.2.2.1 f.2.2.2 hits))) = true ∧
      nextIs (exec (f.1 94 10 4 0 false) (at_ memG)) (fun _ => true) = true) ∧
    (∀ i < 8, ∀ j < 8, mirrorOf s0 (0x100100 + i) ≠ some (0x100100 + j) ∧ 0x100100 + i < 2 ^ 90) := by
  simp only [admits_iff, calm_iff]; decide +kernel

theorem test_wit_AtomicResult :
    (∀ f ∈ atomForms, Admits (f.1 4 10 5 15) (at_ memG) memG ∧
      okIs (laneHits (at_ memG) memG .atomic 4 (laneAddr (at_ memG) memG 10 5)) (fun hits =>
        let l := atomicOf f.2 4 15 (at_ memG) memG hits
        !atomicWaits (at_ memG) memG 15 (loadPlaces l) && isAtomic l &&
        (atomLanes (at_ memG) 1 memG l).dead.isEmpty && l.parts.all fun p => p.atom.isSome &&
          match p.places with | x :: _ => !anyBad s0 (homeOf s0 x) 4 | [] => false) = true) ∧
    ((at_ memG).late = false ∧ { at_ memG with late := true }.late = true) ∧
    (∀ i < 4, ∀ j < 4, mirrorOf s0 (0x100100 + i) ≠ some (0x100100 + j) ∧ 0x100100 + i < 2 ^ 90) ∧ (1 : Word) ≠ 2 := by
  simp only [admits_iff]; decide +kernel

/-- sp10 = 0x10100 and s5 = 128. -/
def rangeG : Group := gs g0 [(10, 0x10100), (5, 128)]

theorem test_wit_OrderResult : Admits (.fence 15 4) s0 g0 ∧ Admits (.xfence 4 5) s0 g0 ∧
    (∃ f ∈ ({ g0 with fences := [⟨0x8000, 4⟩] } : Group).fences, bit f.streams 15 = true) ∧ Admits (.sattr 15 5) s0 g0 ∧
    (∀ f ∈ rangeForms, Admits (f.1 15 10 5) (at_ rangeG) rangeG ∧ rangeWaits f.2 rangeG 15 = false ∧
      okIs (rangeHits (at_ rangeG) (agentOf (at_ rangeG) rangeG none) (if f.2 = .zero then .czero else .flush)
        (rangePages 0x10100 128)) (fun _ => true) = true) ∧
    (srcS s0 rangeG 5 ≠ 0 ∧ rangeOut false (srcSP s0 rangeG 10).toNat 128 = none ∧
      (srcSP s0 rangeG 10).toNat = 0x10100 ∧ (srcSP s0 rangeG 10).toNat % 128 = 0 ∧ (srcS s0 rangeG 5).toNat % 128 = 0) ∧
    (∀ f ∈ rangeForms, Admits (f.1 0 10 5) s0 g0) ∧ srcS s0 g0 5 = 0 ∧
    (let s := { s0 with llc := [(0x100100 / 128, ⟨true, false⟩)] }
     someIs (find (rangeEffect .flush s 1 rangeG 0 [({ hitAt 0x100100 with cp := some 0 }, 128)]).llc (0x100100 / 128))
       (fun e => !e.dirty) = true ∧
     (0x100100 / 128) ∈ rangeLines s [({ hitAt 0x100100 with cp := some 0 }, 128)] ∧ 128 * (0x100100 / 128) < 2 ^ 90 ∧
     mirrorOf s (128 * (0x100100 / 128)) = none ∧ find s.llc (0x100100 / 128) = some ⟨true, false⟩ ∧
     128 * (0x100100 / 128) < gddrEnd) ∧
    (Admits (.vpreq 5 10 4) (at_ memG) memG ∧ memG.loads = []) := by
  simp only [admits_iff]; decide +kernel

/-! ### Witnesses: synchronisation, work, continuations -/

/-- Descriptor 62 of cluster 0, four slots of 128 bytes, enabled by block 1: free and filled as given. -/
def cbState (free filled : Nat) (g : Group) : State :=
  let c : CbDesc := ⟨0, 0, 4, true, 3, 0, free, filled, 1, []⟩
  (at_ g).setCluster 0 { Cluster.reset with cbs := put CbDesc.reset [] 62 c }

/-- s5 names descriptor 62 as producer. -/
def cbG : Group := gs g0 [(5, 0xBE)]

/-- s5 names the shaft as producer. -/
def shaftG : Group := gs g0 [(5, 0xBF)]

theorem test_wit_BufferResult :
    (Admits (.cbget 63 5) (cbState 1 3 cbG) cbG ∧ cbIdOk cbG (srcS s0 cbG 5) = true ∧ fieldNat (srcS s0 cbG 5) 0 6 = 62 ∧
      bit (srcS s0 cbG 5) 7 = true ∧ (get CbDesc.reset ((cbState 1 3 cbG).clusterAt 0).cbs 62).en = true ∧
      0 < cbCount (get CbDesc.reset ((cbState 1 3 cbG).clusterAt 0).cbs 62) true) ∧
    (Admits (.cbget 63 5) (cbState 0 4 cbG) cbG ∧
      cbCount (get CbDesc.reset ((cbState 0 4 cbG).clusterAt 0).cbs 62) true = 0) ∧
    (Admits (.cbget 63 5) (at_ shaftG) shaftG ∧ cbIdOk shaftG (srcS s0 shaftG 5) = true ∧
      fieldNat (srcS s0 shaftG 5) 0 6 = 63 ∧ bit (srcS s0 shaftG 5) 7 = true ∧
      ((at_ shaftG).coreAt (fifoOf 0 true)).oos = false ∧
      0 < shaftCount ((at_ shaftG).coreAt (fifoOf 0 true)).inbound true) ∧
    (let g := { cbG with held := [⟨62, true, 3⟩] }
     Admits (.cbput 5) (cbState 0 3 g) g ∧ cbIdOk g (srcS s0 g 5) = true ∧
      (g.held.find? fun h => h.desc == fieldNat (srcS s0 g 5) 0 6 && h.prod == bit (srcS s0 g 5) 7) = some ⟨62, true, 3⟩ ∧
      quiet g = true) ∧
    (0 < (get CbDesc.reset ((cbState 1 3 cbG).clusterAt 0).cbs 62).free ∧
      (get CbDesc.reset ((cbState 1 3 cbG).clusterAt 0).cbs 62).pidx <
        (get CbDesc.reset ((cbState 1 3 cbG).clusterAt 0).cbs 62).nslot.toNat) := by simp only [admits_iff]; decide +kernel

/-- s5 is a descriptor of kind 1 (KIND in bits 3:0), argument 63; slot 7 is bound and pending. -/
def evG (v : Word) (pend : BitVec 8) : Group :=
  gs { g0 with ev := { g0.ev with slots := set [] 7 ⟨0x3F1, 0x10020⟩, pend := pend } } [(5, v)]

theorem test_wit_EventResult :
    (Admits (.evbind 7 5 10) (at_ (evG 0x3F1 0)) (evG 0x3F1 0) ∧ isMigrant (evG 0x3F1 0) = false ∧
      descriptorBad (at_ (evG 0x3F1 0)) (evG 0x3F1 0) (srcS s0 (evG 0x3F1 0) 5) = false ∧
      evKind 0x3F1 ≠ 0 ∧ evKind (srcS s0 g0 5) = 0 ∧ descriptorBad s0 g0 (srcS s0 g0 5) = false) ∧
    Admits (.evmask 5) s0 g0 ∧ Admits (.evclr 5) s0 g0 ∧ Admits (.evpend 63) s0 g0 ∧
    (∀ g ∈ [evG 0x80 0x80, evG 0x80 0], Admits (.waitany 5) (at_ g) g ∧ isMigrant g = false ∧
      fieldNat (srcS s0 g 5) 8 24 = 0 ∧ (srcS s0 g 5).setWidth 8 ≠ 0#8 ∧
      (srcS s0 g 5).setWidth 8 &&& ~~~(evbound g.ev) = 0) ∧
    (takeable (refreshLevels s0 (evG 0x80 0x80)) 0x80 ≠ 0 ∧ takeable (refreshLevels s0 (evG 0x80 0)) 0x80 = 0 ∧
      preemptDue (at_ (evG 0x80 0x80)) 1 (refreshLevels s0 (evG 0x80 0x80)) = false ∧
      handlerOf (refreshLevels s0 (evG 0x80 0x80)) 7 &&& 3 = 0 ∧
      lowestSlot (takeable (refreshLevels s0 (evG 0x80 0x80)) 0x80) = 7) ∧
    (∀ g ∈ [gs g0 [(5, 0x3F)], gs g0 [(5, 0x13F)]], Admits (.bar 5) (at_ g) g ∧ fieldNat (srcS s0 g 5) 9 23 = 0 ∧
      fieldNat (srcS s0 g 5) 6 2 = 0 ∧ quiet g = true ∧ preemptDue (at_ g) 1 g = false ∧
      (get Barrier.idle ((at_ g).clusterAt 0).bars 63).isOpen = false) ∧
    (bit (0x13F : Word) 8 = true ∧ bit (0x3F : Word) 8 = false) ∧
    (let g := gs g0 [(5, 0x3F)]
     let s := (at_ g).setCluster 0 { Cluster.reset with bars := set [] 63 { Barrier.idle with isOpen := true, owner := 2 } }
     Admits (.bar 5) s g ∧ (get Barrier.idle (s.clusterAt 0).bars 63).isOpen = true ∧
      (get Barrier.idle (s.clusterAt 0).bars 63).owner ≠ g.block) ∧ ({ Barrier.idle with isOpen := true }).isOpen = true := by
  simp only [admits_iff]; decide +kernel

theorem test_wit_WorkResult : (let g := gs g0 [(5, 2097136)]
     Admits (.fetchw 5) (at_ g) g ∧ isMigrant g = false ∧ (at_ g).block? g.block = some placeBlock ∧
      (srcS s0 g 5).toNat % 16 = 0 ∧ (srcS s0 g 5).toNat + 16 ≤ placeBlock.spad ∧ preemptDue (at_ g) 1 g = false ∧
      (preempting (at_ g) g = false ∨ isPixel g = true) ∧ g.fetches.length < 4) ∧
    (let p := { gs g0 [(5, 0)] with kind := .pixel ⟨1, 0, [], 0, 0, [], false, 0, [], 0⟩ }
     Admits (.fetchw 5) (at_ p) p ∧ isMigrant p = false ∧ isPixel p = true) ∧
    (Admits (.spawn 63 10 12) (at_ memG) memG ∧ srcSP s0 memG 10 &&& 3 = 0 ∧ quiet memG = true ∧
      (at_ memG).launch? memG.launch = some placeLaunch) ∧ isMigrant migG = true := by simp only [admits_iff]; decide +kernel

theorem test_wit_HopConfiguration : (∀ a ∈ [87, 95, 104, 127], 86 < a ∧ a < 96 ∨ 103 < a) ∧
    s0.group? s0.cur = some g0 ∧ g0.status = .ready ∧ (s0.coreAt g0.core).scanning = false ∧ Admits (.hopcfg 86) s0 g0 ∧ Admits (.csrw 86 0x10) s0 g0 := by
  simp only [admits_iff]; decide +kernel

/-- v10 and v11 of every lane hold the address 0x10100. -/
def addrG : Group := g0.setLanes 10 (List.range 32) fun _ => 0x10100

/-- v3 of lane 31 names core 575 of the package, that of the others core 0. -/
def farG : Group := g0.setLanes 3 [31] fun _ => 575

theorem test_wit_ContinuationResult :
    (Admits (.owner 95 10 false) (at_ addrG) addrG ∧ Admits (.hop 10) (at_ addrG) addrG ∧
      okIs (laneOwners (at_ addrG) addrG 10) (fun os => os.length == 32) = true ∧
      (∀ i < 16, addrG.cont.hopcfg.getLsbD i = true → addrG.wb + i < addrG.vregs) ∧ quiet addrG = true) ∧
    (let g := { g0 with cont := { g0.cont with hopcfg := 0xFFFF }, vregs := 16 }
     Admits (.hopx 3) (at_ g) g ∧ (∀ i < 16, g.cont.hopcfg.getLsbD i = true → g.wb + i < g.vregs) ∧
      leaving (at_ g) g (g.activeLanes.map fun j => (j, srcV g 3 j)) = []) ∧
    (Admits (.hopx 3) (at_ farG) farG ∧ (∀ i < 16, farG.cont.hopcfg.getLsbD i = true → farG.wb + i < farG.vregs) ∧
      (let out := leaving (at_ farG) farG (farG.activeLanes.map fun j => (j, srcV farG 3 j))
       out ≠ [] ∧ (outbound (at_ farG) farG.core).length + (queuedLanes (at_ farG) farG out).length ≤ 64) ∧
      someIs ((quiesce (at_ farG) 1).group? 1) (fun g => g.status == .ready) = true) ∧
    (g0.loads = [] ∧ g0.wbuf = [] ∧ g0.fences = []) ∧
    (Admits .hopback s0 g0 ∧ isMigrant g0 = false) ∧ (Admits .hopback (at_ migG) migG ∧ isMigrant migG = true ∧ quiet migG = true) ∧
    (Admits .rejoin s0 g0 ∧ g0.away = 0) ∧
    (let g := { g0 with away := 0x80000000, amask := 0x7FFFFFFF }
     Admits .rejoin (at_ g) g ∧ isMigrant g = false ∧ g.away ≠ 0 ∧ allReturned g = false) ∧
    (let g := { g0 with away := 0x80000000, amask := 0x7FFFFFFF,
                        cont := { g0.cont with rets := set [] 31 ⟨1, 0, [], [], []⟩ } }
     Admits .rejoin (at_ g) g ∧ isMigrant g = false ∧ g.away ≠ 0 ∧ allReturned g = true ∧ rejoinWindow g = false ∧
      (applyEntries g).2 = none) := by simp only [admits_iff]; decide +kernel

/-! ### Witnesses: engines -/

/-- MSHAPE 8 x 8 x 16 of class 1; sp0 and sp2 describe scratchpad operands with rows of 64 bytes. -/
def matG : Group :=
  gs { g0 with mx := { g0.mx with mshape := grantShape 0 0x00100808 } } [(0, 0x10000000), (2, 0x10010000)]

/-- A surface of 8 x 8 pixels in R8G8B8A8 at BASE 0. -/
def surf (fmt layout : Nat) : Sfte :=
  { spill := 0, rmap := 0, base := 0, hm1 := 7, wm1 := 7, pri := 0, fmt := fmt, ms4 := false, layout := layout, comp := 0,
    state := .resident, serial := 1, lastUse := 0 }

/-- Handles 1 (an RGBA8 surface), 2 (a depth surface) and 3 (bank rows) of context 0. -/
def withSurf (s : State) : State := ((s.setHandle 0 1 (surf 0 0)).setHandle 0 2 (surf 9 0)).setHandle 0 3 (surf 0 1)

theorem test_wit_MatrixResult : Admits (.tshape 63 5) s0 g0 ∧
    (Admits (.mma 15 0 32) (at_ matG) matG ∧ Admits (.mmab 0 104 106) (at_ matG) matG ∧
      ∀ f ∈ [(Instr.mma, false, (0 : Code), (32 : Code)), (Instr.mmab, true, 104, 106)],
        let x := operandOf matG f.2.2.1
        let y := operandOf matG f.2.2.2
        productFault (at_ matG) matG (shapeOf matG f.2.1) 0 x y = none ∧
        productSecv (at_ matG) matG (shapeOf matG f.2.1) x y = none ∧ awaitsOpd matG x = false ∧
        queueFull (at_ matG) matG = false ∧ ((at_ matG).clusterAt 0).served ≤ serviceNo matG ∧
        awaitsOpd matG y = false ∧ streamBusy matG (· == matG.mx.mstrm.toNat) = false ∧
        min (tokenCost (shapeOf matG f.2.1)) (tokenCap ((at_ matG).clusterAt 0)) ≤ ((at_ matG).clusterAt 0).mtbal.toNat) ∧
    (Admits (.mzero 15) s0 g0 ∧ (15 : Code).toNat < g0.accs ∧ queueFull s0 g0 = false) ∧
    (let g := gs g0 [(5, 120)]
     Admits (.mwr 15 64 5) (at_ g) g ∧ columnBad (srcS s0 g 5) true = false ∧ runFault g 64 32 = none ∧
      awaitsRun g 64 32 = false ∧ queueFull (at_ g) g = false ∧ badLanes g 64 32 = 0) ∧
    (let g := gs g0 [(5, 0xF8)]
     Admits (.mrd 64 15 5) (at_ g) g ∧ columnBad (srcS s0 g 5) false = false ∧
      runFault g 64 (mrdCount g.fmt (srcS s0 g 5)) = none ∧ 15 ∉ g.mx.opening.tiles ∧ tileBusy g 15 = false ∧
      awaitsRun g 64 (mrdCount g.fmt (srcS s0 g 5)) = false ∧ (rowsOfLanes g.activeLanes).filter (rowBad g 15) = []) ∧
    (let g := { gs g0 [(5, 0xF8)] with mx := { g0.mx with opening := { g0.mx.opening with ops := 1, tiles := [15] } } }
     Admits (.mrd 64 15 5) (at_ g) g ∧ (15 : Code).toNat ∈ g.mx.opening.tiles) ∧
    (let g := { gs g0 [(5, 0xF8)] with mx := { g0.mx with closed := [{ g0.mx.opening with ops := 1, tiles := [15] }] } }
     Admits (.mrd 64 15 5) (at_ g) g ∧ (15 : Code).toNat ∉ g.mx.opening.tiles ∧ tileBusy g 15 = true) ∧
    Admits (.mfence 63) s0 g0 ∧ (Admits (.mwait 5) s0 g0 ∧ srcS s0 g0 5 = 0) ∧
    (let g := { gs g0 [(5, 1)] with mx := { g0.mx with mbopen := 2, mbdone := 0 } }
     Admits (.mwait 5) (at_ g) g ∧ srcS s0 g 5 ≠ 0 ∧ serialGe (g.mx.mbopen - 1) 1 = true ∧ serialGe g.mx.mbdone 1 = false) ∧
    (let g := gs g0 [(5, 1)]
     Admits (.msurf 62 5 6) (withSurf (at_ g)) g ∧ fieldNat (srcS s0 g 5) 14 18 = 0 ∧ fieldNat (srcS s0 g 5) 12 2 ≠ 3 ∧
      (withSurf (at_ g)).handle? g.ctx 1 = some (surf 0 0) ∧ viewOf (surf 0 0) = some 0) := by
  simp only [admits_iff]; decide +kernel

/-- A product of matG, from registers at v0 and v40, in the queue of core 0. -/
def matOp : MatrixOp := ⟨1, 1, 1, .product false 15 32 34 (snapOf matG)⟩

theorem test_wit_MatrixResult_queue : (let s := (at_ matG).setCore 0 { Core.reset with mq := [matOp] }
     (s.coreAt 0).mq = matOp :: [] ∧ s.group? matOp.gid = some matG ∧ matOp.left ≤ 1) ∧
    (let h := asIssued matG (snapOf matG)
     let sh := shapeOf h false
     sh.m ≤ 128 ∧ sh.n ≤ 128 ∧ matG.badRow = [] ∧
      ∀ pr ∈ productsOf h sh, consumers (at_ matG) h sh (operandOf h 32) (operandOf h 34) pr = []) ∧
    (shapeOf (asIssued matG (snapOf matG)) true).m ≤ 32 ∧ (shapeOf (asIssued matG (snapOf matG)) true).n ≤ 32 := by
  decide +kernel

theorem test_wit_MatrixFrame : matOp.act = .product false 15 32 34 (snapOf matG) ∧
    (shapeOf (asIssued matG (snapOf matG)) false).n ≤ 128 ∧ (shapeOf (asIssued matG (snapOf matG)) true).n ≤ 32 ∧
    (snapOf { matG with amask := 1 }).amask.getLsbD (127 / 4) = false ∧
    (∀ x ∈ [(tileIdx 15 0 0, (7 : Word))], x.1 ≠ tileIdx 15 127 127) := by decide +kernel

/-- sp10 = 0x10100, and n bytes there as one number. -/
def recState (n v : Nat) : State := withSurf (storeNat (at_ memG) 0x100100 n v)

/-- Records in order: IVSLD of the last unit and channel, BMAC on handle 3, EMBW of one row unit. -/
def bankRecords : List Nat :=
  [0x10000 + 2 ^ 64 + 1023 * 2 ^ 80 + 127 * 2 ^ 96 + 2 ^ 103 + 2 ^ 104, 3 + 2 ^ 34 + 2 ^ 50 + 0x10000 * 2 ^ 128, 2 ^ 192]

/-- A copy of one element; a ring of 16 entries at offset 0; a combine of one unit from one source. -/
def copyRecord : Nat := 2 ^ 128 + 2 ^ 160 + 2 ^ 176
def ringRecord : Nat := 4 * 2 ^ 152
def combineRecord : Nat := 2 ^ 192 + 2 ^ 208

/-- s10, s11 = 0xFFFFFF0000010000, a header in the slice. -/
def ringG : Group := gs g0 [(10, 0x10000), (11, 0xFFFFFF00)]
def ringState : State := storeNat (at_ ringG) (spadLoc 0 0x10000) 32 ringRecord

/-- The launch of a pod, the fabric up. -/
def podState : State :=
  { (recState 80 combineRecord).updLaunch 1 fun l => { l with hdr := { l.hdr with podid := 1 } } with fabric := true }

theorem test_wit_EngineResult :
    (∀ f ∈ bankForms.zip bankRecords, let s := recState f.1.2.1 f.2
      Admits (f.1.1 63 10 15) s memG ∧ (srcSP s memG 10).toNat % f.1.2.1 = 0 ∧
      okIs (recordPart s 1 memG 15 (srcSP s memG 10) f.1.2.1) (fun r => !r.bad &&
        !handleAway s memG.ctx (f.1.2.2 r.bytes).handle && !recordWaits s memG 15 r && !(f.1.2.2 r.bytes).bad &&
        (f.1.2.2 r.bytes).channels.all fun ch => decide (queuedAt s ch < 32)) = true) ∧
    (∀ f ∈ bankForms.zip [0, 3, 2 ^ 511], let s := recState f.1.2.1 f.2
      Admits (f.1.1 63 10 15) s memG ∧ okIs (recordPart s 1 memG 15 (srcSP s memG 10) f.1.2.1) (fun r => !r.bad &&
        !handleAway s memG.ctx (f.1.2.2 r.bytes).handle && !recordWaits s memG 15 r && (f.1.2.2 r.bytes).bad) = true) ∧
    (let s := recState 64 copyRecord
     Admits (.cpa 63 10 15) s memG ∧ (srcSP s memG 10).toNat % 64 = 0 ∧ leastBusy s (enginesOf s 0 false) = some 0 ∧
      queuedOn s 0 < 64 ∧ okIs (recordPart s 1 memG 15 (srcSP s memG 10) 64) (fun r => !r.bad && !recordWaits s memG 15 r &&
        !cdBad r.bytes) = true) ∧
    (Admits (.cpa_ring 63 10 15) ringState ringG ∧ (srcSP ringState ringG 10).toNat % 32 = 0 ∧
      0xFFFFFF0000000000 ≤ (srcSP ringState ringG 10).toNat ∧ leastBusy ringState (enginesOf ringState 0 false) = some 0 ∧
      queuedOn ringState 0 < 64 ∧ ringsOn ringState 0 < 4 ∧
      okIs (recordPart ringState 1 ringG 15 (srcSP ringState ringG 10) 32) (fun r => !r.bad && !recordWaits ringState ringG 15 r &&
        !rhBad (sliceOf ringState (opOf ringState 1 ringG (.ring (attach (srcSP ringState ringG 10) r.bytes)) 63 15)).2
          r.bytes) = true) ∧
    (Admits (.cpred 63 10 15) podState memG ∧ (srcSP podState memG 10).toNat % 64 = 0 ∧ podOf podState 1 ≠ 0 ∧
      podState.fabric = true ∧ leastBusy podState (enginesOf podState 0 false) = some 0 ∧ queuedOn podState 0 < 64 ∧
      okIs (recordParts podState 1 memG 15 [(0x10100, 64), (0x10140, 16)]) (fun r => !r.bad && !recordWaits podState memG 15 r &&
        !cpBad r.bytes) = true) ∧
    (let s := recState 80 combineRecord
     Admits (.cpred 63 10 15) s memG ∧ leastBusy s (enginesOf s 0 false) = some 0 ∧ podOf s 1 = 0 ∧
      okIs (recordParts s 1 memG 15 [(0x10100, 64), (0x10140, 16)]) (fun r => !r.bad && !recordWaits s memG 15 r &&
        !cpBad r.bytes) = true) ∧
    (let s := recState 80 0
     Admits (.cpred 63 10 15) s memG ∧ leastBusy s (enginesOf s 0 false) = some 0 ∧
      okIs (recordParts s 1 memG 15 [(0x10100, 64), (0x10140, 16)]) (fun r => !r.bad && !recordWaits s memG 15 r &&
        cpBad r.bytes) = true) := by
  simp only [admits_iff]; decide +kernel

/-- A draw of one primitive with one target, handle 1, depth at handle 2 and one attribute. -/
def aDraw : Draw :=
  { ddAddr := 0x10100, pixHdr := placeHeader, priv := false, secure := false, pbuf := 0x10200, nprim := 2, next := 1,
    dseq := some 1, zh := 2, zfunc := 7, zen := true, zwr := true, zdefer := false, cull := 0, nattr := 1, nrt := 1,
    rts := [1, 0, 0, 0], blends := [0xF000, 0, 0, 0], miss := 0, ended := false }

/-- A triangle that covers the surface: (0, 0), (16, 0), (0, 16), q = 1. -/
def aRecord : List Word :=
  [0, 0, 0, 0x3F800000, 0x41800000, 0, 0, 0x3F800000, 0, 0x41800000, 0, 0x3F800000, 0, 0, 0]

def drawState (g : Group) : State := (withSurf (at_ g)).updLaunch 1 fun l => { l with draw := some aDraw }

/-- A pixel group of the region at (0, 0). -/
def pixG : Group :=
  { g0 with kind := .pixel ⟨1, 0, aRecord, 0, 0, [(0, 1)], false, 0, [], 0⟩, amask := 1, lmask := 1 }

theorem test_wit_PixelResult :
    (let g := gs g0 [(5, 0x3C001)]
     let s := withSurf (at_ g)
     surfaceArg s g (srcS s g 5) = some (surf 0 0) ∧ sampleOk (surf 0 0) (srcS s g 5) = true ∧
      (Admits (.sfld 95 5 4) s g ∧ pixelRegs g (surf 0 0) 95 = none ∧
        okIs (pixelHits s g 1 (surf 0 0) 0 4 g.activeLanes) (fun hs =>
          !loadWaits s g 15 false (loadPlaces (pixelLoadOf s g 95 (srcS s g 5) (surf 0 0) hs)) &&
          !storeWaits s g 15 ((laneStores s 1 g 15 false 4 hs (pixelData g 95 4)).flatMap storePlaces)) = true) ∧ Admits (.sfst 95 5 4) s g) ∧
    (let g := gs g0 [(5, 1)]
     let s := withSurf (at_ g)
     Admits (.tsmp 92 94 5) s g ∧ surfaceArg s g (srcS s g 5) = some (surf 0 0) ∧
      okIs (sampleHits s g 1 (surf 0 0) 1 94) (fun _ => true) = true ∧
      loadWaits s g 0 false (loadPlaces (loadOf s g 0 false false
        (g.activeLanes.map (samplePart g 1 (surf 0 0) 1 92 94)) 0)) = false) ∧
    (isFinite (unpack f32 0x7F800000) = false ∧ (unpack f32 (texelComp 4 0x7FA00001 0)).isNan = true) ∧
    (let s := drawState pixG
     someIs (pixelCtx s pixG) (fun c => decide ((srcS s pixG 5).toNat < c.d.nattr) && !c.info.ztDone &&
        !depthWaits s 1 pixG.activeLanes && decide ((srcS s pixG 5).toNat < c.d.nrt)) = true ∧ s.secRegions = [] ∧
      Admits (.vinterp 95 5 false) s pixG ∧ Admits (.zt 7) s pixG ∧ Admits (.pxout 92 5) s pixG) ∧
    (let g := gs memG [(5, 0)]
     let s := drawState g
     Admits (.vtxout 0 10 80) s g ∧ isMigrant g = false ∧ someIs (bindDraw s g (srcSP s g 10)) (fun r =>
        runFault g 0 (triRegs r.2) == none && badLanes g 0 (triRegs r.2) == 0 && !awaitsRun g 0 (triRegs r.2) &&
        okIs (recordHits r.1 g r.2 (emitting g r.2 80)) (fun hs => hs.length == 32 && !recordsDirty r.1 g hs) &&
        (r.1.launch? g.launch).isSome) = true ∧ quiet g = true) := by simp only [admits_iff]; decide +kernel

/-! ### Witnesses: system registers -/

theorem test_wit_SystemRegisterResult : (∀ b ∈ [0x00, 0x30, 0x59], Admits (.csrr 63 b false) s0 g0 ∧ Admits (.csrw 86 b) s0 g0) ∧
    (Admits (.csrr 63 0x60 false) (at_ privG) privG ∧ Admits (.csrw 86 0x65) (at_ privG) privG) ∧
    (s0.group? s0.cur = some g0 ∧ g0.status = .ready ∧ (s0.coreAt g0.core).scanning = false ∧ g0.priv = false ∧
      0x60 ≤ (0x60 : Code).toNat) ∧
    ((at_ privG).group? s0.cur = some privG ∧ privG.priv = true ∧ csrAssigned (0x7F : Code).toNat = false ∧
      (0x5F : Code).toNat < 0x60 ∧ csrAssigned (0x5F : Code).toNat = false) := by
  simp only [admits_iff]; decide +kernel

theorem test_wit_PartnerRule : (575 < 576 ∧ dieOfCore 575 = 3) ∧ dieOfCore 0 = 0 := by decide

/-! ### Witnesses: queues -/

/-- A record. -/
def rec (op cmp flags imm addr0 addr1 mask tmo : Nat) : Nat :=
  op + cmp * 2 ^ 8 + flags * 2 ^ 16 + imm * 2 ^ 32 + addr0 * 2 ^ 64 + addr1 * 2 ^ 128 + mask * 2 ^ 192 + tmo * 2 ^ 224

/-- Queue 63 of context 0, privileged, of PRI 3 and next in rotation, with one record at its HEAD, in a ring of 16 at
0x10000. -/
def queueState (r : Nat) (k : Queue) : State :=
  let s := { s0 with ctl := { s0.ctl with qtbase := 0x200000, ctxbase := 0x300000 }, rota := Assoc.set [] 7 31 }
  let s := storeNat s 0x300000 8 0x8001
  let s := storeNat s 0x2007E0 32 (0x10000 + 16 * 2 ^ 64 + 15 * 2 ^ 96 + 2 ^ 128)
  (storeNat s 0x100000 32 r).setQueue 63 k

/-- Its command has started and holds the queue (R98), with blocks open or none. -/
def qs (r : Nat) : State := queueState r { Queue.reset with heldSince := some 0 }
def qo (r : Nat) (os : List CmdOpen) : State := queueState r { Queue.reset with opens := os, heldSince := some 0 }

/-- `AtHead` of queue 63, and a test of what it gives. -/
def headIs (s : State) (p : State → Cmd → Bool) : Bool :=
  match fetchCmd s 63 with
  | .cmd s0 c => mayServe s 63 && !skipping ((serve s0 63).queueAt 63).opens && p (serve s0 63) c
  | .nothing | .bad _ => false

/-- The condition of a record reads a word, and holds or not as said. -/
def condIs (s : State) (c : Cmd) (b : Bool) : Bool := someIs (condWord s c) fun r => condHolds c r.2 == b

theorem test_wit_QueueFlow :
    headIs (qo (rec 3 0 0 0xFFFFFFFF 0 0 0 0) (List.replicate 3 (.loop 0 none))) (fun s c => c.op == 3 && c.flags == 0 &&
      !reservedBad c { Uses.bare with imm := 0xFFFFFFFF } && !loopsFull (s.queueAt 63).opens) = true ∧
    headIs (qs (rec 3 5 1 0 0x10100 0 0xFFFFFFFF 0)) (fun s c => c.op == 3 && c.flags == 1 &&
      !reservedBad c { Uses.cond with flags := 1 } && !loopsFull (s.queueAt 63).opens && condIs s c true) = true ∧
    headIs (qo (rec 4 0 0 0 0 0 0 0) [.loop 0 (some 1)]) (fun s c => c.op == 4 && !reservedBad c Uses.bare &&
      (s.queueAt 63).opens == [.loop 0 (some 1)]) = true ∧
    headIs (qo (rec 4 0 0 0 0 0 0 0) [.loop 0 none]) (fun s c => c.op == 4 && !reservedBad c Uses.bare &&
      (s.queueAt 63).opens == [.loop 0 none]) = true ∧
    headIs (qo (rec 5 0 0 1 0x10100 0 0xFFFFFFFF 0) (List.replicate 7 (.arm true))) (fun s c => c.op == 5 &&
      !reservedBad c Uses.cond && !ifsFull (s.queueAt 63).opens && condIs s c false) = true ∧
    headIs (qo (rec 6 0 0 0 0 0 0 0) [.arm false]) (fun s c => c.op == 6 && !reservedBad c Uses.bare &&
      (s.queueAt 63).opens == [.arm false]) = true ∧
    headIs (qo (rec 7 0 0 0 0 0 0 0) [.arm true]) (fun s c => c.op == 7 && !reservedBad c Uses.bare &&
      (s.queueAt 63).opens == [.arm true]) = true ∧
    headIs (qs (rec 8 0 0 0 0x10100 0x10200 0xFFFFFFFF 9)) (fun s c => c.op == 8 &&
      !reservedBad c { Uses.cond with tmo := true, addr1 := true } && !statusBad s c && condIs s c true) = true ∧
    headIs ((queueState (rec 8 1 0 0 0x10100 0 0xFFFFFFFF 9) { Queue.reset with heldSince := some 0 }).setDie 0
      { Die.reset with ntime := 9000 }) (fun s c => c.op == 8 && (s.queueAt 63).heldSince == some 0 && c.tmo != 0 &&
        decide (c.tmo * 1000 ≤ since s.primaryTime 0) && condIs s c false) = true ∧
    headIs (qs (rec 9 0 0 7 0x10100 0x10200 0 0)) (fun s c => c.op == 9 && c.flags == 0 && !reservedBad c signalUses &&
      !signalBad s c) = true ∧
    headIs (qs (rec 9 0 1 7 0x10100 0x10200 0 0)) (fun s c => c.op == 9 && c.flags == 1 && !reservedBad c signalUses &&
      !signalBad s c && !queueSuspect s 63) = true ∧
    headIs (qs (rec 16 0 0 0 0 0 0 0)) (fun _ c => c.op == 16 && !reservedBad c Uses.bare) = true ∧
    headIs (qs 0) (fun _ c => c.op == 0) = true ∧ headIs (qs (rec 17 0 0 0 0 0 0 0)) (fun _ c => c.op == 17) = true ∧
    (∀ k ∈ List.range 6, headIs (qs (rec 5 k 0 0 0 0 0 0)) (fun _ c => c.fld 8 8 == k) = true) := by decide +kernel

theorem test_wit_QueueStops : (match fetchCmd s0 0 with | .nothing => true | _ => false) = true ∧
    (match fetchCmd (storeNat (queueState 0 Queue.reset) 0x2007EC 4 0xFFFFFFFF) 63 with | .bad 8 => true | _ => false) = true ∧
    headIs (queueState (rec 3 0 0 1 1 0 0 0) Queue.reset) (fun _ c => c.op == 3 && c.flags == 0 &&
      reservedBad c { Uses.bare with imm := 0xFFFFFFFF }) = true ∧
    headIs (qo (rec 3 0 0 1 0 0 0 0) (List.replicate 4 (.loop 0 none))) (fun s c => c.op == 3 && c.flags == 0 &&
      !reservedBad c { Uses.bare with imm := 0xFFFFFFFF } && loopsFull (s.queueAt 63).opens) = true ∧
    (queueState 0 Queue.reset).ctl.qtbase ≠ 0 ∧ 63 < 64 ∧ mayServe (storeNat (queueState 0 Queue.reset) 0x2007EC 4 0xFFFFFFFF) 63 = true ∧
    ((queueState 0 Queue.reset).queueAt 63).heldSince = none ∧ mayServe (queueState 0 Queue.reset) 63 = true ∧ mayStart (queueState 0 Queue.reset) 63 = true ∧
    (let s := storeNat (storeNat (queueState 0 Queue.reset) 0x2007C0 32 (0x10000 + 16 * 2 ^ 64 + 15 * 2 ^ 96 + 2 ^ 128)) 0x100000 32
       (rec 16 0 0 0 0 0 0 0)
     (match fetchCmd s 62, fetchCmd s 63 with | .cmd _ _, .cmd _ _ => true | _, _ => false) = true ∧
      mayServe s 63 = true ∧ mayServe s 62 = false) := by decide +kernel

/-- A header at 0x10100: one block of one group of 16 registers; its ENTRY and SAVE as given. -/
def header (entry save : Nat) (s : State) : State :=
  storeNat s 0x100100 256 (entry + 2 ^ 320 + 2 ^ 328 + save * 2 ^ 512)

/-- A save-area header at 0x10400 with STATE = 1 and HDR = 0x10100. -/
def saveArea (s : State) : State := storeNat s 0x100400 64 (0x10100 * 2 ^ 128 + 2 ^ 192)

/-- A launch command at HEAD whose fields are in order, refused or not, restoring or not. -/
def launchIs (s : State) (i refused restores : Bool) : Bool :=
  headIs s fun s1 c => c.op == (if i then 2 else 1) && (launchErrs i s1 c).all (fun e => !e.2) &&
    let s2 := (readLaunch s1 c i).1
    someIs (readLaunch s1 c i).2 fun r =>
      (refusedFor s2 r.bytes (judged s2 c r) c.d.privq c.addr0 r.save).isSome == refused &&
      isRestore c r == restores

/-- The launch of the tests as a queue knows it: header at 0x10000. -/
def launchAt (s : State) (p : LaunchPhase) : State := s.updLaunch 1 fun l => { l with phase := p, addr0 := 0x10000 }

theorem test_wit_QueueCommands :
    launchIs (header 0x10000 0 (qs (rec 1 0 0 0 0x10100 0x10500 0 0))) false false false = true ∧
    launchIs (header 0x10001 0 (qs (rec 1 0 0 0 0x10100 0 0 0))) false true false = true ∧
    launchIs (saveArea (header 0x10000 0x10400 (qs (rec 1 0 0 0 0x10100 0 0 0)))) false false true = true ∧
    launchIs (header 0x10000 0 (qs (rec 2 0 0 0 0x10100 0 0x10500 0))) true false false = true ∧
    headIs (storeNat (qs (rec 10 0 0 0xFFF 0x10100 0x10200 0 0)) 0x100100 32 0) (fun s c => c.op == 10 &&
      !reservedBad c ⟨false, false, false, true, true, 0xFFF, 0⟩ && !statusBad s c && c.d.privq &&
      (allocOn (s.queueAt 63)).isNone && someIs (readImage s c) fun r => !sfteBad r.2) = true ∧
    headIs (qs (rec 11 0 0 1 0 0 0 0)) (fun s c => c.op == 11 && (freeOn s (s.queueAt 63)).isNone &&
      !reservedBad c ⟨false, false, false, false, true, 0xFFF, 0⟩ && !statusBad s c && c.d.privq &&
      (s.handle? c.d.ctx c.imm).isNone) = true ∧
    headIs (withSurf (qs (rec 11 0 0 1 0 0 0 0))) (fun s c => (s.handle? c.d.ctx c.imm).isSome &&
      (freeOn s (s.queueAt 63)).isNone && mayFree s (c.d.ctx * 4096 + c.imm)) = true ∧
    headIs (storeNat (qs (rec 12 0 0 127 0x10100 0 0 0)) 0x100100 64 copyRecord) (fun s c => c.op == 12 &&
      !reservedBad c ⟨false, false, false, true, true, 0x7F, 0⟩ && c.imm == 127 && !statusBad s c &&
      someIs (readCopy s c) fun r => !cdBad r.2 && leastBusy r.1 (copyEngines r.1 127) == some 0 &&
        decide (queuedOn r.1 0 < 64)) = true ∧
    headIs (qs (rec 13 0 0 0 0x10100 0 0 0)) (fun s c => c.op == 13 && (finishedOn s 63).isNone &&
      !reservedBad c ⟨false, false, false, true, true, 0, 0⟩ && !statusBad s c && c.addr0.toNat % 256 == 0 &&
      !(ctxRead s c.ag c.addr0 256).isNone && (runningLaunch s c).isNone) = true ∧
    headIs (launchAt (qs (rec 13 0 0 0 0x10000 0 0 0)) .running) (fun s c => !(ctxRead s c.ag c.addr0 256).isNone &&
      someIs (runningLaunch s c) fun r => r.1 == 1 && r.2.phase == .running) = true ∧
    headIs (launchAt (qs (rec 13 0 0 0 0x10000 0 0 0)) .preempting) (fun s c => !(ctxRead s c.ag c.addr0 256).isNone &&
      (finishedOn s 63).isNone && someIs (runningLaunch s c) fun r => r.1 == 1 && r.2.phase == .preempting) = true ∧
    (∀ i ∈ [0, 345 * 65536 + 1, 845 * 65536 + 1, 351 * 65536 + 1, 350 * 65536 + 1, 840 * 65536 + 15],
      headIs (qs (rec 14 0 0 i 0 0x10200 0 0)) (fun s c => c.op == 14 && c.imm == i &&
        !reservedBad c ⟨false, false, false, false, true, 0x03FF000F, 0⟩ && !statusBad s c && c.d.privq) = true) ∧
    (∀ i ∈ [0, 65536 + 575], headIs (qs (rec 15 0 0 i 0 0x10200 0 0)) (fun s c => c.op == 15 && c.imm == i &&
        ((gateErrs s c).all fun e => !e.2) && !gateRefused s c) = true) := by decide +kernel

/-! ### Witnesses: steps of the package -/

theorem test_wit_RegisterSteps : (1 < 2 ∧ (s0.stackAt 1).busy = false ∧ 4 < fieldNat (5 : Word) 0 3) ∧
    (fieldNat (4 : Word) 0 3 ≤ 4 ∧ (4 : Word).setWidth 3 ≠ (s0.stackAt 1).llcsz) ∧ s0.ctl.tlbinvDone = true ∧
    (∀ e ∈ s0.groups, e.2.ctx = fieldNat s0.ctl.tlbinvLo 0 16 → quiet e.2 = true) ∧
    (3 < 4 ∧ bit (0x80000000 : Word) 31 = true) ∧ s0.group? s0.cur = some g0 ∧ g0.status = .ready ∧ g0.priv = false ∧
    (at_ privG).group? 1 = some privG ∧ privG.priv = true ∧
    someIs (cbStore s0 0 g0.block 62 0 4 0x80) (fun _ => true) = true ∧
    tlbinvHits { ControlBlock.reset with tlbinvLo := 0, tlbinvCount := 1 } ⟨0, 0, false, 0x18008, 0x101A1F⟩ = true := by
  decide +kernel

theorem test_wit_RegisterSteps_pit : let e : PitEntry := ⟨5, 1, 0x51, 575, 31, 7, 8, true⟩
    let s := s0.setDie 3 { Die.reset with pit := { PitLog.reset with entries := set [] 4095 e } }
    3 < 4 ∧ 4095 < 4096 ∧ find (s.dieAt 3).pit.entries 4095 = some e ∧ e.secure = true ∧
    readControl s 0 0x8FFF8 = some 5 ∧ readControl s 0 0x8FFE8 = some 0 := by decide +kernel

theorem test_wit_PackageSteps : 262143 < 262144 ∧ podState.fabric = true ∧ remoteMay podState 0x100000 = true ∧
    atomOfRow 7 = some .cas ∧ s0.fatal = false ∧ 2 < 3 ∧ 3 < 4 := by decide +kernel

/-- A die of which a slot is open for a core, the scan running or not, at a time. -/
def slotState (scan : Option DWord) (now : Nat) (g : Group) : State :=
  (at_ g).setDie 0 { Die.reset with assay := some ⟨0, 0, scan⟩, ntime := BitVec.ofNat 64 now }

theorem test_wit_PowerSteps : ((s0.coreAt 575).scanning = false ∧ clusterOfCore 575 = 143) ∧
    (let s := s0.setDie 3 { Die.reset with vfs := [⟨9, 350, 0⟩] }
     (s.dieAt 3).vfs = [⟨9, 350, 0⟩] ∧ dieReady s 3 = true) ∧
    (let s := (s0.setDie 0 { Die.reset with vfs := [⟨9, 350, 0⟩], ntime := 1000000 })
     (s.dieAt 0).vfs = [⟨9, 350, 0⟩] ∧ dieReady s 0 = false ∧ 1000000 ≤ since s.primaryTime 0) ∧
    (let s := s0.setCore 575 { Core.reset with gateReq := some ⟨0, 0, true⟩, gateStat := 1 }
     (s.coreAt 575).gateReq = some ⟨0, 0, true⟩ ∧ (s.coreAt 575).gated = false ∧ (s.coreAt 575).gateStat ≠ 3 ∧
      coreBusy s 575 = false ∧ (s.coreAt 575).inbound.filled = 0 ∧ (s.dieAt 3).assay = none) ∧
    (7 < 8 ∧ ((s0.setDomain 7 ⟨15, 0, none⟩).domainAt 7).steps < 16) ∧
    16 ≤ ((s0.setDomain 7 ⟨16, 0, none⟩).domainAt 7).steps ∧
    (let s := (s0.setDomain 7 ⟨1, 0, none⟩).setDie 2 { Die.reset with ntime := 10000000 }
     (s.domainAt 7).steps ≠ 0 ∧ 10000000 ≤ since (s.ntime (dieOfDomain 7)) (s.domainAt 7).lastWarn) ∧
    (let s := (s0.setDomain 7 ⟨16, 0, some 0⟩).setDie 2 { Die.reset with ntime := 1000000 }
     (s.domainAt 7).since16 = some 0 ∧ s.fatal = false ∧ 1000000 ≤ since (s.ntime (dieOfDomain 7)) 0) ∧
    (31 < 32 ∧ (95 : Int) < 96 ∧ (85 : Int) < 86 ∧ (82 : Int) < 83) ∧
    ((s0.dieAt 3).assay = none ∧ (s0.dieAt 3).nextSlot.toNat ≤ (s0.dieAt 3).ntime.toNat ∧
      nextInService s0 3 144 (s0.dieAt 3).nextAssay = some 432) ∧
    (let s := slotState none 0 g0
     (s.dieAt 0).assay = some ⟨0, 0, none⟩ ∧ drained s 0 = true ∧ since (s.dieAt 0).ntime 0 ≤ 50000) ∧
    (let s := slotState (some 0) 20000 g0
     (s.dieAt 0).assay = some ⟨0, 0, some 0⟩ ∧ 20000 ≤ since (s.ntime 0) 0) ∧
    (let s := slotState none 50000 migG
     (s.dieAt 0).assay = some ⟨0, 0, none⟩ ∧ drained s 0 = false ∧ 50000 ≤ since (s.ntime 0) 0) ∧
    (let s := slotState none 50001 g0
     (s.dieAt 0).assay = some ⟨0, 0, none⟩ ∧ drained s 0 = true ∧ 50000 < since (s.ntime 0) 0) := by decide +kernel

/-! ### Witnesses: the network -/

def anOrigin : Origin :=
  { carry := 0, hops := 1, hmax := 255, hwid := 0, hpkg := 0, hcore := 0, hslot := 0, hlane := 31, gen := 0, podid := 0,
    ltag := 1, priv := false, pix := false, clock := 0 }

/-- A record for core 575 of this package. -/
def aCont : Cont :=
  { pkg := 0, core := 575, fromPkg := 0, fromCore := 0, fromSlot := none, launch := 1, rpc := 0x10020,
    key := [0, 0, 0, 0], fmt := 0, vals := [], bad := [], clk := [], pkey := 0, org := anOrigin }

/-- A pool of core 575 with 32 records, or one of `n`, in state due or not. -/
def aPool (n : Nat) (due : Bool) : Pool :=
  { launch := 1, priv := false, rpc := 0x10020, key := [0, 0, 0, 0], fmt := 0, recs := List.replicate n ⟨[], [], [], anOrigin⟩, since := 0,
    due := due }

def poolState (p : Pool) (cyc : Nat) : State :=
  s0.setCore 575 { Core.reset with pools := [p], cyc := BitVec.ofNat 64 cyc }

/-- Group 1 with lane 31 away. -/
def awayG : Group := { g0 with away := 0x80000000, amask := 0x7FFFFFFF }

/-- The same with the entry of the lane in its store. -/
def backG : Group := { awayG with cont := { g0.cont with rets := set [] 31 ⟨1, 0, [], [], []⟩ }, status := .parked .rejoin }

theorem test_wit_NetworkSteps :
    (let s := { s0 with conts := [aCont] }
     s.conts[0]? = some aCont ∧ heldBack s.conts 0 aCont = false ∧ aCont.pkg = s.pkgid ∧
      landingLaunch s aCont = some 1 ∧ (s.coreAt 575).oos = false ∧
      aCont.core ≤ 575 ∧ landingLaunch s { aCont with fromPkg := 3 } = none ∧
      (let s1 := wakeGated (recordGone { s with conts := [] } aCont) 575
       (admitRecord (s1.coreAt 575) 1 aCont (orderOf s 0 [])).isSome = true) ∧
      (let p := { aPool 32 false with rpc := 0x20 }
       (admitRecord { Core.reset with pools := List.replicate 16 p } 1 aCont []).isNone = true) ∧
      ((s.setCore 575 { Core.reset with oos := true }).coreAt 575).oos = true ∧
      heldBack [aCont, aCont] 1 aCont = true) ∧
    (let c := { aCont with pkg := 7 }
     let s := { s0 with conts := [c], fabric := true, key := 0 }
     s.conts[0]? = some c ∧ heldBack s.conts 0 c = false ∧ c.pkg ≠ s.pkgid ∧
      unreachable s 7 = false ∧ unreachable { s with fabric := false } 7 = true ∧ noticeFirst s c = false ∧
      noticeFirst { s with notices := [⟨0, 0, 0, 0, 31, 7, 0⟩] } c = true) ∧
    ((poolState (aPool 32 false) 0).coreAt 575).pools[0]? = some (aPool 32 false) ∧ (aPool 32 false).recs.length = 32 ∧
    max 16 ((poolState (aPool 1 false) 512).coreAt 575).ldtmo.toNat ≤
      since ((poolState (aPool 1 false) 512).coreAt 575).cyc (aPool 1 false).since ∧
    (let s := poolState (aPool 32 true) 0
     nextPool (s.coreAt 575).pools = some 0 ∧
      ((List.range Config.landingSlots).find? (landingSlotFree s 575)).isSome = true ∧
      (s.coreAt 575).pools[0]? = some (aPool 32 true) ∧ (s.launch? 1).isSome = true ∧ landingHeld s 575 = false) ∧
    (let s := { at_ awayG with rets := [⟨1, [], [], [], 0, 0, anOrigin⟩] }
     s.rets[0]? = some ⟨1, [], [], [], 0, 0, anOrigin⟩ ∧ anOrigin.hpkg = s.pkgid ∧ s.fenced.contains 0 = false ∧
      homeGroup s 0 0 0 = some (1, awayG)) ∧
    ((at_ backG).group? 1 = some backG ∧ (find backG.cont.rets 31).isSome = true ∧ g0.away.getLsbD 31 = false) ∧
    (backG.status = .parked .rejoin ∧ allReturned backG = true ∧ preemptDue (at_ backG) 1 backG = false ∧
      ((at_ backG).coreAt 0).scanning = false ∧ rejoinWindow backG = false ∧ (applyEntries backG).2 = none) ∧
    (let g := { g0 with status := .parked .exit }
     (at_ g).group? 1 = some g ∧ g.status = .parked .exit ∧ mayRetire g = true) ∧
    (let n : Notice := ⟨0, 0, 0, 0, 31, 7, 0⟩
     let s := { at_ awayG with notices := [n] }
     s.notices[0]? = some n ∧ n.hpkg = s.pkgid ∧ s.fenced.contains 7 = false ∧
      { s with fenced := [7] }.fenced.contains 7 = true ∧ homeGroup s 0 0 0 = some (1, awayG) ∧ s.group? 1 = some awayG ∧
      awayG.away.getLsbD 31 = true) := by decide +kernel


/-! ### Witnesses: steps of groups and launches -/

/-- A batch with nothing to kill; a store of a byte; a load of a lane. -/
def aBatch : Batch := ⟨7, 1, [15], 1, 0⟩
def aStore : PendStore := ⟨15, .all, [], [], false, some 31, .group, false, false, [], [(0x100100, 1)]⟩
def aLoad : PendLoad := ⟨14, false, 4, false, false, [⟨some 31, 95, [0x100200], none, none, false, none, none⟩], 0⟩

/-- A block that the cursor still has to place. -/
def unplaced (s : State) : State := s.updLaunch 1 fun l => { l with cursor := 0 }

theorem test_wit_GroupSteps :
    (let g := { evG 0x80 0x80 with status := .parked (.waitany 0x80) }
     (at_ g).group? 1 = some g ∧ takeable (refreshLevels (at_ g) g) 0x80 ≠ 0 ∧
      preemptDue (at_ g) 1 (refreshLevels (at_ g) g) = false ∧
      ((at_ g).coreAt (refreshLevels (at_ g) g).core).scanning = false ∧
      handlerOf (refreshLevels (at_ g) g) (lowestSlot (takeable (refreshLevels (at_ g) g) 0x80)) &&& 3 = 0) ∧
    (let s := (s0.setCluster 143 { Cluster.reset with bars := set [] 63 { Barrier.idle with isOpen := true } }).setDie 3
       { Die.reset with ntime := 100000000 }
     let o := get Barrier.idle (s.clusterAt 143).bars 63
     o.isOpen = true ∧ o.stall = false ∧ barDbgBlk s o = false ∧ 100000000 ≤ since (s.ntime (dieOfCluster 143)) o.since) ∧
    (s0.group? 1 = some g0 ∧ isSaved g0 = false) ∧
    (let g := { g0 with mx := { g0.mx with closed := [aBatch] } }
     (at_ g).group? 1 = some g ∧ g.mx.closed = aBatch :: [] ∧ batchQueued (at_ g) 1 g aBatch.num = false) ∧
    (let g := { trapG with dbg := { g0.dbg with tten := true } }
     (at_ g).group? 1 = some g ∧ timerDue (at_ g) g = true) ∧
    (let s := s0.setCore 0 { Core.reset with bpEn := 8, bpa3 := 0x10000 }
     s.group? 1 = some g0 ∧ breakpointDue s g0 = true ∧ chainOver s g0 g0.pc = true) ∧
    (let g := { g0 with status := .halted (some (.bar 63)) }
     (at_ g).group? 1 = some g ∧ g.status = .halted (some (.bar 63))) ∧
    (let g := { g0 with status := .halted none, trap := { g0.trap with tnext := 0x10020 } }
     (at_ g).group? 1 = some g ∧ g.status = .halted none ∧ g.trap.tnext &&& 3 = 0) ∧
    (let g := { g0 with status := .halted none, trap := { g0.trap with tnext := 0x10021 } }
     (at_ g).group? 1 = some g ∧ g.status = .halted none ∧ g.trap.tnext &&& 3 ≠ 0) ∧
    ({ s0 with resq := [⟨4095, 1, 575, 1⟩] }.resq = ⟨4095, 1, 575, 1⟩ :: []) ∧
    (let g := { g0 with loads := [{ aLoad with stream := 13 }, aLoad] }
     (at_ g).group? 1 = some g ∧ g.loads[1]? = some aLoad) ∧
    (let g := { g0 with wbuf := [{ aStore with stream := 14 }, aStore] }
     (at_ g).group? 1 = some g ∧ g.wbuf[1]? = some aStore) ∧
    (let g := { g0 with fetches := [2097136, 0] }
     (at_ g).group? 1 = some g ∧ g.fetches = 2097136 :: [0] ∧ ((at_ g).block? g.block).isSome = true ∧
      (nextBlock (at_ g) g).isNone = true ∧ (nextBlock (unplaced (at_ g)) g).isSome = true) := by decide +kernel

/-- The launch with a change, its group as given. -/
def withLaunch (g : Group) (f : Launch → Launch) : State := (at_ g).updLaunch 1 f

def aRun : PreemptRun := ⟨⟨0, 0, false⟩, 0, [], [], []⟩

/-- The same with the open batches of groups 1 and 2 closed for it. -/
def shutRun : PreemptRun := ⟨⟨0, 0, false⟩, 0, [], [], [1, 2]⟩

/-- The launch pre-empting since 0, with a save area at 0x10400. -/
def preempting (g : Group) : State :=
  withLaunch g fun l => { l with phase := .preempting, preempt := some aRun, hdr := { l.hdr with save := 0x10400 } }

/-- A group of 16 registers and no tiles, parked in waitany. -/
def smallG : Group := { g0 with vregs := 16, accs := 0, status := .parked (.waitany 0x80) }

/-- The same group to be saved, another of its block resident; the save area has room for a record. -/
def savingState : State :=
  ((storeNat (preempting smallG) 0x100400 16 (0x8000 + 64 * 2 ^ 64)).setGroup 2 { g0 with slot := 1 }).updLaunch 1 fun l =>
    { l with preempt := some shutRun }

theorem test_wit_LaunchSteps :
    (someIs (serveBid 0 (bidsOf (unplaced s0) 0)) (fun b => b.lid == 1 && b.cl == some 1 && b.passed == 0 &&
      match nextPlace (unplaced s0) b.l with | some .fresh => true | _ => false) = true) ∧
    (let s := { s0 with groups := [] }
     someIs (s.launch? 1) (fun l => launchDone s 1 l && l.preempt == none) = true) ∧
    ({ placeLaunch with suspect := true }.suspect = true ∧ placeLaunch.suspect = false ∧ placeLaunch.hdr.conf = false ∧
      { placeHeader with conf := true }.conf = true ∧ placeLaunch.confirmed = false) ∧
    (let s := (withLaunch g0 fun l => { l with hdr := { l.hdr with deadline := 1 } }).setDie 0 { Die.reset with ntime := 2 }
     someIs (s.launch? 1) (fun l => l.phase == .running && l.hdr.deadline == 1 && !l.pastDeadline) = true ∧
      1 < s.primaryTime.toNat) ∧
    (let s := (preempting g0).setDie 0 { Die.reset with ntime := 1000000 }
     s.group? 1 = some g0 ∧ someIs (s.launch? g0.launch) (fun l => l.preempt == some aRun) = true ∧
      preemptDue s 1 g0 = true ∧ max 1 s.ctl.pretmo.toNat * 1000 ≤ since s.primaryTime aRun.since ∧
      g0.status = .ready ∧ g0.chain.fpFlags = 0 ∧ chainOver s g0 g0.pc = true) ∧
    (∀ p ∈ [Park.transition, .stalled, .mwait 1, .cbget 63 62 true], let g := { g0 with status := .parked p }
     preemptDue (preempting g) 1 g = true ∧ 1 ∉ aRun.forced) ∧
    (let s := savingState
     s.group? 1 = some smallG ∧ saveReady s 1 smallG = true ∧ batchShut s 1 smallG = true ∧
      smallG.mx.opening.ops = 0 ∧ smallG.mx.closed = [] ∧
      s.block? smallG.block = some placeBlock ∧ lastOfBlock s 1 smallG.block = false ∧
      someIs (s.launch? smallG.launch) (fun l =>
        let r := saveRoom s l (recordBytes false (notePlan placeBlock (fullPlan smallG)) (fullPlan smallG))
        r.2.isSome && r.1.group? 1 == some smallG) = true ∧
      smallG.badS = [] ∧ smallG.badV = [] ∧ smallG.badSp = [] ∧ smallG.badRow = [] ∧ smallG.lmask ≠ 0 ∧
      (∀ h ∈ smallG.held, h.desc ≠ 63) ∧
      someIs (s.launch? smallG.launch) (fun l =>
        (saveRoom s l (65536 + recordBytes false (notePlan placeBlock (fullPlan smallG)) (fullPlan smallG))).2.isNone) = true) ∧
    (let g := { smallG with mx := { g0.mx with opening := aBatch } }
     (preempting g).group? 1 = some g ∧ saveReady (preempting g) 1 g = true ∧ g.mx.opening.ops ≠ 0) ∧
    batchShut (preempting smallG) 1 smallG = false ∧
    31 < 32 := by decide +kernel

/-- The plan of that group is the full one. -/
theorem test_wit_GroupSave : ∃ l, savingState.launch? smallG.launch = some l ∧
    planOf savingState smallG l placeBlock.spad = .plan savingState (fullPlan smallG) := by
  cases h : savingState.launch? smallG.launch with
  | none => exact absurd (congrArg Option.isSome h) (by decide +kernel)
  | some l => exact ⟨l, rfl, by simp [planOf, parkedIn, smallG]⟩

/-! ### Witnesses: surfaces -/

/-- Handle 4095 of context 4095 in a state. -/
def handleIn (st : HandleState) : State := s0.setHandle 4095 4095 { surf 0 0 with state := st }

/-- The draw of the launch, started or not. -/
def drawing (n : Option Nat) (f : Frag → Option Frag) : State :=
  { (withSurf s0).updLaunch 1 fun l => { l with draw := some { aDraw with dseq := n } } with
    frags := (f ⟨1, 1, 0, 1, 31, 1, 7, 7, 0, some 0, some [0x3F800000, 0, 0, 0x3F800000], false, 0, []⟩).toList }

/-- A primitive of which the region at (0, 0) is left. -/
def rasterNow : RasterNow := ⟨1, 1, aRecord, [(0, 0)]⟩

theorem test_wit_SurfaceSteps :
    (let s := s0.setStack 1 { Stack.reset with busy := true, target := 4 }
     (s.stackAt 1).busy = true ∧ ∀ e ∈ takers (clearLlcRows s 1), e.2.base + handleBytes e.2 ≤ llcStart (s.stackAt 1).target) ∧
    (∀ k ∈ [0, 1, 2, 3], let s := handleIn ([.spilling, .restoring, .resident, .spilled].getD k .resident)
     (k = 0 → someIs (s.handle? 4095 4095) (fun h => h.state == .spilling) = true) ∧
     (k = 1 → someIs (s.handle? 4095 4095) (fun h => h.state == .restoring) = true)) ∧
    (isFrame 2097119 = true ∧ isFrame 2097151 = true ∧ 2097119 % 32 = 2097151 % 32 ∧ 2097151 ≠ frameAt s0 2097119 ∧
      ∀ m ∈ s0.moves, m.1 ≠ 2097119 ∧ m.2 ≠ 2097151) ∧
    ({ s0 with moves := [(2097119, 2097151)] }.moves.find? (fun m => m.1 == 2097119) = some (2097119, 2097151)) ∧
    (let s := drawing none fun _ => none
     (drawNow s).isNone = true ∧ someIs (nextDraw s) (fun r => r.1 == 1 && s.launch? 1 == some r.2 && r.2.draw.isSome) = true) ∧
    (let s := drawing (some 1) fun _ => none
     someIs (drawNow s) (fun r => r.1 == 1 && (advanceFront s r.1 r.2.1 r.2.2 0).isNone &&
       (advanceFront s r.1 r.2.1 r.2.2 1).isNone) = true ∧ inHand s 0 = []) ∧
    (∀ st ∈ [0, 1], let s := setHand (drawing (some 1) fun _ => none) st [rasterNow]
     someIs (drawNow s) (fun r => r.1 == 1 && (triOf r.2.2.cull aRecord).isSome && (drawSurface s 0 r.2.2).isSome &&
        (advanceFront s 1 r.2.1 r.2.2 st).isSome) = true ∧
      inHand s st = rasterNow :: [] ∧ rasterNow.regions = (0, 0) :: []) ∧
    (let s := drawing (some 1) some
     someIs (s.frags[0]?) (fun f => f.colour.isSome && (s.frags.take 0).all (fun e => !sameSample f e) &&
      ((s.launch? f.lid).bind (·.draw)).isSome && (find s.handles f.handle).isSome) = true) := by decide +kernel

/-! ### Witnesses: engines -/

/-- An operation of group 1 on an engine. -/
def anOp (k : OpKind) : EngineOp :=
  { opOf (at_ memG) 1 memG k 63 15 with channels := [127] }

/-- A state with operation 9. -/
def opState (k : OpKind) : State := (recState 64 0).setOp 9 (anOp k)

/-- A copy of an element at 0x10100 to 0x10200; the same into a buffer; one that begins at 0. -/
def copies : List Nat :=
  [0x10100 + 0x10200 * 2 ^ 64 + copyRecord, 0x10100 + copyRecord + 2 ^ 388 + 62 * 2 ^ 392, copyRecord]

def copyBytes (k : Nat) : List Byte := bytesOfNat 64 (copies.getD k 0)

/-- A ring that lags by one, at its last index, or not at all. -/
def aRing (notify : Nat) (det : Bool) : RingInfo := ⟨0x10000, 0, 4, notify, 2 ^ 32 - 1, 0, [], det⟩

/-- A tile at 0x10000 for node 0; its record. -/
def tileBytes : List Byte := bytesOfNat 80 (0x10000 + combineRecord)

/-- Contributions of one source and of three. -/
def part (n : Nat) : CombinePart :=
  { podid := 1, gid := 1, dst := 0, donew := 0, op := 0, bf16 := false, nsrc := n, count := 1, vals := [], bad := [],
    pkey := 0 }

theorem test_wit_EngineSteps :
    (let k : OpKind := .ivsld (bytesOfNat 16 (bankRecords.getD 0 0))
     someIs ((opState k).op? 9) (fun o => !bankBehind (opState k) 9 o && (bankDo o (opState k)).isSome) = true) ∧
    (∀ k ∈ [0, 1, 2], let o := anOp (.copy (copyBytes k))
     (opState (.copy (copyBytes k))).op? 9 = some o ∧ noSlice o (copyBytes k) = false) ∧
    (let o := anOp (.copy (copyBytes 0))
     (match (copyRows o (copyBytes 0) 1 0 false (opState o.kind)).2.2.2 with | .code 0 => true | _ => false) = true) ∧
    (let o := anOp (.copy (copyBytes 1))
     let s := (cbState 0 4 memG).setOp 9 o
     (match (copyRows o (copyBytes 1) 1 0 false s).2.2.2 with | .waits => true | _ => false) = true) ∧
    (let r := aRing (2 ^ 32 - 1) true
     (opState (.ring r)).op? 9 = some (anOp (.ring r)) ∧ r.detaching = true ∧ r.done = r.notify) ∧
    (let r := aRing 0 false
     let o := anOp (.ring r)
     let s := storeNat (opState (.ring r)) (spadLoc 0 0) 32 (0x10100 + 0x10200 * 2 ^ 64 + 4 * 2 ^ 128)
     s.op? 9 = some o ∧ r.detaching = false ∧ 0 < ringLag r r.notify ∧ r.done < 2 ^ 32 ∧ r.finished = [] ∧ r.log2n ≤ 12 ∧
      let e := readBytes s ((sliceOf s o).1 + r.base + 32 * (r.done % 2 ^ r.log2n)) 32
      (ringCopy o e s).2.1 = false ∧ (ringCopy o e s).2.2 = none) ∧
    (let o := anOp (.cpred tileBytes)
     let s := { opState o.kind with fabric := true }
     s.op? 9 = some o ∧ (let r := tileRead o (cpLenu tileBytes) (cpSrc tileBytes) false s
       r.2.2 = none ∧ unreachable r.1 (cpNode tileBytes) = false ∧ r.2.1.all (fun e => !e.2) = true)) ∧
    (s0.combines.findIdx? (fun c => sameCombine c.part (part 1)) = none ∧ (part 1).nsrc ≤ (part 1).count ∧
      (part 3).count < (part 3).nsrc) ∧
    (let s := { s0 with combines := [⟨part 3, 0⟩] }
     s.combines.findIdx? (fun c => sameCombine c.part (part 3)) = some 0 ∧ s.combines[0]? = some ⟨part 3, 0⟩ ∧
      10000000 ≤ since (s.setDie 0 { Die.reset with ntime := 10000000 }).primaryTime 0) := by decide +kernel

/-! ### Witnesses: invariants -/

theorem test_wit_MemCanonicalKept : MemCanonical (run 0x28183FFF g0) ∧
    nextIs (step (run 0x28183FFF g0)) (fun _ => true) = true := by
  unfold MemCanonical; decide +kernel

/-! ### Second spellings (R64, R67) -/

theorem test_alias_sset : aliasSset 5 0x00402000 = [.sli 5 0, .slui 5 0x201] := by decide

theorem test_offset_code : offsetCode 4 252 = some 63 ∧ offsetCode 4 256 = none ∧ offsetCode 8 12 = none ∧
    offsetCode 128 (-8192) = some 64 := by decide

/-! ### Witnesses: further clauses -/

/-- A chain of two that wrote v3 (window 16), s5 and m2. -/
def writerG : Group :=
  { trapG with wb := 16, chain := { Chain.none with ended := false, head := 0xFFF8, latches := [.none, .none], wb := 16,
                                                     writes := [.v 3, .s 5, .m 2] } }

theorem test_wit_FaultIsPrecise_chain : (at_ writerG).group? 1 = some writerG ∧ deliverable writerG .permr = true ∧
    writerG.lmask ≠ 0 ∧ RegId.s 5 ∈ writerG.chain.writes ∧ RegId.s 6 ∉ writerG.chain.writes ∧
    RegId.v 3 ∈ writerG.chain.writes ∧ RegId.m 2 ∈ writerG.chain.writes ∧ RegId.m 3 ∉ writerG.chain.writes := by
  decide +kernel

theorem test_wit_ConvertResult_ints : (∀ e ∈ [(6, true, 32), (7, false, 32), (8, true, 16), (9, false, 16), (10, true, 8),
    (11, false, 8)], cvtType e.1 = .int e.2.1 e.2.2) := by decide

/-- An uncorrectable element of v3 in lane 0, in registers of window base 0. -/
def badFirstG : Group := { g0 with badV := [elemOf 3 0] }

theorem test_wit_ReductionResult_first : (Admits (.vfirst 5 3 false) s0 g0 ∧ ∀ j ∈ g0.activeLanes.head?, badAt g0 (osrc .vec 3) j = false) ∧
    (Admits (.vfirst 5 3 false) (at_ badFirstG) badFirstG ∧ badFirstG.activeLanes.head? = some 0 ∧
      badAt badFirstG (osrc .vec 3) 0 = true) := by simp only [admits_iff]; decide +kernel

theorem test_wit_RegisterFrame_vectors :
    (∀ f ∈ vecForms1, Admits (f.1 5 3 false) s0 g0 ∧ Calm (f.1 5 3 false) g0) ∧
    (∀ f ∈ vecPairForms.map (·.1) ++ [Instr.vmulw], Admits (f 94 6 8 false) s0 g0 ∧ Calm (f 94 6 8 false) g0) ∧
    (Admits (.vbfi 5 3 4) s0 g0 ∧ Calm (.vbfi 5 3 4) g0) ∧ (Admits (.vaddi 5 3 4) s0 g0 ∧ Calm (.vaddi 5 3 4) g0) ∧
    (∀ f ∈ moveForms1, Admits (f.1 5 3 false) s0 g0 ∧ Calm (f.1 5 3 false) g0) ∧
    (∀ f ∈ moveForms2, Admits (f.1 5 3 4 false) s0 g0 ∧ Calm (f.1 5 3 4 false) g0) ∧
    (Admits (.vsel 5 3 4 false 7) s0 g0 ∧ Calm (.vsel 5 3 4 false 7) g0) ∧
    (∀ f ∈ floatForms1, Admits (f.1 4 6 false) s0 g0 ∧ Calm (f.1 4 6 false) g0) ∧
    (∀ f ∈ floatForms3, Admits (f.1 4 6 8 10) s0 g0 ∧ Calm (f.1 4 6 8 10) g0) ∧
    (Admits (.vfdot2 4 6 8 false) (at_ (fmtG 1)) (fmtG 1) ∧ Calm (.vfdot2 4 6 8 false) (fmtG 1) ∧ NoTraps (fmtG 1)) ∧
    (Admits (.vscan_f 4 6 false) s0 g0 ∧ Calm (.vscan_f 4 6 false) g0 ∧ NoTraps g0) ∧
    (Admits (.vcvt 4 3 4 1 false 0) s0 g0 ∧ Calm (.vcvt 4 3 4 1 false 0) g0) ∧
    (Admits (.vcvtef 5 3 4) s0 g0 ∧ Calm (.vcvtef 5 3 4) g0) := by
  simp only [admits_iff, calm_iff, NoTraps]; decide +kernel

theorem test_wit_RegisterFrame_scalars :
    (Admits (.saddx 62 4 6 false) s0 g0 ∧ Calm (.saddx 62 4 6 false) g0) ∧
    (∀ f ∈ shiftForms, Admits (f.1 5 3 31) s0 g0 ∧ Calm (f.1 5 3 31) g0) ∧
    (∀ f ∈ [Instr.sli, Instr.slui], Admits (f 5 7) s0 g0 ∧ Calm (f 5 7) g0) ∧
    (∀ f ∈ [Instr.mget, Instr.mcnt, Instr.vballot] ++ reduceForms.map (·.1),
      Admits (f 5 3 false) s0 g0 ∧ Calm (f 5 3 false) g0) ∧
    (Admits (.vfirst 5 3 false) s0 g0 ∧ Calm (.vfirst 5 3 false) g0) ∧
    (∀ f ∈ [Instr.mnot, Instr.mset], Admits (f 5 3) s0 g0 ∧ Calm (f 5 3) g0) ∧ (Admits (.mclr 5) s0 g0 ∧ Calm (.mclr 5) g0) ∧
    (∀ f ∈ fcmpForms, Admits (f.1 5 3 4) s0 g0 ∧ Calm (f.1 5 3 4) g0) ∧
    (Admits (.vfclass 5 3 0x7F) s0 g0 ∧ Calm (.vfclass 5 3 0x7F) g0) ∧
    (∀ f ∈ floatReduceForms, Admits (f.1 4 6 false) s0 g0 ∧ Calm (f.1 4 6 false) g0) := by
  simp only [admits_iff, calm_iff]; decide +kernel

/-- A migrant with a load outstanding. -/
def busyMig : Group := { migG with loads := [aLoad] }

theorem test_wit_TrapInstrResult_busy : Admits .exit (at_ busyMig) busyMig ∧ isMigrant busyMig = true ∧ quiet busyMig = false ∧
    quiet migG = true := by simp only [admits_iff]; decide +kernel

/-- Group 1 with a byte of its own outstanding; group 2 of its core with a dirty one. -/
def ownG : Group := { memG with wbuf := [aStore] }
def dirtyState : State := (at_ memG).setGroup 2 { g0 with slot := 1, wbuf := [{ aStore with dirty := true }] }

/-- A part of a load that the L1 may serve, of the byte at 0x100100. -/
def cachedPart : LoadPart := ⟨some 31, 95, [0x100100], some 0, none, false, none, none⟩

/-- sp10 = 0x10101, no multiple of 128. -/
def oddG : Group := gs g0 [(10, 0x10101)]

theorem test_wit_LoadResult_line : (Admits (.vldc 95 10 0 0 false) (at_ lostG) lostG ∧
      okIs (lineHits (at_ lostG) lostG .load 0x20000) (fun _ => true) = false) ∧
    ((0x10101 : DWord).toNat % 128 ≠ 0 ∧ (0xFFFFFE0000000000 : DWord).toNat % 128 = 0 ∧
      isLane (aperture 0xFFFFFE0000000000) = true) := by simp only [admits_iff]; decide +kernel

theorem test_wit_LoadResult_bytes : dirtyOn (at_ memG) 0 = [] ∧ ownByte (at_ ownG) ownG 0x100100 = some 1 ∧
    (ownByte dirtyState memG 0x100100 = none ∧
      someIs (dirtyFor dirtyState memG { oldLoad with old := false } cachedPart 0x100100) (fun e =>
        (e.2.bytes.reverse.find? (·.1 == 0x100100)) == some (0x100100, 1)) = true) ∧
    ({ oldLoad with acquire := true }.acquire = true ∧ memG.ahead = []) := by decide +kernel

theorem test_wit_StoreResult_faults :
    (∀ f ∈ storeForms, Admits (f.1 94 10 4 0 false) (at_ lostG) lostG ∧
      okIs (laneHits (at_ lostG) lostG .store f.2.1 (laneAddr (at_ lostG) lostG 10 4)) (fun _ => true) = false) ∧
    (Admits (.vstc 95 10 0 0 false) (at_ lostG) lostG ∧
      okIs (lineHits (at_ lostG) lostG .store 0x20000) (fun _ => true) = false) := by
  simp only [admits_iff]; decide +kernel

/-- Every marked leaf entry of some hits, and every byte of theirs, lies apart from a location. -/
def hitsApart (s : State) (hs : List Hit) (n l : Nat) : Bool := hs.all fun h => hitApart s h n l

/-- The same of the marks alone, and that no mark is of physical memory that wraps round. -/
def marksApart (s : State) (hs : List Hit) (l : Nat) : Bool := hs.all fun h => h.cb.isNone && hitApart s h 0 l &&
  match h.leaf with | some (ps, _) => ps.all (· < 2 ^ 60) | none => true

theorem test_wit_MemoryFrame_stores :
    (Admits (.vstc 95 10 0 0 false) (at_ memG) memG ∧ Calm (.vstc 95 10 0 0 false) memG ∧
      okIs (lineHits (at_ memG) memG .store 0x10100) (fun hs => (hs.all fun e => e.2.cb.isNone) &&
        hitsApart (at_ memG) (hs.map (·.2)) 4 0x1000FF) = true ∧
      nextIs (exec (.vstc 95 10 0 0 false) (at_ memG)) (fun _ => true) = true) ∧
    (let g := gs g0 [(5, 0x3C001)]
     let s := withSurf (at_ g)
     Admits (.sfst 95 5 4) s g ∧ Calm (.sfst 95 5 4) g ∧ g.badV = [] ∧ surfaceArg s g (srcS s g 5) = some (surf 0 0) ∧
      sampleOk (surf 0 0) (srcS s g 5) = true ∧ pixelRegs g (surf 0 0) 95 = none ∧
      okIs (pixelHits s g 1 (surf 0 0) 0 4 g.activeLanes) (fun hs => hitsApart s (hs.map (·.2)) 4 0x1000FF) = true ∧
      nextIs (exec (.sfst 95 5 4) s) (fun _ => true) = true) ∧
    (∀ f ∈ atomForms, Admits (f.1 4 10 5 15) (at_ memG) memG ∧ Calm (f.1 4 10 5 15) memG ∧
      okIs (laneHits (at_ memG) memG .atomic 4 (laneAddr (at_ memG) memG 10 5)) (fun hs =>
        hitsApart (at_ memG) (hs.map (·.2)) 4 0x1000FF) = true ∧
      nextIs (exec (f.1 4 10 5 15) (at_ memG)) (fun _ => true) = true) ∧
    (Admits (.czero 15 10 5) (at_ rangeG) rangeG ∧ Calm (.czero 15 10 5) rangeG ∧ dirtyOn (at_ rangeG) 0 = [] ∧
      okIs (rangeHits (at_ rangeG) (agentOf (at_ rangeG) rangeG none) .czero (rangePages 0x10100 128)) (fun hs =>
        (hs.all fun e => (partPlaces e.1 e.2).all fun p => (List.range 128).all fun i =>
          apartB (at_ rangeG) (homeOf (at_ rangeG) (p + i)) 0x1000FF) && hitsApart (at_ rangeG) (hs.map (·.1)) 0 0x1000FF) =
        true ∧
      nextIs (exec (.czero 15 10 5) (at_ rangeG)) (fun _ => true) = true) := by
  simp only [admits_iff, calm_iff]; decide +kernel

theorem test_wit_MemoryFrame_loads :
    (Admits (.vldc 95 10 0 0 false) (at_ memG) memG ∧ Calm (.vldc 95 10 0 0 false) memG ∧
      okIs (lineHits (at_ memG) memG .load 0x10100) (fun hs => marksApart (at_ memG) (hs.map (·.2)) 0x100100 &&
        !loadWaits (at_ memG) memG 0 false (loadPlaces (gatherOf (at_ memG) memG 95 0 false 4 false false hs))) = true ∧
      nextIs (exec (.vldc 95 10 0 0 false) (at_ memG)) (fun _ => true) = true) ∧
    (∀ f ∈ scaLoadForms, Admits (f.1 62 10 0 0 false) (at_ memG) memG ∧ Calm (f.1 62 10 0 0 false) memG ∧
      okIs (checkedHit (at_ memG) (agentOf (at_ memG) memG none) .load 0x10100 f.2) (fun h =>
        marksApart (at_ memG) [h] 0x100100 &&
        !loadWaits (at_ memG) memG 0 false (loadPlaces (scalarLoadOf (at_ memG) memG 62 0 false f.2 h))) = true ∧
      nextIs (exec (f.1 62 10 0 0 false) (at_ memG)) (fun _ => true) = true) ∧
    (let s := { at_ memG with late := true }
     s.late = true ∧ s.group? 1 = some memG ∧ (markHits s []).group? 1 = some memG) := by
  simp only [admits_iff, calm_iff]; decide +kernel

theorem test_wit_OrderResult_faults :
    (∀ f ∈ rangeForms,
      (let g := gs g0 [(10, 0), (11, 0xFFFFFD00), (5, 128)]
       Admits (f.1 15 10 5) (at_ g) g ∧ srcS s0 g 5 ≠ 0 ∧
        rangeOut g.priv (srcSP s0 g 10).toNat (srcS s0 g 5).toNat = some 0xFFFFFD0000000000) ∧
      (let g := gs g0 [(10, 0x20000), (5, 128)]
       Admits (f.1 15 10 5) (at_ g) g ∧ srcS s0 g 5 ≠ 0 ∧
        rangeOut g.priv (srcSP s0 g 10).toNat (srcS s0 g 5).toNat = none ∧ (srcSP s0 g 10).toNat % 128 = 0 ∧
        okIs (rangeHits (at_ g) (agentOf (at_ g) g none) (if f.2 = .zero then .czero else .flush)
          (rangePages (srcSP s0 g 10).toNat (srcS s0 g 5).toNat)) (fun _ => true) = false)) ∧
    (let g := gs g0 [(10, 0x10140), (5, 128)]
     Admits (.czero 15 10 5) (at_ g) g ∧ srcS s0 g 5 ≠ 0 ∧ rangeOut g.priv (srcSP s0 g 10).toNat (srcS s0 g 5).toNat = none ∧
      (srcSP s0 g 10).toNat % 128 ≠ 0) ∧
    (let g := gs g0 [(10, 0x10100), (5, 64)]
     Admits (.czero 15 10 5) (at_ g) g ∧ srcS s0 g 5 ≠ 0 ∧ rangeOut g.priv (srcSP s0 g 10).toNat (srcS s0 g 5).toNat = none ∧
      (srcS s0 g 5).toNat % 128 ≠ 0) := by simp only [admits_iff]; decide +kernel

/-- The launch of group 1 pre-empting. -/
def dueState (s : State) : State := s.updLaunch 1 fun l => { l with phase := .preempting, preempt := some aRun }

theorem test_wit_BufferResult_faults :
    (let g := gs g0 [(5, 0x40)]
     Admits (.cbget 63 5) (at_ g) g ∧ Admits (.cbput 5) (at_ g) g ∧ cbIdOk g (srcS s0 g 5) = false) ∧
    (Admits (.cbget 63 5) (at_ cbG) cbG ∧ fieldNat (srcS s0 cbG 5) 0 6 ≠ 63 ∧
      (get CbDesc.reset ((at_ cbG).clusterAt 0).cbs 62).en = false) ∧
    (let s := (at_ shaftG).setCore (partnerOf 0) { Core.reset with oos := true }
     Admits (.cbget 63 5) s shaftG ∧ (s.coreAt (partnerOf 0)).oos = true ∧ bit (srcS s0 shaftG 5) 7 = true) ∧
    (let s := (at_ shaftG).setCore (partnerOf 0) { Core.reset with inbound := ⟨0, 4, 0, 0, []⟩ }
     Admits (.cbget 63 5) s shaftG ∧ (s.coreAt (fifoOf 0 true)).oos = false ∧
      shaftCount (s.coreAt (fifoOf 0 true)).inbound true = 0) ∧
    (Admits (.cbput 5) (at_ cbG) cbG ∧
      (cbG.held.find? fun h => h.desc == fieldNat (srcS s0 cbG 5) 0 6 && h.prod == bit (srcS s0 cbG 5) 7) = none) ∧
    (let g := { cbG with held := [⟨62, true, 3⟩], loads := [aLoad] }
     Admits (.cbput 5) (cbState 0 3 g) g ∧ cbIdOk g (srcS s0 g 5) = true ∧ quiet g = false ∧
      (g.held.find? fun h => h.desc == fieldNat (srcS s0 g 5) 0 6 && h.prod == bit (srcS s0 g 5) 7) ≠ none) ∧
    isMigrant migG = true := by simp only [admits_iff]; decide +kernel

/-- Slot 7 bound to a misaligned handler, and pending. -/
def oddHandlerG : Group :=
  gs { g0 with ev := { g0.ev with slots := set [] 7 ⟨0x3F1, 0x10022⟩, pend := 0x80 } } [(5, 0x80)]

theorem test_wit_EventResult_faults :
    (let g := gs g0 [(5, 9)]
     Admits (.evbind 7 5 10) (at_ g) g ∧ descriptorBad (at_ g) g (srcS s0 g 5) = true) ∧
    (Admits (.evbind 7 5 10) (at_ migG) migG ∧ isMigrant migG = true) ∧
    (Admits (.waitany 5) (at_ oddHandlerG) oddHandlerG ∧ isMigrant oddHandlerG = false ∧
      takeable (refreshLevels (at_ oddHandlerG) oddHandlerG) 0x80 ≠ 0 ∧
      lowestSlot (takeable (refreshLevels (at_ oddHandlerG) oddHandlerG) 0x80) = 7 ∧
      preemptDue (at_ oddHandlerG) 1 (refreshLevels (at_ oddHandlerG) oddHandlerG) = false ∧
      handlerOf (refreshLevels (at_ oddHandlerG) oddHandlerG) 7 &&& 3 ≠ 0) ∧
    (preemptDue (dueState (at_ (evG 0x80 0x80))) 1 (refreshLevels s0 (evG 0x80 0x80)) = true ∧
      Admits (.waitany 5) (dueState (at_ (evG 0x80 0x80))) (evG 0x80 0x80)) ∧
    (Admits (.waitany 5) (at_ migG) migG ∧
      (Admits (.waitany 5) (at_ (evG 0x180 0)) (evG 0x180 0) ∧ fieldNat (srcS s0 (evG 0x180 0) 5) 8 24 ≠ 0) ∧
      (Admits (.waitany 5) s0 g0 ∧ (srcS s0 g0 5).setWidth 8 = 0#8) ∧
      (Admits (.waitany 5) (at_ (evG 0x81 0)) (evG 0x81 0) ∧
        (srcS s0 (evG 0x81 0) 5).setWidth 8 &&& ~~~(evbound (evG 0x81 0).ev) ≠ 0)) := by
  simp only [admits_iff]; decide +kernel

theorem test_wit_EventResult_bar :
    (Admits (.bar 5) (at_ migG) migG ∧
      (let g := gs g0 [(5, 0x200)]
       Admits (.bar 5) (at_ g) g ∧ fieldNat (srcS s0 g 5) 9 23 ≠ 0) ∧
      (let g := gs g0 [(5, 0x40)]
       Admits (.bar 5) (at_ g) g ∧ fieldNat (srcS s0 g 5) 6 2 ≠ 0)) ∧
    (let g := gs g0 [(5, 0x13F)]
     Admits (.bar 5) (dueState (at_ g)) g ∧ bit (srcS s0 g 5) 8 = true ∧
      (preemptDue (dueState (at_ g)) 1 g && !fpFirst g (.bar 5)) = true) ∧
    (let g := gs g0 [(5, 0x3F)]
     Admits (.bar 5) (dueState (at_ g)) g ∧ bit (srcS s0 g 5) 8 = false ∧
      (preemptDue (dueState (at_ g)) 1 g && !fpFirst g (.bar 5)) = true) := by
  simp only [admits_iff]; decide +kernel

theorem test_wit_WorkResult_faults :
    (let g := gs g0 [(5, 8)]
     Admits (.fetchw 5) (at_ g) g ∧ (srcS s0 g 5).toNat % 16 ≠ 0) ∧
    (let g := gs g0 [(5, 2097152)]
     Admits (.fetchw 5) (at_ g) g ∧ (srcS s0 g 5).toNat % 16 = 0 ∧ (at_ g).block? g.block = some placeBlock ∧
      placeBlock.spad < (srcS s0 g 5).toNat + 16) ∧
    (Admits (.fetchw 5) (at_ migG) migG ∧ (srcS s0 migG 5).toNat % 16 = 0 ∧ isMigrant migG = true) ∧
    (let g := gs g0 [(5, 0)]
     Admits (.fetchw 5) (dueState (at_ g)) g ∧ preemptDue (dueState (at_ g)) 1 g = true ∧
      (dueState (at_ g)).block? g.block = some placeBlock ∧ (srcS s0 g 5).toNat + 16 ≤ placeBlock.spad) ∧
    (let g := { gs g0 [(5, 0)] with fetches := [0, 0, 0, 0] }
     Admits (.fetchw 5) (at_ g) g ∧ preemptDue (at_ g) 1 g = false ∧ 4 ≤ g.fetches.length) ∧
    (Admits (.spawn 63 10 12) (at_ oddG) oddG ∧ srcSP s0 oddG 10 &&& 3 ≠ 0) ∧
    (let g := { memG with loads := [aLoad] }
     Admits (.spawn 63 10 12) (at_ g) g ∧ srcSP s0 g 10 &&& 3 = 0 ∧ quiet g = false) := by
  simp only [admits_iff]; decide +kernel

/-- v10 of every lane holds an address that is not mapped. -/
def lostLanes : Group := g0.setLanes 10 (List.range 32) fun _ => 0x20000

/-- Lane 31 is away, and its entry is of a kind, carrying registers. -/
def entryG (kind : Nat) (carry : BitVec 16) : Group :=
  { awayG with vregs := 16, cont := { g0.cont with rets := set [] 31 ⟨kind, carry, [], [], []⟩ }, wb := 8 }

theorem test_wit_ContinuationResult_faults :
    (Admits (.owner 95 10 false) (at_ lostLanes) lostLanes ∧ Admits (.hop 10) (at_ lostLanes) lostLanes ∧
      okIs (laneOwners (at_ lostLanes) lostLanes 10) (fun _ => true) = false) ∧
    (let g := { g0 with cont := { g0.cont with hopcfg := 0x8000 }, vregs := 16, wb := 1 }
     Admits (.hopx 3) (at_ g) g ∧ g.cont.hopcfg.getLsbD 15 = true ∧ g.vregs ≤ g.wb + 15) ∧
    (let s := { at_ farG with conts := List.replicate 64 aCont }
     Admits (.hopx 3) s farG ∧ (∀ i < 16, farG.cont.hopcfg.getLsbD i = true → farG.wb + i < farG.vregs) ∧
      (let out := leaving s farG (farG.activeLanes.map fun j => (j, srcV farG 3 j))
       out ≠ [] ∧ isMigrant farG = false ∧ 64 < (outbound s farG.core).length + (queuedLanes s farG out).length)) ∧
    (Admits .hopback (at_ busyMig) busyMig ∧ isMigrant busyMig = true ∧ quiet busyMig = false) ∧
    (let g := entryG 1 0x100
     Admits .rejoin (at_ g) g ∧ isMigrant g = false ∧ g.away ≠ 0 ∧ allReturned g = true ∧ rejoinWindow g = true) ∧
    (∀ k ∈ [4, 5], let g := entryG k 0
     Admits .rejoin (at_ g) g ∧ isMigrant g = false ∧ g.away ≠ 0 ∧ allReturned g = true ∧ rejoinWindow g = false ∧
      ((applyEntries g).2 = some (if k = 4 then .migref else .migttl, 0x80000000))) := by
  simp only [admits_iff]; decide +kernel

theorem test_wit_EngineResult_faults : (∀ f ∈ bankForms,
      (Admits (f.1 63 10 15) (at_ oddG) oddG ∧ (srcSP s0 oddG 10).toNat % f.2.1 ≠ 0) ∧
      (Admits (f.1 63 10 15) (at_ lostG) lostG ∧ (srcSP s0 lostG 10).toNat % f.2.1 = 0 ∧
        okIs (recordPart (at_ lostG) 1 lostG 15 (srcSP s0 lostG 10) f.2.1) (fun _ => true) = false) ∧
      (let s := poison (at_ memG) [0x100100]
       Admits (f.1 63 10 15) s memG ∧ okIs (recordPart s 1 memG 15 (srcSP s memG 10) f.2.1) (fun r => r.bad) = true)) ∧
    (let s := recState 32 (4 + 2 ^ 34 + 2 ^ 50 + 0x10000 * 2 ^ 128)
     ∃ f ∈ bankForms, Admits (f.1 63 10 15) s memG ∧ okIs (recordPart s 1 memG 15 (srcSP s memG 10) f.2.1) (fun r =>
       !r.bad && handleAway s memG.ctx (f.2.2 r.bytes).handle) = true) := by simp only [admits_iff]; decide +kernel

/-- A group with one window register less than vD, and s5 naming a surface. -/
def edgeG (wb : Nat) (v : Word) : Group := gs { g0 with vregs := 16, wb := wb } [(5, v)]

theorem test_wit_PixelResult_faults :
    (let g := gs g0 [(5, 9)]
     let s := withSurf (at_ g)
     surfaceArg s g (srcS s g 5) = none ∧ Admits (.tsmp 92 94 5) s g ∧ Admits (.sfld 95 5 4) s g ∧ Admits (.sfst 95 5 4) s g) ∧
    (let g := gs g0 [(5, 0x1001)]
     let s := withSurf (at_ g)
     surfaceArg s g (srcS s g 5) = some (surf 0 0) ∧ sampleOk (surf 0 0) (srcS s g 5) = false ∧ Admits (.sfld 95 5 4) s g) ∧
    (let g := edgeG 8 1
     let s := withSurf (at_ g)
     surfaceArg s g (srcS s g 5) = some (surf 0 0) ∧ sampleOk (surf 0 0) (srcS s g 5) = true ∧
      pixelRegs g (surf 0 0) 8 = some .window ∧ pixelRegs g (surf 0 0) 7 = none ∧ Admits (.sfld 8 5 4) s g ∧
      Admits (.sfst 8 5 4) s g ∧ pixelBytes (surf 0 0).fmt ≠ 8) ∧
    (Admits (.vtxout 0 10 80) (at_ migG) migG ∧ isMigrant migG = true) ∧
    (let g := gs memG [(5, 0)]
     let s := (drawState g).updLaunch 1 fun l => { l with draw := some { aDraw with ddAddr := 0 } }
     Admits (.vtxout 0 10 80) s g ∧ bindDraw s g (srcSP s g 10) = none) ∧
    (pixelCtx s0 g0 = none ∧ Admits (.zt 7) s0 g0 ∧ Admits (.pxout 92 5) s0 g0 ∧ Admits (.vinterp 95 5 false) s0 g0) ∧
    (31 < 32 ∧ (0x80000000 : Word).getLsbD 31 = true) := by simp only [admits_iff]; decide +kernel

/-- A WAITMEM whose condition word is not mapped, held since 0 for a TMO of 9 at a time. -/
def lostWait (now : Nat) : State :=
  (queueState (rec 8 1 0 0 0x20000 0 0 9) { Queue.reset with heldSince := some 0 }).setDie 0
    { Die.reset with ntime := BitVec.ofNat 64 now }

theorem test_wit_QueueFlow_lost : (∀ n ∈ [8999, 9000], headIs (lostWait n) (fun s c => c.op == 8 &&
      !reservedBad c { Uses.cond with tmo := true, addr1 := true } && (condWord s c).isNone &&
      tmoPassed s 63 c == (n == 9000) && decide (c.tmo * 1000 ≤ since s.primaryTime 0) == (n == 9000)) = true) := by
  decide +kernel

theorem test_wit_RegisterSteps_recovery : { s0 with recovery := true }.recovery = true ∧ (1 : Nat) ≠ 0 ∧
    pitOffset 0x40 = false := by decide

/-- Core 0 gated for a CPGATE, in a slot. -/
theorem test_wit_PowerSteps_gated :
    let s := (slotState (some 0) 20000 g0).setCore 0 { Core.reset with gateReq := some ⟨0, 0, true⟩, gateStat := 3 }
    (s.dieAt 0).assay = some ⟨0, 0, some 0⟩ ∧ 20000 ≤ since (s.ntime 0) 0 ∧ (s.coreAt 0).gateReq.isSome = true ∧
      (s.coreAt 0).gateStat = 3 := by decide +kernel

/-- The group parked in rejoin with the entry of lane 31. -/
def applyG (kind : Nat) (carry : BitVec 16) : Group := { entryG kind carry with status := .parked .rejoin }

theorem test_wit_NetworkSteps_refused :
    (let c := { aCont with core := 576 }
     let s := { s0 with conts := [c] }
     s.conts[0]? = some c ∧ heldBack s.conts 0 c = false ∧ c.pkg = s.pkgid ∧ 575 < c.core) ∧
    (((poolState (aPool 1 false) 0).coreAt 575).pools[0]? = some (aPool 1 false) ∧ (aPool 1 false).recs.length ≠ 32) ∧
    (let s := poolState (aPool 32 false) 0
     nextPool (refreshDue (s.coreAt 575)).pools = some 0 ∧
      ((List.range Config.landingSlots).find? (landingSlotFree s 575)).isSome = true ∧
      ((refreshDue (s.coreAt 575)).pools[0]?).isSome = true ∧ landingHeld s 575 = false) ∧
    (let g := applyG 1 0x100
     (at_ g).group? 1 = some g ∧ g.status = .parked .rejoin ∧ allReturned g = true ∧ preemptDue (at_ g) 1 g = false ∧
      rejoinWindow g = true) ∧
    (∀ k ∈ [4, 5], let g := applyG k 0
     g.status = .parked .rejoin ∧ allReturned g = true ∧ preemptDue (at_ g) 1 g = false ∧ rejoinWindow g = false ∧
      (applyEntries g).2.isSome = true) ∧
    (let g := { awayG with status := .parked .exit }
     (at_ g).group? 1 = some g ∧ g.status = .parked .exit ∧ g.killed = false ∧ allReturned g = false) := by decide +kernel

theorem test_wit_GroupSteps_more :
    (let g := { oddHandlerG with status := .parked (.waitany 0x80) }
     (at_ g).group? 1 = some g ∧ takeable (refreshLevels (at_ g) g) 0x80 ≠ 0 ∧
      preemptDue (at_ g) 1 (refreshLevels (at_ g) g) = false ∧
      handlerOf (refreshLevels (at_ g) g) (lowestSlot (takeable (refreshLevels (at_ g) g) 0x80)) &&& 3 ≠ 0) ∧
    (let g := { g0 with status := .halted none }
     let s := (at_ g).setCluster 0 { Cluster.reset with
       bars := set [] 63 { Barrier.idle with isOpen := true, expected := [1] } }
     (get Barrier.idle (s.clusterAt 0).bars 63).isOpen = true ∧ barDbgBlk s (get Barrier.idle (s.clusterAt 0).bars 63) = true) ∧
    (s0.group? 1 = some g0 ∧ g0.status = .ready) ∧
    (let p : LoadPart := ⟨some 31, 95, [0x100200, 0x100201, 0x100202, 0x100203], none, none, false, some ⟨.iadd, 1, 0, []⟩, none⟩
     let l : PendLoad := { aLoad with parts := [p] }
     let g := { g0 with loads := [l, l] }
     (at_ g).group? 1 = some g ∧ g.loads[1]? = some l ∧
      (isAtomic l && (g.loads.take 1).any fun e => isAtomic e && sameBytes (at_ g) (loadPlaces e) (loadPlaces l)) = true) := by
  decide +kernel

theorem test_wit_LaunchSteps_more :
    (let s := { dueState s0 with groups := [] }
     someIs (s.launch? 1) (fun l => launchDone s 1 l && l.preempt == some aRun) = true) ∧
    (∀ p ∈ [Park.hop, .room], let g := { g0 with status := .parked p }
     (preempting g).group? 1 = some g ∧ preemptDue (preempting g) 1 g = true) := by decide +kernel

theorem test_wit_EngineSteps_bank :
    (let k : OpKind := .ivsld (bytesOfNat 16 (bankRecords.getD 0 0))
     let o := { anOp k with channels := [126, 127] }
     let s := (opState k).setOp 9 o
     s.op? 9 = some o ∧ bankBehind s 9 o = false ∧
      someIs (bankDo o s) (fun r => match r with | .goes .. => true | .ends _ => false) = true) ∧
    (let k : OpKind := .ivsld (bytesOfNat 16 (bankRecords.getD 0 0))
     let s := (opState k).setOp 8 (anOp k)
     s.op? 9 = some (anOp k) ∧ bankBehind s 9 (anOp k) = true) := by decide +kernel

/-! ### Witnesses: restarted chains, scans and restores -/

/-- A group whose parked chain is over with an exception due, at its last instruction. -/
def dueG : Group := { fpG with chain := { fpG.chain with ended := true, last := 0x10000 } }

/-- A group that stands at the second instruction of a chain, to execute it again. -/
def againG : Group :=
  { g0 with chain := { Chain.none with kept := true, head := 0xFFFC, last := 0x10000, latches := [.none] } }

/-- Core 0 is being scanned. -/
def scanned (g : Group) : State := (at_ g).setCore 0 { Core.reset with scanning := true }

theorem test_wit_StepOfNoInstruction_due : fpDue (at_ dueG) dueG = true ∧ fpDue s0 g0 = false ∧ standsIn againG = true ∧
    atBoundary (at_ againG) againG = false ∧ atBoundary s0 g0 = true ∧
    (scanned g0).group? (scanned g0).cur = some g0 ∧ ((scanned g0).coreAt g0.core).scanning = true := by decide +kernel

/-- R49: the word at position 1 of a kept chain cannot be fetched: the chain restarts. -/
theorem test_fetch_fault_in_chain :
    (let g := { againG with pc := 0x20000, trap := trapG.trap, chain := { againG.chain with ended := true, last := 0x20000 } }
     nextIs (exec .fetch_fault (at_ g)) fun t => someIs (t.group? 1) fun g' =>
       g'.trap.inchain && g'.trap.tpc == 0xFFFC && g'.trap.taddr == 0x20000) = true := by decide +kernel

/-- R50, R78: a wait that ends a chain with an exception due leaves the loop end to the return. -/
theorem test_unpark_before_loop_end :
    (unpark { dueG with status := .parked (.mwait 1), lstack := [⟨0x10000, 0x10000, 2⟩] }).lstack = [⟨0x10000, 0x10000, 2⟩] ∧
    (unpark { g0 with status := .parked (.mwait 1), lstack := [⟨0x10000, 0x10000, 2⟩] }).lstack = [⟨0x10000, 0x10000, 1⟩] := by
  decide +kernel

theorem test_wit_TrapInstrResult_vf :
    let s := s0.setDie 0 { Die.reset with vfs := [⟨1, 350, 0⟩] }
    Admits (.ppt 524287) s g0 ∧ isMigrant g0 = false ∧ preemptDue s 1 g0 = false ∧ vfHolds s g0 = true := by
  simp only [admits_iff]; decide +kernel

/-! ### Witnesses: atomics, events, work, matrices -/

def anAtom : LoadPart :=
  ⟨some 31, 95, [0x100200, 0x100201, 0x100202, 0x100203], none, none, false, some ⟨.fadd, 0x3F800000, 0, []⟩, none⟩

theorem test_wit_AtomicResult_words :
    (∀ x ∈ anAtom.places, isBad s0 (homeOf s0 x) = false) ∧ isBad (poison s0 [0x100203]) 0x100203 = true ∧
    (s0.group? 1 = some g0 ∧ isMigrant g0 = false) ∧
    (let locs := [0x100200, 0x100201, 0x100202, 0x100203]
     locs.length = 4 ∧ locs.Nodup ∧ (∀ a ∈ locs, ∀ b ∈ locs, mirrorOf s0 a ≠ some b ∧ a < 2 ^ 90)) ∧
    isAtomic { aLoad with parts := [anAtom] } = true := by decide +kernel

/-- R160, R165: 1.0 is added to 1.0 at a word whose bytes lie apart; one uncorrectable byte kills the lane. -/
theorem test_fadd_apart :
    (let s := writeCells s0 [(0x100302, 0x80), (0x100403, 0x3F)]
     let r := atomAt (outside s) s .fadd [0x100200, 0x100301, 0x100302, 0x100403] 0x3F800000 0
     r.2.1 == 0x3F800000 && readByte r.1 0x100403 == 0x40 && readByte r.1 0x100302 == 0) = true ∧
    (let s := (poison s0 [0x100203])
     someIs ((returnLoad s 1 { aLoad with parts := [anAtom] }).group? 1) fun g =>
       g.lmask == 0x7FFFFFFF && g.dbg.ucelanes == 0x80000000) = true := by decide +kernel

/-- Slot 7 is bound to the mailbox at byte 4 of the slice. -/
theorem test_wit_EventResult_mailbox :
    (let g := gs g0 [(5, 0x13)]
     Admits (.evbind 7 5 10) (at_ g) g ∧ descriptorBad (at_ g) g (srcS s0 g 5) = false ∧
      boundMailbox (at_ g) g (srcS s0 g 5) = false ∧ (at_ g).block? g.block = some placeBlock ∧
      boundMailbox (storeNat (at_ g) (spadLoc 0 (placeBlock.spadBase + 4)) 4 1) g (srcS s0 g 5) = true) ∧
    (let s := s0.setGroup 2 { g0 with lmask := 0, status := .parked .exit }
     2 ∈ deadIn s 1 ∧ 2 ∈ expectedOf s 1 ∧ 1 ∉ deadIn s 1) ∧
    (let s := s0.setGroup 2 { g0 with killed := true }
     2 ∉ expectedOf s 1) := by simp only [admits_iff]; decide +kernel

/-- A store of the group to byte 15 of its mailbox at offset 0 is outstanding. -/
def busyMailG : Group := { gs g0 [(5, 0)] with wbuf := [{ aStore with bytes := [(spadLoc 0 15, 2)] }] }

theorem test_wit_WorkResult_mailbox : Admits (.fetchw 5) (at_ busyMailG) busyMailG ∧
    placeBlock.cluster = 0 ∧ placeBlock.spadBase = 0 ∧
    mailboxBusy busyMailG (spadLoc 0 0) = true ∧ mailboxBusy busyMailG (spadLoc 0 16) = false ∧
    mailboxBusy g0 (spadLoc 0 0) = false := by simp only [admits_iff]; decide +kernel

/-- An uncorrectable element of v95 in lane 31. -/
def badColumnG : Group := { gs g0 [(5, 120)] with badV := [elemOf 95 31] }

theorem test_wit_MatrixResult_bad : Admits (.mwr 15 64 5) (at_ badColumnG) badColumnG ∧
    badLanes badColumnG 64 32 = 0x80000000 ∧
    someIs ((uceLanes (at_ badColumnG) 1 0x80000000 badColumnG.pc).group? 1) (fun _ => true) = true ∧
    ([(tileIdx 15 127 127, (7 : Word))].map (·.1)).Nodup ∧ (tileIdx 15 127 127, (7 : Word)) ∈ [(tileIdx 15 127 127, 7)] := by
  simp only [admits_iff]; decide +kernel

/-! ### Witnesses: registers, scans and restores -/

theorem test_wit_RegisterSteps_targets : (s0.group? 1 = some g0 ∧ (s0.coreAt g0.core).scanning = false) ∧
    (575 < 576 ∧ coreRegister 0x58 = true ∧ coreRegister 0x60 = false) := by decide +kernel

/-- R243: the debugger writes a breakpoint of a core that runs nothing, and DBGST of a group that is not the one that
executes. -/
theorem test_debug_writes :
    (nextIs (exec (.register_write (.core 575 0x50) 0x10020) s0) fun t => (t.coreAt 575).bpa0 == 0x10020) = true ∧
    (nextIs (exec (.register_write (.group 2 0x59) 1) (s0.setGroup 2 { g0 with slot := 1 })) fun t =>
      someIs (t.group? 2) (fun g => g.dbg.step) && someIs (t.group? 1) fun g => !g.dbg.step) = true := by decide +kernel

theorem test_wit_PowerSteps_fail :
    (let s := slotState (some 0) 20000 g0
     (s.dieAt 0).assay = some ⟨0, 0, some 0⟩ ∧ 20000 ≤ since (s.ntime 0) 0 ∧ (1, g0) ∈ residentOn s 0 ∧
      (nextIs (exec (.assay_scan_end 0 false) s) fun t => (t.coreAt 0).oos && someIs (t.group? 1) (fun g => g.lmask == 0)) = true) ∧
    (let s := s0.setDomain 7 { s0.domainAt 7 with steps := 16 }
     7 < 8 ∧ 16 ≤ (s.domainAt 7).steps ∧
      (nextIs (exec (.canary_warning 7) s) fun t => t.tallowOf (dieOfDomain 7) == 0) = true) := by decide +kernel

theorem test_wit_GroupSteps_scan :
    (let g := { g0 with mx := { g0.mx with closed := [aBatch] } }
     (scanned g).group? 1 = some g ∧ ((scanned g).coreAt g.core).scanning = true ∧ ((at_ g).coreAt g.core).scanning = false) ∧
    (let s := s0.setCore 0 { Core.reset with bpEn := 8, bpa3 := 0x10000 }
     breakpointDue s g0 = true ∧ atBoundary s g0 = true) ∧
    (let g := { g0 with status := .parked .exit }
     (scanned g).group? 1 = some g ∧ mayRetire g = true ∧ ((scanned g).coreAt g.core).scanning = true) := by
  decide +kernel

/-- Block 1 saved with group 1, as it was saved; the launch has it to place. -/
def savedState (p : Option Park) (h : Bool) : State :=
  ((at_ { g0 with status := .saved p h, trap := { g0.trap with tnext := 0x10020 } }).setBlock 1
    { placeBlock with saved := true }).updLaunch 1 fun l => { l with savedBlocks := [1] }

theorem test_wit_LaunchSteps_restore :
    (let s := savedState none false
     someIs (serveBid 0 (bidsOf s 0)) (fun b => b.lid == 1 && b.cl.isSome &&
       match nextPlace s b.l with | some (.restore 1 _) => true | _ => false) = true ∧
     (freeSlice s 143 placeBlock.spad).isSome = true ∧ s.block? 1 = some { placeBlock with saved := true } ∧
     someIs (s.launch? 1) (fun l => l.phase == .running && l.savedBlocks == [1]) = true) ∧
    (∀ e ∈ [(none, true, Status.halted none), (none, false, .ready), (some (.bar 63), false, .parked (.bar 63)),
        (some (.waitany 0x80), false, .ready)],
      someIs ((resumeGroup (savedState e.1 e.2.1) 1).group? 1) (fun g => g.status == e.2.2 && g.pc == 0x10000) = true) ∧
    someIs ((resumeGroup (savedState (some (.save (some 0))) false) 1).group? 1) (fun g => g.pc == 0x10020) = true := by
  decide +kernel

/-! ### Orders (R172, R184, R185), buffers (R309, R324) and combines (R317) -/

/-- R172, R177: what a release follows goes with the next store of its stream, not with its loads. -/
theorem test_release_carries :
    (let s := { s0 with writes := 5 }
     let g := wroteIn s [(.all, 4)] 3 (audOf 1 g0.core (streamScope g0 3)) g0
     (viewAt g 3).wrote == [(.all, 4)] && (viewAt g 3).seen == [] &&
       carriesOf 1 g 3 false == restrict (audOf 1 g.core (streamScope g 3)) (viewAt g 3).wrote) = true := by decide +kernel

/-- R309: a disable reaches a copy that waits for a slot of the descriptor. -/
theorem test_copy_buffer_gone :
    (let s := (cbState 0 4 memG).setOp 9 (anOp (.copy (copyBytes 1)))
     someIs ((cbDisable s 0 62).op? 9) (·.bufferGone) && !someIs ((cbDisable s 0 61).op? 9) (·.bufferGone)) = true := by
  decide +kernel

/-- R317: a PODID used again means the launch that runs. -/
theorem test_combine_launch :
    (let l := fun p => { placeLaunch with phase := p, hdr := { placeHeader with podid := 7 } }
     someIs (combineOp { s0 with launches := [(1, l .complete), (2, l .running)] } 7) (·.launch == 2)) = true := by
  decide +kernel

/-! ### Witnesses: numbers, uncorrectable operands, joins -/

/-- Numbers of f32: 1, -1 and the two zeros. -/
theorem number_values : numberOf f32 0x3F800000 = 1 ∧ numberOf f32 0xBF800000 = -1 ∧ numberOf f32 0 = 0 ∧
    numberOf f32 0x80000000 = 0 := by
  refine ⟨?_, ?_, ?_, ?_⟩ <;> norm_num [numberOf, valueOf, unpack, f32, Fmt.signW, Fmt.emin]

theorem test_wit_FloatValues :
    (∀ w ∈ [0, 0x80000000, 0x3F800000, 0xBF800000], IsNumber f32 w) ∧ (∀ w ∈ [0x3C00, 0x8000], IsNumber f16 w) ∧
    (0 : ℝ) < numberOf f32 0x3F800000 ∧ (numberOf f32 0xBF800000 : ℝ) < 0 ∧ (numberOf f32 0 : ℝ) = 0 ∧
    (numberOf f32 0x3F800000 : ℝ) + numberOf f32 0xBF800000 = 0 ∧
    (unpack f32 0x3F800000).neg ≠ (unpack f32 0xBF800000).neg := by
  refine ⟨?_, ?_, ?_, ?_, ?_, ?_, by decide⟩
  · simp only [List.mem_cons, List.not_mem_nil, or_false, forall_eq_or_imp, forall_eq]
    exact ⟨⟨by decide, _, _, _, rfl⟩, ⟨by decide, _, _, _, rfl⟩, ⟨by decide, _, _, _, rfl⟩, ⟨by decide, _, _, _, rfl⟩⟩
  · simp only [List.mem_cons, List.not_mem_nil, or_false, forall_eq_or_imp, forall_eq]
    exact ⟨⟨by decide, _, _, _, rfl⟩, ⟨by decide, _, _, _, rfl⟩⟩
  all_goals norm_num [number_values]

theorem test_wit_FloatResult_nans : signalling f32 0x7FA00000 = true ∧ signalling f32 0x3F800000 = false ∧
    (unpack f32 0x7FA00000).isNan = true ∧ (unpack f32 0x3F800000).isNan = false ∧ unpack f32 0xFF800000 = .inf true ∧
    (∀ w ∈ [0x3F800000, 0, 0xFFFFFFFF], w < 2 ^ f32.bits) ∧
    (∃ m e, unpack f32 0x80000000 = .fin true m e) ∧ valueOf (unpack f32 0x80000000) = 0 := by
  refine ⟨by decide, by decide, by decide, by decide, by decide, by decide, ⟨_, _, rfl⟩, number_values.2.2.2⟩

theorem test_wit_ConvertResult_floats : (∀ e ∈ [(0, f32), (1, f16), (2, bf16), (3, f64)], cvtType e.1 = .flt e.2) ∧
    cvtType 4 = .flt e4m3 ∧ cvtType 5 = .flt e5m2 ∧ cvtType 6 = .int true 32 ∧ (∃ n, n ≤ 14 ∧ cvtType n = .flt mx4) := by
  decide

/-- s3 and element 31 of v95 are uncorrectable. -/
def badSG : Group := { g0 with badS := [3] }
def badVG : Group := { g0 with badV := [elemOf 95 31] }

/-- `Consumes` and `Reads`, decided. -/
def nearlyAdmitsB (i : Instr) (s : State) (g : Group) : Bool :=
  decide (s.group? s.cur = some g) && decide (g.status = .ready) && decide ((s.coreAt g.core).scanning = false) &&
  decide (decodeFault s g i = none) && !stalled g i && !readsBadScalar g i

def consumesB (i : Instr) (s : State) (g : Group) (lanes : Word) : Bool :=
  nearlyAdmitsB i s g && decide (unreadBy g i = [] ∧ consuming s g i (oprsOf g.fmt i) = lanes ∧ lanes ≠ 0)

theorem consumes_iff (i : Instr) (s : State) (g : Group) (lanes : Word) :
    Consumes i s g lanes ↔ consumesB i s g lanes = true := by simp [Consumes, consumesB, nearlyAdmitsB, and_assoc]

def readsB (i : Instr) (s : State) (g : Group) (ds : List Nat) : Bool :=
  nearlyAdmitsB i s g && decide (unreadBy g i = ds ∧ ds ≠ [] ∧ consuming s g i (oprsOf g.fmt i) = 0)

theorem reads_iff (i : Instr) (s : State) (g : Group) (ds : List Nat) : Reads i s g ds ↔ readsB i s g ds = true := by
  simp [Reads, readsB, nearlyAdmitsB, and_assoc]

theorem test_wit_UncorrectableOperands :
    ((∀ f ∈ scaForms, decodeFault (at_ badSG) badSG (f.1 5 3 4 false) = none ∧ stalled badSG (f.1 5 3 4 false) = false ∧
        readsBadScalar badSG (f.1 5 3 4 false) = true ∧ readsBadScalar badSG (f.1 5 4 3 false) = true) ∧
      (∀ f ∈ branchForms, decodeFault (at_ badSG) badSG (f.1 3 8) = none ∧ stalled badSG (f.1 3 8) = false) ∧
      (at_ badSG).group? 1 = some badSG ∧ badSG.status = .ready ∧ ((at_ badSG).coreAt 0).scanning = false ∧
      badSG.badS.contains 3 = true ∧ isMigrant badSG = false) ∧
    (∀ f ∈ vecForms ++ vecForms2, Consumes (f.1 95 95 0 false) (at_ badVG) badVG 0x80000000) ∧
    (badVG.chain.badL = [] ∧ isMigrant badVG = false) := by
  simp only [consumes_iff]; decide +kernel

/-- The group has a status in s3 that it has not read, and a write of that copy on its way. -/
def unreadG : Group :=
  { g0 with unread := [3], wbuf := [⟨15, .all, [], [], false, none, .copy 3 false, false, false, [], [(0x100100, 1)]⟩] }

theorem test_wit_EngineResult_joins :
    (∀ f ∈ scaForms, Reads (f.1 5 3 4 false) (at_ unreadG) unreadG [3]) ∧
    someIs ((readState (at_ unreadG) unreadG (.sadd 5 3 4 false)).group? 1) (fun g1 => g1.unread.isEmpty) = true ∧
    (∃ w ∈ unreadG.wbuf, w.maker = .copy 3 false) ∧ unreadBy unreadG (.sadd 5 3 4 false) = [3] := by
  simp only [reads_iff]; decide +kernel

/-! ### Witnesses: faults and waits of engines -/

/-- An aligned address of the scratchpad aperture beyond the slice. -/
def beyondG : Group := gs g0 [(10, 0xFFFFE0), (11, 0xFFFFFF00)]

/-- Every copy engine belongs to the secure world. -/
def noEngine (s : State) : State := { s with secEngines := List.range 64 }

/-- A group with a store of stream 15 to the record on its way. -/
def busyRecG : Group := { memG with wbuf := [⟨15, .all, [], [], false, none, .copy 9 true, false, false, [], [(0x100100, 1)]⟩] }

theorem test_wit_EngineResult_stops :
    (∀ f ∈ [((Instr.cpa : Code → Code → BitVec 4 → Instr), 64), (.cpa_ring, 32), (.cpred, 64)],
      Admits (f.1 63 10 15) (at_ oddG) oddG ∧ (srcSP s0 oddG 10).toNat % f.2 ≠ 0) ∧
    (Admits (.cpa_ring 63 10 15) (at_ memG) memG ∧ (srcSP s0 memG 10).toNat % 32 = 0 ∧
      (srcSP s0 memG 10).toNat < 0xFFFFFF0000000000) ∧
    (Admits (.cpa 63 10 15) (at_ lostG) lostG ∧
      okIs (recordPart (at_ lostG) 1 lostG 15 (srcSP s0 lostG 10) 64) (fun _ => true) = false) ∧
    (Admits (.cpa_ring 63 10 15) (at_ beyondG) beyondG ∧ (srcSP s0 beyondG 10).toNat % 32 = 0 ∧
      0xFFFFFF0000000000 ≤ (srcSP s0 beyondG 10).toNat ∧
      okIs (recordPart (at_ beyondG) 1 beyondG 15 (srcSP s0 beyondG 10) 32) (fun _ => true) = false) ∧
    (Admits (.cpred 63 10 15) (at_ lostG) lostG ∧
      okIs (recordParts (at_ lostG) 1 lostG 15 [(0x20000, 64), (0x20040, 16)]) (fun _ => true) = false) ∧
    (let s := poison (at_ memG) [0x100100]
     Admits (.cpa 63 10 15) s memG ∧ Admits (.cpred 63 10 15) s memG ∧
      okIs (recordPart s 1 memG 15 0x10100 64) (·.bad) = true ∧
      okIs (recordParts s 1 memG 15 [(0x10100, 64), (0x10140, 16)]) (·.bad) = true) ∧
    (let s := poison (at_ ringG) [spadLoc 0 0x10000]
     Admits (.cpa_ring 63 10 15) s ringG ∧ okIs (recordPart s 1 ringG 15 (srcSP s ringG 10) 32) (·.bad) = true) ∧
    (Admits (.cpa 63 10 15) (at_ busyRecG) busyRecG ∧ Admits (.cpred 63 10 15) (at_ busyRecG) busyRecG ∧
      okIs (recordPart (at_ busyRecG) 1 busyRecG 15 0x10100 64) (fun r => !r.bad && recordWaits (at_ busyRecG) busyRecG 15 r) = true ∧
      okIs (recordParts (at_ busyRecG) 1 busyRecG 15 [(0x10100, 64), (0x10140, 16)]) (fun r =>
        !r.bad && recordWaits (at_ busyRecG) busyRecG 15 r) = true) := by
  simp only [admits_iff]; decide +kernel

/-- n operations of a kind queued at the first engine, the only one of the world. -/
def engineQueue (k : OpKind) (n : Nat) (s : State) : State :=
  (List.range n).foldl (fun s i => s.setOp i { opOf s 1 memG k 63 15 with engine := 0 })
    { s with secEngines := (List.range 64).drop 1 }

theorem test_wit_EngineResult_ends :
    (let s := noEngine (recState 64 copyRecord)
     Admits (.cpa 63 10 15) s memG ∧ leastBusy s (enginesOf s 0 false) = none ∧
      okIs (recordPart s 1 memG 15 0x10100 64) (fun r => !r.bad && !recordWaits s memG 15 r) = true) ∧
    (let s := noEngine ringState
     Admits (.cpa_ring 63 10 15) s ringG ∧ leastBusy s (enginesOf s 0 false) = none) ∧
    (let s := noEngine podState
     Admits (.cpred 63 10 15) s memG ∧ leastBusy s (enginesOf s 0 false) = none) ∧
    (let s := recState 64 0
     Admits (.cpa 63 10 15) s memG ∧ leastBusy s (enginesOf s 0 false) = some 0 ∧
      okIs (recordPart s 1 memG 15 0x10100 64) (fun r => !r.bad && !recordWaits s memG 15 r && cdBad r.bytes) = true) ∧
    (let s := engineQueue (.copy []) 64 (recState 64 copyRecord)
     Admits (.cpa 63 10 15) s memG ∧ leastBusy s (enginesOf s 0 false) = some 0 ∧ queuedOn s 0 = 64 ∧
      okIs (recordPart s 1 memG 15 0x10100 64) (fun r => !r.bad && !recordWaits s memG 15 r && !cdBad r.bytes) = true) ∧
    (let s := storeNat ringState (spadLoc 0 0x10000) 32 0
     Admits (.cpa_ring 63 10 15) s ringG ∧ leastBusy s (enginesOf s 0 false) = some 0 ∧
      okIs (recordPart s 1 ringG 15 (srcSP s ringG 10) 32) (fun r => !r.bad && !recordWaits s ringG 15 r &&
        rhBad (sliceOf s (opOf s 1 ringG (.ring (attach (srcSP s ringG 10) r.bytes)) 63 15)).2 r.bytes) = true) ∧
    (let s := engineQueue (.ring (aRing 0 false)) 4 ringState
     Admits (.cpa_ring 63 10 15) s ringG ∧ leastBusy s (enginesOf s 0 false) = some 0 ∧ queuedOn s 0 < 64 ∧ ringsOn s 0 = 4 ∧
      okIs (recordPart s 1 ringG 15 (srcSP s ringG 10) 32) (fun r => !r.bad && !recordWaits s ringG 15 r &&
        !rhBad (sliceOf s (opOf s 1 ringG (.ring (attach (srcSP s ringG 10) r.bytes)) 63 15)).2 r.bytes) = true) := by
  simp only [admits_iff]; decide +kernel

/-! ### Witnesses: what engines do -/

/-- Records of bmac (one group of 32 from row 0, f32 out at 0x10000, onto the old value or not) and embw (an index at 0x10100,
a table of one unit a row at 0x10000; of n rows). -/
def bmBytes (acc : Bool) : List Byte := bytesOfNat 32 (3 + 2 ^ 34 + 2 ^ 50 + (if acc then 2 ^ 61 else 0) + 0x10000 * 2 ^ 128)
def emBytesOf (nrows wgt pool : Nat) : List Byte :=
  bytesOfNat 64 (0x10100 + 2 ^ 64 + 0x10000 * 2 ^ 96 + nrows * 2 ^ 160 + 2 ^ 192 + pool * 2 ^ 200 + wgt * 2 ^ 256 + 0x10200 * 2 ^ 320)

def isOk {ε α : Type} (e : Except ε α) : Bool := okIs e fun _ => true

theorem test_wit_EngineWork_banks :
    (let r := bytesOfNat 16 (bankRecords.getD 0 0)
     let o := anOp (.ivsld r)
     let s := opState o.kind
     isOk (bankHit s o .load 0x10100 64) = true ∧ isOk (bankHit s o .load 0x20000 64) = false ∧
      channelsLeft o = [127] ∧ otherWorld s o 127 = false ∧ otherWorld { s with secChannels := [127] } o 127 = true ∧
      (bankRead o (ivUnits r) (ivSrc r) o.poisoned s).2.2 = none) ∧
    (let r := bmBytes true
     let o := anOp (.bmac r)
     let s := opState o.kind
     bmAcc (bmBytes false) = false ∧ bmAcc r = true ∧ bmObf r = false ∧ rowSecret s o r 0 = false ∧
      rowSecret { s with secRegions := [(surfPa 0 0 / 65536, 1)] } o r 0 = true ∧
      okIs (bmOld o r 0x10000 s) (fun x => x.2.2.isNone) = true ∧ isOk (bankHit s o .store 0x10000 4) = true ∧
      (bmRow s r 0 0).2 = none) ∧
    (let r := emBytesOf 1 0x10180 2
     let o := anOp (.embw r)
     let s := opState o.kind
     okIs (emWord s o (emIdx r) false) (fun x => x.2.1 == 0 && !x.2.2 &&
       okIs (emWeight x.1 o r 0 false) (fun y => !y.2.2 && (rowRead o r (emRowU r) (emTbl r) false y.1).2.2.isNone)) = true ∧
      emNrows r = 1 ∧ emNrows (emBytesOf 0 0 0) = 0 ∧ emPool r = 2 ∧ emPool (emBytesOf 1 0 1) = 1 ∧ emPool (emBytesOf 1 0 0) = 0 ∧
      emObf r = false) := by decide +kernel

theorem test_wit_EngineWork_commands :
    (let r := bmBytes true
     let o := anOp (.bmac r)
     let s := opState o.kind
     otherWorld s o (channelOf (bmStk r) (bmCh r)) = false ∧ s.handle? o.ctx (bmHandle r) = some (surf 0 1) ∧
      isOk (bankHit s o .load 0x10000 4) = true) ∧
    (let r := emBytesOf 1 0x10180 0
     let o := anOp (.embw r)
     let s := opState o.kind
     o.kind = .embw r ∧ emTv r = false ∧ otherWorld s o (channelOf (emStk r) (emCh r)) = false ∧
      okIs (emWalk o r (emNidx r) 0 ⟨0, false, List.replicate (emElems r) ⟨0, 0, false⟩⟩ s) (fun k =>
        (emOutput o r 0 (k.1.accs.map (emFinal r k.1.used)) 0 k.2).2.2.isNone) = true ∧
      isOk (bankHit s o .store (emOut r) 4) = true) := by decide +kernel

theorem test_wit_EngineWork_copies :
    (let o := anOp (.copy (copyBytes 0))
     let s := opState o.kind
     isOk (opHit s o .load 0x10100 1) = true ∧ isOk (opHit s o .store 0x10200 1) = true ∧
      okIs (readElem o 1 (.ok 0x10100) s) (fun x => x.2.2.isNone) = true ∧
      isOk (moveElem o 1 false (.ok 0x10100) (.error 0x10200) s) = true ∧
      isOk (moveElem o 1 false (.ok 0x20000) (.error 0x10200) s) = false ∧ cdFill (copyBytes 0) = false ∧
      cdFill (bytesOfNat 64 (2 ^ 387)) = true ∧ cdCb (copyBytes 0) = false ∧
      (moveRow o 1 (rowSrc (copyBytes 0) 0) (fun x => .error (rowDst (copyBytes 0) 0 x)) 1 0 false s).2.2 = none ∧
      (moveRow o 1 (rowSrc (copyBytes 2) 0) (fun x => .error (rowDst (copyBytes 2) 0 x)) 1 0 false s).2.2.isSome = true ∧
      okIs (opHit s o .store 0x10200 1) (fun h => h.cb.isNone && !s.late && h.place == 0x100200 && homeOf s 0x100200 == 0x100200 &&
        mirrorOf s 0x100200 != some 0x100200) = true ∧ 0x100200 < 2 ^ 60) ∧
    (∀ n ∈ [0, 1], let r := copyBytes 1
     let o := { anOp (.copy r) with block := some 1 }
     let s := (cbState n 4 memG).setOp 9 o
     cdCb r = true ∧ okIs (copySlot s o r) (fun x => x.isSome == (n == 1)) = true ∧
      (sourceRow o (cdSize r) (rowSrc r 0) (cdNx r) 0 false s).2 = none ∧ (n = 1 →
      okIs (copySlot s o r) (fun x => someIs x fun y =>
        (moveRow o (cdSize r) (rowSrc r 0) (fun x => .ok (y.2.1 + x * cdSize r)) (cdNx r) 0 false y.1).2.2.isNone) = true)) ∧
    (let r := copyBytes 1
     let o := { anOp (.copy r) with bufferGone := true }
     cdCb r = true ∧ isOk (copySlot (opState o.kind) o r) = false) ∧
    (let e := bytesOfNat 32 (0x10100 + 0x10200 * 2 ^ 64 + 4 * 2 ^ 128)
     recField e 162 94 = 0 ∧ recField (bytesOfNat 32 (2 ^ 255)) 162 94 ≠ 0) ∧
    (let o := anOp (.cpred tileBytes)
     isGlobal 0x10100 = true ∧ isOk (opHit (opState o.kind) o .load 0x10100 64) = true ∧ 4 ≤ (bytesOfNat 4 1).length) ∧
    (let s := podState
     someIs (combineOp s 1) (fun o => isOk (opHit s o .store 0x10200 4) && isOk (opHit s o .store 0x10204 2)) = true) := by
  decide +kernel

/-! ### Witnesses: fragments, spawn, pages, streams and entries -/

/-- A depth fragment of lane 31 with requests, an earlier target's fragment that waits for its test, and one of another lane. -/
def depthFrag (tests : List DepthReq) : Frag := ⟨1, 1, 0, 1, 31, 2, 7, 7, 0, none, none, false, 5, tests⟩
def waitingFrag : Frag := ⟨1, 1, 0, 1, 31, 1, 7, 7, 0, some 0, some [0x3F800000, 0, 0, 0x3F800000], true, 0, []⟩
def depthState (tests : List DepthReq) : State := { drawing (some 1) some with frags := [depthFrag tests, waitingFrag] }

theorem test_wit_SurfaceSteps_depth :
    (∀ q ∈ [(⟨0, true, true⟩ : DepthReq), ⟨0, true, false⟩, ⟨0, false, true⟩], let s := depthState [q]
     s.frags[0]? = some (depthFrag [q]) ∧ (depthFrag [q]).colour = none ∧ (depthFrag [q]).tests = [q] ∧
      (∀ e ∈ s.frags.take 0, sameSample (depthFrag [q]) e = false) ∧ ((s.launch? 1).bind (·.draw)).isSome = true ∧
      (find s.handles 2).isSome = true) ∧
    (depthPasses 1 9 5 0 ≠ depthPasses 7 9 5 0) ∧
    ((depthState []).frags[0]? = some (depthFrag []) ∧ (depthFrag []).tests = []) ∧
    ((depthState []).frags[1]? = some waitingFrag ∧ waitingFrag.waits = true ∧ waitingFrag.colour ≠ none ∧
      sameLane (depthFrag []) waitingFrag = true) := by decide +kernel

/-- R300: the test passes (ZFUNC 7): the waiting colour of its lane is free, and the depth is written. -/
theorem test_depth_request :
    (nextIs (exec (.fragment_apply 0) (depthState [⟨0, true, true⟩])) fun t =>
      t.frags.any (fun f => f.target == some 0 && !f.waits) && t.frags.all fun f => f.target != none || f.tests.isEmpty) = true := by
  decide +kernel

theorem test_wit_PixelResult_sent :
    (let f := { waitingFrag with colour := none }
     f.gid = 1 ∧ f.lane = 31 ∧ f.target = some 0 ∧ (some 0 : Option Nat) ≠ some 1 ∧ (depthFrag []).target = none) ∧
    (aDraw.zen = true ∧ { aDraw with zen := false }.zen = false ∧ (0x80000000 : Word).getLsbD 31 = true) ∧
    (let g := { gs memG [(5, 0)] with badV := [elemOf 0 31] }
     let s := drawState g
     Admits (.vtxout 0 10 80) s g ∧ someIs (bindDraw s g (srcSP s g 10)) (fun r =>
       badLanes g 0 (triRegs r.2) &&& maskOf ((emitting g r.2 80).map (·.1)) == 0x80000000 &&
       okIs (recordHits r.1 g r.2 ((emitting g r.2 80).filter fun e => e.1 != 31)) (fun hs => hs.length == 31)) = true) := by
  simp only [admits_iff]; decide +kernel

theorem test_wit_WorkResult_spawn :
    (let g := gs memG [(4, 0x10000), (5, 0), (12, 3)]
     Admits (.spawn 63 10 12) (at_ g) g ∧ srcSP (at_ g) g 10 &&& 3 = 0 ∧
      someIs ((quiesce (at_ g) 1).group? 1) (fun g1 => g1.status == .ready &&
        ((quiesce (at_ g) 1).launch? g1.launch == some placeLaunch)) = true) ∧
    spawnCount (at_ migG) 1 migG placeLaunch 3 = 0 ∧ spawnCount s0 1 g0 placeLaunch 3 ≠ 0 := by simp only [admits_iff]; decide +kernel

theorem test_wit_OrderResult_streams :
    (let g : Group := { g0 with fences := [⟨0x8000, 4⟩] }
     g.fences ≠ [] ∧ ∀ f ∈ g.fences, bit f.streams 14 = false) ∧
    (let g := { memG.setM 7 0x80000000 with badV := [elemOf 4 31] }
     Admits (.vpreq 5 10 4) (at_ g) g ∧ pageKills g 5 10 4 = 0x80000000 ∧ requestPages (at_ g) g 0x80000000 10 4 = []) := by
  simp only [admits_iff]; decide +kernel

theorem test_wit_EventResult_own : (∀ w ∈ [aStore], w.known = false ∨ ∀ e ∈ w.bytes, homeOf s0 e.1 ≠ homeOf s0 0x100300) := by
  decide +kernel

theorem test_wit_StoreResult_line :
    okIs (lineHits (at_ memG) memG .store 0x10100) (fun hits => hits.length == 32) = true ∧
    (let g := gs g0 [(10, 0x300), (11, 0xFFFFFF80)]
     okIs (lineHits (at_ g) g .store (srcSP (at_ g) g 10)) (fun _ => true) = false) := by decide +kernel

theorem test_wit_ContinuationResult_entries :
    (∀ k ∈ [1, 3, 4, 5], allReturned (entryG k 1) = true ∧ (entryG k 1).away.getLsbD 31 = true ∧
      (entryG k 1).away.getLsbD 0 = false ∧ find (entryG k 1).cont.rets 31 = some ⟨k, 1, [], [], []⟩) ∧
    (1 : BitVec 16).getLsbD 0 = true := by decide +kernel

theorem test_wit_MatrixResult_rows :
    mtxClass (fmtMa 0) = 1 ∧ mtxClass (fmtMb 0) = 1 ∧ (fieldNat (0x00100808 : Word) 0 8 ≠ 0) ∧
    g0.live 31 = true ∧ s0.block? g0.block = some placeBlock ∧ (withSurf s0).handle? 0 1 = some (surf 0 0) ∧
    ((compsOf (surf 0 0).fmt)[3]?).isSome = true ∧ sumProds [] = .fin ⟨0, 0⟩ ∧
    (let g := { gs g0 [(5, 1)] with mx := { g0.mx with mbopen := 2, mbdone := 1 } }
     Admits (.mwait 5) (at_ g) g ∧ srcS s0 g 5 ≠ 0 ∧ serialGe g.mx.mbdone 1 = true) := by
  simp only [admits_iff]; decide +kernel

theorem test_wit_ReductionResult_trees : vfOf g0.fmt = 0 ∧ (∃ w : Word, vfOf w = 1) ∧ (∃ w : Word, vfOf w = 3) ∧
    ([(0, 1), (31, 2)].map (·.1)).Nodup ∧ [(0, 1), (31, 2)] = [] ++ (0, 1) :: (31, 2) :: [] := by
  refine ⟨by decide, ⟨1, by decide⟩, ⟨3, by decide⟩, by decide, rfl⟩

end Sys2Proof.Tests
end

/-! Partners (R18): every pair of partners is a core of a lower die and the core 144 above it, so the facts about partners
are proved once for that pair and read from either end. -/

namespace Sys2Proof.Machine

/-! ### Going up one die -/

@[simp] theorem dieOfCore_add_die (n : Nat) : dieOfCore (n + 144) = dieOfCore n + 1 := by
  unfold dieOfCore; omega

@[simp] theorem clusterOfCore_add_die (n : Nat) : clusterOfCore (n + 144) = clusterOfCore n + 36 := by
  unfold clusterOfCore; omega

theorem isLowerDie_iff (d : Nat) : isLowerDie d = true ↔ d % 2 = 0 := by simp [isLowerDie]

theorem isLowerDie_succ (d : Nat) : isLowerDie (d + 1) = !isLowerDie d := by
  rw [Bool.eq_not_iff, ne_eq, Bool.eq_iff_iff, isLowerDie_iff, isLowerDie_iff]; omega

theorem stackOfDie_succ_of_lower {d : Nat} (h : isLowerDie d = true) : stackOfDie (d + 1) = stackOfDie d := by
  rw [isLowerDie_iff] at h; unfold stackOfDie; omega

/-! ### The two cores of a pair -/

theorem partnerOf_of_lower {n : Nat} (h : isLowerDie (dieOfCore n) = true) : partnerOf n = n + 144 := by
  simp [partnerOf, h]

theorem partnerOf_add_die_of_lower {n : Nat} (h : isLowerDie (dieOfCore n) = true) : partnerOf (n + 144) = n := by
  simp [partnerOf, isLowerDie_succ, h]

/-- The package has two stacks, so the die above a lower die is in it too. -/
theorem add_die_lt_of_lower {n : Nat} (hn : n < 576) (h : isLowerDie (dieOfCore n) = true) : n + 144 < 576 := by
  rw [isLowerDie_iff] at h; unfold dieOfCore at h; omega

theorem exists_lower_of_upper {n : Nat} (h : isLowerDie (dieOfCore n) = false) :
    ∃ m, n = m + 144 ∧ isLowerDie (dieOfCore m) = true := by
  have hle : 144 ≤ n := by
    rw [← Bool.not_eq_true, isLowerDie_iff] at h; unfold dieOfCore at h; omega
  obtain ⟨m, rfl⟩ := Nat.exists_eq_add_of_le' hle
  exact ⟨m, rfl, by simpa [isLowerDie_succ] using h⟩

/-- Settles O60: a core of a lower die is the lower one of its pair, any other core the upper one. -/
theorem partnerRule : Obligations.PartnerRule := by
  unfold Obligations.PartnerRule
  intro n hn
  cases h : isLowerDie (dieOfCore n) with
  | true =>
    have heven : dieOfCore n % 2 = 0 := (isLowerDie_iff _).mp h
    rw [partnerOf_of_lower h, partnerOf_add_die_of_lower h, dieOfCore_add_die, stackOfDie_succ_of_lower h,
      clusterOfCore_add_die]
    exact ⟨fun _ => rfl, by omega, add_die_lt_of_lower hn h, rfl, by omega, rfl, by omega, by omega⟩
  | false =>
    obtain ⟨m, rfl, hm⟩ := exists_lower_of_upper h
    have heven : dieOfCore m % 2 = 0 := (isLowerDie_iff _).mp hm
    rw [partnerOf_add_die_of_lower hm, partnerOf_of_lower hm, dieOfCore_add_die, stackOfDie_succ_of_lower hm,
      clusterOfCore_add_die]
    exact ⟨by omega, fun _ => rfl, by omega, rfl, by omega, rfl, by omega, by omega⟩

end Sys2Proof.Machine

/-! The window base (R42): which words are `winb`, and what it comes to. -/

namespace Sys2Proof

open Machine.Bits

/-! ### Fields and reserved fields -/

theorem field_eq_iff {k n : Nat} {w : BitVec k} {lo : Nat} {c : BitVec n} :
    field w lo n = c ↔ fieldNat w lo n = c.toNat := by
  rw [← BitVec.toNat_inj, field, BitVec.toNat_ofNat, fieldNat]

@[simp] theorem chk_eq_ok {c : Bool} {i j : Instr} : chk c i = .ok j ↔ c = true ∧ i = j := by
  cases c <;> simp [chk]

/-! ### The words of `winb` -/

/-- The tables of format F3 beside that of major 0x19 (R53). -/
def otherTables : List (F3 → Except Fate Instr) :=
  [decode01, decode02, decode03, decode04, decode05, decode06, decode07, decode08, decode09, decode30, decode31, decode32,
    decode33, decode34, decode35, decode36, decode37]

/-- No entry of another table of format F3 is `winb`. -/
theorem otherTables_ne_winb : ∀ t ∈ otherTables, ∀ (x : F3) (a : Code), t x ≠ .ok (.winb a) := by
  simp only [otherTables, List.forall_mem_cons, List.not_mem_nil, false_implies, implies_true, and_true]
  refine ⟨?_, ?_, ?_, ?_, ?_, ?_, ?_, ?_, ?_, ?_, ?_, ?_, ?_, ?_, ?_, ?_, ?_⟩ <;> intro x a
  · fun_cases decode01 x <;> simp
  · fun_cases decode02 x <;> simp
  · fun_cases decode03 x <;> simp
  · fun_cases decode04 x <;> simp
  · fun_cases decode05 x <;> simp
  · fun_cases decode06 x <;> simp
  · fun_cases decode07 x <;> simp
  · fun_cases decode08 x <;> simp
  · fun_cases decode09 x <;> simp
  · fun_cases decode30 x <;> simp
  · fun_cases decode31 x <;> simp
  · fun_cases decode32 x <;> simp
  · fun_cases decode33 x <;> simp
  · fun_cases decode34 x <;> simp
  · fun_cases decode35 x <;> simp
  · fun_cases decode36 x <;> simp
  · fun_cases decode37 x <;> simp

theorem decodeMem_ne_winb (maj : Nat) (m : FM) (a : Code) : decodeMem maj m ≠ .ok (.winb a) := by
  unfold decodeMem; split <;> simp

theorem decodeBranch_ne_winb (maj cnd : Nat) (b : Code) (off : BitVec 16) (a : Code) :
    decodeBranch maj cnd b off ≠ .ok (.winb a) := by
  unfold decodeBranch; split <;> simp

theorem decode19_eq_winb {x : F3} {a : Code} :
    decode19 x = .ok (.winb a) ↔ x.fn = 8 ∧ x.d = 0 ∧ x.a = a ∧ x.b = 0 ∧ x.nw = false := by
  unfold decode19
  split <;> simp_all [and_comm, and_left_comm]

theorem decode_of_major19 {w : Word} (h : fieldNat w 26 6 = 0x19) : decode w = decode19 (f3 w) := by
  simp only [decode, h]

/-- A word that is `winb` is of major 0x19. -/
theorem major_of_decode_winb {w : Word} {a : Code} (h : decode w = .ok (.winb a)) : fieldNat w 26 6 = 0x19 := by
  have ho := fun t ht => otherTables_ne_winb t ht (f3 w) a
  simp only [otherTables, List.forall_mem_cons] at ho
  revert h
  fun_cases decode w <;> simp [*, decodeMem_ne_winb, decodeBranch_ne_winb]

theorem decode_eq_winb {w : Word} {a : Code} : decode w = .ok (.winb a) ↔
    fieldNat w 26 6 = 0x19 ∧ fieldNat w 0 4 = 8 ∧ fieldNat w 19 7 = 0 ∧ fieldNat w 12 7 = a.toNat ∧ fieldNat w 5 7 = 0 ∧
      bit w 4 = false := by
  have hsplit : decode w = .ok (.winb a) ↔ fieldNat w 26 6 = 0x19 ∧ decode19 (f3 w) = .ok (.winb a) :=
    ⟨fun h => have hm := major_of_decode_winb h; ⟨hm, decode_of_major19 hm ▸ h⟩,
      fun ⟨hm, h⟩ => (decode_of_major19 hm).trans h⟩
  simp [hsplit, decode19_eq_winb, f3, field_eq_iff]

end Sys2Proof

namespace Sys2Proof.Machine

open Assoc Bits

/-! ### What `winb` comes to -/

section
variable {a : Code} {s : State} {g : Group}

theorem execWinb_of_base (h : Admits (.winb a) s g) (hal : (srcS s g a).toNat % 16 = 0)
    (hlt : (srcS s g a).toNat < g.vregs) : execWinb a s =
      .next (after (.winb a) s g (s.setGroup s.cur { g with wb := (srcS s g a).toNat }) .none) :=
  issue_plain h (if_neg (by omega))

theorem execWinb_of_no_base (h : Admits (.winb a) s g)
    (hbad : (srcS s g a).toNat % 16 ≠ 0 ∨ g.vregs ≤ (srcS s g a).toNat) :
    execWinb a s = .next (faulted (.winb a) s g .window 0 0) :=
  issue_fault h (if_pos hbad)

end

/-- A vector code names a register counted from the window base. -/
theorem srcV_of_window (g : Group) {c : Code} (j : Nat) (hc : c.toNat ≤ 95) :
    srcV g c j = get 0 g.v ((g.wb + c.toNat) * 32 + j) := if_pos hc

/-- Settles O28: the word by the table of major 0x19, the two outcomes by the test of the base. -/
theorem windowBase : Obligations.WindowBase := by
  unfold Obligations.WindowBase
  exact ⟨fun _ _ => decode_eq_winb, fun _ _ _ => execWinb_of_base, fun _ _ _ => execWinb_of_no_base, fun _ => rfl,
    fun g _ j => srcV_of_window g j⟩

end Sys2Proof.Machine

/-! The halves of 64-bit system registers (R59, R370 to R372). -/

namespace Sys2Proof.Machine

open Bits

/-! ### Halves of a 64-bit value -/

theorem half_even (x : DWord) : half x false = x.extractLsb' 0 32 :=
  BitVec.setWidth_eq_extractLsb' (x := x) (by decide)

theorem half_odd (x : DWord) : half x true = x.extractLsb' 32 32 := rfl

theorem setHalf_even (x : DWord) (v : Word) : setHalf x false v = x.extractLsb' 32 32 ++ v :=
  congrArg (· ++ v) (half_odd x)

theorem setHalf_odd (x : DWord) (v : Word) : setHalf x true v = v ++ x.extractLsb' 0 32 :=
  congrArg (v ++ ·) (half_even x)

/-! ### A register at an even number and the odd one after it -/

/-- A register that `sysRead` answers by halves reads as R59 says. -/
theorem reads_of_half {s : State} {g : Group} {n : Nat} {x : DWord} (h0 : sysRead s g n = half x false)
    (h1 : sysRead s g (n + 1) = half x true) :
    sysRead s g n = x.extractLsb' 0 32 ∧ sysRead s g (n + 1) = x.extractLsb' 32 32 :=
  ⟨h0.trans (half_even x), h1.trans (half_odd x)⟩

theorem sysWrite_of_lt {s : State} {gid : Nat} {g : Group} {priv : Bool} {n : Nat} (v : Word) (hn : n < 0x10) :
    sysWrite s gid g priv n v = s.setGroup gid (writeGroup priv g n v) := by
  have hstream : ¬(0x20 ≤ n ∧ n < 0x30) := by omega
  have hcore : coreRegister n = false := by simp [coreRegister]; omega
  have hcluster : ¬(n = 0x60 ∨ n = 0x61) := by omega
  simp [sysWrite, hstream, hcore, hcluster]

theorem sysWrite_of_breakpoint {s : State} {gid : Nat} {g : Group} {n : Nat} (v : Word) (hn : 0x50 ≤ n) (hn' : n ≤ 0x58) :
    sysWrite s gid g true n v = s.setCore g.core (writeCore (s.coreAt g.core) n v) := by
  have hstream : ¬(0x20 ≤ n ∧ n < 0x30) := by omega
  have hcore : coreRegister n = true := by simp [coreRegister, hn, hn']
  simp [sysWrite, hstream, hcore]

/-- A trap register that `writeGroup` changes by halves is written as R59 says. -/
theorem groupWrites_of_setHalf {s : State} {gid : Nat} {g : Group} {v : Word} (reg : Group → DWord) {n : Nat}
    (hn : n + 1 < 0x10) (h0 : reg (writeGroup g.priv g n v) = setHalf (reg g) false v)
    (h1 : reg (writeGroup g.priv g (n + 1) v) = setHalf (reg g) true v) :
    ∃ g0 g1 : Group,
      sysWrite s gid g g.priv n v = s.setGroup gid g0 ∧ reg g0 = (reg g).extractLsb' 32 32 ++ v ∧
      sysWrite s gid g g.priv (n + 1) v = s.setGroup gid g1 ∧ reg g1 = v ++ (reg g).extractLsb' 0 32 :=
  ⟨_, _, sysWrite_of_lt v (by omega), h0.trans (setHalf_even _ v), sysWrite_of_lt v hn, h1.trans (setHalf_odd _ v)⟩

/-- A breakpoint address that `writeCore` changes by halves is written as R59 says. -/
theorem coreWrites_of_setHalf {s : State} {gid : Nat} {g : Group} {v : Word} (reg : Core → DWord) {n : Nat}
    (hn : 0x50 ≤ n) (hn' : n + 1 ≤ 0x58)
    (h0 : reg (writeCore (s.coreAt g.core) n v) = setHalf (reg (s.coreAt g.core)) false v)
    (h1 : reg (writeCore (s.coreAt g.core) (n + 1) v) = setHalf (reg (s.coreAt g.core)) true v) :
    ∃ k0 k1 : Core,
      sysWrite s gid g true n v = s.setCore g.core k0 ∧ reg k0 = (reg (s.coreAt g.core)).extractLsb' 32 32 ++ v ∧
      sysWrite s gid g true (n + 1) v = s.setCore g.core k1 ∧
        reg k1 = v ++ (reg (s.coreAt g.core)).extractLsb' 0 32 :=
  ⟨_, _, sysWrite_of_breakpoint v hn (by omega), h0.trans (setHalf_even _ v),
    sysWrite_of_breakpoint v (by omega) hn', h1.trans (setHalf_odd _ v)⟩

/-- Settles O45: the model answers and changes each of the registers by halves (`half`, `setHalf`). -/
theorem registerHalves : Obligations.RegisterHalves := by
  unfold Obligations.RegisterHalves
  intro s gid g v
  simp only [List.forall_mem_cons, List.not_mem_nil, false_implies, implies_true, and_true]
  refine ⟨⟨?tvec, ?tpc, ?tnext, ?taddr, ?bpa0, ?bpa1, ?bpa2, ?bpa3⟩, ⟨?wtvec, ?wtnext⟩, ?wbpa0, ?wbpa1, ?wbpa2, ?wbpa3⟩
  case wtvec => exact groupWrites_of_setHalf (·.trap.tvec) (by decide) rfl rfl
  case wtnext => exact groupWrites_of_setHalf (·.trap.tnext) (by decide) rfl rfl
  case wbpa0 => exact coreWrites_of_setHalf (·.bpa0) (by decide) (by decide) rfl rfl
  case wbpa1 => exact coreWrites_of_setHalf (·.bpa1) (by decide) (by decide) rfl rfl
  case wbpa2 => exact coreWrites_of_setHalf (·.bpa2) (by decide) (by decide) rfl rfl
  case wbpa3 => exact coreWrites_of_setHalf (·.bpa3) (by decide) (by decide) rfl rfl
  all_goals exact ⟨trivial, reads_of_half rfl rfl⟩

end Sys2Proof.Machine

/-! The hop configuration (R192): which words are `hopcfg`, and what it comes to. -/

namespace Sys2Proof

open Machine.Bits

/-! ### The major of a decoded word -/

/-- Every instruction that `r` answers is encoded in one major. -/
def InMajor (maj : Nat) (r : Except Fate Instr) : Prop :=
  ∀ i, r = .ok i → ∃ w, encode i = some w ∧ fieldNat w 26 6 = maj

theorem inMajor_error (maj : Nat) (f : Fate) : InMajor maj (.error f) := nofun

theorem inMajor_ok {maj : Nat} {i : Instr} {w : Word} (he : encode i = some w) (hw : fieldNat w 26 6 = maj) :
    InMajor maj (.ok i) := by
  rintro _ ⟨rfl⟩
  exact ⟨w, he, hw⟩

theorem inMajor_chk {maj : Nat} {c : Bool} {i : Instr} {w : Word} (he : encode i = some w)
    (hw : fieldNat w 26 6 = maj) : InMajor maj (chk c i) := by
  cases c
  · exact inMajor_error maj .rsvbit
  · exact inMajor_ok he hw

/-- An entry of a table of format F3. -/
theorem inMajor_chk_packF3 {maj fn : Nat} {c nw : Bool} {i : Instr} {d a b : Code}
    (he : encode i = some (packF3 maj fn d a b nw)) (hm : maj < 64 := by decide) (hf : fn < 16 := by decide) :
    InMajor maj (chk c i) :=
  inMajor_chk he (major_packF3 maj fn d a b nw hm hf)

/-- The majors whose entries FN picks, and their tables (R53). -/
def tablesByFn : List (Nat × (F3 → Except Fate Instr)) :=
  [(0x01, decode01), (0x02, decode02), (0x03, decode03), (0x04, decode04), (0x06, decode06), (0x08, decode08),
    (0x09, decode09), (0x19, decode19), (0x30, decode30), (0x31, decode31), (0x32, decode32), (0x33, decode33),
    (0x34, decode34), (0x35, decode35), (0x36, decode36), (0x37, decode37)]

theorem tablesByFn_inMajor : ∀ t ∈ tablesByFn, ∀ x, InMajor t.1 (t.2 x) := by
  simp only [tablesByFn, List.forall_mem_cons, List.not_mem_nil, false_implies, implies_true, and_true]
  refine ⟨?_, ?_, ?_, ?_, ?_, ?_, ?_, ?_, ?_, ?_, ?_, ?_, ?_, ?_, ?_, ?_⟩ <;> intro x
  all_goals
    simp only [decode01, decode02, decode03, decode04, decode06, decode08, decode09, decode19, decode30, decode31,
      decode32, decode33, decode34, decode35, decode36, decode37]
    repeat' split
  any_goals exact inMajor_error _ _
  all_goals exact inMajor_chk_packF3 rfl

theorem decode05_inMajor (x : F3) : InMajor 0x05 (decode05 x) := by
  fun_cases decode05 x
  · exact inMajor_error _ _
  · exact inMajor_chk_packF3 rfl (hf := BitVec.isLt _)

theorem decode07_inMajor (x : F3) : InMajor 0x07 (decode07 x) := by
  fun_cases decode07 x
  · exact inMajor_error _ _
  · exact inMajor_chk_packF3 rfl (hf := (BitVec.isLt _).trans (by decide))

theorem decodeMem_inMajor (maj : Nat) (m : FM) : InMajor maj (decodeMem maj m) := by
  fun_cases decodeMem maj m
  any_goals exact inMajor_error _ _
  all_goals exact inMajor_ok rfl (major_packFM _ _ _ _ _ _ (by decide))

theorem decodeBranch_inMajor (maj cnd : Nat) (a : Code) (off : BitVec 16) : InMajor maj (decodeBranch maj cnd a off) := by
  fun_cases decodeBranch maj cnd a off
  any_goals exact inMajor_error _ _
  all_goals exact inMajor_ok rfl (packFB_fields _ _ _ (by decide) _ (by decide)).1

/-- Bit 28 and the upper two bits of D are the low part of the major of a word of format F4 (R32). -/
theorem major_packF4 {w : Word} {f : Nat} (a b c : Code) (hmaj : 0x38 ≤ fieldNat w 26 6)
    (hf : f < 2) (hbit : bit w 28 = true ↔ f = 1) : fieldNat (packF4 f (field w 21 7) a b c) 26 6 = fieldNat w 26 6 := by
  have ha := a.isLt; have hb := b.isLt; have hc := c.isLt
  simp only [fieldNat, packF4, field, bit, beq_iff_eq, BitVec.toNat_ofNat] at *
  omega

/-- A word is in the major of the word that its instruction has. The table's rows come in the order of the majors: case
n is the row of major n - 1, up to the two fates of 0x1A (cases 27, 28), from there on that of major n - 2. -/
theorem decode_inMajor (w : Word) : InMajor (fieldNat w 26 6) (decode w) := by
  have ht := tablesByFn_inMajor
  simp only [tablesByFn, List.forall_mem_cons] at ht
  fun_cases decode w
  case case58 | case59 =>
    clear ht
    have hmaj : 0x38 ≤ fieldNat w 26 6 := by
      by_contra! hlt
      interval_cases fieldNat w 26 6 <;> contradiction
    exact inMajor_ok rfl (major_packF4 _ _ _ hmaj (by decide) (by simp [*]))
  all_goals simp only [*]
  case case11 | case12 | case13 | case14 | case18 | case21 => exact inMajor_ok rfl (packFI_fields _ _ _ _ (by decide)).1
  case case15 | case16 | case17 => exact inMajor_chk rfl (packFI_fields _ _ _ _ (by decide)).1
  case case19 | case20 => exact inMajor_ok rfl (packFK_fields _ _ _ (by decide)).1
  case case22 | case23 => exact decodeBranch_inMajor _ _ _ _
  case case24 | case25 => exact inMajor_ok rfl (packFJ_fields _ _ (by decide)).1
  case case28 => exact inMajor_chk rfl (packFL_fields _ _).1
  case case29 => exact inMajor_chk rfl (packFK_fields _ _ _ (by decide)).1
  case case6 => exact decode05_inMajor _
  case case8 => exact decode07_inMajor _
  case case1 | case27 => exact inMajor_error _ _
  all_goals exact decodeMem_inMajor _ _

theorem major_of_decode {w v : Word} {i : Instr} (h : decode w = .ok i) (he : encode i = some v) :
    fieldNat w 26 6 = fieldNat v 26 6 := by
  obtain ⟨v', hv', hmaj⟩ := decode_inMajor w i h
  obtain rfl : v' = v := Option.some_inj.mp (hv'.symm.trans he)
  exact hmaj.symm

/-- A word is an instruction of major `maj` iff it is in that major and the major's table answers the instruction. -/
theorem decode_eq_ok_iff {maj : Nat} {t : F3 → Except Fate Instr} {w v : Word} {i : Instr}
    (ht : fieldNat w 26 6 = maj → decode w = t (f3 w)) (he : encode i = some v) (hv : fieldNat v 26 6 = maj) :
    decode w = .ok i ↔ fieldNat w 26 6 = maj ∧ t (f3 w) = .ok i := by
  constructor
  · intro h
    have hm : fieldNat w 26 6 = maj := (major_of_decode h he).trans hv
    exact ⟨hm, ht hm ▸ h⟩
  · rintro ⟨hm, h⟩
    exact (ht hm).trans h

/-! ### The words of `hopcfg` -/

theorem decode32_eq_hopcfg {x : F3} {a : Code} :
    decode32 x = .ok (.hopcfg a) ↔ x.fn = 4 ∧ x.d = 0 ∧ x.a = a ∧ x.b = 0 ∧ x.nw = false := by
  unfold decode32
  split <;> simp_all [and_comm, and_left_comm]

theorem decode_of_major32 {w : Word} (h : fieldNat w 26 6 = 0x32) : decode w = decode32 (f3 w) := by
  simp only [decode, h]

theorem decode_eq_hopcfg {w : Word} {a : Code} : decode w = .ok (.hopcfg a) ↔
    fieldNat w 26 6 = 0x32 ∧ fieldNat w 0 4 = 4 ∧ fieldNat w 19 7 = 0 ∧ fieldNat w 12 7 = a.toNat ∧ fieldNat w 5 7 = 0 ∧
      bit w 4 = false := by
  rw [decode_eq_ok_iff decode_of_major32 rfl (major_packF3 _ _ _ _ _ _ (by decide) (by decide)), decode32_eq_hopcfg]
  simp [f3, field_eq_iff]

end Sys2Proof

namespace Sys2Proof.Machine

open Assoc Bits

/-! ### A scalar source whose code is none (R35, R56) -/

section
variable {c : Code} (hc : 86 < c.toNat ∧ c.toNat < 96 ∨ 103 < c.toNat)
include hc

theorem codesOk_scalar_source_eq_false : codesOk [osrc .sca c] = false := by
  simp [codesOk, admits, osrc]; omega

theorem joins_scalar_source_eq_false : joins [osrc .sca c] = false := by
  simp [joins, latchesOf, latchOf, osrc]; omega

end

theorem wordFault_of_code {g : Group} {i : Instr} (hcsr : csrNumber i = none) (hcode : codesOk (oprsOf 0 i) = false) :
    wordFault g i = some .opnd := by
  simp only [wordFault, hcsr, hcode]
  rfl

/-- A code that its kind does not admit is OPND, in a form that FMT leaves defined and that names no system register. -/
theorem decodeFault_of_code {s : State} {g : Group} {i : Instr} (hfmt : undefByFmt g.fmt i = false)
    (hcsr : csrNumber i = none) (hcode : codesOk (oprsOf 0 i) = false) : decodeFault s g i = some .opnd := by
  simp [decodeFault, hfmt, wordFault_of_code hcsr hcode]

/-- A decode fault of a word that reads no latch is one outside any chain. -/
theorem issue_faulted_of_decodeFault {i : Instr} {s : State} {g : Group} {c : Cause} (hg : s.group? s.cur = some g)
    (hs : g.status = .ready) (hc : (s.coreAt g.core).scanning = false) (hd : decodeFault s g i = some c)
    (hj : joins (oprsOf g.fmt i) = false) (body : State → Nat → Group → Effect) :
    issue i body s = .next (faulted i s g c 0 0) := by
  rw [issue_of_decodeFault hg hs hc hd, faulted, faultJoins, hj, Bool.false_and, Bool.false_and, Bool.false_and]

/-! ### What `hopcfg` comes to -/

theorem field_zero {k n : Nat} (w : BitVec k) : field w 0 n = w.setWidth n := by
  rw [field, Nat.pow_zero, Nat.div_one, BitVec.ofNat_toNat]

theorem sysWrite_hopcfg (s : State) (gid : Nat) (g : Group) (priv : Bool) (v : Word) : sysWrite s gid g priv 0x10 v =
    s.setGroup gid { g with cont := { g.cont with hopcfg := v.setWidth 16 } } := by
  rw [← field_zero]; rfl

section
variable {a : Code} {s : State} {g : Group}

theorem execHopcfg_of_code (hg : s.group? s.cur = some g) (hs : g.status = .ready)
    (hc : (s.coreAt g.core).scanning = false) (ha : 86 < a.toNat ∧ a.toNat < 96 ∨ 103 < a.toNat) :
    execHopcfg a s = .next (faulted (.hopcfg a) s g .opnd 0 0) :=
  have hd : decodeFault s g (.hopcfg a) = some .opnd :=
    decodeFault_of_code rfl rfl (codesOk_scalar_source_eq_false ha)
  issue_faulted_of_decodeFault hg hs hc hd (joins_scalar_source_eq_false ha) _

theorem execHopcfg_eq_sysWrite (h : Admits (.hopcfg a) s g) :
    execHopcfg a s = .next (after (.hopcfg a) s g (sysWrite s s.cur g g.priv 0x10 (srcS s g a)) .none) :=
  issue_plain h rfl

theorem execHopcfg_of_admits (h : Admits (.hopcfg a) s g) : execHopcfg a s = .next (after (.hopcfg a) s g
    (s.setGroup s.cur { g with cont := { g.cont with hopcfg := (srcS s g a).setWidth 16 } }) .none) := by
  rw [execHopcfg_eq_sysWrite h, sysWrite_hopcfg]

theorem execCsrw_of_admits {b : Code} (h : Admits (.csrw a b) s g) :
    execCsrw a b s = .next (after (.csrw a b) s g (sysWrite s s.cur g g.priv b.toNat (srcS s g a)) .none) :=
  issue_plain h rfl

end

/-- Settles O38: the word by the table of major 0x32, OPND by the code of A, and the effect as the write of 0x10. -/
theorem hopConfiguration : Obligations.HopConfiguration := by
  unfold Obligations.HopConfiguration
  exact ⟨fun _ _ => decode_eq_hopcfg, by decide, fun _ _ _ => execHopcfg_of_code,
    fun _ _ _ h => ⟨execHopcfg_of_admits h, execHopcfg_eq_sysWrite h⟩, fun _ _ _ => execCsrw_of_admits⟩

end Sys2Proof.Machine

/-! The round trip of words and instructions (R30, R32, R40, R52 to R56). -/

namespace Sys2Proof

open Machine.Bits

/-! ### A decoded word is the word of its instruction -/

/-- What `r` answers has the word whose fields a table of format F3 was given. -/
def EncodesF3 (maj : Nat) (x : F3) (r : Except Fate Instr) : Prop :=
  ∀ i, r = .ok i → encode i = some (packF3 maj x.fn x.d x.a x.b x.nw)

theorem encodesF3_error (maj : Nat) (x : F3) (f : Fate) : EncodesF3 maj x (.error f) := nofun

theorem encodesF3_chk {maj : Nat} {x : F3} {c : Bool} {i : Instr}
    (h : c = true → encode i = some (packF3 maj x.fn x.d x.a x.b x.nw)) : EncodesF3 maj x (chk c i) := by
  intro j hj
  obtain ⟨hc, rfl⟩ := chk_eq_ok.mp hj
  exact h hc

theorem widen_lowBits_4 : ∀ {c : Code}, c &&& 112 = 0 → widen (lowBits c 4) = c := by decide

theorem widen_lowBits_3 : ∀ {c : Code}, c &&& 120 = 0 → widen (lowBits c 3) = c := by decide

theorem ring_lowBits_4 : ∀ {c : Code}, c &&& 112 = 16#7 → 16#7 ||| widen (lowBits c 4) = c := by decide

theorem joinBits_split : ∀ c : Code, joinBits (BitVec.ofNat 3 (c.toNat / 16)) (lowBits c 4) = c := by decide

theorem tablesByFn_encodesF3 : ∀ t ∈ tablesByFn, ∀ x, EncodesF3 t.1 x (t.2 x) := by
  simp only [tablesByFn, List.forall_mem_cons, List.not_mem_nil, false_implies, implies_true, and_true]
  refine ⟨?_, ?_, ?_, ?_, ?_, ?_, ?_, ?_, ?_, ?_, ?_, ?_, ?_, ?_, ?_, ?_⟩ <;> rintro ⟨d, a, b, nw, fn⟩
  all_goals
    simp only [decode01, decode02, decode03, decode04, decode06, decode08, decode09, decode19, decode30, decode31,
      decode32, decode33, decode34, decode35, decode36, decode37]
    repeat' split
  any_goals exact encodesF3_error _ _ _
  all_goals
    refine encodesF3_chk fun h => ?_
    simp_all [encode, widen_lowBits_4, widen_lowBits_3, ring_lowBits_4]

theorem decode05_encodesF3 {x : F3} (hx : x.fn < 16) : EncodesF3 0x05 x (decode05 x) := by
  simp only [decode05]
  split
  · exact encodesF3_error _ _ _
  · exact encodesF3_chk fun _ => by simp [encode, joinBits_split, Nat.mod_eq_of_lt hx]

theorem decode07_encodesF3 (x : F3) : EncodesF3 0x07 x (decode07 x) := by
  fun_cases decode07 x
  · exact encodesF3_error _ _ _
  · refine encodesF3_chk fun _ => ?_
    have hfn : x.fn < 8 := by omega
    simp [encode, Nat.mod_eq_of_lt hfn]

/-! ### A word is packed from its fields (R32) -/

section
variable (w : Word)

theorem packF3_f3 : packF3 (fieldNat w 26 6) (f3 w).fn (f3 w).d (f3 w).a (f3 w).b (f3 w).nw = w := by
  have hw := w.isLt
  apply BitVec.eq_of_toNat_eq
  have hb : (bit w 4).toNat = w.toNat / 16 % 2 := by
    rcases Nat.mod_two_eq_zero_or_one (w.toNat / 16) with h | h <;> simp [bit, h]
  simp only [packF3, f3, hb, field, fieldNat, BitVec.toNat_ofNat]
  omega

theorem packFM_fm :
    packFM (fieldNat w 26 6) (fm w).d (fm w).a (fm w).b (fm w).st (fm w).x = w := by
  have hw := w.isLt
  apply BitVec.eq_of_toNat_eq
  have hb : (bit w 0).toNat = w.toNat % 2 := by
    rcases Nat.mod_two_eq_zero_or_one w.toNat with h | h <;> simp [bit, h]
  simp only [packFM, fm, hb, field, fieldNat, BitVec.toNat_ofNat]
  omega

theorem packFI_field : packFI (fieldNat w 26 6) (field w 19 7) (field w 12 7) (field w 0 12) = w := by
  have hw := w.isLt
  apply BitVec.eq_of_toNat_eq
  simp only [packFI, field, fieldNat, BitVec.toNat_ofNat]
  omega

theorem packFI_shift (h : fieldNat w 5 7 = 0) :
    packFI (fieldNat w 26 6) (field w 19 7) (field w 12 7) ((field w 0 5).setWidth 12) = w := by
  have hw := w.isLt
  apply BitVec.eq_of_toNat_eq
  simp only [packFI, field, fieldNat, BitVec.toNat_ofNat, BitVec.toNat_setWidth] at *
  omega

theorem packFK_field : packFK (fieldNat w 26 6) (field w 19 7) (field w 0 19) = w := by
  have hw := w.isLt
  apply BitVec.eq_of_toNat_eq
  simp only [packFK, field, fieldNat, BitVec.toNat_ofNat]
  omega

theorem packFB_field : packFB (fieldNat w 26 6) (fieldNat w 16 3) (field w 19 7) (field w 0 16) = w := by
  have hw := w.isLt
  apply BitVec.eq_of_toNat_eq
  simp only [packFB, field, fieldNat, BitVec.toNat_ofNat]
  omega

theorem packFJ_field : packFJ (fieldNat w 26 6) (field w 0 26) = w := by
  have hw := w.isLt
  apply BitVec.eq_of_toNat_eq
  simp only [packFJ, field, fieldNat, BitVec.toNat_ofNat]
  omega

theorem packFL_field (hm : fieldNat w 26 6 = 0x1A) (hz : fieldNat w 0 7 = 0) :
    packFL (field w 19 7) (field w 7 12) = w := by
  have hw := w.isLt
  apply BitVec.eq_of_toNat_eq
  simp only [packFL, field, fieldNat, BitVec.toNat_ofNat] at *
  omega

theorem packF4_field {f : Nat} (hm : 0x38 ≤ fieldNat w 26 6) (hf : f < 2) (hb : bit w 28 = true ↔ f = 1) :
    packF4 f (field w 21 7) (field w 14 7) (field w 7 7) (field w 0 7) = w := by
  have hw := w.isLt
  apply BitVec.eq_of_toNat_eq
  simp only [packF4, field, fieldNat, bit, beq_iff_eq, BitVec.toNat_ofNat] at *
  omega

end

/-- What `r` answers has the word `w`. -/
def EncodesTo (w : Word) (r : Except Fate Instr) : Prop := ∀ i, r = .ok i → encode i = some w

theorem encodesTo_error (w : Word) (f : Fate) : EncodesTo w (.error f) := nofun

theorem encodesTo_ok {w : Word} {i : Instr} (h : encode i = some w) : EncodesTo w (.ok i) := by
  rintro _ ⟨rfl⟩
  exact h

theorem encodesTo_chk {w : Word} {c : Bool} {i : Instr} (h : c = true → encode i = some w) : EncodesTo w (chk c i) := by
  intro j hj
  obtain ⟨hc, rfl⟩ := chk_eq_ok.mp hj
  exact h hc

/-- The word that a table of format F3 was given the fields of. -/
theorem EncodesF3.encodesTo {w : Word} {maj : Nat} {r : Except Fate Instr} (h : EncodesF3 maj (f3 w) r)
    (hm : fieldNat w 26 6 = maj) : EncodesTo w r := by
  intro i hi
  rw [h i hi, ← hm, packF3_f3]

theorem decodeMem_encodesTo {w : Word} {maj : Nat} (hm : fieldNat w 26 6 = maj) : EncodesTo w (decodeMem maj (fm w)) := by
  have hw := packFM_fm w
  fun_cases decodeMem maj (fm w)
  any_goals exact encodesTo_error _ _
  all_goals exact encodesTo_ok (by simp_all [encode])

theorem decodeBranch_encodesTo {w : Word} {maj : Nat} (hm : fieldNat w 26 6 = maj) :
    EncodesTo w (decodeBranch maj (fieldNat w 16 3) (field w 19 7) (field w 0 16)) := by
  have hw := packFB_field w
  generalize hc : fieldNat w 16 3 = cnd at *
  fun_cases decodeBranch maj cnd (field w 19 7) (field w 0 16)
  any_goals exact encodesTo_error _ _
  all_goals exact encodesTo_ok (by simp_all [encode])

/-- The table's rows come in the order of the majors, as in `decode_inMajor`. -/
theorem decode_encodesTo (w : Word) : EncodesTo w (decode w) := by
  have ht : ∀ t, (fieldNat w 26 6, t) ∈ tablesByFn → EncodesTo w (t (f3 w)) :=
    fun t h => (tablesByFn_encodesF3 _ h _).encodesTo rfl
  have hI := packFI_field w; have hK := packFK_field w; have hJ := packFJ_field w
  fun_cases decode w
  case case58 | case59 =>
    clear ht hI hK hJ
    have hmaj : 0x38 ≤ fieldNat w 26 6 := by
      by_contra! hlt
      interval_cases fieldNat w 26 6 <;> contradiction
    exact encodesTo_ok (congrArg some (packF4_field w hmaj (by decide) (by simp [*])))
  case case6 hm => exact (decode05_encodesF3 (Nat.mod_lt _ (by decide))).encodesTo hm
  case case8 hm => exact (decode07_encodesF3 _).encodesTo hm
  case case15 hm | case16 hm | case17 hm =>
    refine encodesTo_chk fun hz => ?_
    simpa only [encode, hm] using congrArg some (packFI_shift w (by simpa using hz))
  case case28 hm hn =>
    exact encodesTo_chk fun hz => congrArg some (packFL_field w hm (by simpa using hz))
  case case1 | case27 => exact encodesTo_error _ _
  case case22 hm | case23 hm => exact decodeBranch_encodesTo hm
  case case29 hm =>
    refine encodesTo_chk fun hz => ?_
    have hd : field w 19 7 = 0 := field_eq (by simpa [fieldNat] using hz)
    simpa only [encode, hm, hd] using congrArg some hK
  case case11 hm | case12 hm | case13 hm | case14 hm | case18 hm | case21 hm =>
    exact encodesTo_ok (by simpa only [encode, hm] using congrArg some hI)
  case case19 hm | case20 hm => exact encodesTo_ok (by simpa only [encode, hm] using congrArg some hK)
  case case24 hm | case25 hm => exact encodesTo_ok (by simpa only [encode, hm] using congrArg some hJ)
  any_goals exact decodeMem_encodesTo (by assumption)
  all_goals exact ht _ (by simp [tablesByFn, *])

/-- Settles O2: word by word along the decoder, each form packing the fields that its word was cut into. -/
theorem encodeOfDecode : Obligations.EncodeOfDecode := by
  unfold Obligations.EncodeOfDecode
  exact decode_encodesTo

/-! ### The word of an instruction decodes to it -/

theorem chk_of {c : Bool} {i : Instr} (h : c = true) : chk c i = .ok i := if_pos h

/-- The tables of the majors of format F3 (R53), by major. -/
def tableF3 : Nat → F3 → Except Fate Instr
  | 0x01 => decode01 | 0x02 => decode02 | 0x03 => decode03 | 0x04 => decode04 | 0x05 => decode05 | 0x06 => decode06
  | 0x07 => decode07 | 0x08 => decode08 | 0x09 => decode09 | 0x19 => decode19 | 0x30 => decode30 | 0x31 => decode31
  | 0x32 => decode32 | 0x33 => decode33 | 0x34 => decode34 | 0x35 => decode35 | 0x36 => decode36 | 0x37 => decode37
  | _ => fun _ => .error .undef

/-- The majors of format F3 (R52, R53). -/
def majorsF3 : List Nat := [0x01, 0x02, 0x03, 0x04, 0x05, 0x06, 0x07, 0x08, 0x09, 0x19, 0x30, 0x31, 0x32, 0x33, 0x34, 0x35, 0x36, 0x37]

theorem decode_of_majorF3 {w : Word} (h : fieldNat w 26 6 ∈ majorsF3) : decode w = tableF3 (fieldNat w 26 6) (f3 w) := by
  generalize hm : fieldNat w 26 6 = maj at h
  simp only [majorsF3, List.mem_cons, List.not_mem_nil, or_false] at h
  rcases h with rfl | rfl | rfl | rfl | rfl | rfl | rfl | rfl | rfl | rfl | rfl | rfl | rfl | rfl | rfl | rfl | rfl | rfl
  all_goals simp only [decode, hm, tableF3]

theorem lt_of_mem_majorsF3 : ∀ {maj : Nat}, maj ∈ majorsF3 → maj < 64 := by decide

theorem decode_of_majorMem {w : Word} {maj : Nat} (hm : fieldNat w 26 6 = maj) (hlo : 0x1C ≤ maj) (hhi : maj ≤ 0x2F) :
    decode w = decodeMem maj (fm w) := by
  interval_cases maj
  all_goals simp only [decode, hm]

theorem decode_of_majorF4 {w : Word} (hlo : 0x38 ≤ fieldNat w 26 6) (hhi : fieldNat w 26 6 < 64) :
    decode w = if bit w 28 then .ok (.vfnma (field w 21 7) (field w 14 7) (field w 7 7) (field w 0 7))
      else .ok (.vfma (field w 21 7) (field w 14 7) (field w 7 7) (field w 0 7)) := by
  generalize hm : fieldNat w 26 6 = maj at hlo hhi
  interval_cases maj
  all_goals simp only [decode, hm]

section
variable {maj fn cnd f : Nat} (d a b c : Code) (nw x : Bool) (st : BitVec 4) (off : BitVec 16)

theorem decode_packF3 (hm : maj ∈ majorsF3) (hf : fn < 16) :
    decode (packF3 maj fn d a b nw) = tableF3 maj ⟨d, a, b, nw, fn⟩ := by
  have hlt := lt_of_mem_majorsF3 hm
  have hmaj := major_packF3 maj fn d a b nw hlt hf
  rw [decode_of_majorF3 (by rw [hmaj]; exact hm), hmaj, f3_packF3 maj fn d a b nw hlt hf]

theorem decode_packFM (hlo : 0x1C ≤ maj) (hhi : maj ≤ 0x2F) :
    decode (packFM maj d a b st x) = decodeMem maj ⟨d, a, b, st, x⟩ := by
  have hlt : maj < 64 := by omega
  rw [decode_of_majorMem (major_packFM maj d a b x st hlt) hlo hhi, fm_packFM maj d a b x st hlt]

theorem decode_packFB (hm : maj = 0x15 ∨ maj = 0x16) (hc : cnd < 8) :
    decode (packFB maj cnd a off) = decodeBranch maj cnd a off := by
  obtain ⟨hmaj, hcnd, ha, hoff⟩ := packFB_fields maj a off (by omega) cnd hc
  rcases hm with rfl | rfl
  all_goals simp only [decode, hmaj, hcnd, ha, hoff]

theorem decode_packF4 (hf : f < 2) :
    decode (packF4 f d a b c) = if f = 1 then .ok (.vfnma d a b c) else .ok (.vfma d a b c) := by
  obtain ⟨hlo, hhi, hbit, hd, ha, hb, hc⟩ := packF4_fields d a b c f hf
  rw [decode_of_majorF4 hlo hhi, hbit, hd, ha, hb, hc]
  simp only [beq_iff_eq]

end

/-! Narrow fields of an operand field, read back. -/

@[simp] theorem lowBits_widen_4 : ∀ st : BitVec 4, lowBits (widen st) 4 = st := by decide

@[simp] theorem lowBits_widen_3 : ∀ sc : BitVec 3, lowBits (widen sc) 3 = sc := by decide

@[simp] theorem widen_4_and : ∀ st : BitVec 4, widen st &&& 112#7 = 0#7 := by decide

@[simp] theorem widen_3_and : ∀ sc : BitVec 3, widen sc &&& 120#7 = 0#7 := by decide

@[simp] theorem widen_3_mod : ∀ sc : BitVec 3, (widen sc).toNat % 8 = sc.toNat := by decide

@[simp] theorem ring_and : ∀ st : BitVec 4, (16#7 ||| widen st) &&& 112#7 = 16#7 := by decide

@[simp] theorem lowBits_ring : ∀ st : BitVec 4, lowBits (16#7 ||| widen st) 4 = st := by decide

@[simp] theorem lowBits_joinBits : ∀ (hi : BitVec 3) (lo : BitVec 4), lowBits (joinBits hi lo) 4 = lo := by decide

@[simp] theorem joinBits_high : ∀ (hi : BitVec 3) (lo : BitVec 4), BitVec.ofNat 3 ((joinBits hi lo).toNat / 16) = hi := by
  decide

section
variable {maj : Nat} {i : Code → Code → BitVec 12 → Instr} {j : Code → Code → BitVec 5 → Instr}
  {k : Code → BitVec 19 → Instr} {l : BitVec 26 → Instr}

theorem decode_packFI {d a : Code} {imm : BitVec 12}
    (h : ∀ w, fieldNat w 26 6 = maj → decode w = .ok (i (field w 19 7) (field w 12 7) (field w 0 12)))
    (hm : maj < 64 := by decide) : decode (packFI maj d a imm) = .ok (i d a imm) := by
  obtain ⟨hmaj, hd, ha, himm⟩ := packFI_fields maj d a imm hm
  rw [h _ hmaj, hd, ha, himm]

theorem decode_packFI_shift {d a : Code} {imm : BitVec 5}
    (h : ∀ w, fieldNat w 26 6 = maj →
      decode w = chk (fieldNat w 5 7 == 0) (j (field w 19 7) (field w 12 7) (field w 0 5)))
    (hm : maj < 64 := by decide) : decode (packFI maj d a (imm.setWidth 12)) = .ok (j d a imm) := by
  have hd := d.isLt; have ha := a.isLt; have hi := imm.isLt
  have hn : (packFI maj d a (imm.setWidth 12)).toNat =
      maj * 2 ^ 26 + d.toNat * 2 ^ 19 + a.toNat * 2 ^ 12 + imm.toNat := by
    simp only [packFI, BitVec.toNat_ofNat, BitVec.toNat_setWidth]; omega
  have hz : fieldNat (packFI maj d a (imm.setWidth 12)) 5 7 = 0 := by simp only [fieldNat, hn]; omega
  have himm : field (packFI maj d a (imm.setWidth 12)) 0 5 = imm := field_eq (by rw [hn]; omega)
  obtain ⟨hmaj, hd, ha, -⟩ := packFI_fields maj d a (imm.setWidth 12) hm
  rw [h _ hmaj, hz, hd, ha, himm]
  rfl

theorem decode_packFK {d : Code} {imm : BitVec 19}
    (h : ∀ w, fieldNat w 26 6 = maj → decode w = .ok (k (field w 19 7) (field w 0 19)))
    (hm : maj < 64 := by decide) : decode (packFK maj d imm) = .ok (k d imm) := by
  obtain ⟨hmaj, hd, himm⟩ := packFK_fields maj d imm hm
  rw [h _ hmaj, hd, himm]

theorem decode_packFJ {off : BitVec 26} (h : ∀ w, fieldNat w 26 6 = maj → decode w = .ok (l (field w 0 26)))
    (hm : maj < 64 := by decide) : decode (packFJ maj off) = .ok (l off) := by
  obtain ⟨hmaj, hoff⟩ := packFJ_fields maj off hm
  rw [h _ hmaj, hoff]

end

theorem decode_ppt {imm : BitVec 19} : decode (packFK 0x1B 0 imm) = .ok (.ppt imm) := by
  obtain ⟨hmaj, hd, himm⟩ := packFK_fields 0x1B 0 imm (by decide)
  have hz : fieldNat (packFK 0x1B 0 imm) 19 7 = 0 := field_eq_iff.mp hd
  simp only [decode, hmaj, himm, hz]
  rfl

theorem decode_vcvt {d a : Code} {rnd : BitVec 3} {src dst : BitVec 4} {nw : Bool}
    (hs : (Instr.vcvt d a rnd src nw dst).shapeOk = true) :
    decode (packF3 0x05 dst.toNat d a (joinBits rnd src) nw) = .ok (.vcvt d a rnd src nw dst) := by
  simp only [Instr.shapeOk, Bool.and_eq_true, decide_eq_true_eq] at hs
  obtain ⟨⟨⟨hnw, hr⟩, hsrc⟩, hdst⟩ := hs
  have hsrc : ¬src = 15#4 := fun h => hsrc (congrArg BitVec.toNat h)
  have hr : ¬5 ≤ rnd.toNat := by omega
  rw [decode_packF3 _ _ _ _ (by decide) dst.isLt]
  simp_all [tableF3, decode05, chk, nwOk, nwFits]

theorem decode_vsel {d a b : Code} {nw : Bool} {m : BitVec 3} (hs : (Instr.vsel d a b nw m).shapeOk = true) :
    decode (packF3 0x07 m.toNat d a b nw) = .ok (.vsel d a b nw m) := by
  have hm := m.isLt
  have hlt : ¬8 ≤ m.toNat := by omega
  rw [decode_packF3 _ _ _ _ (by decide) (by omega)]
  simp_all [tableF3, decode07, chk, nwOk, Instr.shapeOk, nwFits]

theorem decode_loop {a : Code} {e : BitVec 12} (hs : (Instr.loop a e).shapeOk = true) :
    decode (packFL a e) = .ok (.loop a e) := by
  obtain ⟨hmaj, ha, he, hen, hz⟩ := packFL_fields a e
  have hne : e.toNat ≠ 0 := by
    simpa [Instr.shapeOk, ← BitVec.toNat_inj] using hs
  simp [decode, hmaj, ha, he, hen, hz, hne, chk]

/-- Settles O1: form by form, the packed word's fields are those of the instruction. -/
theorem decodeOfEncode : Obligations.DecodeOfEncode := by
  unfold Obligations.DecodeOfEncode
  intro i w hs he
  cases i
  all_goals simp only [encode, Option.some.injEq, reduceCtorEq] at he
  all_goals subst he
  case vcvt => exact decode_vcvt hs
  case vsel => exact decode_vsel hs
  case loop => exact decode_loop hs
  case ppt => exact decode_ppt
  case saddi | sandi | sori | sxori | sslti | vaddi => exact decode_packFI fun w h => by simp only [decode, h]
  case sshli | sshri | ssrai => exact decode_packFI_shift fun w h => by simp only [decode, h]
  case sli | slui => exact decode_packFK fun w h => by simp only [decode, h]
  case j | call => exact decode_packFJ fun w h => by simp only [decode, h]
  case b_eq | b_ne | b_lt | b_ge | b_gt | b_le | bm_any | bm_none | bm_all =>
    rw [decode_packFB _ _ (by decide) (by decide)]; rfl
  case vfma | vfnma => rw [decode_packF4 _ _ _ _ (by decide)]; rfl
  any_goals rw [decode_packFM _ _ _ _ _ (by decide) (by decide)]; rfl
  all_goals rw [decode_packF3 _ _ _ _ (by decide) (by decide)]
  case vredadd_i | vredadd_f | vredmin_s | vredmin_u | vredmin_f | vredmax_s | vredmax_u | vredmax_f | vscan_i | vscan_f =>
    simp_all [tableF3, decode06, chk, nwOk, Instr.shapeOk, nwFits]
  case fence | xfence => simp_all [tableF3, decode30, chk, Instr.shapeOk]
  case sattr | cflush | cinv | czero => simp [tableF3, decode30, chk]
  case ivsld | bmac | embw => simp [tableF3, decode34, chk]
  case cpa | cpa_ring | cpred => simp [tableF3, decode35, chk]
  any_goals rfl
  all_goals
    refine chk_of ?_
    simp_all [nwOk, Instr.shapeOk, nwFits]

end Sys2Proof

/-! Words that are no instruction (R40, R47, R56), and the words that the reference entries print. -/

namespace Sys2Proof

open Machine.Bits Claims

/-! ### Bits that must be zero -/

/-- The fields of format F3 have no bit of a mask set. -/
def ClearF3 (m : Word) (x : F3) : Prop :=
  x.d &&& field m 19 7 = 0 ∧ x.a &&& field m 12 7 = 0 ∧ x.b &&& field m 5 7 = 0 ∧ (bit m 4 = true → x.nw = false)

theorem getLsbD_field {w : Word} {lo n i : Nat} (hi : i < n) : (field w lo n).getLsbD i = w.getLsbD (lo + i) := by
  simp [field, hi, BitVec.getLsbD, Nat.testBit_div_two_pow, Nat.add_comm]

theorem bit_eq_getLsbD (w : Word) (i : Nat) : bit w i = w.getLsbD i := by
  simp only [bit, BitVec.getLsbD, Nat.testBit_eq_decide_div_mod_eq]
  rfl

theorem and_eq_zero_iff {n : Nat} {x y : BitVec n} : x &&& y = 0 ↔ ∀ i < n, (x.getLsbD i && y.getLsbD i) = false := by
  constructor
  · intro h i _
    rw [← BitVec.getLsbD_and, h, BitVec.ofNat_eq_ofNat, BitVec.getLsbD_zero]
  · intro h
    apply BitVec.eq_of_getLsbD_eq
    intro i hi
    simpa using h i hi

/-- A mask of bits of D, A, B and NW (R32) meets no bit of a word whose fields are clear of it. -/
theorem and_eq_zero_of_clearF3 {w m : Word} (hm : m &&& 0xFC00000F = 0) (h : ClearF3 m (f3 w)) : w &&& m = 0 := by
  obtain ⟨hd, ha, hb, hnw⟩ := h
  rw [and_eq_zero_iff]
  intro i hi
  have clear_field : ∀ lo, field w lo 7 &&& field m lo 7 = 0 → lo ≤ i → i < lo + 7 →
      (w.getLsbD i && m.getLsbD i) = false := by
    intro lo hf hlo hhi
    have hbit := and_eq_zero_iff.mp hf (i - lo) (by omega)
    rwa [getLsbD_field (by omega), getLsbD_field (by omega), Nat.add_sub_cancel' hlo] at hbit
  have hone : ∀ i < 32, i < 4 ∨ 26 ≤ i → (0xFC00000F : Word).getLsbD i = true := by decide
  have hrest : i < 4 ∨ 26 ≤ i → m.getLsbD i = false := fun hout => by
    simpa only [hone i hi hout, Bool.and_true] using and_eq_zero_iff.mp hm i hi
  by_cases hin : i = 4
  · subst hin
    have hw : bit m 4 = true → bit w 4 = false := hnw
    rw [bit_eq_getLsbD, bit_eq_getLsbD] at hw
    cases hm4 : m.getLsbD 4 <;> simp_all
  · rcases lt_or_ge i 5 with h5 | h5
    · rw [hrest (by omega), Bool.and_false]
    · rcases lt_or_ge i 12 with h12 | h12
      · exact clear_field 5 hb h5 h12
      · rcases lt_or_ge i 19 with h19 | h19
        · exact clear_field 12 ha h12 h19
        · rcases lt_or_ge i 26 with h26 | h26
          · exact clear_field 19 hd h19 h26
          · rw [hrest (by omega), Bool.and_false]

theorem and_127 (c : Code) : c &&& 127#7 = c := by simpa using BitVec.and_allOnes (x := c)

@[simp] theorem chk_eq_rsvbit {c : Bool} {i : Instr} : chk c i = .error .rsvbit ↔ c = false := by
  cases c <;> simp [chk]

/-- The form of the major and FN has no bit of the mask set, or the word is turned away. -/
def TurnsAway (e : Nat × Nat × Word) : Prop :=
  ∀ d a b nw, ClearF3 e.2.2 ⟨d, a, b, nw, e.2.1⟩ ∨ tableF3 e.1 ⟨d, a, b, nw, e.2.1⟩ = .error .rsvbit

theorem and_96_of_and_112 : ∀ c : Code, c &&& 112#7 = 0#7 ∨ c &&& 112#7 = 16#7 → c &&& 96#7 = 0#7 := by decide

theorem turnsAway_cpa : TurnsAway (0x35, 0, 0xC10) := by
  intro d a b nw
  have h := and_96_of_and_112 b
  simp only [ClearF3, field, bit, tableF3, decode35]
  split
  · simp_all
  · split <;> simp_all

/-- Entry by entry: the condition of the form's table names the bits of the mask. -/
theorem zeroBits_turnsAway : ∀ e ∈ zeroBits, TurnsAway e := by
  simp only [zeroBits, List.forall_mem_append, List.forall_mem_map, List.forall_mem_cons, List.not_mem_nil, false_implies,
    implies_true, and_true, List.mem_range, turnsAway_cpa, true_and]
  constructorm* _ ∧ _
  case left =>
    intro n hn d a b nw
    interval_cases n <;> simp [ClearF3, field, bit, tableF3, decode04]
  all_goals
    intro d a b nw
    simp [ClearF3, field, bit, tableF3, decode02, decode03, decode06, decode08, decode19, decode30, decode31, decode32,
      decode33, decode34, decode35, decode36, decode37, and_127]
    try grind

/-- NW = 1 with D not zero, in the forms that admit NW (R47). -/
theorem nwForms_turnsAway : ∀ e ∈ nwForms, ∀ d a b : Code, d ≠ 0 →
    tableF3 e.1 ⟨d, a, b, true, e.2⟩ = .error .rsvbit := by
  simp only [nwForms, List.range_succ, List.range_zero, List.map_append, List.map_cons, List.map_nil,
    List.forall_mem_append, List.forall_mem_cons, List.not_mem_nil, false_implies, implies_true, true_and, and_true]
  constructorm* _ ∧ _
  all_goals
    intro d a b hd
    have hd : ¬d = 0#7 := hd
    have hne : ∀ i, chk (d == 0#7) i = .error .rsvbit := fun i => by simpa using hd
    simp [hd, hne, tableF3, decode01, decode02, decode03, decode06, decode07, decode08, decode09, decode32, decode36, decode37,
      nwOk]

theorem reservedFns_undef : ∀ e ∈ reservedFns, ∀ x : F3, e.2 ≤ x.fn → x.fn < 16 → tableF3 e.1 x = .error .undef := by
  simp only [reservedFns, List.forall_mem_cons, List.not_mem_nil, false_implies, implies_true, and_true]
  constructorm* _ ∧ _
  all_goals
    rintro ⟨d, a, b, nw, fn⟩ hlo hhi
    dsimp only at hlo hhi
    interval_cases fn <;> rfl

theorem decode_eq_tableF3 {w : Word} {maj : Nat} (hm : fieldNat w 26 6 = maj) (h : maj ∈ majorsF3 := by decide) :
    decode w = tableF3 maj (f3 w) := by
  subst hm
  exact decode_of_majorF3 h

theorem zeroBits_majors : ∀ e ∈ zeroBits, e.1 ∈ majorsF3 ∧ e.2.2 &&& 0xFC00000F = 0 := by decide

theorem nwForms_majors : ∀ e ∈ nwForms, e.1 ∈ majorsF3 := by decide

theorem reservedFns_majors : ∀ e ∈ reservedFns, e.1 ∈ majorsF3 := by decide

theorem fn_f3_lt (w : Word) : (f3 w).fn < 16 := Nat.mod_lt _ (by decide)

/-- A bit set that must be zero. -/
theorem decode_of_zeroBits {w m : Word} {maj fn : Nat} (h : TurnsAway (maj, fn, m)) (hmaj : maj ∈ majorsF3)
    (hmask : m &&& 0xFC00000F = 0) (hm : fieldNat w 26 6 = maj) (hf : fieldNat w 0 4 = fn) (hw : w &&& m ≠ 0) :
    decode w = .error .rsvbit := by
  subst hf
  rw [decode_eq_tableF3 hm hmaj]
  exact (h _ _ _ _).resolve_left fun hc => hw (and_eq_zero_of_clearF3 hmask hc)

section
variable (w : Word)

theorem source_f3 : (lowBits (f3 w).b 4).toNat = fieldNat w 5 4 := by
  simp only [lowBits, f3, field, fieldNat, BitVec.toNat_ofNat]; omega

theorem rounding_f3 : (BitVec.ofNat 3 ((f3 w).b.toNat / 16)).toNat = fieldNat w 9 3 := by
  simp only [f3, field, fieldNat, BitVec.toNat_ofNat]; omega

/-- The types and the rounding of `vcvt` are none that the table of major 0x05 knows. -/
def Unconvertible : Prop := fieldNat w 0 4 = 15 ∨ fieldNat w 5 4 = 15 ∨ 5 ≤ fieldNat w 9 3

theorem unconvertible_iff : Unconvertible w ↔ ((f3 w).fn == 15 || lowBits (f3 w).b 4 == 15 ||
    decide ((BitVec.ofNat 3 ((f3 w).b.toNat / 16)).toNat ≥ 5)) = true := by
  have hsrc : lowBits (f3 w).b 4 = 15 ↔ fieldNat w 5 4 = 15 := by
    rw [← BitVec.toNat_inj, source_f3]; rfl
  rw [Bool.or_eq_true, Bool.or_eq_true, beq_iff_eq, beq_iff_eq, decide_eq_true_eq, hsrc, rounding_f3, Unconvertible, or_assoc]
  rfl

theorem decode05_of_unconvertible (h : Unconvertible w) : decode05 (f3 w) = .error .undef :=
  if_pos ((unconvertible_iff w).mp h)

theorem decode05_of_nw (h : ¬Unconvertible w) (hnw : bit w 4 = true) (hd : fieldNat w 19 7 ≠ 0) :
    decode05 (f3 w) = .error .rsvbit := by
  have hd : ¬field w 19 7 = 0 := fun h0 => hd (field_eq_iff.mp h0)
  refine (if_neg fun hc => h ((unconvertible_iff w).mpr hc)).trans (chk_eq_rsvbit.mpr ?_)
  simpa [nwOk, f3, hnw] using hd

/-- The scopes of `fence` and `xfence` are the low bits of A and D. -/
theorem scope_f3 : (f3 w).a.toNat % 8 = fieldNat w 12 3 ∧ (f3 w).d.toNat % 8 = fieldNat w 19 3 := by
  simp only [f3, field, fieldNat, BitVec.toNat_ofNat]; omega

theorem kind_f3 : (f3 w).b.toNat % 4 = fieldNat w 5 2 := by
  simp only [f3, field, fieldNat, BitVec.toNat_ofNat]; omega

theorem decode06_of_kind3 (hf : (f3 w).fn = 8 ∨ (f3 w).fn = 9) (hk : fieldNat w 5 2 = 3) :
    decode06 (f3 w) = .error .rsvbit := by
  have hb : ∀ c : Code, c.toNat % 4 ≠ 3 → ¬(f3 w).b = c := by
    rintro c hc rfl
    exact hc ((kind_f3 w).trans hk)
  have h0 := hb 0 (by decide); have h1 := hb 1 (by decide); have h2 := hb 2 (by decide)
  rcases hf with hf | hf <;> simp_all [decode06]

theorem decode30_of_fence (hf : (f3 w).fn = 0) : decode30 (f3 w) = if 5 ≤ fieldNat w 12 3 then .error .undef else
    chk (((f3 w).d &&& 112) == 0 && ((f3 w).a &&& 120) == 0 && (f3 w).b == 0 && !(f3 w).nw)
      (.fence (lowBits (f3 w).d 4) (lowBits (f3 w).a 3)) := by
  simp only [decode30, hf, scope_f3]

theorem decode30_of_xfence (hf : (f3 w).fn = 1) : decode30 (f3 w) = if 5 ≤ fieldNat w 19 3 then .error .undef else
    chk (((f3 w).d &&& 120) == 0 && (f3 w).b == 0 && !(f3 w).nw) (.xfence (lowBits (f3 w).d 3) (f3 w).a) := by
  simp only [decode30, hf, scope_f3]

end

/-- Settles O3: the tables say which FN and which bits a major has; the other formats are cut by their own rows. -/
theorem reservedWords : Obligations.ReservedWords := by
  unfold Obligations.ReservedWords
  refine ⟨?major0, ?fn, ?convert, ?fence, ?xfence, ?branch, ?maskBranch, ?loop, ?zero, ?nw, ?convertNw, ?kind, ?fenceBits,
    ?xfenceBits, ?shift, ?loopBits, ?ppt⟩
  case major0 => intro w hm; simp only [decode, hm]
  case fn =>
    intro e he w hm hf
    rw [decode_eq_tableF3 hm (reservedFns_majors e he)]
    exact reservedFns_undef e he _ hf (fn_f3_lt w)
  case zero =>
    intro e he w hm hf hw
    obtain ⟨hmaj, hmask⟩ := zeroBits_majors e he
    exact decode_of_zeroBits (zeroBits_turnsAway e he) hmaj hmask hm hf hw
  case nw =>
    intro e he w hm hf hnw hd
    rw [decode_eq_tableF3 hm (nwForms_majors e he)]
    have hx : f3 w = ⟨(f3 w).d, (f3 w).a, (f3 w).b, true, e.2⟩ := by rw [← hf, ← hnw]; rfl
    rw [hx]
    exact nwForms_turnsAway e he _ _ _ fun h0 => hd (field_eq_iff.mp h0)
  case convert =>
    intro w hm h
    rw [decode_eq_tableF3 hm]
    exact decode05_of_unconvertible w h
  case convertNw =>
    intro w hm hdst hsrc hrnd hnw hd
    rw [decode_eq_tableF3 hm]
    exact decode05_of_nw w (by simp only [Unconvertible]; omega) hnw hd
  case kind =>
    intro w hm hf hk
    rw [decode_eq_tableF3 hm]
    exact decode06_of_kind3 w hf hk
  case fence =>
    intro w hm hf hs
    rw [decode_eq_tableF3 hm, tableF3, decode30_of_fence w hf, if_pos hs]
  case xfence =>
    intro w hm hf hs
    rw [decode_eq_tableF3 hm, tableF3, decode30_of_xfence w hf, if_pos hs]
  case fenceBits =>
    intro w hm hf hs hw
    rw [decode_eq_tableF3 hm, tableF3, decode30_of_fence w hf, if_neg (by omega), chk_eq_rsvbit]
    by_contra hc
    refine hw (and_eq_zero_of_clearF3 (by decide) ?_)
    simp [ClearF3, field, bit, and_127] at hc ⊢
    tauto
  case xfenceBits =>
    intro w hm hf hs hw
    rw [decode_eq_tableF3 hm, tableF3, decode30_of_xfence w hf, if_neg (by omega), chk_eq_rsvbit]
    by_contra hc
    refine hw (and_eq_zero_of_clearF3 (by decide) ?_)
    simp [ClearF3, field, bit, and_127] at hc ⊢
    tauto
  case branch =>
    intro w hm hc
    simp only [decode, hm]
    unfold decodeBranch
    split <;> simp_all
  case maskBranch =>
    intro w hm hc
    simp only [decode, hm]
    unfold decodeBranch
    split <;> simp_all
  case loop => intro w hm hz; simp [decode, hm, hz]
  case loopBits => intro w hm hn hz; simp [decode, hm, hn, hz]
  case shift => rintro w (hm | hm | hm) hz <;> simp [decode, hm, hz]
  case ppt => intro w hm hz; simp [decode, hm, hz]


/-! ### Printed words -/

/-- Settles O4: each printed word is run through the decoder. -/
theorem printedWords : Obligations.PrintedWords := by
  unfold Obligations.PrintedWords
  decide

end Sys2Proof

/-! The step of a group whose turn it is (R30, R48, R56, R68, R338), reset, and the start of a group (R84). -/

namespace Sys2Proof.Machine

open Assoc Bits Claims

/-! ### A group's turn -/

section
variable {s : State} {gid : Nat} {late old : Bool} {rest : List Action} {g : Group}

theorem step_of_agenda {a : Action} (h : s.agenda = a :: rest) : step s =
    if (s.fatal || s.recovery) && !survives s.recovery a then .fault (if s.fatal then .issueStopped else .inRecovery)
    else act a { s with agenda := rest } := by
  simp only [step, oneStep, h]

/-- No issue survives a fatal error or recovery (R338, R334). -/
theorem step_of_stopped (h : s.agenda = .issue gid late :: rest ∨ s.agenda = .issueOld gid :: rest)
    (hs : (s.fatal || s.recovery) = true) : step s = .fault (if s.fatal then .issueStopped else .inRecovery) := by
  rcases h with h | h <;> rw [step_of_agenda h, hs] <;> rfl

theorem step_of_scheduled (h : Scheduled s gid late old rest) :
    step s = runGroup { s with agenda := rest } gid late old := by
  obtain ⟨⟨ha, rfl⟩ | ⟨ha, rfl, rfl⟩, hf, hr⟩ := h <;> rw [step_of_agenda ha, hf, hr] <;> rfl

theorem runGroup_of_free (h : Free (turnOf s gid late old rest) gid g) :
    runGroup { s with agenda := rest } gid late old = runReady (turnOf s gid late old rest) gid g := by
  obtain ⟨hg, hready, hscan, hquarter, -⟩ := h
  have hg' : State.group? { s with agenda := rest, cur := gid, late := late, stale := old } gid = some g := hg
  have hbusy : ((State.coreAt { s with agenda := rest, cur := gid, late := late, stale := old } g.core).scanning ||
      quarterTaken { s with agenda := rest, cur := gid, late := late, stale := old } gid g) = false :=
    Bool.or_eq_false_iff.mpr ⟨hscan, hquarter⟩
  simp only [runGroup, hg', hbusy, hready]
  rfl

theorem step_of_free (hs : Scheduled s gid late old rest) (hf : Free (turnOf s gid late old rest) gid g) :
    step s = runReady (turnOf s gid late old rest) gid g := by
  rw [step_of_scheduled hs, runGroup_of_free hf]

end

/-! ### What a turn with nothing before it comes to -/

section
variable {s : State} {gid : Nat} {g : Group} {w : Word} {h : Hit}

theorem not_ended_of_free (hf : Free s gid g) : (decide (g.lmask = 0) && chainOver s g g.pc) = false := by
  obtain ⟨-, -, -, -, hl | hl, -⟩ := hf
  · rw [decide_eq_false hl, Bool.false_and]
  · rw [hl, Bool.and_false]

theorem not_halting_of_free (hf : Free s gid g) : (haltOwed g && atBoundary s g) = false := by
  obtain ⟨-, -, -, -, -, -, hh | hh, -⟩ := hf <;> simp [hh]

theorem runReady_of_fetch_error {c : Cause} (hf : Free s gid g) (hw : fetchAt s g g.pc = .error c) :
    runReady s gid g = execFetchFault s := by
  have hend := not_ended_of_free hf
  have hstep := not_halting_of_free hf
  obtain ⟨-, -, -, -, -, hfp, -, htimer, hbreak⟩ := hf
  simp only [runReady, hend, hfp, hstep, htimer, hbreak, hw]
  rfl

theorem runReady_of_fetch (hf : Free s gid g) (hw : fetchAt s g g.pc = .ok (w, h)) (hb : hitBad s h 4 = false) :
    runReady s gid g = match decode w with
      | .error _ => execUndefinedWord w (markHit s h)
      | .ok i => if headWaits (markHit s h) g i then .next (markHit s h) else exec i (markHit s h) := by
  have hend := not_ended_of_free hf
  have hstep := not_halting_of_free hf
  obtain ⟨-, -, -, -, -, hfp, -, htimer, hbreak⟩ := hf
  simp only [runReady, hend, hfp, hstep, htimer, hbreak, hw, hb]
  rfl

theorem runReady_of_decoded {i : Instr} (hf : Free s gid g) (hw : fetchAt s g g.pc = .ok (w, h))
    (hb : hitBad s h 4 = false) (hd : decode w = .ok i) (hh : headWaits (markHit s h) g i = false) :
    runReady s gid g = exec i (markHit s h) := by
  simp [runReady_of_fetch hf hw hb, hd, hh]

theorem runReady_of_undecoded {f : Fate} (hf : Free s gid g) (hw : fetchAt s g g.pc = .ok (w, h))
    (hb : hitBad s h 4 = false) (hd : decode w = .error f) : runReady s gid g = exec (.undefined_word w) (markHit s h) := by
  simp [runReady_of_fetch hf hw hb, hd]

end

/-- Settles O7: no issue survives the stop. -/
theorem fatalStops : Obligations.FatalStops := by
  unfold Obligations.FatalStops
  intro s gid late rest ha
  refine ⟨fun hf => ?_, fun hf hr => ?_⟩
  · rw [step_of_stopped ha (by simp [hf]), if_pos hf]
  · rw [step_of_stopped ha (by simp [hr]), hf]; rfl

/-- Settles O5: the turn of a free group is its next word, run where the fetch is noted. -/
theorem stepRunsDecoded : Obligations.StepRunsDecoded := by
  unfold Obligations.StepRunsDecoded
  intro s gid late old rest g w h i hs hf hw hb hd s1 hh
  rw [step_of_free hs hf, runReady_of_decoded hf hw hb hd hh]

/-! ### Words that are no instruction, and fetch faults -/

section
variable {s : State} {g : Group} {w : Word}

theorem execUndefinedWord_of_fate {f : Fate} (hg : s.group? s.cur = some g) (hs : g.status = .ready)
    (hc : (s.coreAt g.core).scanning = false) (hf : fpDue s g = false) (hd : decode w = .error f) :
    execUndefinedWord w s = .next (raise (ranHere s g) s.cur g false
      (match f with | .undef => .undef | .rsvbit => if undefWord g.fmt w then .undef else .rsvbit) 0 0 w) := by
  cases f <;> simp [execUndefinedWord, hg, hs, hc, hf, hd]

theorem execUndefinedWord_of_waiting (hg : s.group? s.cur = some g)
    (h : (s.coreAt g.core).scanning = true ∨ fpDue s g = true) : execUndefinedWord w s = .next s := by
  rcases h with h | h <;> simp [execUndefinedWord, hg, h]

theorem execFetchFault_of_scanning (hg : s.group? s.cur = some g) (h : (s.coreAt g.core).scanning = true) :
    execFetchFault s = .next s := by
  simp [execFetchFault, hg, h]

end

/-- Settles O6: each step by the branch of its meaning that the hypotheses choose. -/
theorem stepOfNoInstruction : Obligations.StepOfNoInstruction := by
  unfold Obligations.StepOfNoInstruction
  refine ⟨?step, ?word, ?fetch, ?bad, ?scan, ?due⟩
  case step =>
    intro s gid late old rest g hs hf s0
    refine ⟨fun w h f hw hb hd => ?_, fun c hw => ?_⟩
    · rw [step_of_free hs hf, runReady_of_undecoded hf hw hb hd]
    · rw [step_of_free hs hf, runReady_of_fetch_error hf hw, exec_fetch_fault]
  case word =>
    intro w s g hg hs hc hf
    refine ⟨fun hd => ?_, fun hd hu => ?_, fun hd hu => ?_⟩ <;>
      rw [exec_undefined_word, execUndefinedWord_of_fate hg hs hc hf hd]
    · rw [hu]; rfl
    · rw [hu]; rfl
  case fetch => intro c s g hg hs hc hw; simp [execFetchFault, hg, hs, hc, hw]
  case bad => intro s g w h hg hs hc hw hb; simp [execFetchFault, hg, hs, hc, hw, hb]
  case scan => exact fun w s g hg hc => ⟨execUndefinedWord_of_waiting hg (.inl hc), execFetchFault_of_scanning hg hc⟩
  case due => exact fun w s g hg hf => execUndefinedWord_of_waiting hg (.inr hf)

theorem vfstat_reset (d : Nat) : vfstat State.reset d = 0x02BC0000 := by
  change BitVec.ofNat 32 (700 * 2 ^ 16 + 0) = _
  decide

theorem astat_reset (c : Nat) : astat State.reset c = 0 := by
  change BitVec.ofNat 32 ((if false then 2 ^ 31 else 0) + (if false then 2 ^ 30 else 0) + 0 * 2 ^ 16 + 0) = _
  decide

/-- Settles O59: the reset state and the start of a group are written out field by field. -/
theorem resetState : Obligations.ResetState := by
  unfold Obligations.ResetState
  refine ⟨rfl, rfl, rfl, rfl, rfl, rfl, rfl, rfl, rfl, fun _ => rfl, fun d => ⟨rfl, vfstat_reset d, rfl⟩,
    fun c => ⟨rfl, rfl, rfl, rfl, rfl, astat_reset c⟩, fun l lid bid core slot gen wid entry k => ?_⟩
  refine ⟨rfl, rfl, rfl, rfl, rfl, rfl, rfl, rfl, rfl, rfl, rfl, ?_, ?_, fun _ _ => rfl, fun _ => rfl, fun _ => rfl⟩
  · simp only [List.forall_mem_cons, List.not_mem_nil, false_implies, implies_true, and_true]
    have hi_zero : hi32 0 = 0 := by decide
    exact ⟨rfl, rfl, rfl, hi_zero, rfl, hi_zero, rfl, rfl, hi_zero, rfl, rfl⟩
  · simp only [List.forall_mem_cons, List.not_mem_nil, false_implies, implies_true, and_true]
    exact ⟨rfl, rfl, rfl, rfl⟩

end Sys2Proof.Machine

/-! Traps: their entry and return, faults at decode, and how precise a fault is (R49, R56, R57, R223 to R229). -/

namespace Sys2Proof.Machine

open Assoc Bits Claims

/-! ### Entry and return -/

section
variable {s : State} {gid : Nat} {g : Group} {i : TrapInfo}

theorem deliverable_iff {c : Cause} : deliverable g c = true ↔
    causeToHandler c = true ∧ g.trap.tvec ≠ 0 ∧ g.trap.tvec &&& 3 = 0 ∧ g.trap.intrap = false := by
  simp [deliverable, and_assoc]

theorem takeTrap_of_deliverable (hg : s.group? gid = some g) (hd : deliverable g i.cause = true) :
    takeTrap s gid i = s.setGroup gid (enterHandler g i) := by
  simp only [takeTrap, hg, hd, if_true]

theorem trapBoundary_of_deliverable (hg : s.group? gid = some g) (hd : deliverable g i.cause = true) (hl : g.lmask ≠ 0) :
    trapBoundary s gid i = s.setGroup gid (enterHandler g i) := by
  have hl' : ¬(enterHandler g i).lmask = 0 := hl
  simp only [trapBoundary, takeTrap_of_deliverable hg hd, group?_setGroup_same, if_neg hl']

end

/-- Settles O10: entry to the handler, field by field. -/
theorem trapEntry : Obligations.TrapEntry := by
  unfold Obligations.TrapEntry
  intro s gid g i hg hc hv hal hin
  exact ⟨_, takeTrap_of_deliverable hg (deliverable_iff.mpr ⟨hc, hv, hal, hin⟩), rfl, rfl, rfl, rfl, rfl, rfl, rfl, rfl, rfl,
    rfl, rfl, rfl, rfl, rfl, rfl⟩

section
variable {g : Group} {t : DWord}

/-- Arrival after an instruction moves the PC and the loop stack alone (R78). -/
theorem resumeAfter_frame (g : Group) (a : DWord) : ∃ ls pc, resumeAfter g a = { g with lstack := ls, pc := pc } := by
  unfold resumeAfter
  split
  · exact ⟨_, _, rfl⟩
  · exact ⟨g.lstack, _, rfl⟩

theorem resumeAt_frame (g : Group) (t : DWord) : ∃ ls pc, resumeAt g t = { g with lstack := ls, pc := pc } := by
  unfold resumeAt
  split
  · exact resumeAfter_frame g _
  · exact ⟨g.lstack, _, rfl⟩

theorem resumeAt_of_not_atLoopEnd (h : atLoopEnd g (t - 4) = false) : resumeAt g t = { g with pc := t } := by
  rw [resumeAt, h]; rfl

theorem resumeAt_of_atLoopEnd (h : atLoopEnd g (t - 4) = true) : resumeAt g t =
    { g with lstack := (loopEnd g.loopBase (t - 4) g.lstack).1, pc := (loopEnd g.loopBase (t - 4) g.lstack).2 } := by
  rw [resumeAt, if_pos h, resumeAfter, if_pos h]

/-- Outside handlers every loop of the stack counts. -/
theorem loopBase_of_not_intrap (h : g.trap.intrap = false) : g.loopBase = 0 := by rw [Group.loopBase, h]; rfl

theorem atLoopEnd_iff (a : DWord) : atLoopEnd g a = true ↔
    ∃ top rest, g.lstack = top :: rest ∧ g.loopBase < g.lstack.length ∧ top.last = a := by
  unfold atLoopEnd
  split <;> simp_all

end

/-- Settles O12: the handler's loops popped, then the transfer to TNEXT. -/
theorem trapReturn : Obligations.TrapReturn := by
  unfold Obligations.TrapReturn
  intro g
  refine ⟨_, rfl, ?_⟩
  generalize hls : (if g.trap.intrap then g.lstack.drop (g.lstack.length - g.trap.lbase.toNat) else g.lstack) = ls
  have hret : returnFromTrap g = resumeAt { g with lstack := ls, trap := { g.trap with intrap := false } } g.trap.tnext := by
    rw [← hls]; rfl
  obtain ⟨ls', pc', hframe⟩ :=
    resumeAt_frame { g with lstack := ls, trap := { g.trap with intrap := false } } g.trap.tnext
  have hbase : Group.loopBase { g with lstack := ls, trap := { g.trap with intrap := false } } = 0 := rfl
  rw [hret]
  refine ⟨by rw [hframe], by rw [hframe], by rw [hframe], by rw [hframe], by rw [hframe], by rw [hframe], ?_, ?_, ?_⟩
  · intro hin
    rw [← hls, if_pos hin, List.length_drop]
    omega
  · intro hno
    rw [resumeAt_of_not_atLoopEnd]
    · exact ⟨rfl, rfl⟩
    · rw [← Bool.not_eq_true, atLoopEnd_iff]
      rintro ⟨top, rest, hl, -, hlast⟩
      exact hno top rest hl hlast
  · intro top rest hl hlast
    rw [resumeAt_of_atLoopEnd, hbase]
    exact (atLoopEnd_iff _).mpr ⟨top, rest, hl, by rw [hbase, show _ = _ from hl]; exact Nat.succ_pos _, hlast⟩

/-! ### Faults at decode -/

section
variable {s : State} {g : Group} {i : Instr} {c : Cause}

theorem decodeFault_of_undef (h : undefByFmt g.fmt i = true) : decodeFault s g i = some .undef := if_pos h

theorem decodeFault_of_wordFault (h : undefByFmt g.fmt i = false) (hw : wordFault g i = some c) :
    decodeFault s g i = some c := by
  simp [decodeFault, h, hw]

/-- A fault that the word alone shows joins no chain (log 25). -/
theorem faultJoins_of_wordFault (hw : wordFault g i = some c) : faultJoins s g i = false := by
  simp [faultJoins, hw]

theorem wordFault_of_priv {n : Nat} (hn : csrNumber i = some n) (hlo : 0x60 ≤ n) (hp : g.priv = false) :
    wordFault g i = some .priv := by
  simp [wordFault, hn, hlo, hp]

theorem wordFault_of_codes (hn : ∀ n, csrNumber i = some n → n < 0x60 ∨ g.priv = true)
    (hcodes : codesOk (oprsOf 0 i) = false) : wordFault g i = some .opnd := by
  cases hcsr : csrNumber i with
  | none => exact wordFault_of_code hcsr hcodes
  | some n =>
    have hpriv : (!g.priv && decide (n ≥ 0x60)) = false := by
      rcases hn n hcsr with h | h
      · rw [decide_eq_false (by omega), Bool.and_false]
      · rw [h]; rfl
    simp only [wordFault, hcsr, hpriv, hcodes]
    rfl

end

/-- Settles O13: the checks in the order of R57. -/
theorem decodeFaultRaised : Obligations.DecodeFaultRaised := by
  unfold Obligations.DecodeFaultRaised
  intro i body s g c hg hs hc hd
  refine ⟨issue_of_decodeFault hg hs hc hd body, fun hu => ?undef, fun hu hp => ?priv, fun hu hp hcodes => ?opnd⟩
  case undef => exact (Option.some_inj.mp ((decodeFault_of_undef hu).symm.trans hd)).symm
  case priv =>
    obtain ⟨n, hn, hlo, hpriv⟩ := hp
    have hw := wordFault_of_priv hn hlo hpriv
    exact ⟨(Option.some_inj.mp ((decodeFault_of_wordFault hu hw).symm.trans hd)).symm, faultJoins_of_wordFault hw⟩
  case opnd =>
    have hw := wordFault_of_codes hp hcodes
    exact ⟨(Option.some_inj.mp ((decodeFault_of_wordFault hu hw).symm.trans hd)).symm, faultJoins_of_wordFault hw⟩

/-! ### The writes of a chain undone -/

/-- One register as it stood at the head of the chain (R49). -/
def undoReg (c : Chain) (g : Group) : RegId → Group
  | .v n => (List.range 32).foldl (fun g j => restoreElem g c (elemOf (c.wb + n) j)) g
  | .s n => restoreScalar g c n
  | .m n => { g with m := put 0 g.m n (get 0 c.savedM n) }
  | .t _ => g

theorem undoChain_eq (g : Group) : undoChain g = g.chain.writes.foldl (undoReg g.chain) g := by
  unfold undoChain
  congr 1

/-- The undoing of writes touches registers and their marks alone. -/
def RegistersOnly (g g' : Group) : Prop :=
  ∃ v sc m bv bs, g' = { g with v := v, s := sc, m := m, badV := bv, badS := bs }

theorem foldl_restoreElem_frame (c : Chain) (ns : List Nat) : ∀ g : Group,
    ∃ v bv, ns.foldl (fun g n => restoreElem g c n) g = { g with v := v, badV := bv } := by
  induction ns with
  | nil => exact fun g => ⟨_, _, rfl⟩
  | cons n ns ih =>
    intro g
    obtain ⟨v, bv, h⟩ := ih (restoreElem g c n)
    exact ⟨v, bv, by rw [List.foldl_cons, h]; rfl⟩

theorem get_foldl_restoreElem (c : Chain) (ns : List Nat) : ∀ (g : Group) (k : Nat),
    get 0 (ns.foldl (fun g n => restoreElem g c n) g).v k = if k ∈ ns then get 0 c.savedV k else get 0 g.v k := by
  induction ns with
  | nil => exact fun g k => rfl
  | cons n ns ih =>
    intro g k
    rw [List.foldl_cons, ih]
    by_cases hns : k ∈ ns
    · simp [hns]
    · by_cases hk : k = n
      · subst hk; simp [restoreElem]
      · simp [restoreElem, hns, hk, get_put_other]

/-- The elements of a window register as numbers of the register file. -/
def elemsOf (reg : Nat) : List Nat := (List.range 32).map (elemOf reg)

theorem mem_elemsOf {reg k : Nat} : k ∈ elemsOf reg ↔ ∃ j < 32, elemOf reg j = k := by simp [elemsOf]

theorem elemOf_mem_elemsOf {r reg j : Nat} (hj : j < 32) : elemOf r j ∈ elemsOf reg ↔ reg = r := by
  rw [mem_elemsOf]
  constructor
  · rintro ⟨j', hj', h⟩
    unfold elemOf at h
    omega
  · rintro rfl
    exact ⟨j, hj, rfl⟩

section
variable (c : Chain) (g : Group)

theorem undoReg_v_eq (n : Nat) : undoReg c g (.v n) = (elemsOf (c.wb + n)).foldl (fun g k => restoreElem g c k) g := by
  simp [undoReg, elemsOf, List.foldl_map]

theorem undoReg_registersOnly (r : RegId) : RegistersOnly g (undoReg c g r) := by
  cases r with
  | v n =>
    obtain ⟨v, bv, h⟩ := foldl_restoreElem_frame c (elemsOf (c.wb + n)) g
    exact ⟨v, _, _, bv, _, by rw [undoReg_v_eq, h]⟩
  | s n => exact ⟨_, _, _, _, _, rfl⟩
  | m n => exact ⟨_, _, _, _, _, rfl⟩
  | t n => exact ⟨_, _, _, _, _, rfl⟩

theorem foldl_undoReg_registersOnly (ws : List RegId) : ∀ g : Group, RegistersOnly g (ws.foldl (undoReg c) g) := by
  induction ws with
  | nil => exact fun g => ⟨_, _, _, _, _, rfl⟩
  | cons r ws ih =>
    intro g
    obtain ⟨v, sc, m, bv, bs, h⟩ := undoReg_registersOnly c g r
    obtain ⟨v', sc', m', bv', bs', h'⟩ := ih (undoReg c g r)
    exact ⟨v', sc', m', bv', bs', by rw [List.foldl_cons, h', h]⟩

theorem undoChain_registersOnly : RegistersOnly g (undoChain g) :=
  undoChain_eq g ▸ foldl_undoReg_registersOnly g.chain _ g

/-- What an undone register file holds, from what one undone register makes of it. -/
theorem foldl_undoReg {proj : Group → Nat → Word} {saved : Nat → Word} {hit : RegId → Nat → Prop}
    [∀ r k, Decidable (hit r k)]
    (hstep : ∀ g r k, proj (undoReg c g r) k = if hit r k then saved k else proj g k) (k : Nat) (ws : List RegId) :
    ∀ g : Group, proj (ws.foldl (undoReg c) g) k = if ∃ r ∈ ws, hit r k then saved k else proj g k := by
  induction ws with
  | nil => exact fun g => by simp
  | cons r ws ih =>
    intro g
    rw [List.foldl_cons, ih, hstep]
    by_cases hws : ∃ r ∈ ws, hit r k
    · obtain ⟨r', hr', hk⟩ := hws
      rw [if_pos ⟨r', hr', hk⟩, if_pos ⟨r', List.mem_cons_of_mem _ hr', hk⟩]
    · by_cases hr : hit r k
      · rw [if_neg hws, if_pos hr, if_pos ⟨r, List.mem_cons_self, hr⟩]
      · rw [if_neg hws, if_neg hr, if_neg]
        rintro ⟨r', hr', hk⟩
        rcases List.mem_cons.mp hr' with rfl | hmem
        · exact hr hk
        · exact hws ⟨r', hmem, hk⟩

end

/-- A write of the chain to a vector register undoesElem an element. -/
def undoesElem (c : Chain) : RegId → Nat → Bool
  | .v n, k => (elemsOf (c.wb + n)).contains k
  | _, _ => false

theorem undoReg_v (c : Chain) (g : Group) (r : RegId) (k : Nat) :
    get 0 (undoReg c g r).v k = if undoesElem c r k then get 0 c.savedV k else get 0 g.v k := by
  cases r with
  | v n => rw [undoReg_v_eq, get_foldl_restoreElem]; simp [undoesElem]
  | s n => rfl
  | m n => rfl
  | t n => rfl

theorem undoReg_s (c : Chain) (g : Group) (r : RegId) (k : Nat) :
    get 0 (undoReg c g r).s k = if r = .s k then get 0 c.savedS k else get 0 g.s k := by
  cases r with
  | v n => 
    obtain ⟨v, bv, h⟩ := foldl_restoreElem_frame c (elemsOf (c.wb + n)) g
    rw [undoReg_v_eq, h]; rfl
  | s n =>
    by_cases hk : n = k
    · subst hk; simp [undoReg, restoreScalar]
    · simp [undoReg, restoreScalar, hk, get_put_other _ _ _ (Ne.symm hk)]
  | m n => rfl
  | t n => rfl

theorem undoReg_m (c : Chain) (g : Group) (r : RegId) (k : Nat) :
    get 0 (undoReg c g r).m k = if r = .m k then get 0 c.savedM k else get 0 g.m k := by
  cases r with
  | v n => 
    obtain ⟨v, bv, h⟩ := foldl_restoreElem_frame c (elemsOf (c.wb + n)) g
    rw [undoReg_v_eq, h]; rfl
  | m n =>
    by_cases hk : n = k
    · subst hk; simp [undoReg]
    · simp [undoReg, hk, get_put_other _ _ _ (Ne.symm hk)]
  | s n => rfl
  | t n => rfl

section
variable (g : Group) (k : Nat)

theorem undoChain_s : (undoChain g).scalar k = if .s k ∈ g.chain.writes then get 0 g.chain.savedS k else g.scalar k := by
  rw [undoChain_eq]
  exact (foldl_undoReg g.chain (proj := fun g k => get 0 g.s k) (undoReg_s g.chain) k _ g).trans (by simp [Group.scalar])

theorem undoChain_m : (undoChain g).maskAt k = if .m k ∈ g.chain.writes then get 0 g.chain.savedM k else g.maskAt k := by
  rw [undoChain_eq]
  exact (foldl_undoReg g.chain (proj := fun g k => get 0 g.m k) (undoReg_m g.chain) k _ g).trans (by simp [Group.maskAt])

theorem undoChain_v : get 0 (undoChain g).v k =
    if ∃ r ∈ g.chain.writes, undoesElem g.chain r k then get 0 g.chain.savedV k else get 0 g.v k := by
  rw [undoChain_eq]
  exact foldl_undoReg g.chain (proj := fun g k => get 0 g.v k) (undoReg_v g.chain) k _ g

end

theorem undoesElem_elemOf {c : Chain} {r : RegId} {reg j : Nat} (hj : j < 32) :
    undoesElem c r (elemOf reg j) = true ↔ ∃ n, r = .v n ∧ c.wb + n = reg := by
  cases r <;> simp [undoesElem, elemOf_mem_elemsOf hj]

/-- Settles O14: outside a chain the trap is entered as it stands, inside one after the undoing of its writes. -/
theorem faultIsPrecise : Obligations.FaultIsPrecise := by
  unfold Obligations.FaultIsPrecise
  intro s gid g c lanes addr w hg hd hl
  constructor
  · refine ⟨enterHandler (issued g w) ⟨c, false, g.pc, g.pc, lanes, addr, w⟩, ?_, rfl, rfl, rfl, rfl, rfl, rfl, rfl, rfl, rfl⟩
    have hraise : raise s gid g false c lanes addr w =
        trapBoundary (s.setGroup gid (issued g w)) gid ⟨c, false, g.pc, g.pc, lanes, addr, w⟩ := rfl
    have hd' : deliverable (issued g w) c = true := hd
    have hl' : (issued g w).lmask ≠ 0 := hl
    rw [hraise, trapBoundary_of_deliverable (group?_setGroup_same _ _ _) hd' hl', setGroup_setGroup]
  · intro hch hla
    obtain ⟨v, sc, m, bv, bs, hundo⟩ := undoChain_registersOnly g
    have hv := undoChain_v g; have hs := undoChain_s g; have hm := undoChain_m g
    have hraise : raise s gid g true c lanes addr w = trapBoundary (s.setGroup gid (issued (undoChain g) w)) gid
        ⟨c, true, g.chain.head, g.chain.head, lanes, addr, w⟩ := by
      simp [raise, hch, hla]
    have hd' : deliverable (issued (undoChain g) w) c = true := by rw [hundo]; exact hd
    have hl' : (issued (undoChain g) w).lmask ≠ 0 := by rw [hundo]; exact hl
    refine ⟨enterHandler (issued (undoChain g) w) ⟨c, true, g.chain.head, g.chain.head, lanes, addr, w⟩, ?_, rfl, rfl, rfl,
      fun n hn => ?_, fun n hn => ?_, fun n j hn hj => ?_, fun r j hj hn => ?_, fun n hn => ?_, fun n hn => ?_⟩
    · rw [hraise, trapBoundary_of_deliverable (group?_setGroup_same _ _ _) hd' hl', setGroup_setGroup]
    · exact (hs n).trans (if_pos hn)
    · exact (hs n).trans (if_neg hn)
    · exact (hv _).trans (if_pos ⟨_, hn, (undoesElem_elemOf hj).mpr ⟨n, rfl, rfl⟩⟩)
    · refine (hv _).trans (if_neg ?_)
      rintro ⟨r', hr', hc⟩
      obtain ⟨n, rfl, hreg⟩ := (undoesElem_elemOf hj).mp hc
      exact hn n hr' hreg
    · exact (hm n).trans (if_pos hn)
    · exact (hm n).trans (if_neg hn)

end Sys2Proof.Machine

/-! What follows the effect of an instruction: the advance of a calm group, and the traps at a chain's end (R43 to R50, R78,
R128, R244). -/

namespace Sys2Proof.Machine.Assoc

variable {α : Type}

theorem upd_of_not_mem {m : Map α} {k : Nat} (f : α → α) (h : ∀ e ∈ m, e.1 ≠ k) : upd m k f = m := by
  rw [upd, List.map_congr_left (g := id) fun e he => by simp [h e he], List.map_id]

theorem upd_insert {m : Map α} {k : Nat} (v : α) (f : α → α) (h : ∀ e ∈ m, e.1 ≠ k) :
    upd (insert m k v) k f = insert m k (f v) := by
  induction m with
  | nil => simp [insert, upd]
  | cons e m ih =>
    have he : e.1 ≠ k := h e List.mem_cons_self
    have hm : ∀ x ∈ m, x.1 ≠ k := fun x hx => h x (List.mem_cons_of_mem _ hx)
    have hme := upd_of_not_mem f hm
    have hins := ih hm
    simp only [upd] at hme hins ⊢
    by_cases hk : k < e.1 <;> simp [insert, hk, he, hme, hins]

/-- An update of a key just written. -/
@[simp] theorem upd_set (m : Map α) (k : Nat) (v : α) (f : α → α) : upd (set m k v) k f = set m k (f v) :=
  upd_insert v f (not_mem_erase k m)

end Sys2Proof.Machine.Assoc

namespace Sys2Proof.Machine

open Assoc Bits Claims

/-! ### Fetching in a state whose groups and launches have moved on -/

@[simp] theorem updGroup_setGroup (s : State) (gid : Nat) (g : Group) (f : Group → Group) :
    (s.setGroup gid g).updGroup gid f = s.setGroup gid (f g) := by
  simp [State.updGroup, State.setGroup]

@[simp] theorem group?_ranHere (s : State) (g : Group) (gid : Nat) : (ranHere s g).group? gid = s.group? gid := rfl

theorem ranHere_setGroup (s : State) (gid : Nat) (g g' : Group) :
    ranHere (s.setGroup gid g') g = (ranHere s g).setGroup gid g' := rfl

/-- No access looks at groups, or at what a launch holds beside its root. -/
theorem resolve_groups_launches (s : State) (gs : Map Group) (ls : Map Launch) (ag : Agent) (acc : Access) (va : DWord)
    (n : Nat) : resolve { s with groups := gs, launches := ls } ag acc va n = resolve s ag acc va n := rfl

theorem hitNat_groups_launches (s : State) (gs : Map Group) (ls : Map Launch) (h : Hit) (n : Nat) :
    hitNat { s with groups := gs, launches := ls } h n = hitNat s h n := rfl

/-- That a launch has run on a core changes no other field of it. -/
theorem launch?_ranHere (s : State) (g : Group) {lid : Nat} {l : Launch} (h : s.launch? lid = some l) :
    ∃ ro, (ranHere s g).launch? lid = some { l with ranOn := ro } := by
  have hf : find s.launches lid = some l := h
  simp only [State.launch?, ranHere, State.updLaunch, find_upd, hf, Option.map_some]
  split
  · split <;> exact ⟨_, rfl⟩
  · exact ⟨l.ranOn, rfl⟩

theorem launch?_ranHere_none (s : State) (g : Group) {lid : Nat} (h : s.launch? lid = none) :
    (ranHere s g).launch? lid = none := by
  have hf : find s.launches lid = none := h
  simp [State.launch?, ranHere, State.updLaunch, find_upd, hf]

theorem laneRegion_ranOn (l : Launch) (ro : List Nat) (g : Group) :
    laneRegion (launchOf { l with ranOn := ro } g) = laneRegion (launchOf l g) := by
  cases hd : l.draw with
  | none => simp only [launchOf, hd]; rfl
  | some d => by_cases hp : isPixel g = true <;> (simp only [launchOf, hd, hp]; rfl)

/-- That a launch has run on a core changes nothing of its groups as agents. -/
@[simp] theorem agentOf_ranHere (s : State) (g h : Group) (lane : Option Nat) :
    agentOf (ranHere s g) h lane = agentOf s h lane := by
  cases hl : s.launch? h.launch with
  | none => simp only [agentOf, hl, launch?_ranHere_none s g hl]
  | some l =>
    obtain ⟨ro, hro⟩ := launch?_ranHere s g hl
    simp only [agentOf, hl, hro, laneRegion_ranOn]

/-- The group of an instruction that has completed: its chain, its word, no breakpoint passed. -/
def issuedWith (g : Group) (c : Chain) (w : Word) : Group :=
  { g with chain := c, ins := w, dbg := { g.dbg with passed := none } }

@[simp] theorem issuedWith_chain (g : Group) (c : Chain) (w : Word) : (issuedWith g c w).chain = c := rfl

theorem agentOf_issuedWith (s : State) (gid : Nat) (g g' h : Group) (c : Chain) (w : Word) (lane : Option Nat) :
    agentOf (ranHere (s.setGroup gid h) g) (issuedWith g' c w) lane = agentOf s g' lane := by
  rw [agentOf_ranHere]; rfl

/-- A group fetches the same after an instruction that only replaced it. -/
theorem fetchAt_issuedWith (s : State) (gid : Nat) (g g' h : Group) (c : Chain) (w : Word) (va : DWord) :
    fetchAt (ranHere (s.setGroup gid h) g) (issuedWith g' c w) va = fetchAt s g' va := by
  rw [fetchAt, agentOf_issuedWith]; rfl

/-! ### The completion of an instruction -/

/-- The chain after an instruction that completes. -/
def chainAfter (i : Instr) (g g' : Group) (l : Latch) (fp : BitVec 5) (lanes : Word) : Chain :=
  { extendChain (chainAt g (oprsOf g.fmt i)) i (oprsOf g.fmt i) (sideEffect i || atLoopEnd g' g'.pc) l fp lanes with
    last := g'.pc }

section
variable {i : Instr} {s : State} {g g' : Group} {l : Latch} {fp : BitVec 5} {lanes : Word}

theorem afterFp_eq : afterFp i s g (s.setGroup s.cur g') l fp lanes =
    let g2 := issuedWith g' (chainAfter i g g' l fp lanes) (insWord i)
    let t := ranHere (s.setGroup s.cur g2) g
    if chainOver t g2 (g'.pc + 4) then
      if g2.chain.fpFlags = 0 then boundary (t.setGroup s.cur (advance g2)) s.cur else fpTrap t s.cur g2.chain g'.pc
    else t.setGroup s.cur (advance g2) := by
  have hg : (ranHere (s.setGroup s.cur g') g).group? s.cur = some g' := group?_setGroup_same _ _ _
  have hset : ∀ h, (ranHere (s.setGroup s.cur g') g).setGroup s.cur h = ranHere (s.setGroup s.cur h) g := fun h => by
    rw [ranHere_setGroup, setGroup_setGroup, ← ranHere_setGroup]
  simp only [afterFp, complete, hg, hset]
  rfl

theorem after_eq_afterFp (s' : State) : after i s g s' l = afterFp i s g s' l 0 0 := rfl

theorem advance_frame (g : Group) : ∃ ls pc, advance g = { g with lstack := ls, pc := pc } := resumeAfter_frame g g.pc

/-- The advance changes nothing but the PC and the loop stack. -/
theorem advance_keeps {α : Type} (f : Group → α) (hf : ∀ g ls pc, f { g with lstack := ls, pc := pc } = f g) (g : Group) :
    f (advance g) = f g := by
  obtain ⟨ls, pc, h⟩ := advance_frame g
  rw [h, hf]

/-- A live group that no debugger stops passes the boundary. -/
theorem boundary_of_calm {t : State} {gid : Nat} {h : Group} (hg : t.group? gid = some h) (hl : h.lmask ≠ 0)
    (hs : h.dbg.step = false) (hd : h.dbg.haltDue = false) : boundary t gid = t := by
  simp only [boundary, hg, if_neg hl, haltAfter, hs, hd]
  rfl

end

theorem chainAfter_fpFlags (i : Instr) (g g' : Group) (l : Latch) (fp : BitVec 5) (lanes : Word) :
    (chainAfter i g g' l fp lanes).fpFlags = (chainAt g (oprsOf g.fmt i)).fpFlags ||| fp := rfl

/-- The group alone moves on. -/
theorem after_of_calm {i : Instr} {s : State} {g g' : Group} (l : Latch) (hc : Calm i g) (hl : g'.lmask ≠ 0)
    (hs : g'.dbg.step = false) (hd : g'.dbg.haltDue = false) : after i s g (s.setGroup s.cur g') l =
      ranHere (s.setGroup s.cur (advance (issuedWith g' (chainAfter i g g' l 0 0) (insWord i)))) g := by
  obtain ⟨-, -, -, hfp⟩ := hc
  have hflags : (chainAfter i g g' l 0 0).fpFlags = 0 := by simpa [chainAfter_fpFlags] using hfp
  have hset : ∀ h h', (ranHere (s.setGroup s.cur h) g).setGroup s.cur h' = ranHere (s.setGroup s.cur h') g := fun h h' => by
    rw [ranHere_setGroup, setGroup_setGroup, ← ranHere_setGroup]
  have hb : ∀ h : Group, h.lmask = g'.lmask → h.dbg.step = g'.dbg.step → h.dbg.haltDue = g'.dbg.haltDue →
      boundary (ranHere (s.setGroup s.cur h) g) s.cur = ranHere (s.setGroup s.cur h) g := fun h el es ed =>
    boundary_of_calm (group?_setGroup_same _ _ _) (el ▸ hl) (es.trans hs) (ed.trans hd)
  rw [after_eq_afterFp, afterFp_eq]
  simp only [hset, issuedWith_chain, hflags, if_true]
  split
  · exact hb _ (advance_keeps (·.lmask) (fun _ _ _ => rfl) _) (advance_keeps (·.dbg.step) (fun _ _ _ => rfl) _)
      (advance_keeps (·.dbg.haltDue) (fun _ _ _ => rfl) _)
  · rfl

/-! ### Loop ends (R78) -/

section
variable {g : Group} {top nxt : LoopEntry} {rest : List LoopEntry}

theorem advance_of_not_atLoopEnd (h : atLoopEnd g g.pc = false) : advance g = { g with pc := g.pc + 4 } := by
  rw [advance, resumeAfter, h]; rfl

theorem advance_of_atLoopEnd (h : atLoopEnd g g.pc = true) : advance g =
    { g with lstack := (loopEnd g.loopBase g.pc g.lstack).1, pc := (loopEnd g.loopBase g.pc g.lstack).2 } := by
  rw [advance, resumeAfter, if_pos h]

theorem advance_of_passes_left (hs : g.lstack = top :: rest) (h : atLoopEnd g g.pc = true) (hl : 1 < top.left) :
    advance g = { g with lstack := { top with left := top.left - 1 } :: rest, pc := top.start } := by
  rw [advance_of_atLoopEnd h, hs, loopEnd.eq_def]
  simp only [if_pos hl]

theorem advance_of_only_loop (hs : g.lstack = [top]) (h : atLoopEnd g g.pc = true) (hl : top.left ≤ 1) :
    advance g = { g with lstack := [], pc := g.pc + 4 } := by
  rw [advance_of_atLoopEnd h, hs, loopEnd, if_neg (not_lt.mpr hl)]

theorem advance_of_outer_elsewhere (hs : g.lstack = top :: nxt :: rest) (h : atLoopEnd g g.pc = true)
    (hl : top.left ≤ 1) (hn : (nxt :: rest).length ≤ g.loopBase ∨ nxt.last ≠ g.pc) :
    advance g = { g with lstack := nxt :: rest, pc := g.pc + 4 } := by
  rw [advance_of_atLoopEnd h, hs, loopEnd, if_neg (not_lt.mpr hl)]
  simp only [if_pos hn]

theorem advance_of_outer_here (hs : g.lstack = top :: nxt :: rest) (h : atLoopEnd g g.pc = true)
    (hl : top.left ≤ 1) (hn : nxt.last = g.pc) (hb : g.loopBase < (nxt :: rest).length) :
    advance g = advance { g with lstack := nxt :: rest } := by
  have hcont : ¬((nxt :: rest).length ≤ g.loopBase ∨ nxt.last ≠ g.pc) := by
    rintro (hle | hne)
    · exact absurd hb (not_lt.mpr hle)
    · exact hne hn
  rw [advance_of_atLoopEnd h, hs, loopEnd, if_neg (not_lt.mpr hl), advance_of_atLoopEnd]
  · simp only [if_neg hcont]
    rfl
  · exact (atLoopEnd_iff _).mpr ⟨nxt, rest, rfl, hb, hn⟩

end

/-- Settles O8: a calm group passes its boundary, and R78 is the recursion of `loopEnd`. -/
theorem calmCompletion : Obligations.CalmCompletion := by
  unfold Obligations.CalmCompletion
  refine ⟨fun i s g g' l hc hg hr hl hs hd => ⟨chainAfter i g g' l 0 0, after_of_calm l hc hl hs hd, rfl, ?_⟩, fun g => ?_⟩
  · obtain ⟨-, -, -, hfp⟩ := hc
    simpa [chainAfter_fpFlags] using hfp
  · exact ⟨advance_of_not_atLoopEnd, fun _ _ => advance_of_passes_left, fun _ => advance_of_only_loop,
      fun _ _ _ hs h hl hn => advance_of_outer_elsewhere hs h hl (.inr hn), fun _ _ _ => advance_of_outer_here,
      fun _ _ _ hs h hl hb => advance_of_outer_elsewhere hs h hl (.inl hb)⟩

/-! ### The trap at a chain's end (R50, R128) -/

section
variable {i : Instr} {s : State} {g g' : Group} {l : Latch} {fp : BitVec 5} {lanes : Word}

theorem chainOver_of_ended {t : State} {h : Group} (va : DWord) (he : h.chain.ended = true) : chainOver t h va = true := by
  simp [chainOver, he]

theorem chainOver_of_noJoin {t : State} {h : Group} {va : DWord} {r : Word × Hit} (hf : fetchAt t h va = .ok r)
    (hj : ∀ j, decode r.1 = .ok j → joins (oprsOf h.fmt j) = false) : chainOver t h va = true := by
  cases hd : decode r.1 with
  | error f => simp [chainOver, hf, hd]
  | ok j => simp [chainOver, hf, hd, hj j hd]

theorem chainOver_of_unfetched {t : State} {h : Group} {va : DWord} (he : h.chain.ended = false)
    (hf : ∀ r, fetchAt t h va ≠ .ok r) : chainOver t h va = false := by
  cases hr : fetchAt t h va with
  | error c => simp [chainOver, he, hr]
  | ok r => exact absurd hr (hf r)

/-- The flags, lanes and first word of a chain with what an instruction adds (R50). -/
theorem chainAfter_fpIns (hf : (chainAt g (oprsOf g.fmt i)).fpFlags ||| fp ≠ 0) :
    (chainAfter i g g' l fp lanes).fpIns =
      if (chainAt g (oprsOf g.fmt i)).fpFlags = 0 then insWord i else (chainAt g (oprsOf g.fmt i)).fpIns := by
  by_cases hc : (chainAt g (oprsOf g.fmt i)).fpFlags = 0
  · have hfp : fp ≠ 0 := by
      rintro rfl
      exact hf (by rw [hc]; decide)
    rw [if_pos hc]
    exact if_pos ⟨hc, hfp⟩
  · rw [if_neg hc]
    exact if_neg fun h => hc h.1

/-- With the chain over, the exceptions due trap at the instruction. -/
theorem afterFp_of_chain_end (hf : (chainAt g (oprsOf g.fmt i)).fpFlags ||| fp ≠ 0) (hpc : g'.pc = g.pc)
    (hend : sideEffect i = true ∨ atLoopEnd g' g.pc = true ∨ NoJoin s g' (g.pc + 4)) :
    ∃ g2, afterFp i s g (s.setGroup s.cur g') l fp lanes = haltTrapped (trapBoundary (ranHere (s.setGroup s.cur g2) g) s.cur
        ⟨fpCause ((chainAt g (oprsOf g.fmt i)).fpFlags ||| fp), false, g.pc, g.pc + 4,
          if fp = 0 then (chainAt g (oprsOf g.fmt i)).fpLanes else (chainAt g (oprsOf g.fmt i)).fpLanes ||| lanes, 0,
          if (chainAt g (oprsOf g.fmt i)).fpFlags = 0 then insWord i else (chainAt g (oprsOf g.fmt i)).fpIns⟩) s.cur ∧
      g2 = { g' with chain := g2.chain, ins := insWord i, dbg := { g'.dbg with passed := none } } := by
  refine ⟨issuedWith g' (chainAfter i g g' l fp lanes) (insWord i), ?_, rfl⟩
  have hov : chainOver (ranHere (s.setGroup s.cur (issuedWith g' (chainAfter i g g' l fp lanes) (insWord i))) g)
      (issuedWith g' (chainAfter i g g' l fp lanes) (insWord i)) (g'.pc + 4) = true := by
    rcases hend with hse | hle | ⟨w, h, hw, hj⟩
    · exact chainOver_of_ended _ (by simp [chainAfter, extendChain, hse])
    · exact chainOver_of_ended _ (by simp [chainAfter, extendChain, hpc, hle])
    · exact chainOver_of_noJoin (by rw [fetchAt_issuedWith, hpc]; exact hw) hj
  rw [hpc] at hov
  rw [afterFp_eq]
  simp only [hpc, hov, if_true, issuedWith_chain, chainAfter_fpFlags, if_neg hf, fpTrap, chainAfter_fpIns hf]
  rfl

/-- Where the next word cannot be fetched the chain goes on, and keeps what is due. -/
theorem afterFp_of_unfetched (hf : (chainAt g (oprsOf g.fmt i)).fpFlags ||| fp ≠ 0) (hpc : g'.pc = g.pc)
    (hse : sideEffect i = false) (hle : atLoopEnd g' g.pc = false) (hun : ∀ r, fetchAt s g' (g.pc + 4) ≠ .ok r) :
    ∃ g2, afterFp i s g (s.setGroup s.cur g') l fp lanes = ranHere (s.setGroup s.cur g2) g ∧ g2.pc = g.pc + 4 ∧
      g2.chain.fpFlags = (chainAt g (oprsOf g.fmt i)).fpFlags ||| fp ∧
      g2.chain.fpLanes = (if fp = 0 then (chainAt g (oprsOf g.fmt i)).fpLanes
        else (chainAt g (oprsOf g.fmt i)).fpLanes ||| lanes) ∧
      g2.chain.fpIns = if fp = 0 then (chainAt g (oprsOf g.fmt i)).fpIns
        else if (chainAt g (oprsOf g.fmt i)).fpFlags = 0 then insWord i else (chainAt g (oprsOf g.fmt i)).fpIns := by
  obtain ⟨t, ht⟩ : ∃ t, t = issuedWith g' (chainAfter i g g' l fp lanes) (insWord i) := ⟨_, rfl⟩
  have hloop : atLoopEnd t t.pc = false := by
    rw [ht]
    exact (congrArg (atLoopEnd g') hpc).trans hle
  have hov : chainOver (ranHere (s.setGroup s.cur t) g) t (g'.pc + 4) = false := by
    rw [ht]
    refine chainOver_of_unfetched ?_ ?_
    · simp [chainAfter, extendChain, hse, hpc, hle]
    · simpa only [fetchAt_issuedWith, hpc] using hun
  refine ⟨advance t, ?_, ?_, ?_, ?_, ?_⟩
  · rw [afterFp_eq, ← ht]
    simp only [hov]
    rw [ranHere_setGroup, ranHere_setGroup, setGroup_setGroup]
    rfl
  all_goals rw [advance_of_not_atLoopEnd hloop, ht]
  · exact congrArg (· + 4) hpc
  · rfl
  · rfl
  · by_cases hfp : fp = 0
    · subst hfp
      exact if_neg fun h => h.2 rfl
    · rw [if_neg hfp]
      exact chainAfter_fpIns hf

end

/-- Settles O9: the branches of `complete` that the hypotheses choose. -/
theorem chainEndTrap : Obligations.ChainEndTrap := by
  unfold Obligations.ChainEndTrap
  refine ⟨?ends, ?jumps, ?steps⟩
  case ends =>
    intro i s g g' l fp lanes
    dsimp only
    intro hf hpc
    exact ⟨afterFp_of_chain_end hf hpc, afterFp_of_unfetched hf hpc⟩
  case jumps =>
    intro i s g g' hf
    refine ⟨issuedWith g' (Chain.close { chainAt g (oprsOf g.fmt i) with last := g.pc }) (insWord i), ?_, rfl⟩
    simp only [jumped, settle, if_neg hf, fpTrap, ranHere_setGroup, updGroup_setGroup]
    rfl
  case steps =>
    intro s gid g hg hl hst hr
    refine ⟨{ g with
      status := .halted none, chain := g.chain.stop, dbg := { g.dbg with haltDue := false },
      trap := { g.trap with tpc := g.pc, tnext := g.pc } }, ?_, rfl, rfl, rfl⟩
    simp only [boundary, hg, if_neg hl, haltAfter, hst, hr]
    rfl

end Sys2Proof.Machine

/-! The integer forms of vectors, scalars and masks, and what their functions compute (R394, R408 to R430). -/

namespace Sys2Proof.Machine.Bits

/-! ### Masks and lanes -/

theorem getLsbD_ofNat_two_pow (j i : Nat) : (BitVec.ofNat 32 (2 ^ j)).getLsbD i = decide (i < 32 ∧ i = j) := by
  rw [BitVec.getLsbD_ofNat, Nat.testBit_two_pow, Bool.decide_and, decide_eq_decide.mpr (eq_comm (a := j))]

theorem getLsbD_foldl_or (js : List Nat) (m : Word) (i : Nat) :
    (js.foldl (fun m j => m ||| BitVec.ofNat 32 (2 ^ j)) m).getLsbD i = (m.getLsbD i || decide (i < 32 ∧ i ∈ js)) := by
  induction js generalizing m with
  | nil => simp
  | cons j js ih =>
    rw [List.foldl_cons, ih, BitVec.getLsbD_or, getLsbD_ofNat_two_pow]
    simp only [List.mem_cons, Bool.decide_and, Bool.decide_or]
    cases decide (i < 32) <;> simp [Bool.or_assoc]

@[simp] theorem getLsbD_maskOf (js : List Nat) (i : Nat) : (maskOf js).getLsbD i = decide (i < 32 ∧ i ∈ js) := by
  rw [maskOf, getLsbD_foldl_or]; simp

theorem popcount_eq_length (n v : Nat) : popcount n v = ((List.range n).filter fun i => v.testBit i).length := by
  induction n generalizing v with
  | zero => rfl
  | succ n ih =>
    rw [popcount, ih, List.range_succ_eq_map, List.filter_cons, List.filter_map, ]
    have hv : v.testBit 0 = decide (v % 2 = 1) := Nat.testBit_zero v
    have htail : ((fun i => v.testBit i) ∘ Nat.succ) = fun i => (v / 2).testBit i := by
      funext i; simp [Nat.testBit_succ]
    rcases Nat.mod_two_eq_zero_or_one v with h | h <;> simp [hv, h, htail, Nat.add_comm]

/-- The set bits of a word, counted. -/
theorem popcount_word (a : Word) : popcount 32 a.toNat = ((List.range 32).filter fun i => a.getLsbD i).length := by
  rw [popcount_eq_length]; rfl

end Sys2Proof.Machine.Bits

namespace Sys2Proof.Machine

open Assoc Bits Claims

/-! ### Results by lane and of scalars -/

variable {i : Instr} {s : State} {g : Group}

theorem issue_lane1 (h : Admits i s g) (d a : Code) (nw : Bool) (f : Word → Word) :
    issue i (lane1 d a nw f) s = .next (vecAfter i s g d nw fun j => f (srcV g a j)) :=
  issue_done h rfl

theorem issue_lane2 (h : Admits i s g) (d a b : Code) (nw : Bool) (f : Word → Word → Word) :
    issue i (lane2 d a b nw f) s = .next (vecAfter i s g d nw fun j => f (srcV g a j) (srcV g b j)) :=
  issue_done h rfl

theorem issue_lanePair (h : Admits i s g) (d a b : Code) (nw : Bool) (f : DWord → Word → DWord) :
    issue i (lanePair d a b nw f) s = .next (vecPairAfter i s g d nw fun j => f (srcVP g a j) (srcV g b j)) :=
  issue_done h rfl

theorem issue_scalar2 (h : Admits i s g) (d a b : Code) (nw : Bool) (f : Word → Word → Word) :
    issue i (scalar2 d a b nw f) s = .next (scaAfter i s g d nw (f (srcS s g a) (srcS s g b))) :=
  issue_done h rfl

theorem issue_scalarImm (h : Admits i s g) (d a : Code) (f : Word → Word) :
    issue i (scalarImm d a f) s = .next (scaAfter i s g d false (f (srcS s g a))) :=
  issue_done h rfl

theorem issue_mask2 (h : Admits i s g) (d a b : Code) (f : Word → Word → Word) :
    issue i (mask2 d a b f) s = .next (maskAfter i s g d (f (g.maskAt a.toNat) (g.maskAt b.toNat))) :=
  issue_plain h rfl

/-! ### The functions of the scalar forms -/

theorem slt_eq_decide (a b : Word) : a.slt b = decide (a.toInt < b.toInt) := rfl

theorem minS_eq (a b : Word) : minS a b = if a.toInt ≤ b.toInt then a else b := by
  rcases lt_trichotomy a.toInt b.toInt with h | h | h
  · simp [minS, slt_eq_decide, h, h.le]
  · simp [minS, slt_eq_decide, BitVec.eq_of_toInt_eq h]
  · simp [minS, slt_eq_decide, h.not_gt, h.not_ge]

theorem maxS_eq (a b : Word) : maxS a b = if a.toInt ≤ b.toInt then b else a := by
  rcases lt_trichotomy a.toInt b.toInt with h | h | h
  · simp [maxS, slt_eq_decide, h, h.le]
  · simp [maxS, slt_eq_decide, BitVec.eq_of_toInt_eq h]
  · simp [maxS, slt_eq_decide, h.not_gt, h.not_ge]

theorem ofBool_slt (a b : Word) : ofBool (a.slt b) = if a.toInt < b.toInt then 1 else 0 := by
  simp [ofBool, slt_eq_decide]

theorem ofBool_ult (a b : Word) : ofBool (a.ult b) = if a.toNat < b.toNat then 1 else 0 := by
  simp [ofBool, BitVec.ult]

theorem toInt_sext32_imm (imm : BitVec 12) : (sext32 imm : Word).toInt = imm.toInt :=
  BitVec.toInt_signExtend_of_le (by decide)

/-- `slui`: an immediate in bits 31:13 above the low bits of a word. -/
theorem append_low13 (imm : BitVec 19) (x : Word) :
    (imm ++ x.extractLsb' 0 13 : Word) = BitVec.ofNat 32 (imm.toNat * 2 ^ 13 + x.toNat % 2 ^ 13) := by
  have himm := imm.isLt
  have hlow : x.toNat % 2 ^ 13 < 2 ^ 13 := Nat.mod_lt _ (by decide)
  apply BitVec.eq_of_toNat_eq
  simp only [BitVec.toNat_append, BitVec.extractLsb'_toNat, Nat.shiftRight_zero, BitVec.toNat_ofNat]
  rw [← Nat.shiftLeft_add_eq_or_of_lt hlow, Nat.shiftLeft_eq]
  exact (Nat.mod_eq_of_lt (by omega)).symm

end Sys2Proof.Machine

namespace Sys2Proof

open Machine Machine.Assoc Machine.Bits Claims

/-- Settles O15: each form's effect is the write of its function by lane, entry by entry of the tables. -/
theorem vectorIntegerResult : Obligations.VectorIntegerResult := by
  unfold Obligations.VectorIntegerResult
  refine ⟨?_, ?_, ?_, ?_, ?_, fun d a imm s g h => issue_lane1 h d a false _⟩
  · simp only [vecForms, vecForms2, List.cons_append, List.nil_append, List.forall_mem_cons, List.not_mem_nil,
      false_implies, implies_true, and_true]
    refine ⟨?_, ?_, ?_, ?_, ?_, ?_, ?_, ?_, ?_, ?_, ?_, ?_, ?_, ?_, ?_, ?_, ?_, ?_, ?_, ?_, ?_, ?_⟩ <;>
      exact fun d a b nw s g h => issue_lane2 h d a b nw _
  · simp only [vecForms1, List.forall_mem_cons, List.not_mem_nil, false_implies, implies_true, and_true]
    refine ⟨?_, ?_, ?_⟩ <;> exact fun d a nw s g h => issue_lane1 h d a nw _
  · simp only [vecPairForms, List.forall_mem_cons, List.not_mem_nil, false_implies, implies_true, and_true]
    refine ⟨?_, ?_, ?_⟩ <;> exact fun d a b nw s g h => issue_lanePair h d a b nw _
  · intro d a b nw s g h
    rw [exec_vmulw, execVmulw]
    exact issue_done h rfl
  · intro d a b s g h
    rw [exec_vbfi, execVbfi]
    exact issue_done h rfl

/-- The scalar forms of two sources, table entry by table entry. -/
theorem exec_scaForms : ∀ f ∈ scaForms, ∀ (d a b : Code) (nw : Bool) (s : State) (g : Group),
    Admits (f.1 d a b nw) s g →
    exec (f.1 d a b nw) s = .next (scaAfter (f.1 d a b nw) s g d nw (f.2 (srcS s g a) (srcS s g b))) := by
  have same {f f' : Word → Word → Word} (hf : f = f') {i : Instr} {s : State} {g : Group} (h : Admits i s g)
      (d a b : Code) (nw : Bool) :
      issue i (scalar2 d a b nw f) s = .next (scaAfter i s g d nw (f' (srcS s g a) (srcS s g b))) :=
    hf ▸ issue_scalar2 h d a b nw f
  simp only [scaForms, List.forall_mem_cons, List.not_mem_nil, false_implies, implies_true, and_true]
  refine ⟨?_, ?_, ?_, ?_, ?_, ?_, ?_, ?_, ?_, ?_, fun d a b nw s g h => same (funext₂ minS_eq) h d a b nw,
    fun d a b nw s g h => same (funext₂ maxS_eq) h d a b nw, fun d a b nw s g h => same (funext₂ ofBool_slt) h d a b nw,
    fun d a b nw s g h => same (funext₂ ofBool_ult) h d a b nw⟩ <;>
    exact fun d a b nw s g h => issue_scalar2 h d a b nw _

/-- The scalar forms with an immediate of 12 bits. -/
theorem exec_immForms : ∀ f ∈ immForms, ∀ (d a : Code) (imm : BitVec 12) (s : State) (g : Group),
    Admits (f.1 d a imm) s g →
    exec (f.1 d a imm) s = .next (scaAfter (f.1 d a imm) s g d false (f.2 (srcS s g a) imm)) := by
  simp only [immForms, List.forall_mem_cons, List.not_mem_nil, false_implies, implies_true, and_true]
  refine ⟨?_, ?_, ?_, ?_, fun d a imm s g h => ?_⟩
  case refine_5 =>
    rw [exec_sslti, execSslti, issue_scalarImm h]
    simp only [ofBool_slt, toInt_sext32_imm]
  all_goals exact fun d a imm s g h => issue_scalarImm h d a _

/-- Settles O17: each form's effect is the write of its function, entry by entry of the tables. -/
theorem scalarResult : Obligations.ScalarResult := by
  unfold Obligations.ScalarResult
  refine ⟨exec_scaForms, ?_, exec_immForms, ?_, ?_, ?_, ?_, ?_, ?_, ?_, ?_, ?_⟩
  · intro d a b nw s g h
    rw [exec_saddx, execSaddx]
    exact issue_done h rfl
  · simp only [shiftForms, List.forall_mem_cons, List.not_mem_nil, false_implies, implies_true, and_true]
    refine ⟨?_, ?_, ?_⟩ <;> exact fun d a imm s g h => issue_scalarImm h d a _
  · intro d imm s g h
    rw [exec_sli, execSli]
    exact issue_done h rfl
  · intro d imm s g h
    rw [← append_low13, exec_slui, execSlui]
    exact issue_done h rfl
  · simp only [maskForms, List.forall_mem_cons, List.not_mem_nil, false_implies, implies_true, and_true]
    refine ⟨?_, ?_, ?_, ?_⟩ <;> exact fun d a b s g h => issue_mask2 h d a b _
  · intro d a s g h
    rw [exec_mnot, execMnot]
    exact issue_plain h rfl
  · intro d a s g h
    rw [exec_mset, execMset]
    exact issue_plain h rfl
  · intro d s g h
    rw [exec_mclr, execMclr]
    exact issue_plain h rfl
  · intro d a nw s g h
    rw [exec_mget, execMget]
    exact issue_done h rfl
  · intro d a nw s g h
    rw [← popcount_word, exec_mcnt, execMcnt]
    exact issue_done h rfl

end Sys2Proof

namespace Sys2Proof.Machine

open Assoc Bits Claims

/-! ### The functions of the vector forms (R427 to R430) -/

theorem toInt_word_bounds (a : Word) : -2 ^ 31 ≤ a.toInt ∧ a.toInt < 2 ^ 31 :=
  ⟨BitVec.le_toInt a, BitVec.toInt_lt⟩

/-- The high half of a number of 64 bits. -/
theorem toInt_hi32 (x : DWord) : (hi32 x).toInt = x.toInt / 2 ^ 32 := by
  have hx := x.isLt
  have hn : (hi32 x).toNat = x.toNat / 2 ^ 32 := by
    rw [hi32, BitVec.toNat_setWidth, BitVec.toNat_ushiftRight, Nat.shiftRight_eq_div_pow]
    exact Nat.mod_eq_of_lt (by omega)
  rw [BitVec.toInt_eq_toNat_cond, BitVec.toInt_eq_toNat_cond, hn]
  split <;> split <;> omega

theorem toInt_sext64 (a : Word) : (sext64 a).toInt = a.toInt := BitVec.toInt_signExtend_of_le (by decide)

theorem toInt_mulHigh (a b : Word) : (mulHigh a b).toInt = a.toInt * b.toInt / 2 ^ 32 := by
  have habs (x : Word) : |x.toInt| ≤ 2 ^ 31 :=
    abs_le.mpr ⟨(toInt_word_bounds x).1, (toInt_word_bounds x).2.le⟩
  have hp : |a.toInt * b.toInt| ≤ 2 ^ 31 * 2 ^ 31 := by
    rw [abs_mul]; exact mul_le_mul (habs a) (habs b) (abs_nonneg _) (by decide)
  rw [abs_le] at hp
  rw [mulHigh, toInt_hi32, BitVec.toInt_mul, toInt_sext64, toInt_sext64, Int.bmod_eq_of_le] <;> omega

theorem toNat_mulHighU (a b : Word) : (mulHighU a b).toNat = a.toNat * b.toNat / 2 ^ 32 := by
  have hp : a.toNat * b.toNat < 2 ^ 32 * 2 ^ 32 := Nat.mul_lt_mul'' a.isLt b.isLt
  have hw (x : Word) : (x.setWidth 64).toNat = x.toNat := BitVec.toNat_setWidth_of_le (by decide)
  rw [mulHighU, hi32, BitVec.toNat_setWidth, BitVec.toNat_ushiftRight, BitVec.toNat_mul, hw, hw,
    Nat.mod_eq_of_lt (by omega), Nat.shiftRight_eq_div_pow, Nat.mod_eq_of_lt (by omega)]

theorem toInt_minS (a b : Word) : (minS a b).toInt = min a.toInt b.toInt := by
  rw [minS_eq]; split <;> omega

theorem toInt_maxS (a b : Word) : (maxS a b).toInt = max a.toInt b.toInt := by
  rw [maxS_eq]; split <;> omega

theorem toNat_minU (a b : Word) : (minU a b).toNat = min a.toNat b.toNat := by
  simp only [minU, BitVec.ult, decide_eq_true_eq]; split <;> omega

theorem toNat_maxU (a b : Word) : (maxU a b).toNat = max a.toNat b.toNat := by
  simp only [maxU, BitVec.ult, decide_eq_true_eq]; split <;> omega

/-- A number that the word holds reads back, signed. -/
theorem toInt_ofInt_satS (x : Int) : (BitVec.ofInt 32 (satS 32 x)).toInt = max (-2 ^ 31) (min x (2 ^ 31 - 1)) := by
  rw [BitVec.toInt_ofInt, satS, Int.bmod_eq_of_le] <;> omega

theorem toNat_ofInt_satU (x : Int) : (BitVec.ofInt 32 (satU 32 x)).toNat = (min x (2 ^ 32 - 1)).toNat := by
  rw [BitVec.toNat_ofInt, satU]; omega

theorem toNat_absDiff (a b : Word) : (absDiff a b).toNat = (a.toInt - b.toInt).natAbs := by
  obtain ⟨ha, ha'⟩ := toInt_word_bounds a
  obtain ⟨hb, hb'⟩ := toInt_word_bounds b
  rw [absDiff, BitVec.toNat_ofNat, Nat.mod_eq_of_lt]
  omega

theorem getLsbD_brev (a : Word) {i : Nat} (hi : i < 32) : (brev a).getLsbD i = a.getLsbD (31 - i) := by
  rw [brev, getLsbD_maskOf]; simp [hi]

theorem toNat_popc (a : Word) : (popc a).toNat = ((List.range 32).filter fun i => a.getLsbD i).length := by
  have hle := List.length_filter_le (fun i => a.getLsbD i) (List.range 32)
  rw [List.length_range] at hle
  rw [popc, popcount_word, BitVec.toNat_ofNat, Nat.mod_eq_of_lt (by omega)]

/-- The leading zeros of a number place it between powers of two. -/
theorem clz_bounds {a : Word} (h : a ≠ 0) :
    2 ^ 31 ≤ a.toNat * 2 ^ (clz a).toNat ∧ a.toNat * 2 ^ (clz a).toNat < 2 ^ 32 := by
  have ha : a.toNat ≠ 0 := fun h0 => h (BitVec.eq_of_toNat_eq h0)
  have hlog : a.toNat.log2 < 32 := (Nat.log2_lt ha).mpr a.isLt
  have hclz : (clz a).toNat = 31 - a.toNat.log2 := by
    rw [clz, if_neg h, BitVec.toNat_ofNat, Nat.mod_eq_of_lt (by omega)]
  have hlo := Nat.log2_self_le ha
  have hhi := Nat.lt_log2_self (n := a.toNat)
  have hp : 0 < 2 ^ (31 - a.toNat.log2) := Nat.two_pow_pos _
  rw [hclz]
  constructor
  · calc 2 ^ 31 = 2 ^ a.toNat.log2 * 2 ^ (31 - a.toNat.log2) := by rw [← Nat.pow_add]; congr 1; omega
      _ ≤ _ := Nat.mul_le_mul_right _ hlo
  · calc a.toNat * 2 ^ (31 - a.toNat.log2) < 2 ^ (a.toNat.log2 + 1) * 2 ^ (31 - a.toNat.log2) :=
          Nat.mul_lt_mul_of_pos_right hhi hp
      _ = 2 ^ 32 := by rw [← Nat.pow_add]; congr 1; omega

/-! ### Bit fields (R429) -/

/-- A field of `w` ones from bit `p` on. -/
theorem getLsbD_ones_shifted (w p : Nat) {i : Nat} (hi : i < 32) :
    (BitVec.ofNat 32 ((2 ^ w - 1) * 2 ^ p)).getLsbD i = decide (p ≤ i ∧ i < p + w) := by
  rw [BitVec.getLsbD_ofNat, Nat.testBit_mul_two_pow, Nat.testBit_two_pow_sub_one]
  simp only [hi, decide_true, Bool.true_and, ← Bool.decide_and, decide_eq_decide]; omega

theorem getLsbD_bits_shifted (x w p : Nat) {i : Nat} (hi : i < 32) :
    (BitVec.ofNat 32 (x % 2 ^ w * 2 ^ p)).getLsbD i = (decide (p ≤ i ∧ i < p + w) && x.testBit (i - p)) := by
  rw [BitVec.getLsbD_ofNat, Nat.testBit_mul_two_pow, Nat.testBit_mod_two_pow]
  by_cases hp : p ≤ i <;> simp [hi, hp]
  congr 1
  simp; omega

theorem getLsbD_bitFieldInsert (a b d : Word) {i : Nat} (hi : i < 32) :
    (bitFieldInsert d a b).getLsbD i =
      if fieldPos b ≤ i ∧ i < fieldPos b + fieldWidth b then a.getLsbD (i - fieldPos b) else d.getLsbD i := by
  rw [bitFieldInsert, BitVec.getLsbD_or, BitVec.getLsbD_and, BitVec.getLsbD_not, getLsbD_ones_shifted _ _ hi,
    getLsbD_bits_shifted _ _ _ hi]
  by_cases h : fieldPos b ≤ i ∧ i < fieldPos b + fieldWidth b <;> simp [hi, h, BitVec.getLsbD]

/-- The bits of a number of `w` bits whose sign bit is set. -/
theorem getLsbD_ofInt_sub_two_pow {x w i : Nat} (hx : x < 2 ^ w) (hw : w ≤ 32) (hi : i < 32) :
    (BitVec.ofInt 32 ((x : Int) - 2 ^ w)).getLsbD i = if i < w then x.testBit i else true := by
  have hpow : 2 ^ w * (2 ^ (32 - w) - 1) + 2 ^ w = 2 ^ 32 := by
    rw [← Nat.mul_succ, Nat.succ_eq_add_one, Nat.sub_add_cancel Nat.one_le_two_pow, ← Nat.pow_add, Nat.add_sub_cancel' hw]
  have hof : BitVec.ofInt 32 ((x : Int) - 2 ^ w) = BitVec.ofNat 32 (2 ^ w * (2 ^ (32 - w) - 1) + x) := by
    apply BitVec.eq_of_toNat_eq
    zify at hpow hx
    rw [BitVec.toNat_ofInt, BitVec.toNat_ofNat]
    zify
    push_cast at *
    omega
  rw [hof, BitVec.getLsbD_ofNat, Nat.testBit_two_pow_mul_add _ hx, Nat.testBit_two_pow_sub_one]
  split <;> simp [hi]
  omega

theorem testBit_field (x p w i : Nat) : (x / 2 ^ p % 2 ^ w).testBit i = (decide (i < w) && x.testBit (p + i)) := by
  rw [Nat.testBit_mod_two_pow, Nat.testBit_div_two_pow, Nat.add_comm]

theorem getLsbD_bitFieldExtract (a b : Word) {i : Nat} (hi : i < 32) :
    (bitFieldExtract a b).getLsbD i =
      if i < fieldWidth b then a.getLsbD (fieldPos b + i)
      else bit b 15 && 0 < fieldNat b 8 6 && a.getLsbD (fieldPos b + fieldWidth b - 1) := by
  have hlt : a.toNat / 2 ^ fieldPos b % 2 ^ fieldWidth b < 2 ^ fieldWidth b := Nat.mod_lt _ (Nat.two_pow_pos _)
  have hw32 : fieldWidth b ≤ 32 := Nat.min_le_right _ _
  have hpos : 0 < fieldNat b 8 6 ↔ 0 < fieldWidth b := by rw [fieldWidth]; omega
  have htop (h : 0 < fieldWidth b) : a.getLsbD (fieldPos b + fieldWidth b - 1) =
      decide (2 ^ (fieldWidth b - 1) ≤ a.toNat / 2 ^ fieldPos b % 2 ^ fieldWidth b) := by
    have hbit := testBit_field a.toNat (fieldPos b) (fieldWidth b) (fieldWidth b - 1)
    rw [decide_eq_true (by omega), Bool.true_and] at hbit
    rw [BitVec.getLsbD, show fieldPos b + fieldWidth b - 1 = fieldPos b + (fieldWidth b - 1) by omega, ← hbit,
      Bool.eq_iff_iff, decide_eq_true_iff]
    refine ⟨Nat.ge_two_pow_of_testBit, fun hge => ?_⟩
    rw [Nat.testBit_eq_decide_div_mod_eq]
    have hdouble : 2 ^ fieldWidth b = 2 * 2 ^ (fieldWidth b - 1) := by rw [← Nat.pow_succ']; congr 1; omega
    have hdiv : a.toNat / 2 ^ fieldPos b % 2 ^ fieldWidth b / 2 ^ (fieldWidth b - 1) = 1 :=
      Nat.div_eq_of_lt_le (by omega) (by omega)
    simp [hdiv]
  simp only [bitFieldExtract, hpos]
  split
  next h =>
    simp only [Bool.and_eq_true, decide_eq_true_eq] at h
    obtain ⟨⟨hb, hw⟩, hge⟩ := h
    rw [getLsbD_ofInt_sub_two_pow hlt hw32 hi, testBit_field, htop hw]
    by_cases hiw : i < fieldWidth b <;> simp [hiw, hb, hw, hge, BitVec.getLsbD]
  next h =>
    rw [BitVec.getLsbD_ofNat, testBit_field]
    by_cases hw : 0 < fieldWidth b
    · by_cases hiw : i < fieldWidth b
      · simp [hiw, hi, BitVec.getLsbD]
      · simpa [hiw, hi, hw, htop hw] using h
    · have h0 : ¬i < fieldWidth b := by omega
      simp [h0, hw]

end Sys2Proof.Machine

namespace Sys2Proof

open Machine Machine.Assoc Machine.Bits Claims

/-- Settles O16: one lemma for each function. -/
theorem laneFunctions : Obligations.LaneFunctions := by
  unfold Obligations.LaneFunctions
  refine ⟨fun a b => ⟨toInt_mulHigh a b, toNat_mulHighU a b, toInt_minS a b, toInt_maxS a b, toNat_minU a b,
    toNat_maxU a b, toInt_ofInt_satS _, ?_, toInt_ofInt_satS _, ?_, toNat_absDiff a b⟩,
    fun a b d => ⟨fun i => getLsbD_brev a, clz_bounds, rfl, toNat_popc a, fun i => getLsbD_bitFieldInsert a b d,
      fun i => getLsbD_bitFieldExtract a b⟩⟩
  · rw [addSatU, toNat_ofInt_satU]; omega
  · rw [subSatU, toNat_ofInt_satU]; omega

end Sys2Proof

/-! Exact values: what the dyads of the model stand for, and the compares of numbers (R114, R123, R436 to R438). -/

namespace Sys2Proof.Machine.Float

open Bits Claims

/-! ### Dyads as rationals -/

/-- The rational that a dyad stands for. -/
def Dyad.val (a : Dyad) : ℚ := a.v * 2 ^ a.e

theorem zpow_sub_toNat {a b : Int} (h : b ≤ a) : (2 : ℚ) ^ (a - b).toNat * 2 ^ b = 2 ^ a := by
  rw [← zpow_natCast, ← zpow_add₀ (by norm_num)]
  congr 1
  omega

theorem Dyad.val_add (a b : Dyad) : (a.add b).val = a.val + b.val := by
  have ha := zpow_sub_toNat (min_le_left a.e b.e)
  have hb := zpow_sub_toNat (min_le_right a.e b.e)
  simp only [Dyad.val, Dyad.add]
  push_cast
  rw [add_mul, mul_assoc, mul_assoc, ha, hb]

theorem Dyad.val_mul (a b : Dyad) : (a.mul b).val = a.val * b.val := by
  simp only [Dyad.val, Dyad.mul]
  rw [zpow_add₀ (by norm_num)]
  push_cast
  ring

@[simp] theorem Dyad.val_negate (a : Dyad) : a.negate.val = -a.val := by simp [Dyad.val, Dyad.negate]

@[simp] theorem Dyad.val_ofInt (n : Int) : (Dyad.ofInt n).val = n := by simp [Dyad.val, Dyad.ofInt]

theorem Dyad.den_pos (a : Dyad) : 0 < a.den := by
  rw [Dyad.den]; split <;> positivity

theorem Dyad.val_eq_div (a : Dyad) : a.val = a.num / a.den := by
  simp only [Dyad.val, Dyad.num, Dyad.den]
  split
  next h =>
    obtain ⟨n, hn⟩ := Int.eq_ofNat_of_zero_le h
    simp [hn]
  next h =>
    obtain ⟨n, hn⟩ := Int.eq_ofNat_of_zero_le (a := -a.e) (by omega)
    rw [hn, show a.e = -(n : Int) by omega]
    simp [zpow_neg, div_eq_mul_inv]

theorem Dyad.val_neg_iff (a : Dyad) : a.val < 0 ↔ a.v < 0 := by
  have hp : (0 : ℚ) < 2 ^ a.e := by positivity
  rw [Dyad.val, mul_neg_iff]
  simp [hp, hp.not_gt]

theorem Dyad.val_eq_zero_iff (a : Dyad) : a.val = 0 ↔ a.v = 0 := by
  have hp : (2 : ℚ) ^ a.e ≠ 0 := by positivity
  simp [Dyad.val, hp]

theorem Dyad.lt_iff (a b : Dyad) : a.lt b = decide (a.val < b.val) := by
  have h := Dyad.val_neg_iff (a.add b.negate)
  rw [Dyad.val_add, Dyad.val_negate, ← sub_eq_add_neg, sub_neg] at h
  rw [Dyad.lt, decide_eq_decide, h]

/-- The number of a finite value is that of its dyad; both are 0 of the others. -/
theorem valueOf_eq (x : Val) : valueOf x = x.dyad.val := by
  cases x with
  | nan | inf => simp [valueOf, Val.dyad, Dyad.val]
  | fin n m e => cases n <;> simp [valueOf, Val.dyad, Dyad.val]

/-! ### Order -/

/-- The order of the model is that of the numbers between the infinities. -/
theorem below_iff {x y : Val} (hx : x.isNan = false) (hy : y.isNan = false) :
    below false x y = decide (Claims.orderOf x < Claims.orderOf y) := by
  match x, y with
  | .inf true, .inf n => cases n <;> simp [below, Claims.orderOf]
  | .inf false, .inf n => cases n <;> simp [below, Claims.orderOf]
  | .inf true, .fin n m e => simp [below, Claims.orderOf]
  | .inf false, .fin n m e => simp [below, Claims.orderOf]
  | .fin n m e, .inf true => simp [below, Claims.orderOf]
  | .fin n m e, .inf false =>
    have h : Claims.orderOf (.fin n m e) < Claims.orderOf (.inf false) := WithBot.coe_lt_coe.mpr (WithTop.coe_lt_top _)
    simp only [below, Bool.not_false, h, decide_true]
  | .fin n m e, .fin n' m' e' =>
    simp only [below, Claims.orderOf, Bool.false_and, Bool.or_false, Dyad.lt_iff, ← valueOf_eq, WithBot.coe_lt_coe,
      WithTop.coe_lt_coe]

end Sys2Proof.Machine.Float

namespace Sys2Proof.Machine

open Assoc Bits Sys2Proof.Machine.Float Claims

/-! ### Float compares (R437) -/

section

variable (v : Env) (a b : Nat)

theorem floatTest_of_unordered (h : ((unpack v.f (v.rd a)).isNan || (unpack v.f (v.rd b)).isNan) = true) :
    (floatTest .eq v a b).1 = false ∧ (floatTest .ne v a b).1 = true ∧ (floatTest .lt v a b).1 = false ∧
      (floatTest .le v a b).1 = false ∧ (floatTest .un v a b).1 = true ∧ (floatTest .lt v a b).2 = fNV ∧
      (floatTest .le v a b).2 = fNV := by
  simp [floatTest, h]

theorem floatTest_of_ordered (h : ((unpack v.f (v.rd a)).isNan || (unpack v.f (v.rd b)).isNan) = false) :
    (floatTest .un v a b).1 = false ∧ (floatTest .lt v a b).2 = 0 ∧
      (floatTest .lt v a b).1 = below false (unpack v.f (v.rd a)) (unpack v.f (v.rd b)) ∧
      (floatTest .eq v a b).1 = (!below false (unpack v.f (v.rd a)) (unpack v.f (v.rd b)) &&
        !below false (unpack v.f (v.rd b)) (unpack v.f (v.rd a))) := by
  simp [floatTest, h]

theorem floatTest_lt_iff (h : ((unpack v.f (v.rd a)).isNan || (unpack v.f (v.rd b)).isNan) = false) :
    (floatTest .lt v a b).1 = true ↔
      Claims.orderOf (unpack v.f (v.rd a)) < Claims.orderOf (unpack v.f (v.rd b)) := by
  obtain ⟨-, -, hlt, -⟩ := floatTest_of_ordered v a b h
  obtain ⟨hx, hy⟩ := Bool.or_eq_false_iff.mp h
  rw [hlt, below_iff hx hy, decide_eq_true_iff]

theorem floatTest_eq_iff (h : ((unpack v.f (v.rd a)).isNan || (unpack v.f (v.rd b)).isNan) = false) :
    (floatTest .eq v a b).1 = true ↔
      Claims.orderOf (unpack v.f (v.rd a)) = Claims.orderOf (unpack v.f (v.rd b)) := by
  obtain ⟨-, -, -, heq⟩ := floatTest_of_ordered v a b h
  obtain ⟨hx, hy⟩ := Bool.or_eq_false_iff.mp h
  rw [heq, below_iff hx hy, below_iff hy hx]
  simp only [Bool.and_eq_true, Bool.not_eq_true', decide_eq_false_iff_not, not_lt]
  exact and_comm.trans le_antisymm_iff.symm

end

/-- The class of a value by its kind and its number. -/
theorem classOf_cases (v : Env) (a : Nat) :
    ((unpack v.f (v.rd a)).isNan = true → classOf v a = 0) ∧ (unpack v.f (v.rd a) = .inf true → classOf v a = 1) ∧
    (unpack v.f (v.rd a) = .inf false → classOf v a = 6) ∧
    (∀ n m e, unpack v.f (v.rd a) = .fin n m e →
      (valueOf (unpack v.f (v.rd a)) < 0 → classOf v a = 2) ∧
      (valueOf (unpack v.f (v.rd a)) = 0 → n = true → classOf v a = 3) ∧
      (valueOf (unpack v.f (v.rd a)) = 0 → n = false → classOf v a = 4) ∧
      (0 < valueOf (unpack v.f (v.rd a)) → classOf v a = 5)) := by
  unfold classOf
  generalize unpack v.f (v.rd a) = x
  cases x with
  | nan n m => simp [Val.isNan]
  | inf n => cases n <;> simp [Val.isNan]
  | fin n m e =>
    have hp : (0 : ℚ) < 2 ^ e := by positivity
    rcases Nat.eq_zero_or_pos m with rfl | hm
    · cases n <;> simp [Val.isNan, valueOf]
    · have hv : (0 : ℚ) < m * 2 ^ e := by positivity
      cases n <;> simp [Val.isNan, valueOf, hm.ne', hv, hv.not_gt, hv.ne']

variable {i : Instr} {s : State} {g : Group}

theorem issue_intCompare (h : Admits i s g) (d a b : Code) (f : Word → Word → Bool) :
    issue i (intCompare d a b f) s = .next (after i s g (s.setGroup s.cur
      (g.setMaskLanes d.toNat g.activeLanes fun j => f (srcV g a j) (srcV g b j))) .none) :=
  issue_plain h rfl

theorem issue_floatCompare (h : Admits i s g) (d a b : Code) (t : FloatTest) :
    let r := fun j => floatTest t (envOf g.fmt) (compareValue g a j) (compareValue g b j)
    let fl := g.activeLanes.foldl (fun x j => x ||| (r j).2) 0
    issue i (floatCompare d a b t) s = .next (afterFp i s g
      (s.setGroup s.cur (mergeFst (g.setMaskLanes d.toNat g.activeLanes fun j => (r j).1) fl)) .none
      (fl &&& trapEnables g.fmt) (maskOf (g.activeLanes.filter fun j => (r j).2 &&& trapEnables g.fmt != 0))) :=
  issue_fp h rfl

/-- The integer compares, table entry by table entry. -/
theorem exec_cmpForms : ∀ f ∈ cmpForms, ∀ (d a b : Code) (s : State) (g : Group), Admits (f.1 d a b) s g →
    exec (f.1 d a b) s = .next (after (f.1 d a b) s g (s.setGroup s.cur
      (g.setMaskLanes d.toNat g.activeLanes fun j => f.2 (srcV g a j) (srcV g b j))) .none) := by
  have heq (x y : Word) : (x == y) = decide (x = y) := beq_eq_decide ..
  have hne (x y : Word) : (x != y) = decide (x ≠ y) := by rw [bne, heq, decide_not]
  simp only [cmpForms, List.forall_mem_cons, List.not_mem_nil, false_implies, implies_true, and_true]
  refine ⟨fun d a b s g h => ?_, fun d a b s g h => ?_, ?_, ?_, ?_, ?_⟩
  · simp only [exec_vcmp_eq, execVcmpEq, heq]
    exact issue_intCompare h d a b _
  · simp only [exec_vcmp_ne, execVcmpNe, hne]
    exact issue_intCompare h d a b _
  all_goals exact fun d a b s g h => issue_intCompare h d a b _

end Sys2Proof.Machine

namespace Sys2Proof

open Machine Machine.Assoc Machine.Bits Machine.Float Claims

/-- Settles O18: the compares issue with the write of their bits; a test of ordered values is that of their numbers. -/
theorem compareResult : Obligations.CompareResult := by
  unfold Obligations.CompareResult
  refine ⟨exec_cmpForms, ?_, ?_, ?_, classOf_cases⟩
  · simp only [fcmpForms, List.forall_mem_cons, List.not_mem_nil, false_implies, implies_true, and_true]
    refine ⟨?_, ?_, ?_, ?_, ?_⟩ <;> exact fun d a b s g h => issue_floatCompare h d a b _
  · intro d a imm s g h
    rw [exec_vfclass, execVfclass]
    exact issue_plain h rfl
  · intro v a b
    refine ⟨floatTest_of_unordered v a b, fun h => ?_, ?_⟩
    · obtain ⟨hun, hfl, -, -⟩ := floatTest_of_ordered v a b h
      exact ⟨hun, rfl, rfl, hfl, floatTest_eq_iff v a b h, floatTest_lt_iff v a b h⟩
    · simp [floatTest]

end Sys2Proof

/-! Forms that move elements across lanes, and reductions (R132, R433 to R435, R449). -/

namespace Sys2Proof.Machine

open Assoc Bits Sys2Proof.Machine.Float Claims

variable {i : Instr} {s : State} {g : Group}

/-! ### Moves between lanes -/

theorem issue_crossLane (h : Admits i s g) (d : Code) (nw : Bool) (f : State → Group → Nat → Word) :
    issue i (fun s gid g => crossLane d nw (f s g) s gid g) s = .next (vecAfter i s g d nw (f s g)) :=
  issue_done h rfl

theorem srcLane_of_dead {a : Code} {k : Nat} (ha : a.toNat < 104) (hk : g.live k = false) : srcLane g a k = 0 := by
  simp [srcLane, hk, Nat.not_le.mpr ha]

theorem getLsbD_planeWord (src : Nat → Word) (j : Nat) {k : Nat} (hk : k < 32) :
    (planeWord src j).getLsbD k = (src k).getLsbD (8 * (j / 8) + (7 - j % 8)) := by
  rw [planeWord, getLsbD_maskOf]; simp [hk, bit_eq_getLsbD]

theorem getLsbD_unplaneWord (src : Nat → Word) (j : Nat) {k : Nat} (hk : k < 32) :
    (unplaneWord src j).getLsbD k = (src (8 * (k / 8) + (7 - k % 8))).getLsbD j := by
  rw [unplaneWord, getLsbD_maskOf]; simp [hk, bit_eq_getLsbD]

/-- The planes of a word give it back: plane `8c + p` holds bit `8c + 7 - p`. -/
theorem unplaneWord_planeWord (src : Nat → Word) {j : Nat} (hj : j < 32) :
    unplaneWord (planeWord src) j = src j := by
  apply BitVec.eq_of_getLsbD_eq
  intro k hk
  rw [getLsbD_unplaneWord _ _ hk, getLsbD_planeWord _ _ hj]
  congr 1
  omega

/-! ### Integer sums -/

theorem toNat_foldl_add (xs : List Word) (x : Word) :
    (xs.foldl (· + ·) x).toNat = (x.toNat + (xs.map (·.toNat)).sum) % 2 ^ 32 := by
  induction xs generalizing x with
  | nil => simpa using (Nat.mod_eq_of_lt x.isLt).symm
  | cons y xs ih => rw [List.foldl_cons, ih, BitVec.toNat_add]; simp [Nat.add_assoc]

theorem toNat_intScan (g : Group) (a : Code) (j : Nat) :
    (intScan g a j).toNat = ((g.activeLanes.filter (· ≤ j)).map fun k => (srcV g a k).toNat).sum % 2 ^ 32 := by
  rw [intScan, toNat_foldl_add, List.map_map]
  simp [Function.comp_def]

/-! ### The tree over lanes (R132) -/

/-- What two neighbours of a level come to. -/
def joined (op : Res → Res → Res) : Option Res → Option Res → Option Res
  | some x, some y => some (op x y)
  | some x, none => some x
  | none, y => y

theorem treeNode_succ (op : Res → Res → Res) (leaf : Nat → Option Res) (l n : Nat) :
    treeNode op leaf (l + 1) n = joined op (treeNode op leaf l (2 * n)) (treeNode op leaf l (2 * n + 1)) := by
  rw [treeNode]
  generalize treeNode op leaf l (2 * n) = x
  generalize treeNode op leaf l (2 * n + 1) = y
  cases x <;> cases y <;> rfl

theorem treeLevel_cons_cons (op : Res → Res → Res) (a b : Option Res) (l : List (Option Res)) :
    treeLevel op (a :: b :: l) = joined op a b :: treeLevel op l := by
  cases a <;> cases b <;> rfl

theorem treeLevel_getD (op : Res → Res → Res) (l : List (Option Res)) (n : Nat) :
    (treeLevel op l).getD n none = joined op (l.getD (2 * n) none) (l.getD (2 * n + 1) none) := by
  induction l using List.twoStepInduction generalizing n with
  | nil => simp [treeLevel, joined]
  | singleton a => cases n <;> cases a <;> simp [treeLevel, joined]
  | cons_cons a b l ih _ =>
    rw [treeLevel_cons_cons]
    cases n with
    | zero => rfl
    | succ n => simpa [Nat.mul_succ] using ih n

/-- The levels over a list of leaves hold the nodes of the tree. -/
theorem treeLevels_getD (op : Res → Res → Res) (leaf : Nat → Option Res) (leaves : List (Option Res))
    (h : ∀ n, leaves.getD n none = leaf n) (l n : Nat) :
    ((List.range l).foldl (fun x _ => treeLevel op x) leaves).getD n none = treeNode op leaf l n := by
  induction l generalizing n with
  | zero => exact h n
  | succ l ih => rw [List.range_succ, List.foldl_concat, treeLevel_getD, ih, ih, treeNode_succ]

theorem mem_activeLanes {g : Group} {j : Nat} : j ∈ g.activeLanes ↔ g.active j = true := by
  rw [Group.activeLanes, lanesOf, List.mem_filter, List.mem_range, Group.active]
  exact and_iff_right_of_imp BitVec.lt_of_getLsbD

theorem activeLanes_contains (g : Group) (j : Nat) : g.activeLanes.contains j = g.active j := by
  rw [Bool.eq_iff_iff, List.contains_iff_mem, mem_activeLanes]

theorem treeOf_activeLanes (op : Res → Res → Res) (g : Group) (f : Nat → Nat) :
    treeOf op g.activeLanes f = treeNode op (fun j => if g.active j then some ⟨f j, 0⟩ else none) 5 0 := by
  refine treeLevels_getD op _ _ (fun n => ?_) 5 0
  simp only [activeLanes_contains]
  by_cases hn : n < 32
  · simp [List.getD, hn]
  · have hoff : g.active n = false := BitVec.getLsbD_of_ge _ _ (by omega)
    simp [List.getD, hn, hoff]

/-! ### The scan of floats (R132) -/

theorem scanAt_cons (e : Nat × Res) (rs : List (Nat × Res)) (j : Nat) :
    scanAt (e :: rs) j = if e.1 = j then e.2 else scanAt rs j := by
  by_cases h : e.1 = j <;> simp [scanAt, h]

/-- The scan at a lane, from the result before it. -/
theorem scanAt_floatScanGo_next (v : Env) (p : Option Nat) (pre : List (Nat × Nat)) (j x k y : Nat)
    (rest : List (Nat × Nat)) (h : ((pre ++ (j, x) :: (k, y) :: rest).map (·.1)).Nodup) :
    scanAt (floatScanGo v p (pre ++ (j, x) :: (k, y) :: rest)) k =
      fadd v (scanAt (floatScanGo v p (pre ++ (j, x) :: (k, y) :: rest)) j).w y := by
  induction pre generalizing p with
  | nil =>
    have hjk : j ≠ k := by rintro rfl; simp at h
    cases p <;> simp [floatScanGo, scanAt_cons, hjk]
  | cons e pre ih =>
    have hne : e.1 ≠ j ∧ e.1 ≠ k := by
      simp only [List.cons_append, List.map_cons, List.nodup_cons, List.map_append, List.mem_append, List.mem_cons] at h
      exact ⟨fun he => h.1 (by simp [he]), fun he => h.1 (by simp [he])⟩
    have htail : ((pre ++ (j, x) :: (k, y) :: rest).map (·.1)).Nodup := (List.nodup_cons.mp h).2
    cases p with
    | none => simpa [floatScanGo, scanAt_cons, hne] using ih _ htail
    | some p => simpa [floatScanGo, scanAt_cons, hne] using ih _ htail

theorem scanAt_floatScanGo_first (v : Env) (j x : Nat) (rest : List (Nat × Nat)) :
    scanAt (floatScanGo v none ((j, x) :: rest)) j = ⟨x, 0⟩ := by
  simp [floatScanGo, scanAt_cons]

/-! ### Reductions (R435) -/

theorem issue_crossScalar (h : Admits i s g) (d : Code) (nw : Bool) (f : State → Group → Word) :
    issue i (fun s gid g => crossScalar d nw (f s g) s gid g) s = .next (scaAfter i s g d nw (f s g)) :=
  issue_done h rfl

theorem issue_intReduction (h : Admits i s g) (d a : Code) (nw : Bool) (op : Word → Word → Word) (empty : Word) :
    issue i (intReduction d a nw op empty) s =
      .next (scaAfter i s g d nw ((g.activeLanes.map (srcV g a)).foldl op empty)) :=
  issue_done h rfl

theorem issue_floatReduction (h : Admits i s g) (d a : Code) (nw : Bool) (op : Env → Nat → Nat → Res)
    (empty : Fmt → Nat) :
    let r := floatReduce g a op empty
    let g' := if vfOf g.fmt = 3 then writeS64 g d nw (BitVec.ofNat 64 r.w) else writeS g d nw (BitVec.ofNat 32 r.w)
    let l : Latch := if vfOf g.fmt = 3 then .sca64 (BitVec.ofNat 64 r.w) else .sca (BitVec.ofNat 32 r.w)
    issue i (floatReduction d a nw op empty) s = .next (afterFp i s g (s.setGroup s.cur (mergeFst g' r.fl)) l
      (r.fl &&& trapEnables g.fmt) g.amask) := by
  intro r g' l
  refine issue_fp h ?_
  by_cases hf : vfOf g.fmt = 3 <;> simp [floatReduction, groupFlags, hf, r, g', l]

theorem exec_vscan_f_of_admits {d a : Code} {nw : Bool} (h : Admits (.vscan_f d a nw) s g) :
    let r := floatScan g a
    let fl := g.activeLanes.foldl (fun x j => x ||| (r j).fl) 0
    let g' := if vfOf g.fmt = 3 then writeV64 g d nw fun j => BitVec.ofNat 64 (r j).w
      else writeV g d nw fun j => BitVec.ofNat 32 (r j).w
    let l := if vfOf g.fmt = 3 then vecLatch64 g fun j => BitVec.ofNat 64 (r j).w
      else vecLatch g fun j => BitVec.ofNat 32 (r j).w
    exec (.vscan_f d a nw) s = .next (afterFp (.vscan_f d a nw) s g (s.setGroup s.cur (mergeFst g' fl)) l
      (fl &&& trapEnables g.fmt) g.amask) := by
  intro r fl g' l
  rw [exec_vscan_f, execVscanF]
  refine issue_fp h ?_
  by_cases hf : vfOf g.fmt = 3 <;> simp [groupFlags, flagsOf, hf, r, fl, g', l]

/-- `vfirst` with a correct element. -/
theorem exec_vfirst_of_good {d a : Code} {nw : Bool} (h : Admits (.vfirst d a nw) s g) (hg : FirstGood a g) :
    exec (.vfirst d a nw) s =
      .next (scaAfter (.vfirst d a nw) s g d nw (match g.activeLanes with | j :: _ => srcV g a j | [] => 0)) := by
  rw [exec_vfirst, execVfirst]
  cases hl : g.activeLanes with
  | nil => exact issue_done h (by simp only [hl]; rfl)
  | cons j js =>
    have hgood : badAt g (osrc .vec a) j = false := hg j (by simp [hl])
    exact issue_done h (by simp only [hl, List.head?_cons, hgood, Bool.false_eq_true, if_false]; rfl)

/-- `vfirst` with an uncorrectable one. -/
theorem exec_vfirst_of_bad {d a : Code} {nw : Bool} {j : Nat} {js : List Nat} (h : Admits (.vfirst d a nw) s g)
    (hl : g.activeLanes = j :: js) (hbad : badAt g (osrc .vec a) j = true) :
    exec (.vfirst d a nw) s = .next (after (.vfirst d a nw) s g
      (uceLanes (s.setGroup s.cur (writeS g d nw 0)) s.cur (maskOf [j]) g.pc) (.sca 0)) := by
  rw [exec_vfirst, execVfirst]
  exact issue_done h (by simp only [hl, List.head?_cons, hbad, if_true])

/-- The tree of a float reduction, over one part of each element. -/
def reduceTree (g : Group) (a : Code) (op : Env → Nat → Nat → Res) (empty : Fmt → Nat) (part : Nat → Nat) : Res :=
  (treeNode (node (op (envKeep g.fmt))) (fun j => if g.active j then some ⟨part (fpSrc g a j), 0⟩ else none) 5 0).getD
    ⟨empty (envKeep g.fmt).f, 0⟩

theorem floatReduce_whole {a : Code} {op : Env → Nat → Nat → Res} {empty : Fmt → Nat}
    (h : vfOf g.fmt = 0 ∨ vfOf g.fmt = 3) : floatReduce g a op empty = reduceTree g a op empty id := by
  simp only [floatReduce, if_pos h, reduceTree, treeOf_activeLanes]

theorem floatReduce_packed {a : Code} {op : Env → Nat → Nat → Res} {empty : Fmt → Nat}
    (h : vfOf g.fmt = 1 ∨ vfOf g.fmt = 2) : floatReduce g a op empty =
      ⟨(reduceTree g a op empty (· / 65536)).w * 65536 + (reduceTree g a op empty (· % 65536)).w,
        (reduceTree g a op empty (· / 65536)).fl ||| (reduceTree g a op empty (· % 65536)).fl⟩ := by
  have h' : ¬(vfOf g.fmt = 0 ∨ vfOf g.fmt = 3) := by omega
  simp only [floatReduce, if_neg h', reduceTree, treeOf_activeLanes]

end Sys2Proof.Machine

namespace Sys2Proof

open Machine Machine.Assoc Machine.Bits Machine.Float Claims

/-- Settles O22: the moves issue with the write of their elements; planes are pinned bit by bit. -/
theorem crossLaneResult : Obligations.CrossLaneResult := by
  unfold Obligations.CrossLaneResult
  refine ⟨?_, ?_, ?_, fun g a k => srcLane_of_dead,
    fun src j k _ hk => ⟨getLsbD_planeWord src j hk, getLsbD_unplaneWord src j hk⟩,
    fun src j => unplaneWord_planeWord src, toNat_intScan⟩
  · simp only [moveForms1, List.forall_mem_cons, List.not_mem_nil, false_implies, implies_true, and_true]
    refine ⟨?_, ?_, ?_, ?_⟩ <;> intro d a nw s g h
    · rw [exec_vplane, execVplane, issue_crossLane h d nw fun _ g => planeWord (srcLane g a)]
    · rw [exec_vunpl, execVunpl, issue_crossLane h d nw fun _ g => unplaneWord (srcLane g a)]
    · rw [exec_vmov, execVmov, issue_crossLane h d nw fun _ g => srcV g a]
    · rw [exec_vscan_i, execVscanI, issue_crossLane h d nw fun _ g => intScan g a]
  · simp only [moveForms2, List.forall_mem_cons, List.not_mem_nil, false_implies, implies_true, and_true]
    refine ⟨?_, ?_, ?_⟩ <;> intro d a b nw s g h
    · rw [exec_vshfl, execVshfl, issue_crossLane h d nw fun _ g j => srcLane g a ((srcV g b j).toNat % 32)]
    · rw [exec_vshfx, execVshfx,
        issue_crossLane h d nw fun _ g j => srcLane g a (BitVec.ofNat 5 j ^^^ (srcV g b j).setWidth 5).toNat]
    · rw [exec_vbcl, execVbcl, issue_crossLane h d nw fun s g _ => srcLane g a ((srcS s g b).toNat % 32)]
  · intro d a b nw m s g h
    rw [exec_vsel, execVsel,
      issue_crossLane h d nw fun _ g j => if bit (g.maskAt m.toNat) j then srcV g a j else srcV g b j]

/-- Settles O23: the folds issue as they stand; the levels over the lanes are the nodes of the tree. -/
theorem reductionResult : Obligations.ReductionResult := by
  unfold Obligations.ReductionResult
  refine ⟨?_, ?_, fun d a nw s g h => exec_vscan_f_of_admits h, fun d a nw s g => exec_vfirst_of_good,
    fun d a nw s g j js => exec_vfirst_of_bad, ?_, ?_, ?_, ?_⟩
  · simp only [reduceForms, List.forall_mem_cons, List.not_mem_nil, false_implies, implies_true, and_true]
    refine ⟨?_, ?_, ?_, ?_, ?_⟩ <;> exact fun d a nw s g h => issue_intReduction h d a nw _ _
  · simp only [floatReduceForms, List.forall_mem_cons, List.not_mem_nil, false_implies, implies_true, and_true]
    refine ⟨?_, ?_, ?_⟩ <;> exact fun d a nw s g h => issue_floatReduction h d a nw _ _
  · intro d a nw s g h
    rw [exec_vballot, execVballot,
      issue_crossScalar h d nw fun _ g => maskOf (g.activeLanes.filter fun j => srcV g a j != 0)]
  · exact fun g a op empty => ⟨rfl, floatReduce_whole, floatReduce_packed⟩
  · intro v xs hnd
    refine ⟨fun j x rest hxs => ?_, fun pre j x k y rest hxs => ?_⟩ <;> subst hxs
    · exact scanAt_floatScanGo_first v j x rest
    · exact scanAt_floatScanGo_next v none pre j x k y rest hnd
  · intro g a j
    refine ⟨fun h => ?_, fun h => ?_⟩
    · simp only [floatScan, if_pos h]
    · have h' : ¬(vfOf g.fmt = 0 ∨ vfOf g.fmt = 3) := by omega
      simp only [floatScan, if_neg h']

end Sys2Proof

/-! Control: branches, loops, the mask stack, traps and ends, and system registers (R73 to R79, R228, R229, R357 to R372). -/

namespace Sys2Proof.Machine

open Assoc Bits Claims

/-! ### Taken branches pop loops (R79) -/

/-- The loops that a transfer pops: the top ones without its target, down to the depth noted at trap entry. -/
theorem popLoops_eq_drop (base : Nat) (t : DWord) (l : List LoopEntry) :
    ∃ k, popLoops base t l = l.drop k ∧ k ≤ l.length - base ∧
      (∀ e ∈ l.take k, t.toNat < e.start.toNat ∨ e.last.toNat < t.toNat) ∧
      ∀ top rest, popLoops base t l = top :: rest → base < (top :: rest).length →
        top.start.toNat ≤ t.toNat ∧ t.toNat ≤ top.last.toNat := by
  induction l with
  | nil => exact ⟨0, rfl, Nat.zero_le _, by simp, by simp [popLoops]⟩
  | cons e l ih =>
    by_cases hb : (e :: l).length ≤ base
    · have hp : popLoops base t (e :: l) = e :: l := by rw [popLoops, if_pos hb]
      refine ⟨0, hp, Nat.zero_le _, by simp, fun top rest h hlen => ?_⟩
      rw [← h, hp] at hlen
      omega
    · by_cases hout : t.toNat < e.start.toNat ∨ t.toNat > e.last.toNat
      · have hp : popLoops base t (e :: l) = popLoops base t l := by rw [popLoops, if_neg hb, if_pos hout]
        obtain ⟨k, hk, hle, hbefore, htop⟩ := ih
        refine ⟨k + 1, by rw [hp, hk, List.drop_succ_cons], ?_, ?_, hp ▸ htop⟩
        · rw [List.length_cons] at hb ⊢; omega
        · rw [List.take_succ_cons]
          exact List.forall_mem_cons.mpr ⟨hout, hbefore⟩
      · have hp : popLoops base t (e :: l) = e :: l := by rw [popLoops, if_neg hb, if_neg hout]
        refine ⟨0, hp, Nat.zero_le _, by simp, fun top rest h _ => ?_⟩
        rw [hp, List.cons.injEq] at h
        obtain ⟨rfl, -⟩ := h
        omega

theorem branchTo_pops (g : Group) (t : DWord) :
    (branchTo g t).pc = t ∧ ∃ k, (branchTo g t).lstack = g.lstack.drop k ∧ k ≤ g.lstack.length - g.loopBase ∧
      (∀ e ∈ g.lstack.take k, t.toNat < e.start.toNat ∨ e.last.toNat < t.toNat) ∧
      (∀ top rest, (branchTo g t).lstack = top :: rest → g.loopBase < (top :: rest).length →
        top.start.toNat ≤ t.toNat ∧ t.toNat ≤ top.last.toNat) :=
  ⟨rfl, popLoops_eq_drop ..⟩

/-! ### Control transfers -/

variable {i : Instr} {s : State} {g : Group}

theorem issue_branchScalar (h : Admits i s g) (a : Code) (off : BitVec 16) (p : Int → Bool) :
    issue i (branchScalar a off p) s = .next (jumped i s g (s.setGroup s.cur
      (if p (srcS s g a).toInt then branchTo g (g.pc + 4 * sext64 off) else { g with pc := g.pc + 4 }))) :=
  issue_jump h rfl

theorem issue_branchMask (h : Admits i s g) (a : Code) (off : BitVec 16) (p : Word → Word → Bool) :
    issue i (branchMask a off p) s = .next (jumped i s g (s.setGroup s.cur
      (if p (g.maskAt a.toNat &&& g.lmask) g.lmask then branchTo g (g.pc + 4 * sext64 off)
      else { g with pc := g.pc + 4 }))) :=
  issue_jump h rfl

/-- The scalar branches, table entry by table entry. -/
theorem exec_branchForms : ∀ f ∈ branchForms, ∀ (a : Code) (off : BitVec 16) (s : State) (g : Group),
    Admits (f.1 a off) s g → exec (f.1 a off) s = .next (jumped (f.1 a off) s g (s.setGroup s.cur
      (if f.2 (srcS s g a).toInt then branchTo g (g.pc + 4 * sext64 off) else { g with pc := g.pc + 4 }))) := by
  have heq (v : Int) : (v == 0) = decide (v = 0) := beq_eq_decide ..
  have hne (v : Int) : (v != 0) = decide (v ≠ 0) := by rw [bne, heq, decide_not]
  simp only [branchForms, List.forall_mem_cons, List.not_mem_nil, false_implies, implies_true, and_true]
  refine ⟨fun a off s g h => ?_, fun a off s g h => ?_, ?_, ?_, ?_, ?_⟩
  · simp only [exec_b_eq, execBEq, issue_branchScalar h, heq]
  · simp only [exec_b_ne, execBNe, issue_branchScalar h, hne]
  all_goals exact fun a off s g h => issue_branchScalar h a off _

/-- The mask branches, table entry by table entry. -/
theorem exec_maskBranchForms : ∀ f ∈ maskBranchForms, ∀ (a : Code) (off : BitVec 16) (s : State) (g : Group),
    Admits (f.1 a off) s g → exec (f.1 a off) s = .next (jumped (f.1 a off) s g (s.setGroup s.cur
      (if f.2 (g.maskAt a.toNat &&& g.lmask) g.lmask then branchTo g (g.pc + 4 * sext64 off)
      else { g with pc := g.pc + 4 }))) := by
  have heq (v w : Word) : (v == w) = decide (v = w) := beq_eq_decide ..
  have hne (v w : Word) : (v != w) = decide (v ≠ w) := by rw [bne, heq, decide_not]
  simp only [maskBranchForms, List.forall_mem_cons, List.not_mem_nil, false_implies, implies_true, and_true]
  refine ⟨fun a off s g h => ?_, fun a off s g h => ?_, fun a off s g h => ?_⟩
  · simp only [exec_bm_any, execBmAny, issue_branchMask h, hne]
  · simp only [exec_bm_none, execBmNone, issue_branchMask h, heq]
  · simp only [exec_bm_all, execBmAll, issue_branchMask h, heq]

theorem jumpTo_of_aligned {t : DWord} (ht : t &&& 3 = 0) :
    jumpTo t s s.cur g = .jump (s.setGroup s.cur { g with pc := t }) := by
  simp only [jumpTo, ht, bne_self_eq_false, Bool.false_eq_true, if_false]

theorem jumpTo_of_misaligned {t : DWord} (ht : t &&& 3 ≠ 0) : jumpTo t s s.cur g = .fault .align 0 t :=
  if_pos (bne_iff_ne.mpr ht)

/-! ### Loops (R77, R392, R393) -/

/-- The end of the body that `loop` names. -/
def loopLast (g : Group) (e : BitVec 12) : DWord := g.pc + 4 * e.setWidth 64

/-- The body ends beyond that of the loop around it. -/
def passesEnclosing (g : Group) (e : BitVec 12) : Bool :=
  decide (g.lstack.length > g.loopBase) &&
    (match g.lstack with | top :: _ => top.last.ult (loopLast g e) | [] => false)

theorem passesEnclosing_iff {e : BitVec 12} : passesEnclosing g e = true ↔
    ∃ top rest, g.lstack = top :: rest ∧ g.loopBase < g.lstack.length ∧ top.last.toNat < (loopLast g e).toNat := by
  rw [passesEnclosing]
  cases g.lstack <;> simp [BitVec.ult]

theorem not_passesEnclosing {e : BitVec 12}
    (h : g.lstack.length ≤ g.loopBase ∨ ∀ top rest, g.lstack = top :: rest → (loopLast g e).toNat ≤ top.last.toNat) :
    passesEnclosing g e = false := by
  rw [Bool.eq_false_iff]
  intro hp
  obtain ⟨top, rest, hl, hlt, hpast⟩ := passesEnclosing_iff.mp hp
  rcases h with h | h
  · omega
  · exact absurd (h top rest hl) (by omega)

section

variable {a : Code} {e : BitVec 12} (h : Admits (.loop a e) s g)

include h

theorem exec_loop_of_empty (hn : srcS s g a = 0) :
    exec (.loop a e) s = .next (jumped (.loop a e) s g (s.setGroup s.cur
      (if atLoopEnd g (loopLast g e) then resumeAfter g (loopLast g e) else { g with pc := loopLast g e + 4 }))) := by
  have h0 : (srcS s g a).toNat = 0 := by rw [hn]; rfl
  rw [exec_loop, execLoop]
  by_cases hend : atLoopEnd g (loopLast g e) = true
  · rw [if_pos hend]
    exact issue_jump h ((if_pos h0).trans (if_pos hend))
  · rw [if_neg hend]
    exact issue_jump h ((if_pos h0).trans (if_neg hend))

theorem exec_loop_of_count (hn : srcS s g a ≠ 0) : exec (.loop a e) s = .next
    (if passesEnclosing g e then faulted (.loop a e) s g .loopend 0 0
    else if g.lstack.length = 4 then faulted (.loop a e) s g .mstack 0 0
    else jumped (.loop a e) s g (s.setGroup s.cur
      { g with lstack := ⟨g.pc + 4, loopLast g e, (srcS s g a).toNat⟩ :: g.lstack, pc := g.pc + 4 })) := by
  have h0 : (srcS s g a).toNat ≠ 0 := fun h0 => hn (BitVec.eq_of_toNat_eq h0)
  rw [exec_loop, execLoop]
  by_cases hp : passesEnclosing g e = true
  · rw [if_pos hp]
    refine issue_fault h ?_
    simp only [h0, if_false]
    exact if_pos hp
  · rw [if_neg hp]
    by_cases hfull : g.lstack.length = 4
    · rw [if_pos hfull]
      refine issue_fault h ?_
      simp only [h0, if_false]
      exact (if_neg hp).trans (if_pos hfull)
    · rw [if_neg hfull]
      refine issue_jump h ?_
      simp only [h0, if_false]
      exact (if_neg hp).trans (if_neg hfull)

end

/-! ### The mask stack -/

@[simp] theorem group?_updGroup (s : State) (gid n : Nat) (f : Group → Group) :
    (s.updGroup gid f).group? n = if n = gid then (s.group? n).map f else s.group? n := by
  simp [State.group?, find_upd]

theorem originsOf_of_home (hm : isMigrant g = false) : originsOf g = [] := by
  unfold isMigrant at hm
  unfold originsOf
  cases hk : g.kind <;> simp_all

/-- No lane of a home group has an origin to return to. -/
theorem sendReturns_of_home (s : State) (hm : isMigrant g = false) (kind : Nat) (lanes : List Nat) :
    sendReturns s g kind lanes = s := by
  simp only [sendReturns, originsOf_of_home hm, find]
  exact List.foldl_fixed lanes

/-- The lanes of a home group killed: beside LMASK and AMASK, unsent fragments of theirs are abandoned (R74, R300). -/
theorem killLanes_of_home {gid : Nat} (hg : s.group? gid = some g) (hm : isMigrant g = false) (w : Word) :
    killLanes s gid w = { s with
      groups := upd s.groups gid fun g => { g with lmask := g.lmask &&& ~~~w, amask := g.amask &&& ~~~w }
      frags := s.frags.filter fun f => !(f.gid == gid && unsent f && (lanesOf (w &&& g.lmask)).contains f.lane) } := by
  have hg' : find s.groups gid = some g := hg
  simp only [killLanes, hg, hm, Bool.false_eq_true, if_false]
  simp only [State.group?, State.updGroup, find_upd, hg', Option.map_some, if_true]
  exact sendReturns_of_home _ hm _ _

theorem group?_killLanes_home {gid : Nat} (hg : s.group? gid = some g) (hm : isMigrant g = false) (w : Word) :
    (killLanes s gid w).group? gid = some { g with lmask := g.lmask &&& ~~~w, amask := g.amask &&& ~~~w } := by
  have hg' : find s.groups gid = some g := hg
  simp [killLanes_of_home hg hm, State.group?, find_upd, hg']

/-! ### System registers -/

theorem sampled_of_ne (s : State) (g : Group) {n : Nat} (h : n ≠ 0x30) : sampled s g n = g := if_neg h

/-- A word that names a system register in a way that R56 refuses is turned away outside the chain. -/
theorem issue_turnedAway {c : Cause} (hg : s.group? s.cur = some g) (hs : g.status = .ready)
    (hc : (s.coreAt g.core).scanning = false) (hfmt : undefByFmt g.fmt i = false) (hw : wordFault g i = some c)
    (body : State → Nat → Group → Effect) : issue i body s = .next (turnedAway i s g c) := by
  have hd : decodeFault s g i = some c := by simp [decodeFault, hfmt, hw]
  rw [issue_of_decodeFault hg hs hc hd, faultJoins_of_wordFault hw, turnedAway]

theorem wordFault_of_unassigned {n : Nat} (hn : csrNumber i = some n) (hp : g.priv = true ∨ n < 0x60)
    (ha : csrAssigned n = false) : wordFault g i = some .opnd := by
  have hpriv : (!g.priv && decide (n ≥ 0x60)) = false := by
    rcases hp with h | h
    · simp [h]
    · simp [Nat.not_le.mpr h]
  simp [wordFault, hn, hpriv, ha]

end Sys2Proof.Machine

namespace Sys2Proof

open Machine Machine.Assoc Machine.Bits Claims

/-- Settles O26: the transfers issue with their targets; loops popped by induction on the stack. -/
theorem controlResult : Obligations.ControlResult := by
  unfold Obligations.ControlResult
  refine ⟨exec_branchForms, exec_maskBranchForms, branchTo_pops, ?_, ?_, ?_, ?_, ?_, ?_, ?_, ?_, ?_, ?_⟩
  · intro off s g h
    rw [exec_j, execJ]
    exact issue_jump h rfl
  · intro off s g h
    rw [exec_call, execCall]
    exact issue_jump h rfl
  · intro a s g h ha
    rw [exec_jr, execJr]
    exact issue_jump h (jumpTo_of_aligned ha)
  · intro a s g h ha
    rw [exec_jr, execJr]
    exact issue_fault h (jumpTo_of_misaligned ha)
  · intro s g h ha
    rw [exec_ret, execRet]
    exact issue_jump h (jumpTo_of_aligned ha)
  · intro s g h ha
    rw [exec_ret, execRet]
    exact issue_fault h (jumpTo_of_misaligned ha)
  · intro a e s g h hn hin hroom
    rw [exec_loop_of_count h hn, not_passesEnclosing hin, if_neg Bool.false_ne_true, if_neg hroom]
    rfl
  · intro a e s g h hn hend
    change atLoopEnd g (loopLast g e) = _ at hend
    rw [exec_loop_of_empty h hn, if_neg (Bool.eq_false_iff.mp hend)]
    rfl
  · intro a e s g h hn hend
    change atLoopEnd g (loopLast g e) = _ at hend
    rw [exec_loop_of_empty h hn, if_pos hend]
    rfl
  · intro a e s g h hn
    refine ⟨fun top rest hl hlt hpast => ?_, fun hin hfull => ?_⟩
    · rw [exec_loop_of_count h hn, if_pos (passesEnclosing_iff.mpr ⟨top, rest, hl, hlt, hpast⟩)]
    · rw [exec_loop_of_count h hn, not_passesEnclosing hin, if_neg Bool.false_ne_true, if_pos hfull]

/-- Settles O27: each form by what it finds on the mask stack or in its operand. -/
theorem maskStackResult : Obligations.MaskStackResult := by
  unfold Obligations.MaskStackResult
  refine ⟨?_, ?_, ?_, ?_, ?_, ?_, fun s gid g w hg hm => group?_killLanes_home hg hm w, ?_, ?_, ?_⟩
  · intro a s g h hroom
    rw [exec_vif, execVif]
    exact issue_plain h (if_neg hroom)
  · intro a s g h hfull
    rw [exec_vif, execVif]
    exact issue_fault h (if_pos hfull)
  · intro e es s g h hl
    rw [exec_velse, execVelse]
    exact issue_plain h (by simp only [hl])
  · intro e es s g h hl
    rw [exec_vendif, execVendif]
    exact issue_plain h (by simp only [hl])
  · intro s g hl
    refine ⟨fun h => ?_, fun h => ?_⟩
    · rw [exec_velse, execVelse]
      exact issue_fault h (by simp only [hl])
    · rw [exec_vendif, execVendif]
      exact issue_fault h (by simp only [hl])
  · intro a s g h
    rw [exec_vkill, execVkill]
    exact issue_plain h rfl
  · intro a s g h hr
    rw [exec_fmt, execFmt]
    exact issue_plain h (if_neg (Bool.eq_false_iff.mp hr))
  · intro a s g h hr
    rw [exec_fmt, execFmt]
    exact issue_fault h (if_pos hr)
  · intro s g h
    rw [exec_nop, execNop]
    exact issue_plain h rfl

/-- Settles O29: each form by the condition that its effect turns on. -/
theorem trapInstrResult : Obligations.TrapInstrResult := by
  unfold Obligations.TrapInstrResult
  refine ⟨?_, ?_, ?_, ?_, ?_, ?_, ?_, ?_, ?_, ?_, ?_, ?_⟩
  · intro n s g h
    rw [exec_trap, execTrap]
    exact issue_thenTrap h rfl
  · intro n s g h hd
    rw [exec_brk, execBrk]
    exact issue_thenTrap h (if_neg (Bool.eq_false_iff.mp hd))
  · intro n s g h hd
    rw [exec_brk, execBrk]
    exact issue_park h (if_pos hd)
  · intro s g h ha
    rw [exec_rett, execRett]
    exact issue_jump h (if_neg fun hne => bne_iff_ne.mp hne ha)
  · intro s g h ha
    rw [exec_rett, execRett]
    exact issue_fault h (if_pos (bne_iff_ne.mpr ha))
  · intro s g h hm
    rw [exec_exit, execExit]
    exact issue_gone h (if_neg (Bool.eq_false_iff.mp hm))
  · intro s g h hm hq
    rw [exec_exit, execExit]
    exact issue_gone h (by simp only [hm, hq, if_true, Bool.not_true, Bool.false_eq_true, if_false])
  · intro s g h hm hq
    rw [exec_exit, execExit]
    exact issue_stall h (by simp only [hm, hq, if_true, Bool.not_false])
  · intro n s g h hcase
    rw [exec_ppt, execPpt]
    refine issue_plain h ?_
    rcases hcase with hm | ⟨hp, hv⟩
    · exact if_pos hm
    · simp only [hp, hv, Bool.false_eq_true, if_false, ite_self]
  · intro n s g h hp
    have hm : isMigrant g = false := by
      rw [preemptDue, Bool.and_eq_true, Bool.and_eq_true, Bool.not_eq_true'] at hp
      exact hp.1.1
    rw [exec_ppt, execPpt]
    exact issue_park h (by simp only [hm, hp, Bool.false_eq_true, if_false, if_true])
  · intro n s g h hm hp hv
    rw [exec_ppt, execPpt]
    exact issue_park h (by simp only [hm, hp, hv, Bool.false_eq_true, if_false, if_true])
  · intro s g
    simp [vfHolds]

/-- Settles O44: the reads and writes issue as they stand; the words turned away by the checks of R56. -/
theorem systemRegisterResult : Obligations.SystemRegisterResult := by
  unfold Obligations.SystemRegisterResult
  refine ⟨?_, fun a b s g h => execCsrw_of_admits h, fun s g n => ⟨sampled_of_ne s g, if_pos rfl⟩, ?_, ?_⟩
  · intro d b nw s g h
    rw [exec_csrr, execCsrr]
    exact issue_done h rfl
  · intro s gid g p v
    simp only [← field_zero]
    refine ⟨fun n hn => ?_, rfl, rfl, rfl, rfl, fun n hn => ?_, rfl⟩
    · simp only [List.mem_cons, List.not_mem_nil, or_false] at hn
      rcases hn with h | h | h | h | h | h | h | h | h | h | h | h | h | h | h | h | h | h | h | h | h | h | h | h | h | h |
        h | h | h <;> subst h <;> rfl
    · simp only [List.mem_cons, List.not_mem_nil, or_false] at hn
      rcases hn with h | h | h | h | h | h | h | h | h | h <;> subst h <;> rfl
  · intro s g d a b nw hg hs hc
    rw [exec_csrr, exec_csrw, execCsrr, execCsrw]
    refine ⟨fun hp hb => ?_, fun hp ha => ?_⟩
    · exact ⟨issue_turnedAway hg hs hc rfl (wordFault_of_priv rfl hb hp) _,
        issue_turnedAway hg hs hc rfl (wordFault_of_priv rfl hb hp) _⟩
    · exact ⟨issue_turnedAway hg hs hc rfl (wordFault_of_unassigned rfl hp ha) _,
        issue_turnedAway hg hs hc rfl (wordFault_of_unassigned rfl hp ha) _⟩

end Sys2Proof

/-! The vector float forms: their results by lane, NaNs, invalid operations and FMT.DZ (R117, R125, R129, R442, R443). -/

namespace Sys2Proof.Machine.Float

open Bits Claims

/-! ### NaN operands (R125) -/

theorem nanOf_of_first {f : Fmt} {w : Nat} (ws : List Nat) (h : (unpack f w).isNan = true) :
    nanOf f (w :: ws) = some ⟨quiet f w, if (w :: ws).any (signalling f) then fNV else 0⟩ := by
  simp [nanOf, h]

theorem nanOf_of_second {f : Fmt} {w u : Nat} (ws : List Nat) (hw : (unpack f w).isNan = false)
    (hu : (unpack f u).isNan = true) :
    nanOf f (w :: u :: ws) = some ⟨quiet f u, if (w :: u :: ws).any (signalling f) then fNV else 0⟩ := by
  simp [nanOf, hw, hu]

theorem nanOf_of_third {f : Fmt} {w u x : Nat} (ws : List Nat) (hw : (unpack f w).isNan = false)
    (hu : (unpack f u).isNan = false) (hx : (unpack f x).isNan = true) :
    nanOf f (w :: u :: x :: ws) = some ⟨quiet f x, if (w :: u :: x :: ws).any (signalling f) then fNV else 0⟩ := by
  simp [nanOf, hw, hu, hx]

theorem isNan_of_signalling {f : Fmt} {w : Nat} (h : signalling f w = true) : (unpack f w).isNan = true := by
  rw [signalling] at h
  cases hu : unpack f w <;> simp_all [Val.isNan]

/-- A signalling operand makes a NaN result with NV. -/
theorem nanOf_of_signalling {f : Fmt} {ws : List Nat} (h : ws.any (signalling f) = true) :
    ∃ w, nanOf f ws = some ⟨w, fNV⟩ := by
  obtain ⟨u, hu, hs⟩ := List.any_eq_true.mp h
  have hsome : (ws.find? fun w => (unpack f w).isNan).isSome := by
    rw [List.find?_isSome]; exact ⟨u, hu, isNan_of_signalling hs⟩
  obtain ⟨w, hw⟩ := Option.isSome_iff_exists.mp hsome
  exact ⟨quiet f w, by rw [nanOf, hw, Option.map_some, if_pos h]⟩

section
variable {v : Env} {a b c : Nat} {r : Res}

theorem fadd_of_nan (h : nanOf v.f [v.rd a, v.rd b] = some r) : fadd v a b = r := by simp only [fadd, h]
theorem fsub_of_nan (h : nanOf v.f [v.rd a, v.rd b] = some r) : fsub v a b = r := by simp only [fsub, h]
theorem fmul_of_nan (h : nanOf v.f [v.rd a, v.rd b] = some r) : fmul v a b = r := by simp only [fmul, h]
theorem fdiv_of_nan (h : nanOf v.f [v.rd a, v.rd b] = some r) : fdiv v a b = r := by simp only [fdiv, h]
theorem fsqrt_of_nan (h : nanOf v.f [v.rd a] = some r) : fsqrt v a = r := by simp only [fsqrt, h]

theorem ffma_of_nan (n : Bool) (h : nanOf v.f [v.rd a, v.rd b, v.rd c] = some r) :
    ffma v n a b c = r ∨ ffma v n a b c = r.add fNV := by
  simp only [ffma, h]
  exact (ite_eq_or_eq _ _ _).symm

theorem ffma_w_of_nan (n : Bool) (h : nanOf v.f [v.rd a, v.rd b, v.rd c] = some r) : (ffma v n a b c).w = r.w := by
  rcases ffma_of_nan n h with h | h <;> rw [h]
  rfl

theorem ffma_fl_of_nan (n : Bool) (h : nanOf v.f [v.rd a, v.rd b, v.rd c] = some r) (hr : r.fl = fNV) :
    (ffma v n a b c).fl &&& fNV = fNV := by
  rcases ffma_of_nan n h with h | h <;> rw [h]
  · rw [hr]; rfl
  · rw [Res.add]; simp [hr]

end

/-! ### Infinities and zeros of the wide formats -/

/-- The formats of vector float instructions. -/
def vecFormats : List Fmt := [f64, f32, f16, bf16]

theorem unpack_infBits : ∀ f ∈ vecFormats, ∀ n : Bool, unpack f (signed f n f.infBits) = .inf n := by decide

theorem unpack_zero : ∀ f ∈ vecFormats, ∀ n : Bool, unpack f (signed f n 0) = .fin n 0 (f.emin - f.m) := by decide

theorem isSubnormal_infBits : ∀ f ∈ vecFormats, ∀ n : Bool, isSubnormal f (signed f n f.infBits) = false := by decide

theorem isSubnormal_zero : ∀ f ∈ vecFormats, ∀ n : Bool, isSubnormal f (signed f n 0) = false := by decide

theorem isSubnormal_nanBits : ∀ f ∈ vecFormats, isSubnormal f f.nanBits = false := by decide

theorem flip_infBits : ∀ f ∈ vecFormats, ∀ n : Bool, flip f (signed f n f.infBits) = signed f (!n) f.infBits := by
  decide

theorem rd_of_not_subnormal {v : Env} {w : Nat} (h : isSubnormal v.f w = false) : v.rd w = w := by simp [Env.rd, h]

theorem wr_of_not_subnormal {v : Env} {r : Res} (h : isSubnormal v.f r.w = false) : v.wr r = r := by simp [Env.wr, h]

theorem nanOf_pair_none {f : Fmt} {a b : Nat} (ha : (unpack f a).isNan = false) (hb : (unpack f b).isNan = false) :
    nanOf f [a, b] = none := by
  simp [nanOf, ha, hb]

/-- Opposite infinities added, zero by infinity, and quotients of equals among them are invalid. -/
theorem invalid_operations (v : Env) (hf : v.f ∈ vecFormats) (n : Bool) :
    fadd v (signed v.f n v.f.infBits) (signed v.f (!n) v.f.infBits) = invalid v.f ∧
      fsub v (signed v.f n v.f.infBits) (signed v.f n v.f.infBits) = invalid v.f ∧
      ∀ n' : Bool, fmul v (signed v.f n v.f.infBits) (signed v.f n' 0) = invalid v.f ∧
        fdiv v (signed v.f n v.f.infBits) (signed v.f n' v.f.infBits) = invalid v.f ∧
        fdiv v (signed v.f n 0) (signed v.f n' 0) = invalid v.f := by
  have hri (k : Bool) := rd_of_not_subnormal (isSubnormal_infBits v.f hf k)
  have hrz (k : Bool) := rd_of_not_subnormal (isSubnormal_zero v.f hf k)
  have hi := unpack_infBits v.f hf
  have hz := unpack_zero v.f hf
  have hinv : v.wr (invalid v.f) = invalid v.f := wr_of_not_subnormal (isSubnormal_nanBits v.f hf)
  have hflip := flip_infBits v.f hf
  have hn (k k' : Bool) : nanOf v.f [signed v.f k v.f.infBits, signed v.f k' v.f.infBits] = none :=
    nanOf_pair_none (by rw [hi]; rfl) (by rw [hi]; rfl)
  have hnz (k k' : Bool) : nanOf v.f [signed v.f k v.f.infBits, signed v.f k' 0] = none :=
    nanOf_pair_none (by rw [hi]; rfl) (by rw [hz]; rfl)
  have hzz (k k' : Bool) : nanOf v.f [signed v.f k 0, signed v.f k' 0] = none :=
    nanOf_pair_none (by rw [hz]; rfl) (by rw [hz]; rfl)
  have hne : ¬n = !n := by cases n <;> decide
  have hadd : addVal v.f v.rm (.inf n) (.inf (!n)) = invalid v.f := if_neg hne
  refine ⟨?_, ?_, fun n' => ⟨?_, ?_, ?_⟩⟩
  · simp only [fadd, hri, hn, hi, hadd, hinv]
  · simp only [fsub, hri, hn, hflip, hi, hadd, hinv]
  · simp only [fmul, hri, hrz, hnz, hi, hz]
    exact hinv
  · simp only [fdiv, hri, hn, hi]
  · simp only [fdiv, hrz, hzz, hz]
    rfl

/-! ### Flush to zero (R129) -/

/-- A quiet NaN has all its exponent bits. -/
theorem isSubnormal_quiet {f : Fmt} {w : Nat} (he : 0 < f.e) (hm : 0 < f.m) (h : (unpack f w).isNan = true) :
    isSubnormal f (quiet f w) = false := by
  have hexp : w / 2 ^ f.m % 2 ^ f.e = 2 ^ f.e - 1 := by
    by_contra hne
    simp only [unpack, hne, false_and, if_false] at h
    split at h <;> simp [Val.isNan] at h
  have hpos : 2 ^ f.e - 1 ≠ 0 := by
    have : 2 ^ 1 ≤ 2 ^ f.e := Nat.pow_le_pow_right (by decide) he
    omega
  have hsplit : 2 ^ f.m = 2 ^ (f.m - 1) * 2 := by rw [← Nat.pow_succ, Nat.succ_eq_add_one, Nat.sub_add_cancel hm]
  have hq : quiet f w / 2 ^ f.m = w / 2 ^ f.m := by
    rw [quiet]
    split
    next hc =>
      rw [hsplit, ← Nat.div_div_eq_div_mul, ← Nat.div_div_eq_div_mul, Nat.add_div_right _ (Nat.two_pow_pos _)]
      omega
    next => rfl
  simp [isSubnormal, hq, hexp, hpos]

theorem rd_false (f : Fmt) (rm : Rm) (w : Nat) : (⟨f, rm, false⟩ : Env).rd w = w := rfl

theorem wr_false (f : Fmt) (rm : Rm) (r : Res) : (⟨f, rm, false⟩ : Env).wr r = r := rfl

theorem isSubnormal_of_nanOf {f : Fmt} {ws : List Nat} {r : Res} (he : 0 < f.e) (hm : 0 < f.m)
    (h : nanOf f ws = some r) : isSubnormal f r.w = false := by
  obtain ⟨w, hw, rfl⟩ := Option.map_eq_some_iff.mp h
  exact isSubnormal_quiet he hm (List.find?_some (p := fun w => (unpack f w).isNan) hw)

/-- An operation under FMT.DZ is that of the operands read with zeros for subnormals, its result written so. -/
theorem flushed_operations : ∀ f ∈ vecFormats, ∀ op ∈ [fadd, fsub, fmul, fdiv], ∀ (rm : Rm) (a b : Nat),
    let v : Env := ⟨f, rm, true⟩
    op v a b = v.wr (op ⟨f, rm, false⟩ (v.rd a) (v.rd b)) := by
  intro f hf op hop rm a b v
  have hem : 0 < f.e ∧ 0 < f.m := by revert f; decide
  have hnan {r : Res} (h : nanOf v.f [v.rd a, v.rd b] = some r) : v.wr r = r :=
    wr_of_not_subnormal (isSubnormal_of_nanOf hem.1 hem.2 h)
  have hinf (n : Bool) (fl : Flags) : v.wr ⟨signed f n f.infBits, fl⟩ = ⟨signed f n f.infBits, fl⟩ :=
    wr_of_not_subnormal (isSubnormal_infBits f hf n)
  have hzero (n : Bool) (fl : Flags) : v.wr ⟨signed f n 0, fl⟩ = ⟨signed f n 0, fl⟩ :=
    wr_of_not_subnormal (isSubnormal_zero f hf n)
  have hinv : v.wr (invalid f) = invalid f := wr_of_not_subnormal (isSubnormal_nanBits f hf)
  simp only [List.mem_cons, List.not_mem_nil, or_false] at hop
  cases hn : nanOf v.f [v.rd a, v.rd b] with
  | some r =>
    have hn' : nanOf f [v.rd a, v.rd b] = some r := hn
    rcases hop with rfl | rfl | rfl | rfl
    · rw [fadd_of_nan hn, fadd_of_nan (r := r) (by simpa only [rd_false] using hn'), hnan hn]
    · rw [fsub_of_nan hn, fsub_of_nan (r := r) (by simpa only [rd_false] using hn'), hnan hn]
    · rw [fmul_of_nan hn, fmul_of_nan (r := r) (by simpa only [rd_false] using hn'), hnan hn]
    · rw [fdiv_of_nan hn, fdiv_of_nan (r := r) (by simpa only [rd_false] using hn'), hnan hn]
  | none =>
    have hn' : nanOf f [v.rd a, v.rd b] = none := hn
    rcases hop with rfl | rfl | rfl | rfl
    · simp only [fadd, hn, rd_false, hn', wr_false]; rfl
    · simp only [fsub, hn, rd_false, hn', wr_false]; rfl
    · simp only [fmul, hn, rd_false, hn', wr_false]; rfl
    · have hvf : v.f = f := rfl
      simp only [fdiv, hn, rd_false, hn', wr_false]
      simp only [hvf]
      split
      · exact hinv.symm
      · exact (hinf ..).symm
      · exact (hzero ..).symm
      · split
        · split
          · exact hinv.symm
          · exact (hinf ..).symm
        · rfl

end Sys2Proof.Machine.Float

namespace Sys2Proof.Machine

open Assoc Bits Sys2Proof.Machine.Float Claims

variable {i : Instr} {s : State} {g : Group}

/-- A float result by lane is written, its flags merged and its enabled exceptions due. -/
theorem issue_floatResult (h : Admits i s g) (d : Code) (nw pair : Bool) {r : Nat → Res}
    {body : State → Nat → Group → Effect} (hb : body s s.cur g = floatResult s s.cur g d nw pair r) :
    issue i body s = .next (floatAfter i s g d nw pair r) := by
  cases pair
  · exact issue_fp h hb
  · exact issue_fp h hb

theorem issue_floatLanes (h : Admits i s g) (d : Code) (nw : Bool) (cs : List Code) (op : Env → List Nat → Res) :
    issue i (floatLanes d nw cs op) s = .next (floatAfter i s g d nw (vfOf g.fmt == 3)
      fun j => packed g.fmt op (envOf g.fmt) (cs.map (fpSrc g · j))) :=
  issue_floatResult h d nw _ rfl

end Sys2Proof.Machine

namespace Sys2Proof

open Machine Machine.Assoc Machine.Bits Machine.Float Claims

/-- Settles O19: the forms issue as `floatLanes`; NaNs come out of `nanOf`; invalid and flushed operations by cases. -/
theorem floatResult : Obligations.FloatResult := by
  unfold Obligations.FloatResult
  refine ⟨?_, ?_, ?_, ?_, ?_, ?_, fun rm dz f hf => invalid_operations ⟨f, rm, dz⟩ hf, fun f hf op hop rm a b _ _ => flushed_operations f hf op hop rm a b⟩
  · simp only [floatForms2, List.forall_mem_cons, List.not_mem_nil, false_implies, implies_true, and_true]
    refine ⟨?_, ?_, ?_, ?_, ?_, ?_⟩ <;> exact fun d a b nw s g h => issue_floatLanes h d nw [a, b] _
  · simp only [floatForms1, List.forall_mem_cons, List.not_mem_nil, false_implies, implies_true, and_true]
    refine ⟨?_, ?_, ?_, ?_, ?_, ?_, ?_, ?_, ?_⟩ <;> exact fun d a nw s g h => issue_floatLanes h d nw [a] _
  · simp only [floatForms3, List.forall_mem_cons, List.not_mem_nil, false_implies, implies_true, and_true]
    refine ⟨?_, ?_⟩ <;> exact fun d a b c s g h => issue_floatLanes h d false [a, b, c] _
  · intro d a b nw s g h
    rw [exec_vfdot2, execVfdot2]
    exact issue_floatResult h d nw false rfl
  · intro v a b c n
    refine ⟨fun ha => ?_, fun ha hb => ?_, fun ha hb hc => ?_⟩
    · have h2 := nanOf_of_first [v.rd b] ha
      rw [fadd_of_nan h2, fsub_of_nan h2, fmul_of_nan h2, fdiv_of_nan h2,
        ffma_w_of_nan n (nanOf_of_first [v.rd b, v.rd c] ha), fsqrt_of_nan (nanOf_of_first [] ha)]
      exact ⟨rfl, rfl, rfl, rfl, rfl, rfl⟩
    · have h2 := nanOf_of_second [] ha hb
      rw [fadd_of_nan h2, fsub_of_nan h2, fmul_of_nan h2, fdiv_of_nan h2,
        ffma_w_of_nan n (nanOf_of_second [v.rd c] ha hb)]
      exact ⟨rfl, rfl, rfl, rfl, rfl⟩
    · rw [ffma_w_of_nan n (nanOf_of_third [] ha hb hc)]
  · intro v a b c n
    have hnv : fNV &&& fNV = fNV := by decide
    refine ⟨fun hs => ?_, fun hs => ?_, fun hs => ?_⟩
    · obtain ⟨w, h2⟩ := nanOf_of_signalling (ws := [v.rd a, v.rd b]) (by simpa using hs)
      simp only [List.forall_mem_cons, List.not_mem_nil, false_implies, implies_true, and_true]
      rw [fadd_of_nan h2, fsub_of_nan h2, fmul_of_nan h2, fdiv_of_nan h2]
      exact ⟨hnv, hnv, hnv, hnv⟩
    · obtain ⟨w, h3⟩ := nanOf_of_signalling (ws := [v.rd a, v.rd b, v.rd c]) (by simpa [or_assoc] using hs)
      exact ffma_fl_of_nan n h3 rfl
    · obtain ⟨w, h1⟩ := nanOf_of_signalling (ws := [v.rd a]) (by simpa using hs)
      rw [fsqrt_of_nan h1]
      exact hnv

end Sys2Proof

/-! What the register forms leave unchanged (R70, R71, R127, R370). -/

namespace Sys2Proof.Machine

open Assoc Bits Sys2Proof.Machine.Float Claims

/-! ### Reading registers back after a write -/

theorem elemOf_inj {r r' j j' : Nat} (hj : j < 32) (hj' : j' < 32) : elemOf r j = elemOf r' j' ↔ r = r' ∧ j = j' := by
  unfold elemOf; omega

@[simp] theorem scalar_setS (g : Group) (n k : Nat) (w : Word) :
    (g.setS n w).scalar k = if k = n then w else g.scalar k := by
  by_cases h : k = n
  · subst h; simp [Group.scalar, get_put_same]
  · simp [Group.scalar, h, get_put_other]

@[simp] theorem maskAt_setM (g : Group) (n k : Nat) (w : Word) :
    (g.setM n w).maskAt k = if k = n then w else g.maskAt k := by
  by_cases h : k = n
  · subst h; simp [Group.maskAt, get_put_same]
  · simp [Group.maskAt, h, get_put_other]

theorem regAt_setElem (g : Group) (c : Nat) (w : Word) {k r j : Nat} (hk : k < 32) (hj : j < 32) :
    regAt (g.setElem c k w) r j = if r = g.wb + c ∧ j = k then w else regAt g r j := by
  rw [regAt, Group.setElem_v]
  by_cases h : r = g.wb + c ∧ j = k
  · obtain ⟨rfl, rfl⟩ := h
    simp [get_put_same]
  · rw [get_put_other _ _ _ (fun he => h ((elemOf_inj hj hk).mp he)), if_neg h, regAt]

theorem regAt_setLanes (g : Group) (c : Nat) {js : List Nat} (f : Nat → Word) (hjs : ∀ k ∈ js, k < 32) {r j : Nat}
    (hj : j < 32) : regAt (g.setLanes c js f) r j = if r = g.wb + c ∧ j ∈ js then f j else regAt g r j := by
  induction js generalizing g with
  | nil => simp [Group.setLanes]
  | cons k js ih =>
    obtain ⟨hk, hks⟩ := List.forall_mem_cons.mp hjs
    change regAt ((g.setElem c k (f k)).setLanes c js f) r j = _
    rw [ih _ hks, regAt_setElem _ _ _ hk hj, Group.setElem_wb]
    by_cases hr : r = g.wb + c <;> by_cases hm : j ∈ js <;> by_cases hjk : j = k <;> simp [hr, hm, hjk]

theorem getLsbD_setBit (w : Word) {k : Nat} (hk : k < 32) (b : Bool) (j : Nat) :
    (setBit w k b).getLsbD j = if j = k then b else w.getLsbD j := by
  have hge : w.getLsbD j = (w.getLsbD j && decide (j < 32)) := by
    by_cases hj : j < 32
    · simp [hj]
    · simp [hj, BitVec.getLsbD_of_ge w j (Nat.not_lt.mp hj)]
  cases b with
  | true =>
    rw [setBit, if_pos rfl, BitVec.getLsbD_or, getLsbD_ofNat_two_pow]
    by_cases h : j = k
    · subst h; simp [hk]
    · simp [h]
  | false =>
    rw [setBit, if_neg Bool.false_ne_true, BitVec.getLsbD_and, BitVec.getLsbD_not, getLsbD_ofNat_two_pow]
    by_cases h : j = k
    · subst h; simp [hk]
    · rw [if_neg h]
      simpa [h] using hge.symm

theorem getLsbD_foldl_setBit (w : Word) {js : List Nat} (hjs : ∀ k ∈ js, k < 32) (p : Nat → Bool) (j : Nat) :
    (js.foldl (fun w j => setBit w j (p j)) w).getLsbD j = if j ∈ js then p j else w.getLsbD j := by
  induction js generalizing w with
  | nil => simp
  | cons k js ih =>
    obtain ⟨hk, hks⟩ := List.forall_mem_cons.mp hjs
    rw [List.foldl_cons, ih _ hks, getLsbD_setBit _ hk]
    by_cases hm : j ∈ js <;> by_cases hjk : j = k <;> simp [hm, hjk]

theorem activeLanes_lt (g : Group) : ∀ k ∈ g.activeLanes, k < 32 := fun k hk => by
  rw [Group.activeLanes, lanesOf, List.mem_filter, List.mem_range] at hk
  exact hk.1

/-! ### What each write leaves -/

theorem vecOnly_self (d : Nat) (pair nw : Bool) (g : Group) : VecOnly d pair nw g g := by
  simp [VecOnly, KeepsControl, KeepsOrder]

theorem scaOnly_self (d : Nat) (pair nw : Bool) (g : Group) : ScaOnly d pair nw g g := by
  simp [ScaOnly, KeepsControl, KeepsOrder]

theorem vecOnly_writeV (g : Group) (d : Code) (nw : Bool) (f : Nat → Word) :
    VecOnly d.toNat false nw g (writeV g d nw f) := by
  cases nw with
  | true => exact vecOnly_self ..
  | false =>
    refine ⟨by simp [KeepsControl, writeV], by simp [KeepsOrder, writeV], by simp [writeV], by simp [writeV],
      by simp [writeV], fun r j hr hj => ?_⟩
    rw [writeV, if_neg Bool.false_ne_true, regAt_setLanes g _ f (activeLanes_lt g) hj, if_neg]
    rintro ⟨hr', ha⟩
    rw [mem_activeLanes] at ha
    simp [hr', ha] at hr

theorem vecOnly_writeV64 (g : Group) (d : Code) (nw : Bool) (f : Nat → DWord) :
    VecOnly d.toNat true nw g (writeV64 g d nw f) := by
  cases nw with
  | true => exact vecOnly_self ..
  | false =>
    refine ⟨by simp [KeepsControl, writeV64], by simp [KeepsOrder, writeV64], by simp [writeV64], by simp [writeV64],
      by simp [writeV64], fun r j hr hj => ?_⟩
    rw [writeV64, if_neg Bool.false_ne_true, Group.setLanes64, regAt_setLanes _ _ _ (activeLanes_lt g) hj,
      regAt_setLanes _ _ _ (activeLanes_lt g) hj, Group.setLanes_wb, if_neg, if_neg]
    all_goals
      rintro ⟨hr', ha⟩
      rw [mem_activeLanes] at ha
      simp [hr', ha, Nat.add_assoc] at hr

theorem vcode_writeV (g : Group) (d : Code) (f : Nat → Word) {j : Nat} (hj : j < 32) (ha : g.active j = true) :
    (writeV g d false f).vcode d.toNat j = f j := by
  have h := regAt_setLanes g d.toNat f (activeLanes_lt g) (r := g.wb + d.toNat) hj
  rw [if_pos ⟨rfl, mem_activeLanes.mpr ha⟩] at h
  rw [writeV, if_neg Bool.false_ne_true, Group.vcode, Group.setLanes_wb]
  exact h

theorem scaOnly_writeS (g : Group) (d : Code) (nw : Bool) (w : Word) :
    ScaOnly d.toNat false nw g (writeS g d nw w) := by
  cases nw with
  | true => exact scaOnly_self ..
  | false => simp +contextual [ScaOnly, KeepsControl, KeepsOrder, writeS]

theorem scaOnly_writeS64 (g : Group) (d : Code) (nw : Bool) (w : DWord) :
    ScaOnly d.toNat true nw g (writeS64 g d nw w) := by
  cases nw with
  | true => exact scaOnly_self ..
  | false => simp +contextual [ScaOnly, KeepsControl, KeepsOrder, writeS64, Group.setSPair]

theorem maskOnly_setM (g : Group) (n : Nat) (w : Word) : MaskOnly n g (g.setM n w) := by
  simp +contextual [MaskOnly, KeepsControl, KeepsOrder]

theorem bit_setMaskLanes (g : Group) (n : Nat) (p : Nat → Bool) (j : Nat) :
    bit ((g.setMaskLanes n g.activeLanes p).maskAt n) j = if g.active j then p j else bit (g.maskAt n) j := by
  simp only [Group.setMaskLanes, maskAt_setM, if_true, bit_eq_getLsbD, getLsbD_foldl_setBit _ (activeLanes_lt g),
    mem_activeLanes]

theorem lanesOnly_setMaskLanes (g : Group) (n : Nat) (p : Nat → Bool) :
    LanesOnly n g (g.setMaskLanes n g.activeLanes p) :=
  ⟨maskOnly_setM g n _, fun j hj => by rw [bit_setMaskLanes, hj, if_neg Bool.false_ne_true]⟩

theorem writeV_keeps (g : Group) (d : Code) (nw : Bool) (f : Nat → Word) :
    (writeV g d nw f).lmask = g.lmask ∧ (writeV g d nw f).dbg = g.dbg ∧ (writeV g d nw f).fst = g.fst := by
  cases nw <;> simp [writeV]

theorem writeV64_keeps (g : Group) (d : Code) (nw : Bool) (f : Nat → DWord) :
    (writeV64 g d nw f).lmask = g.lmask ∧ (writeV64 g d nw f).dbg = g.dbg ∧ (writeV64 g d nw f).fst = g.fst := by
  cases nw <;> simp [writeV64]

theorem writeS_keeps (g : Group) (d : Code) (nw : Bool) (w : Word) :
    (writeS g d nw w).lmask = g.lmask ∧ (writeS g d nw w).dbg = g.dbg ∧ (writeS g d nw w).fst = g.fst := by
  cases nw <;> simp [writeS]

theorem writeS64_keeps (g : Group) (d : Code) (nw : Bool) (w : DWord) :
    (writeS64 g d nw w).lmask = g.lmask ∧ (writeS64 g d nw w).dbg = g.dbg ∧ (writeS64 g d nw w).fst = g.fst := by
  cases nw <;> simp [writeS64, Group.setSPair]

/-- Words or pairs by lane, as a form's type has it. -/
def writeEither (pair nw : Bool) (g : Group) (d : Code) (f : Nat → Word) (f2 : Nat → DWord) : Group :=
  if pair then writeV64 g d nw f2 else writeV g d nw f

theorem writeEither_keeps (pair nw : Bool) (g : Group) (d : Code) (f : Nat → Word) (f2 : Nat → DWord) :
    (writeEither pair nw g d f f2).lmask = g.lmask ∧ (writeEither pair nw g d f f2).dbg = g.dbg ∧
      (writeEither pair nw g d f f2).fst = g.fst := by
  cases pair
  · exact writeV_keeps ..
  · exact writeV64_keeps ..

theorem vecOnly_writeEither (pair nw : Bool) (g : Group) (d : Code) (f : Nat → Word) (f2 : Nat → DWord) :
    VecOnly d.toNat pair nw g (writeEither pair nw g d f f2) := by
  cases pair
  · exact vecOnly_writeV ..
  · exact vecOnly_writeV64 ..

theorem vecOnly_mergeFst {n : Nat} {pair nw : Bool} {g g1 : Group} (fl : BitVec 5) (h : VecOnly n pair nw g g1) :
    VecOnly n pair nw g (mergeFst g1 fl) := h

theorem scaOnly_mergeFst {n : Nat} {pair nw : Bool} {g g1 : Group} (fl : BitVec 5) (h : ScaOnly n pair nw g g1) :
    ScaOnly n pair nw g (mergeFst g1 fl) := h

theorem lanesOnly_mergeFst {n : Nat} {g g1 : Group} (fl : BitVec 5) (h : LanesOnly n g g1) :
    LanesOnly n g (mergeFst g1 fl) := h

/-- Flags merged into a group whose own are as before. -/
theorem merged_of_fst {g g1 : Group} (h : g1.fst = g.fst) (fl : BitVec 5) : Merged g (mergeFst g1 fl) :=
  ⟨fl, congrArg (· ||| fl) h⟩

/-! ### The frame of a form that completes -/

/-- A group as its instruction's result leaves it, once it has advanced. -/
def Advanced (g1 g' : Group) : Prop := ∃ c w ls pc, g' = { issuedWith g1 c w with lstack := ls, pc := pc }

theorem advanced_advance (g : Group) (c : Chain) (w : Word) : Advanced g (advance (issuedWith g c w)) := by
  obtain ⟨ls, pc, h⟩ := advance_frame (issuedWith g c w)
  exact ⟨c, w, ls, pc, h⟩

section
variable {g g1 g' : Group} {n : Nat} {pair nw : Bool} (h : Advanced g1 g')

include h

theorem vecOnly_of_advanced (hv : VecOnly n pair nw g g1) : VecOnly n pair nw g g' := by
  obtain ⟨c, w, ls, pc, rfl⟩ := h
  exact hv

theorem scaOnly_of_advanced (hv : ScaOnly n pair nw g g1) : ScaOnly n pair nw g g' := by
  obtain ⟨c, w, ls, pc, rfl⟩ := h
  exact hv

theorem maskOnly_of_advanced (hv : MaskOnly n g g1) : MaskOnly n g g' := by
  obtain ⟨c, w, ls, pc, rfl⟩ := h
  exact hv

theorem fst_of_advanced : g'.fst = g1.fst := by
  obtain ⟨c, w, ls, pc, rfl⟩ := h
  rfl

theorem vcode_of_advanced (j : Nat) : g'.vcode n j = g1.vcode n j := by
  obtain ⟨c, w, ls, pc, rfl⟩ := h
  rfl

theorem scalar_of_advanced : g'.scalar n = g1.scalar n := by
  obtain ⟨c, w, ls, pc, rfl⟩ := h
  rfl

theorem maskAt_of_advanced : g'.maskAt n = g1.maskAt n := by
  obtain ⟨c, w, ls, pc, rfl⟩ := h
  rfl

omit h in
theorem lanesOnly_of_advanced (h : Advanced g1 g') (hv : LanesOnly n g g1) : LanesOnly n g g' :=
  ⟨maskOnly_of_advanced h hv.1, fun j hj => by rw [maskAt_of_advanced h, hv.2 j hj]⟩

theorem merged_of_advanced (hv : Merged g g1) : Merged g g' :=
  hv.imp fun _ hf => (fst_of_advanced h).trans hf

end

/-- Exceptions that are not enabled leave the completion as it is. -/
theorem afterFp_zero (i : Instr) (s : State) (g : Group) (s' : State) (l : Latch) (lanes : Word) :
    afterFp i s g s' l 0 lanes = after i s g s' l := by
  simp only [after_eq_afterFp, afterFp, complete, extendChain, if_true]

section
variable {i : Instr} {P : Group → Prop} {R : State → Group → Group → Prop}

/-- A form whose effect is a new group `F` in place of its own is framed by what `F` leaves. -/
theorem framed_of_after (F : State → Group → Group) (l : State → Group → Latch)
    (hexec : ∀ s g, Admits i s g → P g → exec i s = .next (after i s g (s.setGroup s.cur (F s g)) (l s g)))
    (hkeep : ∀ s g, P g → (F s g).lmask = g.lmask ∧ (F s g).dbg = g.dbg)
    (hR : ∀ s g g', P g → Advanced (F s g) g' → R s g g') : Framed i P R := by
  intro s g ha hc hp
  have hcalm := hc
  obtain ⟨hl, hs, hd, -⟩ := hc
  obtain ⟨kl, kd⟩ := hkeep s g hp
  exact ⟨_, by rw [hexec s g ha hp, after_of_calm (l s g) hcalm (kl ▸ hl) (kd ▸ hs) (kd ▸ hd)],
    hR s g _ hp (advanced_advance ..)⟩

theorem framed_mono {R' : State → Group → Group → Prop} (h : Framed i P R) (hR : ∀ s g g', R s g g' → R' s g g') :
    Framed i P R' := fun s g ha hc hp =>
  let ⟨g', he, hr⟩ := h s g ha hc hp
  ⟨g', he, hR s g g' hr⟩

end

/-! ### Frames by the shape of the result -/

section
variable {i : Instr} {d : Code} {nw : Bool}

/-- A vector result of words. -/
theorem framed_vecAfter {r : State → Group → Nat → Word}
    (h : ∀ s g, Admits i s g → exec i s = .next (vecAfter i s g d nw (r s g))) :
    Framed i (fun _ => True) fun s g g' => VecOnly d.toNat false nw g g' ∧ g'.fst = g.fst ∧
      ∀ j, j < 32 → g.active j = true → nw = false → g'.vcode d.toNat j = r s g j := by
  refine framed_of_after (fun s g => writeV g d nw (r s g)) (fun s g => vecLatch g (r s g)) (fun s g ha _ => h s g ha)
    (fun s g _ => ?_) fun s g g' _ hadv => ?_
  · exact ⟨(writeV_keeps ..).1, (writeV_keeps ..).2.1⟩
  · refine ⟨vecOnly_of_advanced hadv (vecOnly_writeV g d nw _), (fst_of_advanced hadv).trans (writeV_keeps ..).2.2,
      fun j hj ha hnw => ?_⟩
    subst hnw
    rw [vcode_of_advanced hadv, vcode_writeV g d _ hj ha]

theorem framed_vecOnly {r : State → Group → Nat → Word}
    (h : ∀ s g, Admits i s g → exec i s = .next (vecAfter i s g d nw (r s g))) :
    Framed i (fun _ => True) fun _ g g' => VecOnly d.toNat false nw g g' ∧ g'.fst = g.fst :=
  framed_mono (framed_vecAfter h) fun _ _ _ ⟨hv, hf, _⟩ => ⟨hv, hf⟩

/-- A vector result of pairs. -/
theorem framed_vecPairAfter {r : State → Group → Nat → DWord}
    (h : ∀ s g, Admits i s g → exec i s = .next (vecPairAfter i s g d nw (r s g))) :
    Framed i (fun _ => True) fun _ g g' => VecOnly d.toNat true nw g g' ∧ g'.fst = g.fst := by
  refine framed_of_after (fun s g => writeV64 g d nw (r s g)) (fun s g => vecLatch64 g (r s g))
    (fun s g ha _ => h s g ha) (fun s g _ => ?_) fun s g g' _ hadv => ?_
  · exact ⟨(writeV64_keeps ..).1, (writeV64_keeps ..).2.1⟩
  · exact ⟨vecOnly_of_advanced hadv (vecOnly_writeV64 g d nw _),
      (fst_of_advanced hadv).trans (writeV64_keeps ..).2.2⟩

/-- A scalar result. -/
theorem framed_scaAfter {P : Group → Prop} {r : State → Group → Word}
    (h : ∀ s g, Admits i s g → P g → exec i s = .next (scaAfter i s g d nw (r s g))) :
    Framed i P fun s g g' => ScaOnly d.toNat false nw g g' ∧ g'.fst = g.fst ∧
      (nw = false → g'.scalar d.toNat = r s g) := by
  refine framed_of_after (fun s g => writeS g d nw (r s g)) (fun s g => .sca (r s g)) h (fun s g _ => ?_)
    fun s g g' _ hadv => ?_
  · exact ⟨(writeS_keeps ..).1, (writeS_keeps ..).2.1⟩
  · refine ⟨scaOnly_of_advanced hadv (scaOnly_writeS g d nw _), (fst_of_advanced hadv).trans (writeS_keeps ..).2.2,
      fun hnw => ?_⟩
    subst hnw
    rw [scalar_of_advanced hadv, writeS, if_neg Bool.false_ne_true, scalar_setS, if_pos rfl]

theorem framed_scaOnly {P : Group → Prop} {r : State → Group → Word}
    (h : ∀ s g, Admits i s g → P g → exec i s = .next (scaAfter i s g d nw (r s g))) :
    Framed i P fun _ g g' => ScaOnly d.toNat false nw g g' ∧ g'.fst = g.fst :=
  framed_mono (framed_scaAfter h) fun _ _ _ ⟨hv, hf, _⟩ => ⟨hv, hf⟩

/-- A mask result. -/
theorem framed_maskAfter {r : State → Group → Word}
    (h : ∀ s g, Admits i s g → exec i s = .next (maskAfter i s g d (r s g))) :
    Framed i (fun _ => True) fun s g g' => MaskOnly d.toNat g g' ∧ g'.fst = g.fst ∧ g'.maskAt d.toNat = r s g := by
  refine framed_of_after (fun s g => g.setM d.toNat (r s g)) (fun _ _ => .none) (fun s g ha _ => h s g ha)
    (fun s g _ => by simp) fun s g g' _ hadv => ?_
  exact ⟨maskOnly_of_advanced hadv (maskOnly_setM g _ _), (fst_of_advanced hadv).trans rfl,
    by rw [maskAt_of_advanced hadv, maskAt_setM, if_pos rfl]⟩

theorem framed_maskOnly {r : State → Group → Word}
    (h : ∀ s g, Admits i s g → exec i s = .next (maskAfter i s g d (r s g))) :
    Framed i (fun _ => True) fun _ g g' => MaskOnly d.toNat g g' ∧ g'.fst = g.fst :=
  framed_mono (framed_maskAfter h) fun _ _ _ ⟨hv, hf, _⟩ => ⟨hv, hf⟩

/-- The conditions of a compare. -/
theorem framed_compare {p : Group → Nat → Bool} (h : ∀ s g, Admits i s g →
    exec i s = .next (after i s g (s.setGroup s.cur (g.setMaskLanes d.toNat g.activeLanes (p g))) .none)) :
    Framed i (fun _ => True) fun _ g g' => LanesOnly d.toNat g g' ∧ g'.fst = g.fst ∧
      ∀ j, j < 32 → g.active j = true → bit (g'.maskAt d.toNat) j = p g j := by
  refine framed_of_after (fun s g => g.setMaskLanes d.toNat g.activeLanes (p g)) (fun _ _ => .none)
    (fun s g ha _ => h s g ha) (fun s g _ => ⟨rfl, rfl⟩) fun s g g' _ hadv => ?_
  exact ⟨lanesOnly_of_advanced hadv (lanesOnly_setMaskLanes g _ _), (fst_of_advanced hadv).trans rfl,
    fun j _ ha => by rw [maskAt_of_advanced hadv, bit_setMaskLanes, if_pos ha]⟩

/-- A result with flags, where none of them traps: what it leaves beside `fst` is what its registers do. -/
theorem framed_flags {R : State → Group → Group → Prop} (F : Group → Group) (fl : Group → BitVec 5)
    (lt : Group → Latch) (lanes : Group → Word)
    (h : ∀ s g, Admits i s g → exec i s = .next (afterFp i s g (s.setGroup s.cur (mergeFst (F g) (fl g))) (lt g)
      (fl g &&& trapEnables g.fmt) (lanes g)))
    (hkeep : ∀ g, (F g).lmask = g.lmask ∧ (F g).dbg = g.dbg)
    (hR : ∀ s g g', Advanced (mergeFst (F g) (fl g)) g' → R s g g') : Framed i NoTraps R := by
  refine framed_of_after (fun s g => mergeFst (F g) (fl g)) (fun s g => lt g) (fun s g ha hn => ?_)
    (fun s g _ => hkeep g) fun s g g' _ hadv => hR s g g' hadv
  have h0 : fl g &&& trapEnables g.fmt = 0 := by rw [hn]; exact BitVec.and_zero
  rw [h s g ha, h0, afterFp_zero]

/-- A vector result with flags, of words or of pairs. -/
theorem framed_vecFlags (pair : Group → Bool) (f : Group → Nat → Word) (f2 : Group → Nat → DWord)
    (fl : Group → BitVec 5) (lt : Group → Latch) (lanes : Group → Word)
    (h : ∀ s g, Admits i s g → exec i s = .next (afterFp i s g
      (s.setGroup s.cur (mergeFst (writeEither (pair g) nw g d (f g) (f2 g)) (fl g))) (lt g)
      (fl g &&& trapEnables g.fmt) (lanes g))) :
    Framed i NoTraps fun _ g g' => VecOnly d.toNat (pair g) nw g g' ∧ Merged g g' := by
  refine framed_flags _ fl lt lanes h (fun g => ?_) fun s g g' hadv => ?_
  · exact ⟨(writeEither_keeps ..).1, (writeEither_keeps ..).2.1⟩
  · exact ⟨vecOnly_of_advanced hadv (vecOnly_mergeFst _ (vecOnly_writeEither ..)),
      merged_of_advanced hadv (merged_of_fst (writeEither_keeps ..).2.2 _)⟩

/-- A float result by lane. -/
theorem framed_floatAfter (pair : Group → Bool) (r : Group → Nat → Res)
    (h : ∀ s g, Admits i s g → exec i s = .next (floatAfter i s g d nw (pair g) (r g))) :
    Framed i NoTraps fun _ g g' => VecOnly d.toNat (pair g) nw g g' ∧ Merged g g' := by
  refine framed_vecFlags pair (fun g j => BitVec.ofNat 32 (r g j).w) (fun g j => BitVec.ofNat 64 (r g j).w)
    (fun g => g.activeLanes.foldl (fun a j => a ||| (r g j).fl) 0)
    (fun g => if pair g then vecLatch64 g fun j => BitVec.ofNat 64 (r g j).w
      else vecLatch g fun j => BitVec.ofNat 32 (r g j).w)
    (fun g => maskOf (g.activeLanes.filter fun j => (r g j).fl &&& trapEnables g.fmt != 0)) fun s g ha => ?_
  rw [h s g ha, floatAfter]
  cases pair g <;> rfl

/-- A scalar result with flags, of a word or of a pair. -/
theorem framed_scaFlags (pair : Group → Bool) (f : Group → Word) (f2 : Group → DWord) (fl : Group → BitVec 5)
    (lt : Group → Latch) (lanes : Group → Word)
    (h : ∀ s g, Admits i s g → exec i s = .next (afterFp i s g
      (s.setGroup s.cur (mergeFst (if pair g then writeS64 g d nw (f2 g) else writeS g d nw (f g)) (fl g))) (lt g)
      (fl g &&& trapEnables g.fmt) (lanes g))) :
    Framed i NoTraps fun _ g g' => ScaOnly d.toNat (pair g) nw g g' ∧ Merged g g' := by
  refine framed_flags _ fl lt lanes h (fun g => ?_) fun s g g' hadv => ?_
  · cases pair g
    · exact ⟨(writeS_keeps ..).1, (writeS_keeps ..).2.1⟩
    · exact ⟨(writeS64_keeps ..).1, (writeS64_keeps ..).2.1⟩
  · cases hp : pair g <;> rw [hp] at hadv
    · exact ⟨scaOnly_of_advanced hadv (scaOnly_mergeFst _ (scaOnly_writeS ..)),
        merged_of_advanced hadv (merged_of_fst (writeS_keeps ..).2.2 _)⟩
    · exact ⟨scaOnly_of_advanced hadv (scaOnly_mergeFst _ (scaOnly_writeS64 ..)),
        merged_of_advanced hadv (merged_of_fst (writeS64_keeps ..).2.2 _)⟩

end

/-! ### System registers -/

theorem sampled_frame (s : State) (g : Group) (n : Nat) : ∃ ev, sampled s g n = { g with ev := ev } := by
  rw [sampled]
  split
  · exact ⟨_, rfl⟩
  · exact ⟨g.ev, rfl⟩

/-- What `csrr` leaves (R370): beside the scalar, only the event registers, and those only where EVPEND is read. -/
theorem framed_csrr (d b : Code) (nw : Bool) : Framed (.csrr d b nw) (fun _ => True) fun s g g' =>
    (b.toNat ≠ 0x30 → ScaOnly d.toNat false nw g g') ∧ KeepsOrder g g' ∧ g'.v = g.v ∧ g'.m = g.m ∧ g'.fst = g.fst ∧
    g'.trap = g.trap ∧ g'.amask = g.amask ∧ g'.lmask = g.lmask ∧
    (∀ n, n ≠ d.toNat ∨ nw = true → g'.scalar n = g.scalar n) ∧
    (nw = false → g'.scalar d.toNat = sysRead s (sampled s g b.toNat) b.toNat) := by
  refine framed_of_after
    (fun s g => writeS (sampled s g b.toNat) d nw (sysRead s (sampled s g b.toNat) b.toNat))
    (fun s g => .sca (sysRead s (sampled s g b.toNat) b.toNat)) (fun s g ha _ => ?_) (fun s g _ => ?_)
    fun s g g' _ hadv => ?_
  · rw [exec_csrr, execCsrr]
    exact issue_done ha rfl
  · obtain ⟨ev, hev⟩ := sampled_frame s g b.toNat
    rw [hev]
    exact ⟨(writeS_keeps ..).1, (writeS_keeps ..).2.1⟩
  · have hsca := scaOnly_of_advanced hadv (scaOnly_writeS _ d nw _)
    have hval : nw = false → g'.scalar d.toNat = sysRead s (sampled s g b.toNat) b.toNat := fun hnw => by
      subst hnw
      rw [scalar_of_advanced hadv, writeS, if_neg Bool.false_ne_true, scalar_setS, if_pos rfl]
    have hfst : g'.fst = (sampled s g b.toNat).fst := (fst_of_advanced hadv).trans (writeS_keeps ..).2.2
    obtain ⟨ev, hev⟩ := sampled_frame s g b.toNat
    refine ⟨fun hb => by rwa [sampled_of_ne s g hb] at hsca, ?_⟩
    rw [hev] at hsca hfst
    obtain ⟨⟨ham, hlm, -, -, -, -, htr, -⟩, hord, hv, hm, -, hs⟩ := hsca
    exact ⟨hord, hv, hm, hfst, htr, ham, hlm, fun n hn => hs n (hn.imp_left fun h => ⟨h, nofun⟩), hval⟩

/-! ### Completion in any state that holds the group -/

/-- Registers, masks and the order of accesses of a group, as a write of a system register leaves them. -/
def KeepsRegs (g g' : Group) : Prop :=
  KeepsOrder g g' ∧ g'.v = g.v ∧ g'.s = g.s ∧ g'.m = g.m ∧ g'.amask = g.amask ∧ g'.lmask = g.lmask ∧
  g'.mstack = g.mstack ∧ g'.fmt = g.fmt

/-- A state in which one group alone may have changed, with its memory as before. -/
def InGroup (s t : State) (gid : Nat) : Prop := t.mem = s.mem ∧ OthersSame s t gid

theorem inGroup_refl (s : State) (gid : Nat) : InGroup s s gid := ⟨rfl, fun _ _ => rfl⟩

theorem inGroup_trans {s t u : State} {gid : Nat} (h : InGroup s t gid) (h' : InGroup t u gid) : InGroup s u gid :=
  ⟨h'.1.trans h.1, fun k hk => (h'.2 k hk).trans (h.2 k hk)⟩

theorem inGroup_setGroup (s : State) (gid : Nat) (g : Group) : InGroup s (s.setGroup gid g) gid :=
  ⟨rfl, fun _ hk => group?_setGroup_other s g hk⟩

theorem keepsRegs_trans {g h k : Group} (h1 : KeepsRegs g h) (h2 : KeepsRegs h k) : KeepsRegs g k := by
  obtain ⟨⟨a1, a2⟩, a3, a4, a5, a6, a7, a8, a9⟩ := h1
  obtain ⟨⟨b1, b2⟩, b3, b4, b5, b6, b7, b8, b9⟩ := h2
  exact ⟨⟨b1.trans a1, b2.trans a2⟩, b3.trans a3, b4.trans a4, b5.trans a5, b6.trans a6, b7.trans a7, b8.trans a8,
    b9.trans a9⟩

/-- The boundary of a live group halts it, or does nothing. -/
theorem boundary_of_live {t : State} {gid : Nat} {h : Group} (hg : t.group? gid = some h) (hl : h.lmask ≠ 0) :
    ∃ h', (boundary t gid).group? gid = some h' ∧ KeepsRegs h h' ∧ h'.fst = h.fst ∧ InGroup t (boundary t gid) gid := by
  simp only [boundary, hg, if_neg hl, haltAfter]
  split
  · exact ⟨_, group?_setGroup_same .., ⟨⟨rfl, rfl⟩, rfl, rfl, rfl, rfl, rfl, rfl, rfl⟩, rfl,
      rfl, fun _ hk => group?_setGroup_other t _ hk⟩
  · exact ⟨h, hg, ⟨⟨rfl, rfl⟩, rfl, rfl, rfl, rfl, rfl, rfl, rfl⟩, rfl, inGroup_refl ..⟩

/-- The completion in a state that holds the group as `g1`. -/
theorem after_of_group {i : Instr} {s s' : State} {g g1 : Group} (l : Latch) (hg : s'.group? s.cur = some g1) :
    after i s g s' l =
      let g2 := issuedWith g1 (chainAfter i g g1 l 0 0) (insWord i)
      let t := (ranHere s' g).setGroup s.cur g2
      if chainOver t g2 (g1.pc + 4) then
        if g2.chain.fpFlags = 0 then boundary (t.setGroup s.cur (advance g2)) s.cur else fpTrap t s.cur g2.chain g1.pc
      else t.setGroup s.cur (advance g2) := by
  have hg' : (ranHere s' g).group? s.cur = some g1 := by rw [group?_ranHere]; exact hg
  rw [after_eq_afterFp]
  simp only [afterFp, complete, hg']
  rfl

/-- What follows an effect that leaves the group live: its registers stay as the effect left them. -/
theorem after_of_live {i : Instr} {s s' : State} {g g1 : Group} (l : Latch) (hg : s'.group? s.cur = some g1)
    (hl : g1.lmask ≠ 0) (hfp : (chainAt g (oprsOf g.fmt i)).fpFlags = 0) :
    ∃ g', (after i s g s' l).group? s.cur = some g' ∧ KeepsRegs g1 g' ∧ g'.fst = g1.fst ∧
      InGroup s' (after i s g s' l) s.cur := by
  have hran : InGroup s' (ranHere s' g) s.cur := ⟨rfl, fun k _ => group?_ranHere ..⟩
  have hflags : (chainAfter i g g1 l 0 0).fpFlags = 0 := by rw [chainAfter_fpFlags, hfp]; rfl
  have hadv : ∀ g2 : Group, KeepsRegs g2 (advance g2) ∧ (advance g2).fst = g2.fst := fun g2 => by
    obtain ⟨ls, pc, h⟩ := advance_frame g2
    rw [h]
    exact ⟨⟨⟨rfl, rfl⟩, rfl, rfl, rfl, rfl, rfl, rfl, rfl⟩, rfl⟩
  obtain ⟨hk, hf⟩ := hadv (issuedWith g1 (chainAfter i g g1 l 0 0) (insWord i))
  have hin : InGroup s' (((ranHere s' g).setGroup s.cur (issuedWith g1 (chainAfter i g g1 l 0 0) (insWord i))).setGroup
      s.cur (advance (issuedWith g1 (chainAfter i g g1 l 0 0) (insWord i)))) s.cur :=
    inGroup_trans hran (inGroup_trans (inGroup_setGroup ..) (inGroup_setGroup ..))
  rw [after_of_group l hg]
  simp only [issuedWith_chain, hflags, if_true]
  split
  · have hlm : (advance (issuedWith g1 (chainAfter i g g1 l 0 0) (insWord i))).lmask = g1.lmask := by
      obtain ⟨-, -, -, -, -, hlm, -⟩ := hk
      exact hlm
    obtain ⟨g2, hg2, hk2, hf2, hin2⟩ := boundary_of_live (group?_setGroup_same
      ((ranHere s' g).setGroup s.cur (issuedWith g1 (chainAfter i g g1 l 0 0) (insWord i))) s.cur
      (advance (issuedWith g1 (chainAfter i g g1 l 0 0) (insWord i)))) (by rw [hlm]; exact hl)
    exact ⟨g2, hg2, keepsRegs_trans hk hk2, hf2.trans hf, inGroup_trans hin hin2⟩
  · exact ⟨_, group?_setGroup_same .., hk, hf, hin⟩

/-! ### Writes of system registers -/

theorem writeGroup_keepsRegs (p : Bool) (g : Group) (n : Nat) (v : Word) : KeepsRegs g (writeGroup p g n v) := by
  unfold writeGroup
  split <;> (try split) <;> exact ⟨⟨rfl, rfl⟩, rfl, rfl, rfl, rfl, rfl, rfl, rfl⟩

theorem fst_writeGroup (p : Bool) (g : Group) {n : Nat} (v : Word) (hn : n ≠ 0x0E) : (writeGroup p g n v).fst = g.fst := by
  unfold writeGroup
  split <;> (try split) <;> simp_all [writeTstat, writeTtcmp, clearPending]

/-- A system register written changes no register, mask or byte of memory, and no other group. -/
theorem sysWrite_frame {s : State} {gid : Nat} {g : Group} (hg : s.group? gid = some g) (p : Bool) (n : Nat) (v : Word) :
    ∃ g1, (sysWrite s gid g p n v).group? gid = some g1 ∧ KeepsRegs g g1 ∧ (n ≠ 0x0E → g1.fst = g.fst) ∧
      InGroup s (sysWrite s gid g p n v) gid := by
  have hsame : KeepsRegs g g := ⟨⟨rfl, rfl⟩, rfl, rfl, rfl, rfl, rfl, rfl, rfl⟩
  simp only [sysWrite]
  split
  · exact ⟨_, group?_setGroup_same .., hsame, fun _ => rfl, inGroup_setGroup ..⟩
  · split
    · split
      · exact ⟨g, hg, hsame, fun _ => rfl, rfl, fun _ _ => rfl⟩
      · exact ⟨g, hg, hsame, fun _ => rfl, inGroup_refl ..⟩
    · split
      · split
        · exact ⟨g, hg, hsame, fun _ => rfl, rfl, fun _ _ => rfl⟩
        · exact ⟨g, hg, hsame, fun _ => rfl, inGroup_refl ..⟩
      · exact ⟨_, group?_setGroup_same .., writeGroup_keepsRegs .., fst_writeGroup p g v, inGroup_setGroup ..⟩

/-- What `csrw` leaves (R370). -/
theorem exec_csrw_frame (a b : Code) (s : State) (g : Group) (h : Admits (.csrw a b) s g) (hc : Calm (.csrw a b) g) :
    ∃ (t : State) (g' : Group), exec (.csrw a b) s = .next t ∧ t.mem = s.mem ∧ OthersSame s t s.cur ∧
      t.group? s.cur = some g' ∧ KeepsOrder g g' ∧ g'.v = g.v ∧ g'.s = g.s ∧ g'.m = g.m ∧ g'.amask = g.amask ∧
      g'.lmask = g.lmask ∧ g'.mstack = g.mstack ∧ g'.fmt = g.fmt ∧ (b.toNat ≠ 0x0E → g'.fst = g.fst) := by
  obtain ⟨hl, -, -, hfp⟩ := hc
  obtain ⟨g1, hg1, hk1, hf1, hin1⟩ := sysWrite_frame h.1 g.priv b.toNat (srcS s g a)
  have hl1 : g1.lmask ≠ 0 := by
    obtain ⟨-, -, -, -, -, hlm, -⟩ := hk1
    rw [hlm]; exact hl
  obtain ⟨g', hg', hk, hf, hin⟩ := after_of_live .none hg1 hl1 hfp
  obtain ⟨hmem, hoth⟩ := inGroup_trans hin1 hin
  obtain ⟨hord, hv, hs, hm, ham, hlm, hms, hfmt⟩ := keepsRegs_trans hk1 hk
  exact ⟨_, g', execCsrw_of_admits h, hmem, hoth, hg', hord, hv, hs, hm, ham, hlm, hms, hfmt,
    fun hb => hf.trans (hf1 hb)⟩

end Sys2Proof.Machine

namespace Sys2Proof

open Machine Machine.Assoc Machine.Bits Machine.Float Claims

theorem framed_scaForms : ∀ f ∈ scaForms, ∀ (d a b : Code) (nw : Bool), Framed (f.1 d a b nw) (fun _ => True)
    fun s g g' => ScaOnly d.toNat false nw g g' ∧ g'.fst = g.fst ∧
      (nw = false → g'.scalar d.toNat = f.2 (srcS s g a) (srcS s g b)) :=
  fun f hf d a b nw => framed_scaAfter fun s g h _ => exec_scaForms f hf d a b nw s g h

theorem framed_immForms : ∀ f ∈ immForms, ∀ (d a : Code) (imm : BitVec 12), Framed (f.1 d a imm) (fun _ => True)
    fun s g g' => ScaOnly d.toNat false false g g' ∧ g'.fst = g.fst ∧ g'.scalar d.toNat = f.2 (srcS s g a) imm :=
  fun f hf d a imm => framed_mono (framed_scaAfter fun s g h _ => exec_immForms f hf d a imm s g h)
    fun _ _ _ ⟨hs, hfst, hv⟩ => ⟨hs, hfst, hv rfl⟩

/-- A group with the values and the companions of `vcvtef` in its lanes. -/
def vcvtefLanes (g : Group) (d a b : Code) : Group :=
  let r := fun j => errorFeedback (nrFmt g.fmt) (srcV g a j).toNat (srcV g b j).toNat
  (g.setLanes d.toNat g.activeLanes fun j => BitVec.ofNat 32 (r j).1).setLanes b.toNat g.activeLanes
    fun j => BitVec.ofNat 32 (r j).2.1

theorem regAt_vcvtefLanes (g : Group) (d a b : Code) {r j : Nat}
    (hr : (r ≠ g.wb + d.toNat ∧ r ≠ g.wb + b.toNat) ∨ g.active j = false) (hj : j < 32) :
    regAt (vcvtefLanes g d a b) r j = regAt g r j := by
  rw [vcvtefLanes, regAt_setLanes _ _ _ (activeLanes_lt g) hj, regAt_setLanes _ _ _ (activeLanes_lt g) hj,
    Group.setLanes_wb, if_neg, if_neg]
  all_goals
    rintro ⟨hr', ha⟩
    rw [mem_activeLanes] at ha
    simp [hr', ha] at hr

/-- The pair that `saddx` leaves. -/
theorem framed_saddx (d a b : Code) (nw : Bool) : Framed (.saddx d a b nw) (fun _ => True) fun _ g g' =>
    ScaOnly d.toNat true nw g g' ∧ g'.fst = g.fst := by
  obtain ⟨-, hsaddx, -⟩ := scalarResult
  exact framed_of_after (fun s g => writeS64 g d nw (srcSP s g a + sext64 (srcS s g b)))
    (fun s g => .sca64 (srcSP s g a + sext64 (srcS s g b))) (fun s g h _ => hsaddx d a b nw s g h)
    (fun s g _ => ⟨(writeS64_keeps ..).1, (writeS64_keeps ..).2.1⟩) fun s g g' _ hadv =>
      ⟨scaOnly_of_advanced hadv (scaOnly_writeS64 ..), (fst_of_advanced hadv).trans (writeS64_keeps ..).2.2⟩

theorem framed_fcmpForms : ∀ f ∈ fcmpForms, ∀ d a b : Code, Framed (f.1 d a b) NoTraps fun _ g g' =>
    LanesOnly d.toNat g g' ∧ Merged g g' := by
  obtain ⟨-, hfcmp, -⟩ := compareResult
  intro f hf d a b
  exact framed_flags
    (fun g => g.setMaskLanes d.toNat g.activeLanes fun j =>
      (floatTest f.2 (envOf g.fmt) (compareValue g a j) (compareValue g b j)).1)
    (fun g => g.activeLanes.foldl (fun x j =>
      x ||| (floatTest f.2 (envOf g.fmt) (compareValue g a j) (compareValue g b j)).2) 0)
    (fun _ => .none)
    (fun g => maskOf (g.activeLanes.filter fun j =>
      (floatTest f.2 (envOf g.fmt) (compareValue g a j) (compareValue g b j)).2 &&& trapEnables g.fmt != 0))
    (fun s g h => hfcmp f hf d a b s g h) (fun _ => ⟨rfl, rfl⟩) fun s g g' hadv =>
      ⟨lanesOnly_of_advanced hadv (lanesOnly_mergeFst _ (lanesOnly_setMaskLanes ..)),
        merged_of_advanced hadv (merged_of_fst rfl _)⟩

theorem framed_vcvt (d a : Code) (rnd : BitVec 3) (src dst : BitVec 4) (nw : Bool) :
    Framed (.vcvt d a rnd src nw dst) NoTraps fun _ g g' =>
      VecOnly d.toNat (cvtWide dst.toNat) nw g g' ∧ Merged g g' :=
  framed_floatAfter (fun _ => cvtWide dst.toNat)
    (fun g j =>
      let r := cvt (cvtRm g.fmt rnd) (fmtDz g.fmt) src.toNat dst.toNat
        (if cvtWide src.toNat then (srcVP g a j).toNat else (srcV g a j).toNat)
      ⟨placeCvt dst.toNat r.w, r.fl⟩) fun s g h => by
    rw [exec_vcvt, execVcvt]
    exact issue_floatResult h d nw _ rfl

theorem framed_floatReduceForms : ∀ f ∈ floatReduceForms, ∀ (d a : Code) (nw : Bool), Framed (f.1 d a nw) NoTraps
    fun _ g g' => ScaOnly d.toNat (vfOf g.fmt == 3) nw g g' ∧ Merged g g' := by
  obtain ⟨-, hfred, -⟩ := reductionResult
  intro f hf d a nw
  refine framed_scaFlags (fun g => vfOf g.fmt == 3) (fun g => BitVec.ofNat 32 (floatReduce g a f.2.1 f.2.2).w)
    (fun g => BitVec.ofNat 64 (floatReduce g a f.2.1 f.2.2).w) (fun g => (floatReduce g a f.2.1 f.2.2).fl)
    (fun g => if vfOf g.fmt = 3 then .sca64 (BitVec.ofNat 64 (floatReduce g a f.2.1 f.2.2).w)
      else .sca (BitVec.ofNat 32 (floatReduce g a f.2.1 f.2.2).w)) (fun g => g.amask) fun s g h => ?_
  rw [hfred f hf d a nw s g h]
  simp only [beq_iff_eq]

theorem framed_vscan_f (d a : Code) (nw : Bool) : Framed (.vscan_f d a nw) NoTraps fun _ g g' =>
    VecOnly d.toNat (vfOf g.fmt == 3) nw g g' ∧ Merged g g' := by
  refine framed_vecFlags (fun g => vfOf g.fmt == 3) (fun g j => BitVec.ofNat 32 (floatScan g a j).w)
    (fun g j => BitVec.ofNat 64 (floatScan g a j).w)
    (fun g => g.activeLanes.foldl (fun x j => x ||| (floatScan g a j).fl) 0)
    (fun g => if vfOf g.fmt = 3 then vecLatch64 g fun j => BitVec.ofNat 64 (floatScan g a j).w
      else vecLatch g fun j => BitVec.ofNat 32 (floatScan g a j).w) (fun g => g.amask) fun s g h => ?_
  rw [exec_vscan_f_of_admits h]
  simp only [writeEither, beq_iff_eq]

theorem framed_vcvtef (d a b : Code) : Framed (.vcvtef d a b) NoTraps fun _ g g' =>
    Merged g g' ∧ KeepsControl g g' ∧ KeepsOrder g g' ∧ g'.s = g.s ∧ g'.m = g.m ∧
    ∀ r j, (r ≠ g.wb + d.toNat ∧ r ≠ g.wb + b.toNat) ∨ g.active j = false → j < 32 → regAt g' r j = regAt g r j := by
  refine framed_flags (fun g => vcvtefLanes g d a b)
    (fun g => g.activeLanes.foldl (fun x j =>
      x ||| (errorFeedback (nrFmt g.fmt) (srcV g a j).toNat (srcV g b j).toNat).2.2) 0)
    (fun g => vecLatch g fun j => BitVec.ofNat 32 (errorFeedback (nrFmt g.fmt) (srcV g a j).toNat (srcV g b j).toNat).1)
    (fun g => enabledLanes g.fmt g.activeLanes fun j =>
      (errorFeedback (nrFmt g.fmt) (srcV g a j).toNat (srcV g b j).toNat).2.2)
    (fun s g h => ?_) (fun g => by simp [vcvtefLanes]) fun s g g' hadv => ?_
  · rw [exec_vcvtef, execVcvtef]
    exact issue_fp h rfl
  · refine ⟨merged_of_advanced hadv (merged_of_fst (by simp [vcvtefLanes]) _), ?_⟩
    obtain ⟨c, w, ls, pc, rfl⟩ := hadv
    refine ⟨?_, ?_, ?_, ?_, fun r j hr hj => regAt_vcvtefLanes g d a b hr hj⟩ <;>
      simp [KeepsControl, KeepsOrder, vcvtefLanes, mergeFst, issuedWith]

/-- Settles O24: each form by the shape of its result, a frame for each shape proved once. -/
theorem registerFrame : Obligations.RegisterFrame := by
  obtain ⟨hvec, hvec1, hpair, hmulw, hbfi, haddi⟩ := vectorIntegerResult
  obtain ⟨-, -, -, hshift, hsli, hslui, hmask, hmnot, hmset, hmclr, hmget, hmcnt⟩ := scalarResult
  obtain ⟨hcmp, -, hclass, -⟩ := compareResult
  obtain ⟨hmove1, hmove2, hsel, -⟩ := crossLaneResult
  obtain ⟨hred, -, -, hfirst, -, hballot, -⟩ := reductionResult
  obtain ⟨hf2, hf1, hf3, hdot, -⟩ := floatResult
  refine ⟨fun f hf d a b nw => framed_vecAfter fun s g h => hvec f hf d a b nw s g h,
    fun f hf d a nw => framed_vecOnly fun s g h => hvec1 f hf d a nw s g h, ?_,
    fun d a b => framed_vecOnly fun s g h => hbfi d a b s g h,
    fun d a imm => framed_vecOnly fun s g h => haddi d a imm s g h,
    fun f hf d a nw => framed_vecOnly fun s g h => hmove1 f hf d a nw s g h,
    fun f hf d a b nw => framed_vecOnly fun s g h => hmove2 f hf d a b nw s g h,
    fun d a b nw m => framed_vecOnly fun s g h => hsel d a b nw m s g h,
    framed_scaForms, framed_saddx, framed_immForms,
    fun f hf d a imm => framed_mono (framed_scaAfter fun s g h _ => hshift f hf d a imm s g h)
      fun _ _ _ ⟨hs, hfst, hv⟩ => ⟨hs, hfst, hv rfl⟩, ?_, ?_,
    fun d a nw => framed_scaOnly fun s g h hg => hfirst d a nw s g h hg,
    fun f hf d a b => framed_maskAfter fun s g h => hmask f hf d a b s g h, ?_,
    fun d => framed_maskOnly fun s g h => hmclr d s g h, fun f hf d a b => framed_compare fun s g h => hcmp f hf d a b s g h,
    framed_fcmpForms,
    fun d a imm => framed_mono (framed_compare fun s g h => hclass d a imm s g h) fun _ _ _ ⟨hl, hfst, _⟩ => ⟨hl, hfst⟩,
    fun f hf d a b nw => framed_floatAfter _ _ fun s g h => hf2 f hf d a b nw s g h,
    fun f hf d a nw => framed_floatAfter _ _ fun s g h => hf1 f hf d a nw s g h,
    fun f hf d a b c => framed_floatAfter _ _ fun s g h => hf3 f hf d a b c s g h,
    fun d a b nw => framed_floatAfter (fun _ => false) _ fun s g h => hdot d a b nw s g h,
    framed_vscan_f, framed_vcvt, framed_vcvtef, framed_floatReduceForms, framed_csrr, exec_csrw_frame⟩
  · simp only [List.forall_mem_append, List.forall_mem_map, List.forall_mem_singleton]
    exact ⟨fun f hf d a b nw => framed_vecPairAfter fun s g h => hpair f hf d a b nw s g h,
      fun d a b nw => framed_vecPairAfter fun s g h => hmulw d a b nw s g h⟩
  · simp only [List.forall_mem_cons, List.not_mem_nil, false_implies, implies_true, and_true]
    exact ⟨fun d imm => framed_scaOnly fun s g h _ => hsli d imm s g h,
      fun d imm => framed_scaOnly fun s g h _ => hslui d imm s g h⟩
  · simp only [List.forall_mem_append, List.forall_mem_map, List.forall_mem_cons, List.not_mem_nil, false_implies,
      implies_true, and_true]
    exact ⟨⟨fun d a nw => framed_scaOnly fun s g h _ => hmget d a nw s g h,
      fun d a nw => framed_scaOnly fun s g h _ => hmcnt d a nw s g h,
      fun d a nw => framed_scaOnly fun s g h _ => hballot d a nw s g h⟩,
      fun f hf d a nw => framed_scaOnly fun s g h _ => hred f hf d a nw s g h⟩
  · simp only [List.forall_mem_cons, List.not_mem_nil, false_implies, implies_true, and_true]
    exact ⟨fun d a => framed_maskOnly fun s g h => hmnot d a s g h,
      fun d a => framed_maskOnly fun s g h => hmset d a s g h⟩

end Sys2Proof

/-! What accesses do in the background: writes at their homes change memory and the caches, and of groups only what follows
their accesses and their pending events (R170, R172, R212). -/

namespace Sys2Proof.Machine.Assoc

variable {α : Type}

/-- A look-up in a store whose entries were changed under their keys. -/
theorem find_map (m : Map α) (h : Nat × α → Nat × α) (hk : ∀ e, (h e).1 = e.1) (k : Nat) :
    find (m.map h) k = (find m k).map fun v => (h (k, v)).2 := by
  induction m with
  | nil => rfl
  | cons e m ih =>
    obtain ⟨k', v⟩ := e
    have hc : find (h (k', v) :: m.map h) k = if (h (k', v)).1 = k then some (h (k', v)).2 else find (m.map h) k := rfl
    rw [hk] at hc
    rw [List.map_cons, hc, ih]
    by_cases hkk : k' = k
    · subst hkk; simp [find]
    · simp [find, hkk]

theorem mem_of_find {m : Map α} {k : Nat} {v : α} (h : find m k = some v) : (k, v) ∈ m := by
  induction m with
  | nil => cases h
  | cons e m ih =>
    obtain ⟨k', v'⟩ := e
    have hc : find ((k', v') :: m) k = if k' = k then some v' else find m k := rfl
    rw [hc] at h
    split at h
    next hk => cases h; exact hk ▸ List.mem_cons_self
    · exact List.mem_cons_of_mem _ (ih h)

theorem mem_of_mem_erase {m : Map α} {k : Nat} {e : Nat × α} (h : e ∈ erase m k) : e ∈ m := by
  induction m with
  | nil => cases h
  | cons x m ih =>
    obtain ⟨k', v'⟩ := x
    have hc : erase ((k', v') :: m) k = if k' = k then erase m k else (k', v') :: erase m k := rfl
    rw [hc] at h
    split at h
    · exact List.mem_cons_of_mem _ (ih h)
    · rcases List.mem_cons.mp h with rfl | h
      · exact List.mem_cons_self
      · exact List.mem_cons_of_mem _ (ih h)

theorem mem_of_mem_insert {m : Map α} {k : Nat} {v : α} {e : Nat × α} (h : e ∈ insert m k v) : e = (k, v) ∨ e ∈ m := by
  induction m with
  | nil => exact .inl (List.mem_singleton.mp h)
  | cons x m ih =>
    obtain ⟨k', v'⟩ := x
    have hc : insert ((k', v') :: m) k v = if k < k' then (k, v) :: (k', v') :: m else (k', v') :: insert m k v := rfl
    rw [hc] at h
    split at h
    · exact List.mem_cons.mp h
    · rcases List.mem_cons.mp h with rfl | h
      · exact .inr List.mem_cons_self
      · exact (ih h).imp_right (List.mem_cons_of_mem _)

/-- An entry of a store after a write is the one written, or one that was there. -/
theorem mem_of_mem_set {m : Map α} {k k' : Nat} {v v' : α} (h : (k', v') ∈ set m k v) :
    k' = k ∧ v' = v ∨ (k', v') ∈ m := by
  rcases mem_of_mem_insert h with h | h
  · cases h; exact .inl ⟨rfl, rfl⟩
  · exact .inr (mem_of_mem_erase h)

end Sys2Proof.Machine.Assoc

namespace Sys2Proof.Machine

open Assoc Bits Claims

/-! ### A group but for its accesses and events -/

/-- A group without what its accesses in the background change: pending events, views, fences, outstanding accesses. -/
def bare (g : Group) : Group :=
  { g with ev := { g.ev with pend := 0 }, view := [], fences := [], ahead := [], wbuf := [], loads := [] }

theorem foldl_keeps {α β γ : Type} (p : β → γ) {f : β → α → β} (hf : ∀ b a, p (f b a) = p b) (as : List α) (b : β) :
    p (as.foldl f b) = p b := by
  induction as generalizing b with
  | nil => rfl
  | cons a as ih => exact (ih _).trans (hf b a)

@[simp] theorem bare_setView (g : Group) (st : Nat) (v : View) : bare (setView g st v) = bare g := rfl

@[simp] theorem bare_onView (s : State) (k : Seen) (st : Nat) (f : View → Seen → View) (g : Group) :
    bare (onView s k st f g) = bare g := by
  unfold onView; split <;> rfl

@[simp] theorem bare_seeAll (s : State) (a : Aud) (g : Group) : bare (seeAll s a g) = bare g := by
  unfold seeAll
  split
  · rfl
  · refine foldl_keeps bare ?_ _ _
    exact fun _ _ => bare_setView ..

@[simp] theorem bare_fenceEdges (gid : Nat) (g : Group) (f : FenceMark) : bare (fenceEdges gid g f) = bare g := by
  simp only [fenceEdges]
  split
  · rfl
  · refine foldl_keeps bare ?_ _ _
    exact fun _ _ => bare_setView ..

@[simp] theorem bare_settleFences (gid : Nat) (g : Group) : bare (settleFences gid g) = bare g := by
  simp only [settleFences]
  split
  · rfl
  · refine foldl_keeps bare ?_ _ _
    exact bare_fenceEdges gid

@[simp] theorem bare_seeLate (s : State) (k : Seen) (st : Nat) (a : Aud) (acq : List Aud) (g : Group) :
    bare (seeLate s k st a acq g) = bare g := by
  unfold seeLate
  split
  · rfl
  · exact bare_onView ..

@[simp] theorem bare_madeFor (s : State) (w : PendStore) (k : Seen) (g : Group) : bare (madeFor s w k g) = bare g := by
  unfold madeFor
  split
  · exact bare_onView ..
  · rfl
  · split
    · rfl
    · refine foldl_keeps bare ?_ _ _
      exact fun _ _ => bare_setView ..

@[simp] theorem bare_landedFor (s : State) (gid : Nat) (w : PendStore) (k : Seen) (g : Group) :
    bare (landedFor s gid w k g) = bare g := by
  simp only [landedFor]
  split
  · rfl
  · refine foldl_keeps bare ?_ _ _
    exact fun _ _ => bare_seeLate ..

/-! ### States that differ in memory alone, or in the background -/

/-- A state without memory and what the caches hold of it. -/
def noMem (s : State) : State := { s with mem := [], badMem := [], l1 := [], msgs := [], writes := 0, llc := [] }

/-- Only memory and the caches differ. -/
def MemOnly (s t : State) : Prop := noMem t = noMem s

theorem memOnly_refl (s : State) : MemOnly s s := rfl

theorem memOnly_trans {s t u : State} (h : MemOnly s t) (h' : MemOnly t u) : MemOnly s u := Eq.trans h' h

theorem memOnly_foldl {α : Type} {f : State → α → State} (hf : ∀ s a, MemOnly s (f s a)) (as : List α) (s : State) :
    MemOnly s (as.foldl f s) := foldl_keeps noMem hf as s

theorem memOnly_writeByte (s : State) (loc : Nat) (b : Byte) : MemOnly s (writeByte s loc b) := by
  unfold writeByte; split <;> rfl

theorem memOnly_writeCells (s : State) (bs : List (Nat × Byte)) : MemOnly s (writeCells s bs) := by
  unfold writeCells
  refine memOnly_foldl ?_ _ _
  exact fun _ _ => memOnly_writeByte ..

theorem memOnly_noteWrite (w : Writer) (s : State) (locs : List Nat) : MemOnly s (noteWrite w s locs) := by
  obtain ⟨x, y, n, h⟩ := noteWrite_frame w s locs
  rw [h]; rfl

theorem memOnly_llcWrites (u : Bool) (ls : List Nat) (s : State) :
    MemOnly s (ls.foldl (fun s l => llcWrite s l u) s) := by
  obtain ⟨x, h⟩ := foldl_llcWrite_frame u ls s
  rw [h]; rfl

theorem memOnly_llcWritten (s : State) (locs : List Nat) : MemOnly s (llcWritten s locs) := rfl

theorem memOnly_encodeBlock (key : Nat) (x : Sfte) (s : State) (b : Nat) : MemOnly s (encodeBlock key x s b) := by
  unfold encodeBlock
  dsimp only
  refine memOnly_trans ?_ (memOnly_llcWritten ..)
  refine memOnly_trans ?_ (memOnly_writeByte ..)
  refine memOnly_foldl ?_ _ _
  exact fun _ _ => memOnly_writeByte ..

theorem memOnly_recompress (s : State) (locs : List Nat) : MemOnly s (recompress s locs) := by
  unfold recompress
  refine memOnly_foldl ?_ _ _
  intro s e
  split
  · exact memOnly_encodeBlock ..
  · rfl

/-- A write of bytes at their homes before the mailbox edges that follow it. -/
def storeCore (w : Writer) (s : State) (bs : List (Nat × Byte)) : State :=
  let locs := bs.map (·.1)
  let s := writeCells (noteWrite w s locs) bs
  let s := (linesOf (locs.filter (· < gddrEnd))).foldl (fun s l => llcWrite s l w.uncached) s
  if locs.any (2 ^ 90 ≤ ·) then recompress s locs else s

theorem storeBy_eq (w : Writer) (s : State) (bs : List (Nat × Byte)) : storeBy w s bs =
    let pad := (bs.map (·.1)).filter fun l => 2 ^ 60 ≤ l && l < 2 ^ 61
    if pad.isEmpty then storeCore w s bs else mailboxEdges (storeCore w s bs) pad := rfl

theorem memOnly_storeCore (w : Writer) (s : State) (bs : List (Nat × Byte)) : MemOnly s (storeCore w s bs) := by
  have h := memOnly_trans (memOnly_trans (memOnly_noteWrite w s (bs.map (·.1))) (memOnly_writeCells _ bs))
    (memOnly_llcWrites w.uncached (linesOf ((bs.map (·.1)).filter (· < gddrEnd))) _)
  simp only [storeCore]
  split
  · exact memOnly_trans h (memOnly_recompress ..)
  · exact h

/-- A state without memory, caches and groups. -/
def sansGroups (s : State) : State := { noMem s with groups := [] }

/-- Beside memory and caches, only what accesses in the background change of groups differs. -/
def Background (s t : State) : Prop :=
  sansGroups t = sansGroups s ∧ (∀ gid, (t.group? gid).map bare = (s.group? gid).map bare) ∧
    ∀ gid g', (gid, g') ∈ t.groups → ∃ g, (gid, g) ∈ s.groups ∧ bare g' = bare g

theorem background_refl (s : State) : Background s s := ⟨rfl, fun _ => rfl, fun _ g h => ⟨g, h, rfl⟩⟩

theorem background_trans {s t u : State} (h : Background s t) (h' : Background t u) : Background s u :=
  ⟨h'.1.trans h.1, fun gid => (h'.2.1 gid).trans (h.2.1 gid), fun gid g' hg' => by
    obtain ⟨g1, h1, hb1⟩ := h'.2.2 gid g' hg'
    obtain ⟨g, hg, hb⟩ := h.2.2 gid g1 h1
    exact ⟨g, hg, hb1.trans hb⟩⟩

theorem background_foldl {α : Type} {f : State → α → State} (hf : ∀ s a, Background s (f s a)) (as : List α) (s : State) :
    Background s (as.foldl f s) := by
  induction as generalizing s with
  | nil => exact background_refl s
  | cons a as ih => exact background_trans (hf s a) (ih _)

theorem background_of_memOnly {s t : State} (h : MemOnly s t) : Background s t := by
  have hn : noMem t = noMem s := h
  have hg := congrArg State.groups hn
  have hs := congrArg (fun u : State => { u with groups := [] }) hn
  change t.groups = s.groups at hg
  exact ⟨hs, fun gid => by rw [State.group?, State.group?, hg], fun gid g' hm => ⟨g', hg ▸ hm, rfl⟩⟩

theorem background_updGroup (s : State) (gid : Nat) {f : Group → Group} (hf : ∀ g, bare (f g) = bare g) :
    Background s (s.updGroup gid f) := by
  refine ⟨rfl, fun k => ?_, fun k g' hm => ?_⟩
  · rw [group?_updGroup]
    split
    · rw [Option.map_map]; congr 1; funext g; exact hf g
    · rfl
  · obtain ⟨⟨k', g⟩, hg, he⟩ := List.mem_map.mp hm
    dsimp only at he
    split at he
    next hk => cases he; exact ⟨_, hk ▸ hg, hf _⟩
    next hk => cases he; exact ⟨_, hg, rfl⟩

theorem background_setGroup {s : State} {gid : Nat} {g g' : Group} (hg : s.group? gid = some g) (h : bare g' = bare g) :
    Background s (s.setGroup gid g') := by
  refine ⟨rfl, fun k => ?_, fun k x hm => ?_⟩
  · by_cases hk : k = gid
    · subst hk; rw [group?_setGroup_same, hg, Option.map_some, Option.map_some, h]
    · rw [group?_setGroup_other s g' hk]
  · rcases mem_of_mem_set hm with ⟨hk, hx⟩ | hm
    · exact ⟨g, hk ▸ mem_of_find hg, hx ▸ h⟩
    · exact ⟨x, hm, rfl⟩

/-- Groups changed entry by entry. -/
theorem background_mapGroups (s : State) (f : Nat × Group → Nat × Group) (hk : ∀ e, (f e).1 = e.1)
    (hb : ∀ e, bare (f e).2 = bare e.2) : Background s { s with groups := s.groups.map f } := by
  refine ⟨rfl, fun k => ?_, fun k g' hm => ?_⟩
  · simp only [State.group?, find_map _ _ hk, Option.map_map]
    congr 1
    funext g
    exact hb (k, g)
  · obtain ⟨e, he, hfe⟩ := List.mem_map.mp hm
    refine ⟨e.2, ?_, by rw [← hb e, hfe]⟩
    have hkey := hk e
    rw [hfe] at hkey
    exact (show k = e.1 from hkey) ▸ he

theorem background_mailboxEdges (s : State) (locs : List Nat) : Background s (mailboxEdges s locs) := by
  refine background_mapGroups s _ (fun e => ?_) fun e => ?_
  · split
    · split <;> rfl
    · rfl
  · split
    · split <;> rfl
    · rfl

theorem background_storeBy (w : Writer) (s : State) (bs : List (Nat × Byte)) : Background s (storeBy w s bs) := by
  have h := background_of_memOnly (memOnly_storeCore w s bs)
  rw [storeBy_eq]
  dsimp only
  split
  · exact h
  · exact background_trans h (background_mailboxEdges ..)

/-! ### Accesses of groups made (R170, R182, R184) -/

theorem background_ite {s t u : State} {c : Prop} [Decidable c] (ht : Background s t) (hu : Background s u) :
    Background s (if c then t else u) := by split <;> assumption

theorem bare_seeLates (s : State) (k : Seen) (acq : Nat × Aud → List Aud) (es : List (Nat × Aud)) (g : Group) :
    bare (es.foldl (fun g e => seeLate s k e.1 e.2 (acq e) g) g) = bare g := by
  refine foldl_keeps bare ?_ _ _
  exact fun _ _ => bare_seeLate ..

theorem background_applyWrite (s : State) (gid : Nat) (w : PendStore) : Background s (applyWrite s gid w) := by
  simp only [applyWrite]
  split
  · exact background_refl s
  · have h (x : Writer) (bs : List (Nat × Byte)) (t : State) (k : Seen) : Background s ((storeBy x s bs).updGroup gid fun g =>
        w.also.foldl (fun g e => seeLate t k e.1 e.2 ((w.acq.filter (·.1 == e.1)).map (·.2)) g) (madeFor t w k g)) :=
      background_trans (background_storeBy ..) (background_updGroup _ gid fun g =>
        (bare_seeLates t k _ w.also _).trans (bare_madeFor ..))
    refine background_ite (background_trans (h ..) (background_mapGroups _ _ (fun _ => rfl) fun e => ?_)) (h ..)
    rw [bare_settleFences, bare_landedFor]

theorem background_reachHome (s : State) (gid : Nat) (p : PendStore → Bool) : Background s (reachHome s gid p) := by
  unfold reachHome
  split
  · exact background_refl s
  next g hg =>
    refine background_trans ?_ (background_updGroup _ gid fun g => bare_settleFences gid g)
    refine background_trans
      (background_setGroup (g' := { g with wbuf := g.wbuf.filter fun w => !p w }) hg rfl) ?_
    refine background_foldl ?_ _ _
    exact fun _ _ => background_applyWrite ..

theorem background_landAhead (s : State) (gid : Nat) : Background s (landAhead s gid) := by
  unfold landAhead
  split
  · exact background_refl s
  · refine background_foldl ?_ _ _
    exact fun _ _ => background_reachHome ..

theorem background_hear (s : State) (gid : Nat) (l : PendLoad) (lines : List Nat) (n : Nat) :
    Background s (hear s gid l lines n) :=
  background_updGroup s gid fun _ => bare_onView ..

theorem background_atomStep (gid : Nat) (g : Group) (l : PendLoad) (r : AtomRun) (p : LoadPart) :
    Background r.s (atomStep gid g l r p).s := by
  simp only [atomStep]
  split
  · split
    · exact background_refl _
    · exact background_trans (background_storeBy ..) (background_hear ..)
  · exact background_refl _

theorem background_atomLanes (s : State) (gid : Nat) (g : Group) (l : PendLoad) : Background s (atomLanes s gid g l).s := by
  have h : ∀ (ps : List LoadPart) (r : AtomRun), Background r.s (ps.foldl (atomStep gid g l) r).s := by
    intro ps
    induction ps with
    | nil => exact fun r => background_refl _
    | cons p ps ih => exact fun r => background_trans (background_atomStep gid g l r p) (ih _)
  exact h l.parts ⟨s, [], 0, [], 0⟩

theorem background_atomsAct (s : State) (gid : Nat) (p : PendLoad → Bool) : Background s (atomsAct s gid p) := by
  unfold atomsAct
  split
  · exact background_refl s
  next g hg =>
    dsimp only
    split
    · exact background_refl s
    · refine background_trans
        (background_setGroup (g' := { g with loads := g.loads.filter fun l => !(isAtomic l && p l) }) hg rfl) ?_
      refine background_foldl ?_ _ _
      exact fun _ _ => background_atomLanes ..

theorem background_settleAccesses (s : State) (gid : Nat) : Background s (settleAccesses s gid) :=
  background_trans (background_atomsAct ..) (background_trans (background_reachHome ..) (background_landAhead ..))

end Sys2Proof.Machine

/-! Groups killed whole: they stand at their exit (R225, R231). -/

namespace Sys2Proof.Machine

open Assoc Bits Claims

/-! ### Reports, and a group at its exit -/

/-- The state has the given reports, and the group stands at its exit with no live and no active lane. -/
def AtExit (rs : List Report) (gid : Nat) (s : State) : Prop :=
  s.reports = rs ∧ ∃ g, s.group? gid = some g ∧ g.lmask = 0 ∧ g.amask = 0 ∧ g.status = .parked .exit

variable {rs : List Report} {s t : State} {gid : Nat} {g : Group}

theorem background_reports (h : Background s t) : t.reports = s.reports := by
  have hs := congrArg State.reports h.1
  exact hs

/-- A group that lives before accesses in the background lives after them. -/
theorem background_group? (h : Background s t) {k : Nat} (hg : s.group? k = some g) :
    ∃ g', t.group? k = some g' ∧ bare g' = bare g := by
  have hk := h.2.1 k
  rw [hg, Option.map_some, Option.map_eq_some_iff] at hk
  exact hk

theorem atExit_of_background (h : Background s t) (hs : AtExit rs gid s) : AtExit rs gid t := by
  obtain ⟨hr, g, hg, hl, ha, hst⟩ := hs
  obtain ⟨g', hg', hb⟩ := background_group? h hg
  refine ⟨(background_reports h).trans hr, g', hg', ?_, ?_, ?_⟩
  · exact (congrArg Group.lmask hb).trans hl
  · exact (congrArg Group.amask hb).trans ha
  · exact (congrArg Group.status hb).trans hst

theorem atExit_setCluster (cl : Nat) (c : Cluster) (h : AtExit rs gid s) : AtExit rs gid (s.setCluster cl c) := h

theorem atExit_foldl {α : Type} {f : State → α → State} (hf : ∀ s a, AtExit rs gid s → AtExit rs gid (f s a)) (as : List α)
    {s : State} (h : AtExit rs gid s) : AtExit rs gid (as.foldl f s) := by
  induction as generalizing s with
  | nil => exact h
  | cons a as ih => exact ih (hf s a h)

theorem goOn_reports (s : State) (k : Nat) (g : Group) : (goOn s k g).reports = s.reports := by
  unfold goOn; split <;> rfl

theorem group?_goOn_other (s : State) {k n : Nat} (g : Group) (hn : n ≠ k) : (goOn s k g).group? n = s.group? n := by
  unfold goOn
  split
  · exact group?_setGroup_other s _ hn
  · rw [group?_ranHere, group?_setGroup_other s _ hn]

theorem parkedIn_of_parked {p : Park} (h : g.status = .parked p) : parkedIn g = some p := by
  unfold parkedIn; rw [h]

theorem atExit_barLeave (b k : Nat) (h : AtExit rs gid s) : AtExit rs gid (barLeave b s k) := by
  obtain ⟨hr, g, hg, hl, ha, hst⟩ := h
  unfold barLeave
  split
  · exact ⟨hr, g, hg, hl, ha, hst⟩
  next gk hk =>
    by_cases hkg : gid = k
    · subst hkg
      obtain rfl : gk = g := Option.some.inj (hk.symm.trans hg)
      have hb := bare_seeAll s (.cluster (clusterOfCore gk.core)) gk
      have hst' := (congrArg Group.status hb).trans hst
      dsimp only
      rw [if_neg fun h => by cases (parkedIn_of_parked hst').symm.trans h]
      exact ⟨hr, _, group?_setGroup_same .., (congrArg Group.lmask hb).trans hl, (congrArg Group.amask hb).trans ha, hst'⟩
    · dsimp only
      split
      · exact ⟨(goOn_reports ..).trans hr, g, (group?_goOn_other s _ hkg).trans hg, hl, ha, hst⟩
      · exact ⟨hr, g, (group?_setGroup_other s _ hkg).trans hg, hl, ha, hst⟩

theorem atExit_barCheck (cl b : Nat) (h : AtExit rs gid s) : AtExit rs gid (barCheck s cl b) := by
  unfold barCheck
  dsimp only
  split
  · exact atExit_foldl (fun _ k => atExit_barLeave b k) _ (atExit_setCluster cl _ h)
  · exact h

theorem atExit_barRetire (cl k : Nat) (h : AtExit rs gid s) : AtExit rs gid (barRetire s cl k) := by
  refine atExit_foldl (fun s b h => ?_) _ h
  dsimp only
  split
  · exact atExit_barCheck _ _ (atExit_setCluster cl _ h)
  · exact h

theorem atExit_countArrived (k : Nat) (h : AtExit rs gid s) : AtExit rs gid (countArrived s k) := by
  unfold countArrived
  split
  · exact h
  · split
    · exact atExit_barRetire _ _ (atExit_of_background (background_settleAccesses ..) h)
    · exact h

/-! ### Lanes killed, and the group -/

theorem sendReturns_frame (s : State) (g : Group) (kind : Nat) (lanes : List Nat) :
    ∃ r, sendReturns s g kind lanes = { s with rets := r } := by
  unfold sendReturns
  induction lanes generalizing s with
  | nil => exact ⟨s.rets, rfl⟩
  | cons j ls ih =>
    rw [List.foldl_cons]
    split
    · obtain ⟨r, hr⟩ := ih (sendReturn s (bareReturn s kind g.view _))
      exact ⟨r, hr⟩
    · exact ih s

@[simp] theorem sendReturns_reports (s : State) (g : Group) (kind : Nat) (lanes : List Nat) :
    (sendReturns s g kind lanes).reports = s.reports := by
  obtain ⟨r, h⟩ := sendReturns_frame s g kind lanes
  rw [h]

@[simp] theorem group?_sendReturns (s : State) (g : Group) (kind : Nat) (lanes : List Nat) (k : Nat) :
    (sendReturns s g kind lanes).group? k = s.group? k := by
  obtain ⟨r, h⟩ := sendReturns_frame s g kind lanes
  rw [h]; rfl

theorem background_killedFirst (s : State) (gid : Nat) (g : Group) (p : PendLoad → Bool) (q : PendStore → Bool) :
    Background s (if isMigrant g then landAhead (reachHome (atomsAct s gid p) gid q) gid else s) :=
  background_ite (background_trans (background_atomsAct ..) (background_trans (background_reachHome ..)
    (background_landAhead ..))) (background_refl s)

/-- Lanes killed leave the reports, and the group where it is. -/
theorem killLanes_keeps (hg : s.group? gid = some g) (lanes : Word) :
    (killLanes s gid lanes).reports = s.reports ∧ ∃ g', (killLanes s gid lanes).group? gid = some g' := by
  simp only [killLanes, hg]
  generalize hu : (if isMigrant g = true then _ else _ : State) = u
  have hb : Background _ u := hu ▸ background_killedFirst _ gid g _ _
  obtain ⟨g', hg', -⟩ := background_group? hb (g := g) (k := gid) hg
  simp only [group?_updGroup, if_pos, hg', Option.map_some, sendReturns_reports, group?_sendReturns]
  exact ⟨(background_reports hb : u.reports = _), _, rfl⟩

theorem atExit_killWhole (hg : s.group? gid = some g) : AtExit s.reports gid (killWhole s gid) := by
  obtain ⟨hr, g', hg'⟩ := killLanes_keeps hg g.lmask
  simp only [killWhole, hg]
  refine atExit_countArrived gid ⟨?_, ?_⟩
  · split <;> exact hr
  · have h : (if isHalted g then barRecount (leaveWaits (killLanes s gid g.lmask) gid) gid g
        else leaveWaits (killLanes s gid g.lmask) gid).group? gid = some g' := by split <;> exact hg'
    rw [group?_updGroup, if_pos rfl, h, Option.map_some]
    exact ⟨_, rfl, rfl, rfl, rfl⟩

/-! ### What R225 reports -/

theorem pitWrite_frame (s : State) (die kind code core slot : Nat) (d0 d1 : DWord) (secure : Bool) :
    ∃ d, pitWrite s die kind code core slot d0 d1 secure = { s with dies := d } := by
  unfold pitWrite
  dsimp only
  split
  · exact ⟨s.dies, rfl⟩
  · exact ⟨_, rfl⟩

/-- A trap that no handler receives is logged and reported, and nothing else. -/
theorem faultReport_frame (s : State) (g : Group) (c : Cause) (tpc : DWord) (tlanes : Word) (taddr : DWord) :
    ∃ d, faultReport s g c tpc tlanes taddr = { s with
      dies := d
      reports := s.reports ++ [.fault (causeCode c).toNat g.core (slotOf g) g.wid tpc taddr tlanes] } := by
  obtain ⟨d, h⟩ := pitWrite_frame s (dieOfCore g.core) 1 (causeCode c).toNat g.core (slotOf g) tpc taddr g.secure
  exact ⟨d, by unfold faultReport; rw [h]; rfl⟩

theorem takeTrap_of_undeliverable {i : TrapInfo} (hg : s.group? gid = some g) (hd : deliverable g i.cause = false) :
    takeTrap s gid i = if debuggerOn s g && !isMigrant g then
        report ((faultReport s g i.cause i.tpc i.tlanes i.taddr).setGroup gid
          { g with trap := fillTrap g.trap i, chain := Chain.none, status := .halted none }) (.halt gid)
      else killWhole (faultReport s g i.cause i.tpc i.tlanes i.taddr) gid := by
  obtain ⟨d, h⟩ := faultReport_frame s g i.cause i.tpc i.tlanes i.taddr
  have hdb : debuggerOn (faultReport s g i.cause i.tpc i.tlanes i.taddr) g = debuggerOn s g := by rw [h]; rfl
  simp only [takeTrap, hg, hd, Bool.false_eq_true, if_false, hdb]

/-- A group killed after a fault was reported. -/
theorem atExit_faultKill (hg : s.group? gid = some g) (c : Cause) (tpc : DWord) (tlanes : Word) (taddr : DWord) :
    AtExit (s.reports ++ [.fault (causeCode c).toNat g.core (slotOf g) g.wid tpc taddr tlanes]) gid
      (killWhole (faultReport s g c tpc tlanes taddr) gid) := by
  obtain ⟨d, h⟩ := faultReport_frame s g c tpc tlanes taddr
  rw [h]
  exact atExit_killWhole (g := g) hg

end Sys2Proof.Machine

namespace Sys2Proof

open Machine Claims

/-- Settles O11: beside the report, the group either halts in one update, or is killed whole, and what the kill does
for other groups (accesses made, barriers passed) neither reports nor wakes it. -/
theorem trapUndeliverable : Obligations.TrapUndeliverable := by
  intro s gid g i hg hd
  rw [takeTrap_of_undeliverable hg hd]
  obtain ⟨d, h⟩ := faultReport_frame s g i.cause i.tpc i.tlanes i.taddr
  constructor
  · intro hdb hm
    rw [if_pos (by simp [hdb, hm])]
    exact ⟨_, _, rfl, by rw [h], rfl, rfl, rfl, rfl, rfl, rfl⟩
  · intro hc
    rw [if_neg (by rcases hc with hc | hc <;> simp [hc])]
    exact atExit_faultKill hg ..

end Sys2Proof

/-! Uncorrectable operands of register forms (R230, R231). -/

namespace Sys2Proof.Machine.Assoc

variable {α : Type}

theorem erase_upd (m : Map α) (k : Nat) (f : α → α) : erase (upd m k f) k = erase m k := by
  induction m with
  | nil => rfl
  | cons e m ih =>
    obtain ⟨k', v⟩ := e
    by_cases h : k' = k
    · subst h; simpa [erase, upd] using ih
    · simpa [erase, upd, h] using ih

/-- A write hides a change of the entry that it writes. -/
theorem set_upd (m : Map α) (k : Nat) (f : α → α) (v : α) : set (upd m k f) k v = set m k v := by
  rw [set, erase_upd, set]

end Sys2Proof.Machine.Assoc

namespace Sys2Proof.Machine

open Assoc Bits Claims

variable {i : Instr} {s : State} {g : Group}

/-! ### Scalars: the group is killed -/

/-- A word that reads an uncorrectable scalar kills its group. -/
theorem issue_badScalar (body : State → Nat → Group → Effect) (hg : s.group? s.cur = some g) (hst : g.status = .ready)
    (hsc : (s.coreAt g.core).scanning = false) (hd : decodeFault s g i = none) (hs : stalled g i = false)
    (hb : readsBadScalar g i = true) : issue i body s = .next (uceKill (ranHere s g) s.cur g.pc) := by
  simp [issue, hg, hst, hsc, hd, hs, hb]

theorem readsBadScalar_of_mem {n : Nat} (hr : RegId.s n ∈ readsOf (oprsOf g.fmt i)) (hn : g.badS.contains n = true) :
    readsBadScalar g i = true := by
  simp only [readsBadScalar, Bool.or_eq_true]
  exact .inl (List.any_eq_true.mpr ⟨.s n, List.mem_append_left _ hr, hn⟩)

theorem mem_readsOf {os : List Opr} {o : Opr} {r : RegId} (ho : o ∈ os) (hrole : o.role ≠ .dst) (hr : r ∈ regsOf o) :
    r ∈ readsOf os :=
  List.mem_flatMap.mpr ⟨o, List.mem_filter.mpr ⟨ho, bne_iff_ne.mpr hrole⟩, hr⟩

theorem mem_regsOf_sca {a : Code} (ha : a.toNat ≤ 63) : RegId.s a.toNat ∈ regsOf (osrc .sca a) := by
  simp [regsOf, osrc, ha]

/-- Each scalar form reads its two sources. -/
theorem oprsOf_scaForms : ∀ f ∈ scaForms, ∀ (d a b : Code) (nw : Bool) (fmt : Word),
    oprsOf fmt (f.1 d a b nw) = ops3 d a b .sca nw := by
  simp only [scaForms, List.forall_mem_cons, List.not_mem_nil, false_implies, implies_true, and_true]
  refine ⟨?_, ?_, ?_, ?_, ?_, ?_, ?_, ?_, ?_, ?_, ?_, ?_, ?_, ?_⟩ <;> exact fun _ _ _ _ _ => rfl

theorem exec_scaForms_issue : ∀ f ∈ scaForms, ∀ (d a b : Code) (nw : Bool) (s : State),
    ∃ body, exec (f.1 d a b nw) s = issue (f.1 d a b nw) body s := by
  simp only [scaForms, List.forall_mem_cons, List.not_mem_nil, false_implies, implies_true, and_true]
  refine ⟨?_, ?_, ?_, ?_, ?_, ?_, ?_, ?_, ?_, ?_, ?_, ?_, ?_, ?_⟩ <;> exact fun _ _ _ _ _ => ⟨_, rfl⟩

theorem readsBadScalar_ops3 {d a b : Code} {nw : Bool} (ho : oprsOf g.fmt i = ops3 d a b .sca nw)
    (hbad : a.toNat ≤ 63 ∧ g.badS.contains a.toNat = true ∨ b.toNat ≤ 63 ∧ g.badS.contains b.toNat = true) :
    readsBadScalar g i = true := by
  rcases hbad with ⟨hn, hbad⟩ | ⟨hn, hbad⟩
  all_goals
    refine readsBadScalar_of_mem ?_ hbad
    rw [ho]
  · exact mem_readsOf (o := osrc .sca a) (by simp [ops3]) nofun (mem_regsOf_sca hn)
  · exact mem_readsOf (o := osrc .sca b) (by simp [ops3]) nofun (mem_regsOf_sca hn)

theorem oprsOf_branchForms : ∀ f ∈ branchForms, ∀ (a : Code) (off : BitVec 16) (fmt : Word),
    oprsOf fmt (f.1 a off) = [osrc .sca a] := by
  simp only [branchForms, List.forall_mem_cons, List.not_mem_nil, false_implies, implies_true, and_true]
  refine ⟨?_, ?_, ?_, ?_, ?_, ?_⟩ <;> exact fun _ _ _ => rfl

theorem exec_branchForms_issue : ∀ f ∈ branchForms, ∀ (a : Code) (off : BitVec 16) (s : State),
    ∃ body, exec (f.1 a off) s = issue (f.1 a off) body s := by
  simp only [branchForms, List.forall_mem_cons, List.not_mem_nil, false_implies, implies_true, and_true]
  refine ⟨?_, ?_, ?_, ?_, ?_, ?_⟩ <;> exact fun _ _ _ => ⟨_, rfl⟩

/-! ### Vector elements: their lanes are killed -/

/-- A form of two vector sources reads its operands only, and its results are lane by lane. -/
theorem vecForms_tables : ∀ f ∈ vecForms ++ vecForms2, ∀ (d a b : Code) (nw : Bool),
    (∀ fmt, oprsOf fmt (f.1 d a b nw) = ops3 d a b .vec nw) ∧ groupForm (f.1 d a b nw) = false ∧
    (∀ s g os, destinations s g (f.1 d a b nw) os = writesOf os) ∧
    (∀ s g os j, laneReads s g (f.1 d a b nw) os j =
      (os.filter fun o => o.role != .dst && o.kind != .mtx).map fun o => (o, [j])) ∧
    (∀ s, exec (f.1 d a b nw) s = issue (f.1 d a b nw) (lane2 d a b nw f.2) s) := by
  have happ (os : List RegId) : os ++ [] = os := List.append_nil os
  simp only [vecForms, vecForms2, List.cons_append, List.nil_append, List.forall_mem_cons, List.not_mem_nil,
    false_implies, implies_true, and_true]
  refine ⟨?_, ?_, ?_, ?_, ?_, ?_, ?_, ?_, ?_, ?_, ?_, ?_, ?_, ?_, ?_, ?_, ?_, ?_, ?_, ?_, ?_, ?_⟩ <;>
    exact fun _ _ _ _ => ⟨fun _ => rfl, rfl, fun _ _ _ => happ _, fun _ _ _ _ => rfl, fun _ => rfl⟩

theorem writesOf_ops3 {d a b : Code} {nw : Bool} (h : codesOk (ops3 d a b .vec nw) = true) :
    writesOf (ops3 d a b .vec nw) = if nw then [] else [.v d.toNat] := by
  cases nw with
  | true => rfl
  | false =>
    have hd : d.toNat ≤ 95 := by
      simp only [codesOk, ops3, odstNw, Bool.false_eq_true, if_false, List.cons_append, List.all_cons,
        Bool.and_eq_true] at h
      obtain ⟨hd, -⟩ := h
      simpa [admits, odst] using of_decide_eq_true hd
    simp [writesOf, ops3, odstNw, odst, osrc, regsOf, run, hd]

theorem codesOk_of_decodeFault (h : decodeFault s g i = none) : codesOk (oprsOf g.fmt i) = true := by
  by_contra hc
  rw [Bool.not_eq_true] at hc
  refine absurd h ?_
  simp only [decodeFault, hc]
  split
  · simp
  · split
    · simp
    · repeat' split
      all_goals simp_all

/-- A form of two vector sources. -/
theorem issue_lane2_of_consumes {lanes : Word} {d a b : Code} {nw : Bool} {f : Word → Word → Word} (h : Consumes i s g lanes)
    (hgf : groupForm i = false)
    (hd : destinations s g i (oprsOf g.fmt i) = if nw then [] else [.v d.toNat]) :
    let h : Group := { g with
      amask := g.amask &&& ~~~lanes, chain := { g.chain with specials := readSpecials s g (oprsOf g.fmt i) } }
    let r := fun j => f (srcV g a j) (srcV g b j)
    issue i (lane2 d a b nw f) s = .next (after i s g (consume
      (s.setGroup s.cur (if nw then h else h.setLanes d.toNat h.activeLanes r)) s.cur
      (if nw then [] else [.v d.toNat]) lanes g.pc) (vecLatch h r)) := by
  obtain ⟨hg, hst, hsc, hdf, hs, hb, hu, hc, hl⟩ := h
  have hrs : readState s g i = s := by simp [readState, hu]
  have hset (u : State) (f : Group → Group) (x : Group) : (u.updGroup u.cur f).setGroup u.cur x = u.setGroup u.cur x := by
    simp [State.updGroup, State.setGroup, set_upd]
  simp only [issue, hg, hst, hsc, hdf, hs, hb, hrs, hc, standAside, if_neg hl, group?_updGroup, if_pos, Option.map_some, hgf,
    hd, bne_self_eq_false, Bool.or_self, Bool.false_eq_true, if_false, lane2, Effect.map, hset]
  rfl

/-- The lanes in which a source of a form of two sources is uncorrectable. -/
theorem badAt_osrc {c : Code} {j : Nat} (hl : g.chain.badL = []) :
    badAt g (osrc .vec c) j = true ↔ c.toNat ≤ 95 ∧ g.badV.contains (elemOf (g.wb + c.toNat) j) = true := by
  have hreg : badAt g (osrc .vec c) j = (regsOf (osrc .vec c)).any fun r => match r with
      | .v n => g.badV.contains (elemOf (g.wb + n) j)
      | .s _ | .m _ | .t _ => false := by
    unfold badAt
    rw [hl]
    cases latchOf (osrc .vec c) with
    | none => exact Bool.or_false _
    | some k => dsimp only; rw [List.contains_nil, Bool.and_false]; exact Bool.or_false _
  rw [hreg]
  by_cases h : c.toNat ≤ 95
  · simp [regsOf, osrc, run, h]
  · by_cases h' : 104 ≤ c.toNat ∧ c.toNat ≤ 126 <;> simp [regsOf, osrc, run, h, h']

theorem consuming_ops3 {d a b : Code} {nw : Bool} (ho : oprsOf g.fmt i = ops3 d a b .vec nw)
    (hr : ∀ j, laneReads s g i (oprsOf g.fmt i) j =
      ((oprsOf g.fmt i).filter fun o => o.role != .dst && o.kind != .mtx).map fun o => (o, [j]))
    (hl : g.chain.badL = []) {j : Nat} (hj : j < 32) :
    bit (consuming s g i (oprsOf g.fmt i)) j = true ↔ g.active j = true ∧
      ∃ c, (c = a ∨ c = b) ∧ c.toNat ≤ 95 ∧ g.badV.contains (elemOf (g.wb + c.toNat) j) = true := by
  have hsrc : ((ops3 d a b .vec nw).filter fun o => o.role != .dst && o.kind != .mtx) = [osrc .vec a, osrc .vec b] := by
    cases nw <;> rfl
  by_cases he : g.badV = []
  · simp [consuming, he, hl, bit_eq_getLsbD]
  · have hne : (g.badV.isEmpty && g.chain.badL.isEmpty) = false := by simp [he]
    rw [consuming, hne, if_neg Bool.false_ne_true, bit_eq_getLsbD, getLsbD_maskOf, decide_eq_true_iff]
    simp only [hr, ho ▸ hsrc, List.mem_filter, mem_activeLanes, hj, true_and, List.map_cons, List.map_nil, List.any_cons,
      List.any_nil, Bool.or_false, Bool.or_eq_true, badAt_osrc hl, or_and_right, exists_or, exists_eq_left]

/-! ### What a lane that consumes receives -/

theorem uceLanes_home {gid : Nat} {lanes : Word} {a : DWord} (hg : s.group? gid = some g) (hm : isMigrant g = false)
    (hl : lanes ≠ 0) : (uceLanes s gid lanes a).group? gid = some { g with
      lmask := g.lmask &&& ~~~lanes, amask := g.amask &&& ~~~lanes,
      dbg := { g.dbg with ucelanes := g.dbg.ucelanes ||| lanes } } := by
  obtain ⟨p, hp⟩ := pitWrite_frame s (dieOfCore g.core) 2 0 g.core (slotOf g) a (lanes.setWidth 64) g.secure
  have hk := group?_killLanes_home (s := { s with dies := p }) (gid := gid) hg hm lanes
  simp only [uceLanes, hg, if_neg hl, hp, group?_updGroup, if_pos, hk, Option.map_some]

theorem consume_home {gid : Nat} {d : Nat} {lanes : Word} {pc : DWord} (hg : s.group? gid = some g)
    (hm : isMigrant g = false) (hl : lanes ≠ 0) :
    (consume s gid [.v d] lanes pc).group? gid = some { g.setLanes d (lanesOf lanes) fun _ => 0 with
      lmask := g.lmask &&& ~~~lanes, amask := g.amask &&& ~~~lanes,
      dbg := { g.dbg with ucelanes := g.dbg.ucelanes ||| lanes } } := by
  have hu := group?_updGroup s gid gid fun g => g.setLanes d (lanesOf lanes) fun _ => 0
  rw [if_pos rfl, hg, Option.map_some] at hu
  have hmu : isMigrant (g.setLanes d (lanesOf lanes) fun _ => 0) = false := by
    rw [isMigrant, Group.setLanes_kind]; exact hm
  rw [consume, if_neg hl]
  refine (uceLanes_home hu hmu hl).trans ?_
  simp

end Sys2Proof.Machine

namespace Sys2Proof

open Machine Machine.Assoc Machine.Bits Claims

/-- Settles O25: a bad scalar turns the issue away to the kill; a bad element only narrows the lanes that the form's
body sees, and `consume` does the rest. -/
theorem uncorrectableOperands : Obligations.UncorrectableOperands := by
  unfold Obligations.UncorrectableOperands
  refine ⟨fun i body s g hg hst hsc hd hs hb => issue_badScalar body hg hst hsc hd hs hb, ?_, ?_, ?_, ?_, ?_, ?_⟩
  · intro f hf d a b nw s g hg hst hsc hd hs hbad
    obtain ⟨body, hx⟩ := exec_scaForms_issue f hf d a b nw s
    rw [hx]
    exact issue_badScalar body hg hst hsc hd hs (readsBadScalar_ops3 (oprsOf_scaForms f hf d a b nw _) hbad)
  · intro f hf a off s g hg hst hsc hd hs ha hbad
    obtain ⟨body, hx⟩ := exec_branchForms_issue f hf a off s
    rw [hx]
    refine issue_badScalar body hg hst hsc hd hs (readsBadScalar_of_mem ?_ hbad)
    rw [oprsOf_branchForms f hf]
    exact mem_readsOf (o := osrc .sca a) (by simp) nofun (mem_regsOf_sca ha)
  · intro s gid g pc hg hm
    obtain ⟨hr, g', hg', hl, ha, hst⟩ := atExit_faultKill hg .uce pc 0 0
    have hu : uceKill s gid pc = killWhole (faultReport s g .uce pc 0 0) gid := by rw [uceKill, hg]
    rw [hu, hr]
    exact ⟨g', hg', hl, ha, hst, by simp⟩
  · intro f hf d a b nw s g lanes h
    obtain ⟨ho, hgf, hdst, -, hx⟩ := vecForms_tables f hf d a b nw
    obtain ⟨-, -, -, hd, -⟩ := id h
    have hc := codesOk_of_decodeFault hd
    rw [ho] at hc
    rw [hx]
    exact issue_lane2_of_consumes h hgf (by rw [hdst, ho, writesOf_ops3 hc])
  · intro f hf d a b nw s g j hj hl
    obtain ⟨ho, -, -, hr, -⟩ := vecForms_tables f hf d a b nw
    exact consuming_ops3 (ho _) (fun j => hr s g _ j) hl hj
  · intro s gid g d lanes pc hg hm hl
    have hlt : ∀ k ∈ lanesOf lanes, k < 32 := fun k hk => by simpa using (List.mem_filter.mp hk).1
    have hmem (j : Nat) (hj : j < 32) : j ∈ lanesOf lanes ↔ bit lanes j = true := by
      simp [lanesOf, hj, bit_eq_getLsbD]
    refine ⟨_, consume_home hg hm hl, rfl, rfl, rfl, by simp, by simp, by simp, fun j hj hb => ?_, fun r j hj hrj => ?_⟩
    · have h := regAt_setLanes g d (fun _ => 0) hlt (r := g.wb + d) hj
      rw [if_pos ⟨rfl, (hmem j hj).mpr hb⟩] at h
      rw [Group.vcode, Group.setLanes_wb]
      exact h
    · refine (regAt_setLanes g d (fun _ => 0) hlt hj).trans (if_neg ?_)
      rw [hmem j hj]
      rintro ⟨hr, hb⟩
      rcases hrj with h | h
      · exact h hr
      · simp [hb] at h

end Sys2Proof

/-! Commands at the HEAD of a queue (R96 to R99). -/

namespace Sys2Proof.Machine

open Assoc Bits Claims

variable {q : Nat} {s s1 : State} {c : Cmd}

/-! ### A queue in the state -/

@[simp] theorem queueAt_setQueue (s : State) (q : Nat) (k : Queue) : (s.setQueue q k).queueAt q = k := by
  simp [State.queueAt, State.setQueue]

@[simp] theorem queueAt_updQueue (s : State) (q : Nat) (f : Queue → Queue) :
    (updQueue s q f).queueAt q = f (s.queueAt q) := by
  simp [updQueue]

@[simp] theorem queueAt_report (s : State) (r : Report) (q : Nat) : (report s r).queueAt q = s.queueAt q := rfl

@[simp] theorem queueAt_serve (s : State) (q k : Nat) : (serve s q).queueAt k = s.queueAt k := by
  unfold serve; split <;> rfl

theorem fetchCmd_of_stopped (h : (s.queueAt q).stopped = true) : fetchCmd s q = .nothing := by simp [fetchCmd, h]

/-! ### The record at HEAD -/

/-- A record in order has its effect. -/
theorem withCmd_runs (h : AtHead s q s1 c) {p : Cmd → Bool} (hp : p c = true) {errs : State → Cmd → List (Nat × Bool)}
    (he : ∀ e ∈ errs s1 c, e.2 = false) (body reads : State → Cmd → State) :
    withCmd s q p errs body reads = .next (body s1 c) := by
  obtain ⟨s0, hf, hm, rfl, hk⟩ := h
  rw [withCmd_served hf hm hk hp]
  have hn : (errs (serve s0 q) c).find? (·.2) = none := by
    rw [List.find?_eq_none]
    exact fun e hmem => by rw [he e hmem]; exact Bool.false_ne_true
  rw [hn]

/-- A record that fails a check stops its queue with the first code. -/
theorem withCmd_stops (h : AtHead s q s1 c) {p : Cmd → Bool} (hp : p c = true) {errs : State → Cmd → List (Nat × Bool)}
    {e : Nat × Bool} (he : (errs s1 c).find? (·.2) = some e) (body reads : State → Cmd → State) :
    withCmd s q p errs body reads = .next (stopQueue (reads s1 c) q e.1) := by
  obtain ⟨s0, hf, hm, rfl, hk⟩ := h
  rw [withCmd_served hf hm hk hp, he]

/-- A queue without a record does nothing. -/
theorem withCmd_nothing (h : fetchCmd s q = .nothing) (p : Cmd → Bool) (errs : State → Cmd → List (Nat × Bool))
    (body reads : State → Cmd → State) : withCmd s q p errs body reads = .next s := by
  rw [withCmd, h]

/-! ### Control flow (R99) -/

theorem exec_loop_counted_of_head (h : AtHead s q s1 c) (ho : c.op = 3) (hf : c.flags % 2 = 0)
    (hr : reservedBad c { Uses.bare with imm := 0xFFFFFFFF } = false) (hl : loopsFull (s1.queueAt q).opens = false) :
    exec (.loop_counted q) s = .next (nextRecord (setOpens s1 q
      ((if c.imm = 0 then .skipLoop else .loop ((c.d.head + 1) % 2 ^ 32) (some c.imm)) :: (s1.queueAt q).opens)) c) := by
  rw [exec_loop_counted, execLoopCounted]
  exact withCmd_runs h (by simp [opIs, ho, hf]) (by simpa using ⟨hr, hl⟩) _ _

theorem exec_loop_conditional_of_head (h : AtHead s q s1 c) (ho : c.op = 3) (hf : c.flags % 2 = 1)
    (hr : reservedBad c { Uses.cond with flags := 1 } = false) (hl : loopsFull (s1.queueAt q).opens = false)
    {s2 : State} {w : Word} (hw : condWord s1 c = some (s2, w)) :
    exec (.loop_conditional q) s = .next (nextRecord (setOpens s2 q
      ((if condHolds c w then .loop ((c.d.head + 1) % 2 ^ 32) none else .skipLoop) :: (s2.queueAt q).opens)) c) := by
  rw [exec_loop_conditional, execLoopConditional, withCmd_runs h (by simp [opIs, ho, hf]) (by simp [hr, hl, hw]), hw]

theorem exec_endloop_of_counted (h : AtHead s q s1 c) (ho : c.op = 4) (hr : reservedBad c Uses.bare = false) {body n : Nat}
    {rest : List CmdOpen} (hos : (s1.queueAt q).opens = .loop body (some n) :: rest) :
    exec (.endloop q) s = .next (if 1 < n then setHead (setOpens s1 q (.loop body (some (n - 1)) :: rest)) q body
      else nextRecord (setOpens s1 q rest) c) := by
  rw [exec_endloop, execEndloop, withCmd_runs h (by simp [opIs, ho]) (by simp [hr, hos]), hos]

theorem exec_endloop_of_conditional (h : AtHead s q s1 c) (ho : c.op = 4) (hr : reservedBad c Uses.bare = false)
    {body : Nat} {rest : List CmdOpen} (hos : (s1.queueAt q).opens = .loop body none :: rest) :
    exec (.endloop q) s = .next (setHead (setOpens s1 q rest) q (body + 2 ^ 32 - 1)) := by
  rw [exec_endloop, execEndloop, withCmd_runs h (by simp [opIs, ho]) (by simp [hr, hos]), hos]

theorem exec_cmd_if_of_head (h : AtHead s q s1 c) (ho : c.op = 5) (hr : reservedBad c Uses.cond = false)
    (hl : ifsFull (s1.queueAt q).opens = false) {s2 : State} {w : Word} (hw : condWord s1 c = some (s2, w)) :
    exec (.cmd_if q) s = .next (nextRecord (setOpens s2 q
      ((if condHolds c w then .arm false else .skipThen) :: (s2.queueAt q).opens)) c) := by
  rw [exec_cmd_if, execCmdIf, withCmd_runs h (by simp [opIs, ho]) (by simp [hr, hl, hw]), hw]

theorem exec_cmd_else_of_head (h : AtHead s q s1 c) (ho : c.op = 6) (hr : reservedBad c Uses.bare = false)
    {rest : List CmdOpen} (hos : (s1.queueAt q).opens = .arm false :: rest) :
    exec (.cmd_else q) s = .next (nextRecord (setOpens s1 q (.skipIf true :: rest)) c) := by
  rw [exec_cmd_else, execCmdElse, withCmd_runs h (by simp [opIs, ho]) (by simp [hr, hos]), hos]
  rfl

theorem exec_cmd_endif_of_head (h : AtHead s q s1 c) (ho : c.op = 7) (hr : reservedBad c Uses.bare = false) {b : Bool}
    {rest : List CmdOpen} (hos : (s1.queueAt q).opens = .arm b :: rest) :
    exec (.cmd_endif q) s = .next (nextRecord (setOpens s1 q rest) c) := by
  rw [exec_cmd_endif, execCmdEndif, withCmd_runs h (by simp [opIs, ho]) (by simp [hr, hos]), hos]
  rfl

/-! ### Waiting and signalling (R99) -/

theorem exec_waitmem_of_head (h : AtHead s q s1 c) (ho : c.op = 8)
    (hr : reservedBad c { Uses.cond with tmo := true, addr1 := true } = false) (hst : statusBad s1 c = false)
    {s2 : State} {w : Word} (hw : condWord s1 c = some (s2, w)) : exec (.waitmem q) s =
      .next (if condHolds c w then nextRecord (statusWord s2 c.status 1) c else holdCmd s2 c) := by
  rw [exec_waitmem, execWaitmem, withCmd_runs h (by simp [opIs, ho]) (by simp [hr, hst, hw]), hw]

/-- A WAITMEM whose word does not translate. -/
theorem exec_waitmem_of_unmapped (h : AtHead s q s1 c) (ho : c.op = 8)
    (hr : reservedBad c { Uses.cond with tmo := true, addr1 := true } = false) (hw : condWord s1 c = none) :
    exec (.waitmem q) s = .next (stopQueue s1 q (if tmoPassed s1 q c then 4 else 5)) := by
  rw [exec_waitmem, execWaitmem]
  cases ht : tmoPassed s1 q c
  · exact withCmd_stops (e := (5, true)) h (by simp [opIs, ho]) (by simp [hr, hw, ht]) _ _
  · exact withCmd_stops (e := (4, true)) h (by simp [opIs, ho]) (by simp [hr, hw, ht]) _ _

theorem exec_waitmem_timeout_of_held (hf : fetchCmd s q = .cmd s1 c) (ho : c.op = 8) {t : DWord}
    (hh : (s.queueAt q).heldSince = some t) (ht : c.tmo ≠ 0) (hp : c.tmo * 1000 ≤ since s.primaryTime t)
    (hk : skipping (s.queueAt q).opens = false)
    (hw : ∀ s2 w, condWord s1 c = some (s2, w) → condHolds c w = false) :
    exec (.waitmem_timeout q) s = .next (stopQueue s1 q 4) := by
  have hany : ((condWord s1 c).any fun w => condHolds c w.2) = false := by
    cases h : condWord s1 c with
    | none => rfl
    | some e => exact hw e.1 e.2 h
  simp [execWaitmemTimeout, hf, ho, tmoPassed, hh, ht, hp, hk, hany]

theorem exec_signal_of_head (h : AtHead s q s1 c) (ho : c.op = 9) (hf : c.flags % 2 = 0)
    (hr : reservedBad c signalUses = false) (hb : signalBad s1 c = false) :
    exec (.signal q) s = .next (if worksOn (s1.queueAt q) then holdCmd s1 c else fireSignal s1 c) := by
  rw [exec_signal, execSignal]
  exact withCmd_runs h (by simp [opIs, ho, hf]) (by simp [hr, hb]) _ _

theorem exec_signal_confirmed_of_head (h : AtHead s q s1 c) (ho : c.op = 9) (hf : c.flags % 2 = 1)
    (hr : reservedBad c signalUses = false) (hb : signalBad s1 c = false) (hq : queueSuspect s1 q = false) :
    exec (.signal_confirmed q) s =
      .next (if worksOn (s1.queueAt q) || !queueConfirmed s1 q then holdCmd s1 c else fireSignal s1 c) := by
  rw [exec_signal_confirmed, execSignalConfirmed]
  exact withCmd_runs h (by simp [opIs, ho, hf]) (by simp [hr, hb, hq]) _ _

theorem exec_fence_cmd_of_head (h : AtHead s q s1 c) (ho : c.op = 16) (hr : reservedBad c Uses.bare = false) :
    exec (.fence_cmd q) s = .next (if (s1.queueAt q).running.isEmpty then nextRecord s1 c else holdCmd s1 c) := by
  rw [exec_fence_cmd, execFenceCmd]
  exact withCmd_runs h (by simp [opIs, ho]) (by simp [hr]) _ _

theorem exec_undefined_command_of_head (h : AtHead s q s1 c) (ho : c.op = 0 ∨ 0x10 < c.op) :
    exec (.undefined_command q) s = .next (stopQueue s1 q 1) := by
  obtain ⟨s0, hf, hm, rfl, hk⟩ := h
  have hn : ¬(1 ≤ c.op ∧ c.op ≤ 0x10 ∨ (!mayServe s q) = true) := by simp [hm]; omega
  simp only [exec_undefined_command, execUndefinedCommand, hf, if_neg hn, hk, Bool.false_eq_true, if_false]

/-- The six comparisons (R98). -/
theorem condHolds_iff (c : Cmd) (w : Word) :
    let x := w &&& BitVec.ofNat 32 (c.fld 192 32)
    let y := BitVec.ofNat 32 c.imm
    (c.fld 8 8 = 0 → (condHolds c w = true ↔ x = y)) ∧ (c.fld 8 8 = 1 → (condHolds c w = true ↔ x ≠ y)) ∧
    (c.fld 8 8 = 2 → (condHolds c w = true ↔ x.toNat < y.toNat)) ∧
    (c.fld 8 8 = 3 → (condHolds c w = true ↔ y.toNat ≤ x.toNat)) ∧
    (c.fld 8 8 = 4 → (condHolds c w = true ↔ x.toInt < y.toInt)) ∧
    (c.fld 8 8 = 5 → (condHolds c w = true ↔ y.toInt ≤ x.toInt)) := by
  refine ⟨fun h => ?_, fun h => ?_, fun h => ?_, fun h => ?_, fun h => ?_, fun h => ?_⟩ <;>
    simp only [condHolds, h, beq_iff_eq, bne_iff_ne, decide_eq_true_iff, ge_iff_le]

/-! ### Which queue is served (R96) -/

theorem queuePri_lt (s : State) (q : Nat) : queuePri s q < 4 := Nat.mod_lt _ (by decide)

/-- The queues of a command processor, in the order of a rotation. -/
theorem mem_rotation (q r : Nat) : q ∈ (List.range 32).map fun k => 32 * processorOf q + (r + k) % 32 := by
  rw [List.mem_map]
  refine ⟨(q + 32 - r % 32) % 32, List.mem_range.mpr (Nat.mod_lt _ (by decide)), ?_⟩
  unfold processorOf
  omega

/-- A queue that may start is not behind the one that is served. -/
theorem queuePri_le_of_served {cp q q' : Nat} (hs : servedQueue s cp = some q) (hq : mayStart s q' = true)
    (hp : processorOf q' = cp) : queuePri s q' ≤ queuePri s q := by
  subst hp
  have hfound (p : Nat) (hpq : queuePri s q' = p) :
      (((List.range 32).map fun k => 32 * processorOf q' + (get 0 s.rota (4 * processorOf q' + p) + k) % 32).find? fun q =>
        queuePri s q == p && mayStart s q) ≠ none := by
    rw [Ne, List.find?_eq_none, not_forall]
    refine ⟨q', ?_⟩
    rw [not_forall]
    exact ⟨mem_rotation q' _, by simp [hpq, hq]⟩
  have hpri (p : Nat) {x : Nat} (hx : (((List.range 32).map fun k =>
      32 * processorOf q' + (get 0 s.rota (4 * processorOf q' + p) + k) % 32).find? fun q =>
        queuePri s q == p && mayStart s q) = some x) : queuePri s x = p := by
    have := List.find?_some hx
    simp only [Bool.and_eq_true, beq_iff_eq] at this
    exact this.1
  have h4 := queuePri_lt s q'
  unfold servedQueue at hs
  by_contra hlt
  rw [List.findSome?_eq_some_iff] at hs
  obtain ⟨ps, p, ps', hl, hx, hno⟩ := hs
  have hp := hpri p hx
  rw [hp] at hlt
  refine hfound _ rfl (hno _ ?_)
  have hmem : ∀ x, x < 4 → p < x → x ∈ ps := by
    rcases ps with _ | ⟨a, _ | ⟨b, _ | ⟨c, _ | ⟨d, l⟩⟩⟩⟩ <;> simp at hl <;> simp <;> omega
  exact hmem _ h4 (by omega)

end Sys2Proof.Machine

namespace Sys2Proof

open Machine Machine.Assoc Machine.Bits Claims

/-- Settles O46: each command's record passes its checks and has its effect. -/
theorem queueFlow : Obligations.QueueFlow := by
  unfold Obligations.QueueFlow
  refine ⟨fun q s s1 c h => ⟨exec_loop_counted_of_head h, fun ho hf hr hl _ _ => exec_loop_conditional_of_head h ho hf hr hl,
    fun ho hr _ _ _ => exec_endloop_of_counted h ho hr, fun ho hr _ _ => exec_endloop_of_conditional h ho hr,
    fun ho hr hl _ _ => exec_cmd_if_of_head h ho hr hl, fun ho hr _ => exec_cmd_else_of_head h ho hr,
    fun ho hr _ _ => exec_cmd_endif_of_head h ho hr, fun ho hr hst _ _ => exec_waitmem_of_head h ho hr hst,
    exec_waitmem_of_unmapped h, exec_signal_of_head h, exec_signal_confirmed_of_head h, exec_fence_cmd_of_head h,
    exec_undefined_command_of_head h⟩, fun _ _ _ _ _ hf ho hh ht hp hk => exec_waitmem_timeout_of_held hf ho hh ht hp hk,
    condHolds_iff⟩

/-- Settles O47: what `withCmd` does with a record that is not there, not served or not in order; of the served queue, by
the search through the rotations of falling PRI. -/
theorem queueStops : Obligations.QueueStops := by
  unfold Obligations.QueueStops
  refine ⟨fun q s h => ?_, fun q code s h hm => ?_, fun q s s1 c h hm => ?_, fun q q' s hh hm hs hq => ?_,
    fun q s hh => ?_, fun q s s1 c h ho hf => ?_, fun s q code => ?_, fun q tail s ht hq => ?_⟩
  · rw [exec_loop_counted, exec_signal, exec_undefined_command, exec_fence_cmd, exec_launch, execLoopCounted, execSignal,
      execUndefinedCommand, execFenceCmd, execLaunch, h]
    exact ⟨withCmd_nothing h .., withCmd_nothing h .., rfl, withCmd_nothing h .., withCmd_nothing h ..⟩
  · rw [exec_undefined_command, execUndefinedCommand, h]
    simp only [hm, if_true]
  · rw [exec_loop_counted, exec_signal, exec_undefined_command, exec_fence_cmd, exec_launch, execLoopCounted, execSignal,
      execUndefinedCommand, execFenceCmd, execLaunch, h]
    exact ⟨withCmd_unserved h hm .., withCmd_unserved h hm .., by simp [hm], withCmd_unserved h hm ..,
      withCmd_unserved h hm ..⟩
  · simp only [mayServe, hh, Option.isSome_none, Bool.false_or, beq_iff_eq] at hm
    exact queuePri_le_of_served hm hs hq
  · simp [serve, hh, processorOf]
  · rw [exec_loop_counted, execLoopCounted]
    refine ⟨fun hr => ?_, fun hr hl => ?_⟩
    · exact withCmd_stops (e := (2, true)) h (by simp [opIs, ho, hf]) (by rw [hr]; rfl) _ _
    · exact withCmd_stops (e := (3, true)) h (by simp [opIs, ho, hf]) (by rw [hr, hl]; rfl) _ _
  · have hst : ((stopQueue s q code).queueAt q).stopped = true := by
      rw [stopQueue, queueAt_report, queueAt_updQueue]
    exact ⟨hst, fetchCmd_of_stopped hst⟩
  · refine ⟨?_, ?_⟩
    · rw [exec_queue_tail_write, execQueueTailWrite, if_neg]
      rintro (h | h)
      · exact ht h
      · omega
    · unfold restartQueue
      split
      · rw [queueAt_updQueue]
      next h => exact Bool.eq_false_iff.mpr h

end Sys2Proof

/-! Commands that start something (R99 to R102, R111 to R113, R159, R308, R457). -/

namespace Sys2Proof.Machine

open Assoc Bits Claims

variable {q : Nat} {s s1 s2 : State} {c : Cmd}

/-! ### LAUNCH and LAUNCHI -/

/-- A launch command in order, with all that it reads. -/
theorem exec_launches_of_head (h : AtHead s q s1 c) : ∀ f ∈ [((Instr.launch : Nat → Instr), false), (Instr.launchi, true)],
    c.op = (if f.2 then 2 else 1) → (∀ e ∈ launchErrs f.2 s1 c, e.2 = false) →
    exec (f.1 q) s = .next (launchCmd s1 c f.2) := by
  simp only [List.forall_mem_cons, List.not_mem_nil, false_implies, implies_true, and_true]
  refine ⟨fun ho he => ?_, fun ho he => ?_⟩
  · rw [exec_launch, execLaunch]
    exact withCmd_runs h (by simpa [opIs] using ho) he _ _
  · rw [exec_launchi, execLaunchi]
    exact withCmd_runs h (by simpa [opIs] using ho) he _ _

theorem launchCmd_of_read {counted : Bool} {r : LaunchRead} (hr : readLaunch s1 c counted = (s2, some r)) :
    launchCmd s1 c counted = match refusedFor s2 r.bytes (judged s2 c r) c.d.privq c.addr0 r.save with
      | some n => endCmd s2 c (0x100 + n)
      | none => if isRestore c r then restoreLaunch s2 c r.hdr
        else startLaunch (giveUpSaved s2 c r.hdr.save) c (newLaunch (giveUpSaved s2 c r.hdr.save) c r.hdr) := by
  simp only [launchCmd, hr] <;> rfl

/-! ### The other commands -/

theorem exec_sfalloc_of_head (h : AtHead s q s1 c) (ho : c.op = 10) (hn : allocOn (s.queueAt q) = none)
    (hr : reservedBad c ⟨false, false, false, true, true, 0xFFF, 0⟩ = false) (hst : statusBad s1 c = false)
    (hp : c.d.privq = true) {base : Nat} {bs : List Byte} (hi : readImage s1 c = some (s2, bs)) (hb : sfteBad bs = false) :
    exec (.sfalloc q base) s = .next (match allocAct s2 (allocOf c bs) base with
      | .done t => nextRecord t c
      | .waits t r => runCmd t c (.alloc r)) := by
  have hbad : sfallocBad c = false := hr
  rw [exec_sfalloc, execSfalloc, hn]
  dsimp only
  refine (withCmd_runs h (by simp [opIs, ho]) (by simp [hbad, hi, hb, hst, hp]) _ _).trans ?_
  simp only [hi] <;> rfl

theorem exec_sffree_of_head (h : AtHead s q s1 c) (ho : c.op = 11) (hn : freeOn s (s.queueAt q) = none)
    (hr : reservedBad c ⟨false, false, false, false, true, 0xFFF, 0⟩ = false) (hst : statusBad s1 c = false)
    (hp : c.d.privq = true) : exec (.sffree q) s = .next (
      if (s1.handle? c.d.ctx c.imm).isNone then endCmd s1 c 2
      else if mayFree s1 (c.d.ctx * 4096 + c.imm) then endCmd (freeHandle s1 (c.d.ctx * 4096 + c.imm)) c 1
      else runCmd s1 c (.free c.d.ctx c.imm c.status)) := by
  rw [exec_sffree, execSffree, hn]
  dsimp only
  rw [sffreeHead, withCmd_runs h (by simp [opIs, ho]) (by simpa [hst, hp] using hr)]

theorem exec_copy_of_head (h : AtHead s q s1 c) (ho : c.op = 12)
    (hr : reservedBad c ⟨false, false, false, true, true, 0x7F, 0⟩ = false) (hi : c.imm < 96 ∨ 127 ≤ c.imm)
    (hst : statusBad s1 c = false) {bs : List Byte} {e : Nat} (hc : readCopy s1 c = some (s2, bs))
    (he : leastBusy s2 (copyEngines s2 c.imm) = some e) (hb : cdBad bs = false) :
    exec (.copy q) s = .next (if 64 ≤ queuedOn s2 e then holdCmd s1 c
      else runCmd ({ s2 with nextId := s2.nextId + 1 }.setOp s2.nextId
        (copyOp { s2 with nextId := s2.nextId + 1 } c bs e)) c (.op s2.nextId)) := by
  have hi' : ¬(96 ≤ c.imm ∧ c.imm < 127) := by omega
  rw [exec_copy, execCopy, withCmd_runs h (by simp [opIs, ho]) (by simpa [hc, hst] using ⟨hr, by omega⟩), hc]
  simp only [he, hb] <;>
  rfl

theorem exec_vfset_of_head (h : AtHead s q s1 c) (ho : c.op = 14)
    (hr : reservedBad c ⟨false, false, false, false, true, 0x03FF000F, 0⟩ = false) (hst : statusBad s1 c = false)
    (hp : c.d.privq = true) : exec (.vfset q) s = .next (
      if c.imm % 16 = 0 ∨ c.imm / 65536 < 350 ∨ 840 < c.imm / 65536 ∨ c.imm / 65536 % 5 ≠ 0 then endCmd s1 c 4
      else
        let s2 := ((List.range 4).filter fun d => c.imm % 16 / 2 ^ d % 2 == 1).foldl (askFrequency s1.nextId (c.imm / 65536))
          { s1 with nextId := s1.nextId + 1 }
        if vfPending s2 s1.nextId then runCmd (statusWord s2 c.status 1) c (.vf s1.nextId c.status false)
        else endCmd s2 c 2) := by
  rw [exec_vfset, execVfset]
  exact withCmd_runs h (by simp [opIs, ho]) (by simpa [hst, hp] using hr) _ _

theorem exec_cpgate_ungate_of_head (h : AtHead s q s1 c) (ho : c.op = 15) (he : ∀ e ∈ gateErrs s1 c, e.2 = false)
    (hr : gateRefused s1 c = false) (hi : c.imm / 65536 % 2 = 0) :
    exec (.cpgate_ungate q) s = .next (endCmd (wakeCore s1 (c.imm % 1024)) c 4) := by
  rw [exec_cpgate_ungate, execCpgateUngate, withCmd_runs h (by simp [opIs, ho, hi]) he]
  simp only [hr, Bool.false_eq_true, if_false, gateCore]

theorem exec_cpgate_gate_of_head (h : AtHead s q s1 c) (ho : c.op = 15) (he : ∀ e ∈ gateErrs s1 c, e.2 = false)
    (hr : gateRefused s1 c = false) (hi : c.imm / 65536 % 2 = 1) :
    let s2 := dropRef s1 (.gate (c.imm % 1024))
    let k := s2.coreAt (c.imm % 1024)
    exec (.cpgate_gate q) s = .next (if k.gated then
        endCmd (s2.setCore (c.imm % 1024) { k with gateReq := some c.status, gateStat := 3 }) c 3
      else settleGate (runCmd (s2.setCore (c.imm % 1024) { k with gateReq := some c.status, gateStat := 0 }) c
        (.gate (c.imm % 1024))) (c.imm % 1024)) := by
  rw [exec_cpgate_gate, execCpgateGate]
  refine (withCmd_runs h (by simp [opIs, ho, hi]) he _ _).trans ?_
  rw [hr, if_neg Bool.false_ne_true]
  rfl

theorem exec_preempt_of_head (h : AtHead s q s1 c) (ho : c.op = 13) (hn : finishedOn s q = none)
    (hr : reservedBad c ⟨false, false, false, true, true, 0, 0⟩ = false) (hst : statusBad s1 c = false)
    (ha : c.addr0.toNat % 256 = 0) (hc : (ctxRead s1 c.ag c.addr0 256).isNone = false) :
    exec (.preempt q) s = .next (match runningLaunch s1 c with
      | none => endCmd s1 c 5
      | some (lid, l) =>
        if l.phase = .preempting then holdCmd s1 c
        else runCmd (statusWord (s1.setLaunch lid { l with
          phase := .preempting, preempt := some ⟨c.status, s1.primaryTime, [], [], []⟩ }) c.status 1) c (.preempt lid)) := by
  rw [exec_preempt, execPreempt, hn]
  exact withCmd_runs h (by simp [opIs, ho]) (by simpa [hst, ha, hc] using hr) _ _

end Sys2Proof.Machine

namespace Sys2Proof

open Machine Machine.Assoc Machine.Bits Claims

/-- Settles O48: each command's record passes its checks, and its effect is taken apart by what it finds. -/
theorem queueCommands : Obligations.QueueCommands := by
  intro q s s1 c h
  refine ⟨fun f hf ho he s2 r hr => ?_, fun ho hn hr hst hp base _ _ hi hb => exec_sfalloc_of_head h ho hn hr hst hp hi hb,
    fun ho hn hr hst hp => ?_, fun ho hr hi hst _ _ _ hc he hb => exec_copy_of_head h ho hr hi hst hc he hb,
    ?_, fun ho hr hst hp => ?_, fun ho he hr => ⟨exec_cpgate_ungate_of_head h ho he hr, exec_cpgate_gate_of_head h ho he hr⟩⟩
  · rw [exec_launches_of_head h f hf ho he, launchCmd_of_read hr]
    refine ⟨fun n hn => by rw [hn], fun hn hr => ?_, fun hn hr => ?_⟩
    · rw [hn]; simp only [hr, Bool.false_eq_true, if_false]
    · rw [hn]; simp only [hr, if_true]
  · rw [exec_sffree_of_head h ho hn hr hst hp]
    exact ⟨fun hh => by rw [if_pos hh], fun hh hm => by rw [if_neg (by simp [hh]), if_pos hm]⟩
  · intro ho hn hr hst ha hc
    rw [exec_preempt_of_head h ho hn hr hst ha hc]
    refine ⟨fun hl => ?_, fun lid l hl hp => ?_, fun lid l hl hp => ?_⟩ <;> simp only [hl]
    · rw [if_neg (by rw [hp]; decide)]
    · rw [if_pos hp]
  · rw [exec_vfset_of_head h ho hr hst hp]
    exact ⟨fun hc => by rw [if_pos hc], fun h0 h1 h2 h3 => by rw [if_neg (by omega)]⟩

end Sys2Proof

/-! Registers that have a step of their own (R94, R109, R156, R226, R336, R371). -/

namespace Sys2Proof.Machine.Assoc

variable {α : Type}

/-- A default store whose values were changed by a function that keeps the default. -/
theorem get_map {d : α} (m : Map α) {f : α → α} (hd : f d = d) (k : Nat) :
    get d (m.map fun e => (e.1, f e.2)) k = f (get d m k) := by
  induction m with
  | nil => exact hd.symm
  | cons e m ih =>
    obtain ⟨k', v⟩ := e
    have hl : get d (((k', v) :: m).map fun e => (e.1, f e.2)) k =
        if k' = k then f v else get d (m.map fun e => (e.1, f e.2)) k := rfl
    have hr : get d ((k', v) :: m) k = if k' = k then v else get d m k := rfl
    rw [hl, hr, ih, apply_ite f]

end Sys2Proof.Machine.Assoc

namespace Sys2Proof.Machine

open Assoc Bits Claims

variable {s : State} {g : Group}

/-! ### The LLC's size (R25) -/

theorem writeSmcfg_reserved {stack : Nat} {v : Word} (hv : 4 < fieldNat v 0 3) :
    writeSmcfg s stack v = s.setStack stack { s.stackAt stack with refused := true } := by
  have hn : 4 < (field v 0 3).toNat := hv
  simp [writeSmcfg, hn]

theorem writeSmcfg_resizes {stack : Nat} {v : Word} (hb : (s.stackAt stack).busy = false) (hv : fieldNat v 0 3 ≤ 4)
    (hne : v.setWidth 3 ≠ (s.stackAt stack).llcsz) : writeSmcfg s stack v =
      clearLlcRows (s.setStack stack { s.stackAt stack with
        refused := (s.stackAt stack).refused && !bit v 9, busy := true, target := v.setWidth 3 }) stack := by
  have hn : ¬4 < v.toNat % 8 := by simpa [fieldNat] using hv
  simp [writeSmcfg, field_zero, hn, hb, hne]

/-! ### Invalidations of TLBs (R156) -/

theorem clusterAt_tlbinvClear (s : State) (k : Nat) : (tlbinvClear s).clusterAt k =
    { s.clusterAt k with tlb := (s.clusterAt k).tlb.filter fun x => !tlbinvHits s.ctl x } :=
  get_map s.clusters (f := fun c => { c with tlb := c.tlb.filter fun x => !tlbinvHits s.ctl x }) rfl k

theorem coreAt_tlbinvClear (s : State) (k : Nat) : (tlbinvClear s).coreAt k =
    { s.coreAt k with tlb := (s.coreAt k).tlb.filter fun x => !tlbinvHits s.ctl x } :=
  get_map s.cores (f := fun c => { c with tlb := c.tlb.filter fun x => !tlbinvHits s.ctl x }) rfl k

theorem not_mem_tlbinvClear {e : TlbEntry} (he : tlbinvHits s.ctl e = true) (k : Nat) :
    e ∉ ((tlbinvClear s).clusterAt k).tlb ∧ e ∉ ((tlbinvClear s).coreAt k).tlb := by
  rw [clusterAt_tlbinvClear, coreAt_tlbinvClear]
  simp [List.mem_filter, he]

theorem writeTlbinvHi_of_done (v : DWord) (h : s.ctl.tlbinvDone = true) : writeTlbinvHi s.ctl v = { s.ctl with
    tlbinvCount := v.extractLsb' 0 32, tlbinvErr := decide (4096 ≤ fieldNat s.ctl.tlbinvLo 0 16),
    tlbinvDone := decide (4096 ≤ fieldNat s.ctl.tlbinvLo 0 16) } := by
  have hlo : lo32 v = v.extractLsb' 0 32 := by apply BitVec.eq_of_toNat_eq; simp [lo32]
  simp [writeTlbinvHi, h, hlo]

/-! ### Writes by the group that executes -/

theorem byCurrent_of_scanning (hg : s.group? s.cur = some g) (hs : (s.coreAt g.core).scanning = true)
    (f : Nat → Group → State) : byCurrent s f = .next s := by
  simp [byCurrent, hg, hs]

theorem byCurrent_of_not_scanning (hg : s.group? s.cur = some g) (hs : (s.coreAt g.core).scanning = false)
    (f : Nat → Group → State) : byCurrent s f = .next (f s.cur g) := by
  simp [byCurrent, hg, hs]

theorem sysWrite_mtcap (s : State) (gid : Nat) (g : Group) (v : Word) : sysWrite s gid g true 0x60 v =
    s.setCluster (clusterOfCore g.core) (writeMtcap (s.clusterAt (clusterOfCore g.core)) v) := rfl

theorem sysWrite_ldtmo (s : State) (gid : Nat) (g : Group) (priv : Bool) (v : Word) : sysWrite s gid g priv 0x12 v =
    if priv then s.setCore g.core { s.coreAt g.core with ldtmo := v.setWidth 16 } else s := by
  rw [← field_zero]; rfl

theorem writeMtcap_balance (k : Cluster) (v : Word) :
    (writeMtcap k v).mtbal.toNat = min k.mtbal.toNat (max 1 (v.setWidth 20).toNat) := by
  have hlt := k.mtbal.isLt
  simp only [writeMtcap, field_zero, tokenCap, BitVec.toNat_ofNat]
  exact Nat.mod_eq_of_lt (by omega)

/-! ### Reads of a pit log (R336) -/

/-- The words of an entry of a pit log that are read back. -/
theorem pitWord_words (e : PitEntry) : pitWord e / 2 ^ 192 % 2 ^ 64 = e.time.toNat ∧
    (e.secure = true → pitWord e % 2 ^ 64 = 0 ∧ pitWord e / 2 ^ 64 % 2 ^ 64 = 0) ∧
    (e.secure = false → pitWord e % 2 ^ 64 = e.detail1.toNat ∧ pitWord e / 2 ^ 64 % 2 ^ 64 = e.detail0.toNat) := by
  have ht := e.time.isLt
  have h0 := e.detail0.isLt
  have h1 := e.detail1.isLt
  have hk : e.kind % 2 ^ 8 < 2 ^ 8 := Nat.mod_lt _ (by decide)
  have hc : e.code % 2 ^ 8 < 2 ^ 8 := Nat.mod_lt _ (by decide)
  have ho : e.core % 2 ^ 10 < 2 ^ 10 := Nat.mod_lt _ (by decide)
  have hs : e.slot % 2 ^ 7 < 2 ^ 7 := Nat.mod_lt _ (by decide)
  unfold pitWord
  generalize e.kind % 2 ^ 8 = k at *
  generalize e.code % 2 ^ 8 = c at *
  generalize e.core % 2 ^ 10 = o at *
  generalize e.slot % 2 ^ 7 = sl at *
  cases e.secure <;> simp only [Bool.false_eq_true, if_false, if_true, true_implies, false_implies, and_true,
    true_and, reduceCtorEq] <;> omega

/-- A word at an offset of the log of a die. -/
theorem readControl_pit {die i w : Nat} {e : PitEntry} (hd : die < 4) (hi : i < 4096) (hw : w < 4)
    (he : find (s.dieAt die).pit.entries i = some e) :
    readControl s 0 (0x10000 + 0x20000 * die + 32 * i + 8 * w) = some (pitWord e / 2 ^ (64 * w) % 2 ^ 64) := by
  have hoff : pitOffset (0x10000 + 0x20000 * die + 32 * i + 8 * w) = true := by
    simp only [pitOffset, Bool.or_eq_true, decide_eq_true_eq]; omega
  have h40 : ¬0x10000 + 0x20000 * die + 32 * i + 8 * w = 0x40 := by omega
  have hrange : 0x10000 ≤ 0x10000 + 0x20000 * die + 32 * i + 8 * w ∧ 0x10000 + 0x20000 * die + 32 * i + 8 * w < 0x90000 := by
    omega
  have hdie : (0x10000 + 0x20000 * die + 32 * i + 8 * w - 0x10000) / 0x20000 = die := by omega
  have hent : (0x10000 + 0x20000 * die + 32 * i + 8 * w - 0x10000) % 0x20000 / 32 = i := by omega
  have hbit : 8 * ((0x10000 + 0x20000 * die + 32 * i + 8 * w) % 32) = 64 * w := by omega
  rw [readControl, hoff]
  simp only [beq_self_eq_true, Bool.and_self, Bool.not_true, Bool.and_false, Bool.false_eq_true, if_false]
  unfold controlWord
  rw [if_neg h40, if_neg (not_not.mpr rfl), if_pos hrange, hdie, hent, he, hbit]

end Sys2Proof.Machine

namespace Sys2Proof

open Machine Machine.Assoc Machine.Bits Claims

/-- Settles O49: the writes by the equations of their registers; the words of a log by the places of their fields. -/
theorem registerSteps : Obligations.RegisterSteps := by
  unfold Obligations.RegisterSteps
  refine ⟨fun stack v s hs hb => ⟨fun hv => ?_, fun hv hne => ?_⟩, fun v s hd => ?_, fun s hq => ?_,
    fun s k e he => not_mem_tlbinvClear he k, fun die v s hd hv => ?_, fun v s g hg hs => ?_,
    fun n off size v s g hg hs => ?_, fun v s g hg hs => ⟨?_, ?_, ?_, fun hp => ?_, fun hp => ?_, fun hp => ?_⟩,
    fun gid num x s g hg => ?_, fun core num x s hc hn => ?_, fun k v => ⟨field_zero v, writeMtcap_balance k v⟩,
    fun block off x s => rfl, fun v s => ⟨rfl, rfl, rfl⟩, fun n off size v s s' g hg hst hs hcb => ?_,
    fun s die i e hd hi he => ?_, fun s block off hr hb => ?_⟩
  · rw [exec_llcsz_write, execLlcszWrite, if_pos hs, writeSmcfg_reserved hv]
  · rw [exec_llcsz_write, execLlcszWrite, if_pos hs, writeSmcfg_resizes hb hv hne]
  · rw [exec_tlbinv_write, execTlbinvWrite, writeTlbinvHi_of_done v hd]
  · rw [exec_tlbinv_done, execTlbinvDone]
    dsimp only
    rw [if_pos]
    rw [List.all_eq_true]
    intro e he
    by_cases hc : e.2.ctx = fieldNat s.ctl.tlbinvLo 0 16
    · simp [hq e he hc]
    · simp [hc]
  · rw [exec_frozen_clear, execFrozenClear, writePithead, if_neg]
    simp [hv, Config.numDies, hd]
  · simp only [List.forall_mem_cons, List.not_mem_nil, false_implies, implies_true, and_true]
    rw [exec_evpend_write, exec_tstat_write, exec_fstr_write, exec_mtcap_write, exec_ldtmo_write]
    refine ⟨?_, byCurrent_of_scanning hg hs _, byCurrent_of_scanning hg hs _, byCurrent_of_scanning hg hs _,
      byCurrent_of_scanning hg hs _⟩
    simp [execEvpendWrite, hg, hs]
  · simp [execCbDescriptorWrite, hg, hs]
  · simp [execEvpendWrite, hg, hs, clearPending, field_zero]
  · rw [exec_tstat_write, execTstatWrite, byCurrent_of_not_scanning hg hs, writeTstat]
  · rw [exec_fstr_write, execFstrWrite, byCurrent_of_not_scanning hg hs, writeFstr, field_zero]
  · rw [exec_mtcap_write, execMtcapWrite, byCurrent_of_not_scanning hg hs, hp, sysWrite_mtcap]
  · rw [exec_ldtmo_write, execLdtmoWrite, byCurrent_of_not_scanning hg hs, hp, sysWrite_ldtmo, if_neg Bool.false_ne_true]
  · rw [exec_ldtmo_write, execLdtmoWrite, byCurrent_of_not_scanning hg hs, hp, sysWrite_ldtmo, if_pos rfl]
  · simp only [exec_register_write, execRegisterWrite, hg]
    rfl
  · simp only [exec_register_write, execRegisterWrite, hn, Config.numCores, hc, decide_true, Bool.and_self, if_true]
    rfl
  · simp [execCbDescriptorWrite, hg, hst, hs, hcb]
  · obtain ⟨ht, hsec, hopen⟩ := pitWord_words e
    have h0 := readControl_pit hd hi (w := 0) (by decide) he
    have h1 := readControl_pit hd hi (w := 1) (by decide) he
    have h3 := readControl_pit hd hi (w := 3) (by decide) he
    simp only [Nat.mul_zero, Nat.pow_zero, Nat.div_one, Nat.add_zero] at h0
    refine ⟨fun h => ?_, fun h => ?_, h3.trans (congrArg some ht)⟩
    · exact ⟨h0.trans (congrArg some (hsec h).1), h1.trans (congrArg some (hsec h).2)⟩
    · exact ⟨h0.trans (congrArg some (hopen h).1), h1.trans (congrArg some (hopen h).2)⟩
  · rw [readControl, hr, if_pos]
    rcases hb with hb | hb <;> simp [hb]

end Sys2Proof

/-! The package as a whole: quote, reset, fabric, fatal error (R9, R15, R314, R334, R335, R338). -/

namespace Sys2Proof.Machine.Bits

theorem natOfBytes_bytesOfNat (n v : Nat) : natOfBytes (bytesOfNat n v) = v % 256 ^ n := by
  induction n generalizing v with
  | zero => simp [bytesOfNat, natOfBytes, Nat.mod_one]
  | succ n ih =>
    have h : v % 256 ^ (n + 1) = v % 256 + 256 * (v / 256 % 256 ^ n) := by rw [Nat.pow_succ' (n := n), Nat.mod_mul]
    rw [bytesOfNat, natOfBytes, ih, h]
    rfl

end Sys2Proof.Machine.Bits

namespace Sys2Proof.Machine.Crypto

open Bits

/-! ### Lengths -/

theorem length_startHash : startHash.length = 8 := by
  have h : 8 ≤ primes.length := by decide +kernel
  rw [startHash, List.length_map, List.length_take]
  omega

theorem length_round {h : List (BitVec 64)} (kw : BitVec 64) (hl : h.length = 8) : (round h kw).length = 8 := by
  unfold round
  split
  · rfl
  · exact hl

theorem length_foldl_round (ks : List (BitVec 64)) {h : List (BitVec 64)} (hl : h.length = 8) :
    (ks.foldl round h).length = 8 := by
  induction ks generalizing h with
  | nil => exact hl
  | cons k ks ih => exact ih (length_round k hl)

theorem length_block {h : List (BitVec 64)} (bs : List Byte) (hl : h.length = 8) : (block h bs).length = 8 := by
  simp only [block, List.length_zipWith, length_foldl_round _ hl, hl, Nat.min_self]

theorem length_hash (f : Nat → List Byte) (is : List Nat) {h : List (BitVec 64)} (hl : h.length = 8) :
    (is.foldl (fun h i => block h (f i)) h).length = 8 := by
  induction is generalizing h with
  | nil => exact hl
  | cons i is ih => exact ih (length_block _ hl)

/-- A digest is 64 bytes. -/
theorem length_sha512 (m : List Byte) : (sha512 m).length = 64 := by
  have h := length_hash (fun i => ((padded m).drop (128 * i)).take 128) (List.range ((padded m).length / 128))
    length_startHash
  simp only [sha512, List.length_flatMap, List.length_reverse, length_bytesOfNat, List.map_const', List.sum_replicate, h]
  rfl

/-- A signature is 64 bytes. -/
theorem length_sign (seed m : List Byte) : (sign seed m).length = 64 := by
  simp [sign, encodePoint]

end Sys2Proof.Machine.Crypto

namespace Sys2Proof.Machine

open Assoc Bits Claims

/-! ### Dies -/

@[simp] theorem dieAt_setDie_same (s : State) (d : Nat) (x : Die) : (s.setDie d x).dieAt d = x := by
  simp [State.dieAt, State.setDie]

theorem dieAt_setDie_other (s : State) {d k : Nat} (x : Die) (h : k ≠ d) : (s.setDie d x).dieAt k = s.dieAt k := by
  simp [State.dieAt, State.setDie, get_put_other _ _ _ h]

/-- Dies changed one after another, each once. -/
theorem dieAt_foldl_setDie (f : Nat → Die → Die) {ds : List Nat} (hn : ds.Nodup) (s : State) (k : Nat) :
    (ds.foldl (fun s d => s.setDie d (f d (s.dieAt d))) s).dieAt k = if k ∈ ds then f k (s.dieAt k) else s.dieAt k := by
  induction ds generalizing s with
  | nil => simp
  | cons d ds ih =>
    obtain ⟨hd, hn⟩ := List.nodup_cons.mp hn
    rw [List.foldl_cons, ih hn]
    by_cases hk : k = d
    · subst hk; simp [hd]
    · simp [hk, dieAt_setDie_other s _ hk]

theorem foldl_setDie_frame (f : State → Nat → Die) (ds : List Nat) (s : State) :
    ∃ x, ds.foldl (fun s d => s.setDie d (f s d)) s = { s with dies := x } := by
  induction ds generalizing s with
  | nil => exact ⟨s.dies, rfl⟩
  | cons d ds ih =>
    obtain ⟨x, h⟩ := ih (s.setDie d (f s d))
    exact ⟨x, h⟩

/-! ### The quote (R335) -/

theorem length_nonceBytes (nonce : BitVec 256) : (nonceBytes nonce).length = 32 := length_bytesOfNat ..

theorem quoteBody_eq (s : State) (nonce : BitVec 256) : quoteBody s nonce = nonceBytes nonce ++
    (Crypto.sha512 (s.images.getD 0 []) ++ (Crypto.sha512 (s.images.getD 1 []) ++ (Crypto.sha512 (s.images.getD 2 []) ++
      Crypto.sha512 (Config.assignmentBytes s.secRegions s.secEngines s.secChannels)))) := by
  simp [quoteBody, List.range_succ]

theorem length_quoteBody (s : State) (nonce : BitVec 256) : (quoteBody s nonce).length = 288 := by
  simp [quoteBody_eq, length_nonceBytes, Crypto.length_sha512]

/-- Parts of 64 bytes behind one of 32. -/
theorem take_drop_parts {n a b c r : List Byte} (hn : n.length = 32) (ha : a.length = 64) (hb : b.length = 64)
    (hc : c.length = 64) : ((n ++ (a ++ (b ++ (c ++ r)))).drop 32).take 64 = a ∧
    ((n ++ (a ++ (b ++ (c ++ r)))).drop (32 + 64)).take 64 = b ∧
    ((n ++ (a ++ (b ++ (c ++ r)))).drop (32 + 128)).take 64 = c := by
  refine ⟨?_, ?_, ?_⟩ <;> simp [List.drop_append, hn, ha, hb, hc, List.drop_of_length_le]

/-- The digest of image k stands behind the nonce and k digests. -/
theorem quote_digest (s : State) (nonce : BitVec 256) (sig : List Byte) : ∀ k < 3,
    ((quoteBody s nonce ++ sig).drop (32 + 64 * k)).take 64 = Crypto.sha512 (s.images.getD k []) := by
  intro k hk
  rw [quoteBody_eq, List.append_assoc, List.append_assoc, List.append_assoc, List.append_assoc]
  obtain ⟨h0, h1, h2⟩ := take_drop_parts (length_nonceBytes nonce) (Crypto.length_sha512 (s.images.getD 0 []))
    (Crypto.length_sha512 (s.images.getD 1 [])) (Crypto.length_sha512 (s.images.getD 2 []))
    (r := Crypto.sha512 (Config.assignmentBytes s.secRegions s.secEngines s.secChannels) ++ sig)
  match k, hk with
  | 0, _ => exact h0
  | 1, _ => exact h1
  | 2, _ => exact h2

/-! ### Another package is fenced (R208) -/

/-- Lanes of groups that get an entry: groups alone change. -/
theorem foldl_returnTo_frame {α : Type} (gid : Nat) (f : State → α → RetEntry) (l : α → Nat) (as : List α) (s : State) :
    ∃ x, as.foldl (fun s a => returnTo s gid (l a) (f s a)) s = { s with groups := x } := by
  induction as generalizing s with
  | nil => exact ⟨s.groups, rfl⟩
  | cons a as ih =>
    obtain ⟨x, h⟩ := ih (returnTo s gid (l a) (f s a))
    exact ⟨x, h⟩

theorem fencedReturns_frame (s : State) (pkg : Nat) : ∃ x, s.groups.foldl (fun s e =>
    (lanesAt e.2 pkg).foldl (fun s j => returnTo s e.1 j (fencedEntry s)) s) s = { s with groups := x } := by
  generalize s.groups = es
  induction es generalizing s with
  | nil => exact ⟨s.groups, rfl⟩
  | cons e es ih =>
    obtain ⟨x, h⟩ := foldl_returnTo_frame e.1 (fun s _ => fencedEntry s) id (lanesAt e.2 pkg) s
    obtain ⟨y, h'⟩ := ih { s with groups := x }
    refine ⟨y, ?_⟩
    rw [List.foldl_cons]
    exact (congrArg (fun t => es.foldl (fun s e =>
      (lanesAt e.2 pkg).foldl (fun s j => returnTo s e.1 j (fencedEntry s)) s) t) h).trans h'

/-! ### Reset (R9, R333, R334) -/

/-- The state after a reset but for the logs that it keeps. -/
def resetTo (boot : BootChoice) (s : State) : State := { State.reset with
  secRegions := boot.secRegions.take 16, secEngines := boot.secEngines, secChannels := boot.secChannels,
  fuses := s.fuses, images := [boot.processor.bytes, boot.power.bytes, boot.assay.bytes],
  recovery := !bootOk s boot, agenda := s.agenda, ctr := s.ctr, nextId := s.nextId }

theorem exec_package_reset_eq (boot : BootChoice) (s : State) : exec (.package_reset boot) s =
    .next ((List.range 4).foldl (fun r d => r.setDie d { r.dieAt d with pit := keptPit s d }) (resetTo boot s)) := rfl

/-! ### Fatal errors (R338) -/

/-- A die whose log stops. -/
def freezePit (x : Die) : Die := { x with pit := { x.pit with frozen := true } }

/-- A fatal error is noted and reported, and every log freezes. -/
theorem goFatal_frame (s : State) (die : Nat) : ∃ x,
    goFatal s die = { s with dies := x, fatal := true, reports := s.reports ++ [.fatal] } ∧
    ∀ d < 4, ((goFatal s die).dieAt d).pit.frozen = true := by
  obtain ⟨p, hp⟩ := pitWrite_frame s die 10 0 noCore noSlot 0 0 false
  obtain ⟨x, hx⟩ := foldl_setDie_frame (fun s d => freezePit (s.dieAt d)) (List.range Config.numDies) { s with dies := p }
  have hgo : goFatal s die = { s with dies := x, fatal := true, reports := s.reports ++ [.fatal] } := by
    unfold goFatal
    rw [hp]
    exact congrArg (fun s => report { s with fatal := true } .fatal) hx
  refine ⟨x, hgo, fun d hd => ?_⟩
  have h := dieAt_foldl_setDie (fun _ => freezePit) (List.nodup_range (n := Config.numDies)) { s with dies := p } d
  rw [hx] at h
  rw [hgo]
  exact congrArg (fun x => x.pit.frozen) (h.trans (if_pos (List.mem_range.mpr hd)))

end Sys2Proof.Machine

namespace Sys2Proof

open Machine Machine.Assoc Machine.Bits Claims

/-- Settles O50: a quote by the lengths of its parts; reset and fatal error by what a change of each die leaves. -/
theorem packageSteps : Obligations.PackageSteps := by
  unfold Obligations.PackageSteps
  refine ⟨fun nonce s => ?_, fun boot s => ?_, fun pkg key s hp => ?_, fun pa bs s hf hm => ?_, fun pa n s hf hm => ?_,
    fun pa n op x cmp s hf hm ho => ?_, fun pkg s => ?_, fun lid on s => rfl, fun s hf => ?_⟩
  · have hb := length_quoteBody s nonce
    refine ⟨_, rfl, ?_, ?_, ?_, quote_digest s nonce _⟩
    · simp [hb, Crypto.length_sign]
    · rw [quoteBody_eq, List.append_assoc, List.take_left' (length_nonceBytes nonce), nonceBytes, natOfBytes_bytesOfNat]
      exact Nat.mod_eq_of_lt nonce.isLt
    · rw [List.drop_left' hb, List.take_left' hb]
  · obtain ⟨x, hx⟩ := foldl_setDie_frame (fun r d => { r.dieAt d with pit := keptPit s d }) (List.range 4) (resetTo boot s)
    refine ⟨_, exec_package_reset_eq boot s, ?_⟩
    have hdie (d : Nat) (hd : d < 4) := dieAt_foldl_setDie (fun d x => { x with pit := keptPit s d })
      (List.nodup_range (n := 4)) (resetTo boot s) d
    refine ⟨by rw [hx]; rfl, by rw [hx]; rfl, by rw [hx]; rfl, by rw [hx]; rfl, by rw [hx]; rfl, by rw [hx]; rfl,
      by rw [hx]; rfl, by rw [hx]; rfl, by rw [hx]; rfl, by rw [hx]; rfl, fun d hd => ?_⟩
    rw [hdie d hd, if_pos (List.mem_range.mpr hd)]
    exact ⟨rfl, rfl, rfl, rfl⟩
  · rw [exec_fabric_bring_up, execFabricBringUp, if_pos hp]
  · simp [execRemoteAccessArrival, hf, hm, homesFrom]
  · simp [execRemoteAccessArrival, hf, hm]
  · simp [execRemoteAccessArrival, hf, hm, ho, homesFrom]
  · obtain ⟨x, hx⟩ := fencedReturns_frame (if s.fenced.contains pkg then s else { s with fenced := s.fenced ++ [pkg] }) pkg
    refine ⟨_, rfl, ?_, ?_⟩
    · rw [hx]
      split
      next h => simpa using h
      next h => simp
    · rw [hx]
      split <;> rfl
  · rw [exec_fatal_error, execFatalError, if_neg (by simp [hf])]
    obtain ⟨x, hx, hfr⟩ := goFatal_frame s 0
    refine ⟨_, rfl, by rw [hx], by rw [hx], hfr⟩

end Sys2Proof

/-! What the unit's own steps leave of cores and dies, and of groups killed whole (R322 to R325). -/

namespace Sys2Proof.Machine

open Assoc Bits Claims

variable {s t u : State} {gid k : Nat} {g : Group} {gids : List Nat}

/-! ### Units read after a write -/

@[simp] theorem coreAt_setCore_same (s : State) (c : Nat) (x : Core) : (s.setCore c x).coreAt c = x := by
  simp [State.coreAt, State.setCore]

theorem coreAt_setCore_other (s : State) {c k : Nat} (x : Core) (h : k ≠ c) : (s.setCore c x).coreAt k = s.coreAt k := by
  simp [State.coreAt, State.setCore, get_put_other _ _ _ h]

@[simp] theorem clusterAt_setCluster_same (s : State) (c : Nat) (x : Cluster) : (s.setCluster c x).clusterAt c = x := by
  simp [State.clusterAt, State.setCluster]

/-! ### Groups killed whole -/

/-- Every entry of the group stands at its exit, with no live and no active lane, and there is one. -/
def Gone (gid : Nat) (s : State) : Prop :=
  (s.group? gid).isSome = true ∧ ∀ g, (gid, g) ∈ s.groups → g.lmask = 0 ∧ g.amask = 0 ∧ g.status = .parked .exit

theorem gone_group (h : Gone gid s) : ∃ g, s.group? gid = some g ∧ g.lmask = 0 ∧ g.amask = 0 ∧ g.status = .parked .exit := by
  obtain ⟨hs, he⟩ := h
  obtain ⟨g, hg⟩ := Option.isSome_iff_exists.mp hs
  exact ⟨g, hg, he g (mem_of_find hg)⟩

theorem gone_setGroup_other (g : Group) (hk : gid ≠ k) (h : Gone gid s) : Gone gid (s.setGroup k g) := by
  refine ⟨by rw [group?_setGroup_other s g hk]; exact h.1, fun g' hm => ?_⟩
  rcases mem_of_mem_set hm with ⟨he, -⟩ | hm
  · exact absurd he hk
  · exact h.2 g' hm

theorem gone_setGroup_same (hl : g.lmask = 0) (ha : g.amask = 0) (hst : g.status = .parked .exit) (h : Gone gid s) :
    Gone gid (s.setGroup gid g) := by
  refine ⟨by rw [group?_setGroup_same]; rfl, fun g' hm => ?_⟩
  rcases mem_of_mem_set hm with ⟨-, rfl⟩ | hm
  · exact ⟨hl, ha, hst⟩
  · exact h.2 g' hm

theorem isSome_updGroup (f : Group → Group) : ((s.updGroup k f).group? gid).isSome = (s.group? gid).isSome := by
  rw [group?_updGroup]; split <;> simp

/-- An update that leaves a group at its exit there. -/
theorem gone_updGroup {f : Group → Group} (hf : ∀ g, g.lmask = 0 ∧ g.amask = 0 ∧ g.status = .parked .exit →
    (f g).lmask = 0 ∧ (f g).amask = 0 ∧ (f g).status = .parked .exit) (h : Gone gid s) : Gone gid (s.updGroup k f) := by
  refine ⟨by rw [isSome_updGroup]; exact h.1, fun g' hm => ?_⟩
  obtain ⟨⟨n, g⟩, hg, he⟩ := List.mem_map.mp hm
  dsimp only at he
  split at he
  next hk => cases he; exact hf _ (h.2 _ (hk ▸ hg))
  next hk => cases he; exact h.2 _ hg

/-- A group moved to its exit. -/
theorem gone_of_updGroup {f : Group → Group} (hf : ∀ g, (f g).lmask = 0 ∧ (f g).amask = 0 ∧ (f g).status = .parked .exit)
    (h : (s.group? gid).isSome = true) : Gone gid (s.updGroup gid f) := by
  refine ⟨by rw [isSome_updGroup]; exact h, fun g' hm => ?_⟩
  obtain ⟨⟨n, g⟩, hg, he⟩ := List.mem_map.mp hm
  dsimp only at he
  split at he
  next hk => cases he; exact hf _
  next hk => cases he; exact absurd rfl hk

/-! ### A state whose cores and dies are as before -/

/-- A core without what accesses fill and groups leave: TLB and waiters. -/
def bareCore (k : Core) : Core := { k with tlb := [], inbound := { k.inbound with waiters := [] } }

/-- A die without its log. -/
def bareDie (d : Die) : Die := { d with pit := PitLog.reset }

/-- Cores and dies are as before but for TLBs, waiters and logs; reports stand, groups stay, and those of a list that are
killed stay so; blocks are as before, and the saved ones of each launch. -/
structure Steady (gids : List Nat) (s t : State) : Prop where
  cores : ∀ c, bareCore (t.coreAt c) = bareCore (s.coreAt c)
  dies : ∀ d, bareDie (t.dieAt d) = bareDie (s.dieAt d)
  reports : ∀ r ∈ s.reports, r ∈ t.reports
  here : ∀ k, (s.group? k).isSome = true → (t.group? k).isSome = true
  gone : ∀ k ∈ gids, Gone k s → Gone k t
  blocks : t.blocks = s.blocks
  saved : ∀ k, (t.launch? k).map Launch.savedBlocks = (s.launch? k).map Launch.savedBlocks

theorem steady_refl (s : State) : Steady gids s s :=
  ⟨fun _ => rfl, fun _ => rfl, fun _ h => h, fun _ h => h, fun _ _ h => h, rfl, fun _ => rfl⟩

theorem steady_trans (h : Steady gids s t) (h' : Steady gids t u) : Steady gids s u :=
  ⟨fun c => (h'.cores c).trans (h.cores c), fun d => (h'.dies d).trans (h.dies d),
    fun r hr => h'.reports r (h.reports r hr), fun k hk => h'.here k (h.here k hk),
    fun k hk hg => h'.gone k hk (h.gone k hk hg), h'.blocks.trans h.blocks, fun k => (h'.saved k).trans (h.saved k)⟩

theorem steady_foldl {α : Type} {f : State → α → State} (hf : ∀ s a, Steady gids s (f s a)) (as : List α) (s : State) :
    Steady gids s (as.foldl f s) := by
  induction as generalizing s with
  | nil => exact steady_refl s
  | cons a as ih => exact steady_trans (hf s a) (ih _)

/-- What leaves cores, dies, reports, groups, blocks and launches alone. -/
theorem steady_of_eq (hc : t.cores = s.cores) (hd : t.dies = s.dies) (hr : t.reports = s.reports) (hg : t.groups = s.groups)
    (hb : t.blocks = s.blocks) (hl : t.launches = s.launches) : Steady gids s t := by
  refine ⟨fun c => by rw [State.coreAt, hc]; rfl, fun d => by rw [State.dieAt, hd]; rfl, fun r h => hr ▸ h, fun k h => ?_,
    fun k _ h => ⟨?_, fun g hm => h.2 g (hg ▸ hm)⟩, hb, fun k => by rw [State.launch?, hl]; rfl⟩
  · rw [State.group?, hg]; exact h
  · rw [State.group?, hg]; exact h.1

theorem steady_background (h : Background s t) : Steady gids s t := by
  have hc : t.cores = s.cores := by have hs := congrArg State.cores h.1; exact hs
  have hd : t.dies = s.dies := by have hs := congrArg State.dies h.1; exact hs
  have hr : t.reports = s.reports := by have hs := congrArg State.reports h.1; exact hs
  have hb : t.blocks = s.blocks := by have hs := congrArg State.blocks h.1; exact hs
  have hl : t.launches = s.launches := by have hs := congrArg State.launches h.1; exact hs
  have hsome (k : Nat) : (t.group? k).isSome = (s.group? k).isSome := by
    simpa using congrArg Option.isSome (h.2.1 k)
  refine ⟨fun c => by rw [State.coreAt, hc]; rfl, fun d => by rw [State.dieAt, hd]; rfl, fun r h => hr ▸ h,
    fun k hk => (hsome k).trans hk, fun k _ hk => ⟨(hsome k).trans hk.1, fun g' hm => ?_⟩, hb, fun k => by
      rw [State.launch?, hl]; rfl⟩
  obtain ⟨g, hg, hb⟩ := h.2.2 k g' hm
  obtain ⟨hl, ha, hst⟩ := hk.2 g hg
  exact ⟨(congrArg Group.lmask hb).trans hl, (congrArg Group.amask hb).trans ha, (congrArg Group.status hb).trans hst⟩

theorem steady_report (s : State) (r : Report) : Steady gids s (report s r) :=
  ⟨fun _ => rfl, fun _ => rfl, fun _ h => List.mem_append_left _ h, fun _ h => h, fun _ _ h => h, rfl, fun _ => rfl⟩

theorem steady_pitWrite (s : State) (die kind code core slot : Nat) (d0 d1 : DWord) (secure : Bool) :
    Steady gids s (pitWrite s die kind code core slot d0 d1 secure) := by
  unfold pitWrite
  dsimp only
  split
  · exact steady_refl s
  · refine ⟨fun _ => rfl, fun d => ?_, fun _ h => h, fun _ h => h, fun _ _ h => h, rfl, fun _ => rfl⟩
    by_cases hd : d = die
    · subst hd; rw [dieAt_setDie_same]; rfl
    · rw [dieAt_setDie_other s _ hd]

theorem steady_faultReport (s : State) (g : Group) (c : Cause) (tpc : DWord) (tlanes : Word) (taddr : DWord) :
    Steady gids s (faultReport s g c tpc tlanes taddr) :=
  steady_trans (steady_pitWrite ..) (steady_report ..)

theorem steady_setCluster (s : State) (n : Nat) (c : Cluster) : Steady gids s (s.setCluster n c) :=
  steady_of_eq rfl rfl rfl rfl rfl rfl

theorem launch?_updLaunch (s : State) (lid : Nat) (f : Launch → Launch) (k : Nat) :
    (s.updLaunch lid f).launch? k = if k = lid then (s.launch? k).map f else s.launch? k :=
  find_upd s.launches lid f k

theorem steady_updLaunch (s : State) (lid : Nat) {f : Launch → Launch} (hf : ∀ l, (f l).savedBlocks = l.savedBlocks) :
    Steady gids s (s.updLaunch lid f) := by
  refine ⟨fun _ => rfl, fun _ => rfl, fun _ h => h, fun _ h => h, fun _ _ h => h, rfl, fun k => ?_⟩
  rw [launch?_updLaunch]
  split
  · rw [Option.map_map]
    exact congrArg (fun h => Option.map h _) (funext hf)
  · rfl

theorem steady_setCore {c : Nat} {x : Core} (h : bareCore x = bareCore (s.coreAt c)) : Steady gids s (s.setCore c x) := by
  refine ⟨fun k => ?_, fun _ => rfl, fun _ h => h, fun _ h => h, fun _ _ h => h, rfl, fun _ => rfl⟩
  by_cases hk : k = c
  · subst hk; rw [coreAt_setCore_same, h]
  · rw [coreAt_setCore_other s _ hk]

/-- A group that is none of the list is replaced. -/
theorem steady_setGroup (g : Group) (hk : k ∉ gids) : Steady gids s (s.setGroup k g) := by
  refine ⟨fun _ => rfl, fun _ => rfl, fun _ h => h, fun n h => ?_, fun n hn => gone_setGroup_other g ?_, rfl, fun _ => rfl⟩
  · by_cases hnk : n = k
    · subst hnk; rw [group?_setGroup_same]; rfl
    · rw [group?_setGroup_other s g hnk]; exact h
  · rintro rfl; exact hk hn

theorem steady_updGroup {f : Group → Group} (hf : ∀ g, g.lmask = 0 ∧ g.amask = 0 ∧ g.status = .parked .exit →
    (f g).lmask = 0 ∧ (f g).amask = 0 ∧ (f g).status = .parked .exit) : Steady gids s (s.updGroup k f) :=
  ⟨fun _ => rfl, fun _ => rfl, fun _ h => h, fun _ h => by rw [isSome_updGroup]; exact h,
    fun _ _ h => gone_updGroup hf h, rfl, fun _ => rfl⟩

theorem steady_ranHere (s : State) (g : Group) : Steady gids s (ranHere s g) :=
  steady_updLaunch s _ fun l => by split <;> rfl

theorem steady_goOn (g : Group) (hk : k ∉ gids) : Steady gids s (goOn s k g) := by
  unfold goOn
  split
  · exact steady_setGroup _ hk
  · exact steady_trans (steady_setGroup _ hk) (steady_ranHere ..)

/-! ### Kills -/

theorem steady_barLeave (b k : Nat) : Steady gids s (barLeave b s k) := by
  unfold barLeave
  split
  · exact steady_refl s
  next g hg =>
    dsimp only
    by_cases hx : g.lmask = 0 ∧ g.amask = 0 ∧ g.status = .parked .exit
    · obtain ⟨hl, ha, hst⟩ := hx
      have hb := bare_seeAll s (.cluster (clusterOfCore g.core)) g
      have hst' := (congrArg Group.status hb).trans hst
      rw [if_neg fun h => by cases (parkedIn_of_parked hst').symm.trans h]
      refine ⟨fun _ => rfl, fun _ => rfl, fun _ h => h, fun n h => ?_, fun n hn h => ?_, rfl, fun _ => rfl⟩
      · by_cases hnk : n = k
        · subst hnk; rw [group?_setGroup_same]; rfl
        · rw [group?_setGroup_other s _ hnk]; exact h
      · by_cases hnk : n = k
        · subst hnk
          exact gone_setGroup_same ((congrArg Group.lmask hb).trans hl) ((congrArg Group.amask hb).trans ha) hst' h
        · exact gone_setGroup_other _ hnk h
    · have hnone : ∀ n, Gone n s → n ≠ k := by
        rintro n h rfl
        exact hx (h.2 g (mem_of_find hg))
      have hs : ∀ x, Steady gids s (s.setGroup k x) := fun x =>
        ⟨fun _ => rfl, fun _ => rfl, fun _ h => h, fun n h => by
          by_cases hnk : n = k
          · subst hnk; rw [group?_setGroup_same]; rfl
          · rw [group?_setGroup_other s x hnk]; exact h,
        fun n _ h => gone_setGroup_other x (hnone n h) h, rfl, fun _ => rfl⟩
      split
      · unfold goOn
        split
        · exact hs _
        · exact steady_trans (hs _) (steady_ranHere ..)
      · exact hs _

theorem steady_barCheck (s : State) (cl b : Nat) : Steady gids s (barCheck s cl b) := by
  unfold barCheck
  dsimp only
  split
  · exact steady_trans (steady_setCluster _ cl _) (steady_foldl (fun _ k => steady_barLeave b k) _ _)
  · exact steady_refl _

theorem steady_barRetire (s : State) (cl k : Nat) : Steady gids s (barRetire s cl k) := by
  refine steady_foldl (fun s b => ?_) _ s
  dsimp only
  split
  · exact steady_trans (steady_setCluster _ cl _) (steady_barCheck ..)
  · exact steady_refl s

theorem steady_countArrived (s : State) (k : Nat) : Steady gids s (countArrived s k) := by
  unfold countArrived
  split
  · exact steady_refl s
  · split
    · exact steady_trans (steady_background (background_settleAccesses ..)) (steady_barRetire ..)
    · exact steady_refl s

theorem steady_sendReturns (s : State) (g : Group) (kind : Nat) (lanes : List Nat) :
    Steady gids s (sendReturns s g kind lanes) := by
  obtain ⟨r, h⟩ := sendReturns_frame s g kind lanes
  rw [h]
  exact steady_of_eq rfl rfl rfl rfl rfl rfl

theorem steady_killLanes (s : State) (k : Nat) (lanes : Word) : Steady gids s (killLanes s k lanes) := by
  unfold killLanes
  split
  · exact steady_refl s
  next g hg =>
    have hfr : Steady gids s { s with frags := s.frags.filter fun f =>
        !(f.gid == k && unsent f && (lanesOf (lanes &&& g.lmask)).contains f.lane) } := steady_of_eq rfl rfl rfl rfl rfl rfl
    have h := steady_trans (steady_trans hfr (steady_background (background_killedFirst _ k g
        (fun l => l.parts.any fun p => (p.lane.map (lanesOf (lanes &&& g.lmask)).contains).getD false)
        fun w => (w.lane.map (lanesOf (lanes &&& g.lmask)).contains).getD false || !w.also.isEmpty)))
      (steady_updGroup (k := k) (f := fun g => { g with lmask := g.lmask &&& ~~~lanes, amask := g.amask &&& ~~~lanes })
        fun g h => ⟨by simp [h.1], by simp [h.2.1], h.2.2⟩)
    dsimp only
    split
    · exact h
    · exact steady_trans h (steady_sendReturns ..)

theorem steady_leaveWaits (s : State) (k : Nat) : Steady gids s (leaveWaits s k) := by
  refine ⟨fun c => ?_, fun _ => rfl, fun _ h => h, fun _ h => h, fun _ _ h => h, rfl, fun _ => rfl⟩
  have h : (leaveWaits s k).coreAt c = (fun x : Core => { x with inbound :=
      { x.inbound with waiters := x.inbound.waiters.filter (·.1 != k) } }) (s.coreAt c) :=
    get_map (d := Core.reset) s.cores (f := fun x => { x with inbound :=
      { x.inbound with waiters := x.inbound.waiters.filter (·.1 != k) } }) rfl c
  rw [h]; rfl

theorem steady_killWhole (s : State) (k : Nat) : Steady gids s (killWhole s k) := by
  unfold killWhole
  split
  · exact steady_refl s
  next g hg =>
    refine steady_trans ?_ (steady_countArrived ..)
    refine steady_trans ?_ (steady_updGroup fun _ _ => ⟨rfl, rfl, rfl⟩)
    refine steady_trans (steady_trans (steady_killLanes s k g.lmask) (steady_leaveWaits _ k)) ?_
    split
    · exact steady_setCluster ..
    · exact steady_refl _

/-- A group that is there is gone once it is killed whole. -/
theorem gone_killWhole (hg : s.group? k = some g) : Gone k (killWhole s k) := by
  obtain ⟨-, g', hg'⟩ := killLanes_keeps hg g.lmask
  simp only [killWhole, hg]
  refine (steady_countArrived (gids := [k]) _ k).gone k (List.mem_singleton.mpr rfl) ?_
  refine gone_of_updGroup (fun _ => ⟨rfl, rfl, rfl⟩) ?_
  have h : (if isHalted g then barRecount (leaveWaits (killLanes s k g.lmask) k) k g
      else leaveWaits (killLanes s k g.lmask) k).group? k = some g' := by split <;> exact hg'
  rw [h]; rfl

theorem steady_takeTrap (i : TrapInfo) (hk : k ∉ gids) : Steady gids s (takeTrap s k i) := by
  unfold takeTrap
  split
  · exact steady_refl s
  · split
    · exact steady_setGroup _ hk
    · dsimp only
      split
      · exact steady_trans (steady_trans (steady_faultReport ..) (steady_setGroup _ hk)) (steady_report ..)
      · exact steady_trans (steady_faultReport ..) (steady_killWhole ..)

theorem steady_raiseCbbad (hk : k ∉ gids) : Steady gids s (raiseCbbad s k) := by
  unfold raiseCbbad
  split
  · split
    · exact steady_setGroup _ hk
    · unfold parkedFault
      split <;> exact steady_trans (steady_setGroup _ hk) (steady_takeTrap _ hk)
  · exact steady_refl s

/-! ### Status words -/

theorem steady_ite {c : Prop} [Decidable c] (ht : Steady gids s t) (hu : Steady gids s u) :
    Steady gids s (if c then t else u) := by split <;> assumption

theorem steady_markLeaf (s : State) (locs : List Nat) (d : Bool) : Steady gids s (markLeaf s locs d) :=
  steady_ite (steady_refl s) (steady_background (background_storeBy ..))

theorem steady_tlbFill (s : State) (core : Nat) (e : TlbEntry) : Steady gids s (tlbFill s core e) := by
  have hc : Steady gids s (s.setCore core { s.coreAt core with tlb := tlbPut (s.coreAt core).tlb 64 e }) :=
    steady_setCore rfl
  exact steady_ite (steady_refl s) (steady_ite hc (steady_trans hc (steady_setCluster ..)))

theorem steady_touchKey (s : State) (key : Nat) : Steady gids s (touchKey s key) := steady_of_eq rfl rfl rfl rfl rfl rfl

theorem steady_touchPlace (s : State) (p : Nat) : Steady gids s (touchPlace s p) := by
  unfold touchPlace
  split
  · exact steady_touchKey ..
  · split
    · split
      · exact steady_touchKey ..
      · exact steady_refl s
    · exact steady_refl s

theorem steady_markHit (s : State) (h : Hit) : Steady gids s (markHit s h) := by
  have hleaf : Steady gids s (match h.leaf with | some (locs, d) => markLeaf s locs d | none => s) := by
    split
    · exact steady_markLeaf ..
    · exact steady_refl s
  have hfill (u : State) : Steady gids u (match h.fill with | some (core, e) => tlbFill u core e | none => u) := by
    split
    · exact steady_tlbFill ..
    · exact steady_refl u
  exact steady_trans (steady_trans hleaf (hfill _)) (steady_touchPlace ..)

theorem steady_statusWord (s : State) (a : StatusAddr) (v : Nat) : Steady gids s (statusWord s a v) := by
  unfold statusWord
  split
  · exact steady_refl s
  · split
    · exact steady_trans (steady_background (background_storeBy ..)) (steady_markHit ..)
    · exact steady_refl s

theorem steady_writeFinal (s : State) (lid : Nat) : Steady gids s (writeFinal s lid) := by
  have hstat (v : Nat) : Steady gids s (launchStatus s lid v) := by
    unfold launchStatus
    split
    · exact steady_refl s
    · exact steady_trans (steady_statusWord ..) (steady_updLaunch _ _ fun _ => rfl)
  unfold writeFinal
  split
  · exact steady_refl s
  · split
    · exact steady_refl s
    · have h (l : Launch) (v : Nat) : Steady gids s (if v = l.statusWas then s else launchStatus s lid v) :=
        steady_ite (steady_refl s) (hstat v)
      exact steady_ite (steady_trans (h ..) (steady_report ..)) (h ..)

theorem steady_foldl_writeFinal (s : State) (lids : List Nat) : Steady gids s (lids.foldl (fun s lid =>
    match s.launch? lid with
    | some l => if l.phase = .complete then writeFinal s lid else s
    | none => s) s) := by
  refine steady_foldl (fun s lid => ?_) lids s
  split
  · split
    · exact steady_writeFinal ..
    · exact steady_refl s
  · exact steady_refl s

end Sys2Proof.Machine

/-! Tokens, frequencies, gates, voltage, droop, heat and the assay (R109 to R113, R322 to R331). -/

namespace Sys2Proof.Machine

open Assoc Bits Claims

variable {s t : State}

theorem isSome_find_of_mem {α : Type} {m : Map α} {k : Nat} {v : α} (h : (k, v) ∈ m) : (find m k).isSome = true := by
  induction m with
  | nil => cases h
  | cons e m ih =>
    obtain ⟨k', v'⟩ := e
    have hc : find ((k', v') :: m) k = if k' = k then some v' else find m k := rfl
    rw [hc]
    split
    · rfl
    next hk =>
      rcases List.mem_cons.mp h with he | h
      · cases he; exact absurd rfl hk
      · exact ih h

/-! ### A core cycle (R109, R245) -/

/-- Cores changed one after another, each once. -/
theorem coreAt_foldl_setCore (f : Core → Core) {cs : List Nat} (hn : cs.Nodup) (s : State) (k : Nat) :
    (cs.foldl (fun s c => s.setCore c (f (s.coreAt c))) s).coreAt k = if k ∈ cs then f (s.coreAt k) else s.coreAt k := by
  induction cs generalizing s with
  | nil => simp
  | cons c cs ih =>
    obtain ⟨hc, hn⟩ := List.nodup_cons.mp hn
    rw [List.foldl_cons, ih hn]
    by_cases hk : k = c
    · subst hk; simp [hc]
    · simp [hk, coreAt_setCore_other s _ hk]

theorem foldl_setCore_frame (f : State → Nat → Core) (cs : List Nat) (s : State) :
    ∃ x, cs.foldl (fun s c => s.setCore c (f s c)) s = { s with cores := x } := by
  induction cs generalizing s with
  | nil => exact ⟨s.cores, rfl⟩
  | cons c cs ih =>
    obtain ⟨x, h⟩ := ih (s.setCore c (f s c))
    exact ⟨x, h⟩

/-- What an engine cycle leaves of memory, clusters and the counters of cores. -/
def EngineFrame (s t : State) : Prop :=
  t.mem = s.mem ∧ t.clusters = s.clusters ∧ ∀ c, (t.coreAt c).cyc = (s.coreAt c).cyc

theorem engineFrame_setCore {c : Nat} {x : Core} (h : x.cyc = (s.coreAt c).cyc) : EngineFrame s (s.setCore c x) := by
  refine ⟨rfl, rfl, fun k => ?_⟩
  by_cases hk : k = c
  · subst hk; rw [coreAt_setCore_same, h]
  · rw [coreAt_setCore_other s x hk]

theorem engineFrame_trans {u : State} (h : EngineFrame s t) (h' : EngineFrame t u) : EngineFrame s u :=
  ⟨h'.1.trans h.1, h'.2.1.trans h.2.1, fun c => (h'.2.2 c).trans (h.2.2 c)⟩

theorem engineFrame_touchKeys (ks : List Nat) (s : State) : EngineFrame s (ks.foldl touchKey s) := by
  induction ks generalizing s with
  | nil => exact ⟨rfl, rfl, fun _ => rfl⟩
  | cons k ks ih => exact engineFrame_trans (t := touchKey s k) ⟨rfl, rfl, fun _ => rfl⟩ (ih _)

theorem engineFrame_engineCycle (s : State) (core : Nat) : EngineFrame s (engineCycle s core) := by
  unfold engineCycle
  dsimp only
  split
  · exact ⟨rfl, rfl, fun _ => rfl⟩
  · split
    · exact engineFrame_setCore rfl
    · split
      · exact engineFrame_setCore rfl
      next e rest hmq hl o g hg =>
        refine engineFrame_trans (engineFrame_setCore (c := core) (x := { s.coreAt core with mq := rest }) rfl) ?_
        exact engineFrame_trans (engineFrame_touchKeys ..) ⟨rfl, rfl, fun _ => rfl⟩

theorem engineFrame_cycles (cs : List Nat) (s : State) : EngineFrame s (cs.foldl engineCycle s) := by
  induction cs generalizing s with
  | nil => exact ⟨rfl, rfl, fun _ => rfl⟩
  | cons c cs ih => exact engineFrame_trans (engineFrame_engineCycle s c) (ih _)

theorem refill_mtbal (k : Cluster) : (refill k).mtbal.toNat = min (k.mtbal.toNat + k.mtfill.toNat) (tokenCap k) := by
  have hc := k.mtcap.isLt
  have hcap : tokenCap k = max 1 k.mtcap.toNat := rfl
  simp only [refill, BitVec.toNat_ofNat]
  exact Nat.mod_eq_of_lt (by omega)

theorem mem_coresOfCluster {c cl : Nat} (h : clusterOfCore c = cl) : c ∈ coresOfCluster cl := by
  unfold clusterOfCore at h
  rw [coresOfCluster, List.mem_map]
  exact ⟨c % 4, List.mem_range.mpr (Nat.mod_lt _ (by decide)), by omega⟩

theorem nodup_cycling (s : State) (cl : Nat) : (cycling s cl).Nodup :=
  (List.nodup_range.map fun a b h => Nat.add_left_cancel h).filter _

theorem token_refill_counts (cl : Nat) (s : State) : ∃ t, exec (.token_refill cl) s = .next t ∧
    t.clusterAt cl = refill (s.clusterAt cl) ∧ t.mem = s.mem ∧
    ∀ c, clusterOfCore c = cl → (s.coreAt c).scanning = false → (t.coreAt c).cyc = (s.coreAt c).cyc + 1 := by
  let cs := cycling s cl
  let f : Core → Core := fun k => { k with cyc := k.cyc + 1 }
  obtain ⟨x, hx⟩ := foldl_setCore_frame (fun s c => f (s.coreAt c)) cs s
  let s1 := cs.foldl (fun s c => s.setCore c (f (s.coreAt c))) s
  let s3 := ({ s1 with groups := s1.groups.map fun e => (e.1, tickGroup cs e.2) } : State).setCluster cl
    (refill (s1.clusterAt cl))
  obtain ⟨hm, hcl, hcy⟩ := engineFrame_cycles cs s3
  have hs1 : s1 = { s with cores := x } := hx
  refine ⟨_, rfl, ?_, ?_, fun c hc hsc => ?_⟩
  · have h3 : s3.clusterAt cl = refill (s1.clusterAt cl) := clusterAt_setCluster_same ..
    have h1 : s1.clusterAt cl = s.clusterAt cl := by rw [hs1]; rfl
    rw [h1] at h3
    exact (congrArg (fun m => get Cluster.reset m cl) hcl).trans h3
  · have h3 : s1.mem = s.mem := by rw [hs1]
    exact hm.trans h3
  · have hmem : c ∈ cs := List.mem_filter.mpr ⟨mem_coresOfCluster hc, by simp [hsc]⟩
    have h1 := coreAt_foldl_setCore f (nodup_cycling s cl) s c
    rw [if_pos hmem] at h1
    exact (hcy c).trans (congrArg Core.cyc h1)

/-! ### Gates (R112, R113) -/

/-- A core but for what a gate request leaves in it. -/
def gateless (k : Core) : Core := { bareCore k with gateStat := 0, gated := false }

theorem gateless_of_bare {k k' : Core} (h : bareCore k = bareCore k') : gateless k = gateless k' := by
  rw [gateless, h]; rfl

theorem gateless_resumed {k k' : Core} (h : bareCore k = bareCore k') :
    gateless { k with scanning := false } = gateless { k' with scanning := false } := by
  have h' := congrArg (fun x : Core => { x with scanning := false, gateStat := 0, gated := false }) h
  exact h'

/-- What a core is but for its gate, TLB and waiters. -/
theorem gateless_fields {k k' : Core} (h : gateless k = gateless k') : k.scanning = k'.scanning ∧ k.passes = k'.passes ∧
    k.skip = k'.skip ∧ k.oos = k'.oos ∧ k.pools = k'.pools := by
  have h1 := congrArg Core.scanning h
  have h2 := congrArg Core.passes h
  have h3 := congrArg Core.skip h
  have h4 := congrArg Core.oos h
  have h5 := congrArg Core.pools h
  exact ⟨h1, h2, h3, h4, h5⟩

theorem bareCore_gate {k k' : Core} (h : bareCore k = bareCore k') : k.gateReq = k'.gateReq ∧ k.gateStat = k'.gateStat := by
  have h1 := congrArg Core.gateReq h
  have h2 := congrArg Core.gateStat h
  exact ⟨h1, h2⟩

theorem settleGate_keeps (s : State) (core : Nat) : (∀ c, gateless ((settleGate s core).coreAt c) = gateless (s.coreAt c)) ∧
    (∀ d, bareDie ((settleGate s core).dieAt d) = bareDie (s.dieAt d)) ∧ (∀ r ∈ s.reports, r ∈ (settleGate s core).reports) ∧
    ∀ k, Gone k s → Gone k (settleGate s core) := by
  unfold settleGate
  dsimp only
  split
  · exact ⟨fun _ => rfl, fun _ => rfl, fun _ h => h, fun _ h => h⟩
  next a ha =>
    split
    · exact ⟨fun _ => rfl, fun _ => rfl, fun _ h => h, fun _ h => h⟩
    · have hst (gids : List Nat) := steady_statusWord (gids := gids) (s.setCore core { s.coreAt core with
        gateStat := gateState s core, gated := gateState s core == 3 }) a (gateState s core)
      have hcore (c : Nat) : gateless ((statusWord (s.setCore core { s.coreAt core with
          gateStat := gateState s core, gated := gateState s core == 3 }) a (gateState s core)).coreAt c) =
          gateless (s.coreAt c) := by
        refine (gateless_of_bare ((hst []).cores c)).trans ?_
        by_cases hc : c = core
        · subst hc; rw [coreAt_setCore_same]; rfl
        · rw [coreAt_setCore_other s _ hc]
      split
      · exact ⟨hcore, (hst []).dies, (hst []).reports, fun k hk => (hst [k]).gone k (List.mem_singleton.mpr rfl) hk⟩
      · exact ⟨hcore, (hst []).dies, (hst []).reports, fun k hk => (hst [k]).gone k (List.mem_singleton.mpr rfl) hk⟩

theorem settleGate_of_gated {core : Nat} (h : (s.coreAt core).gated = true) : settleGate s core = s := by
  unfold settleGate
  dsimp only
  split
  · rfl
  · rw [h, Bool.true_or]; rfl

/-- A request whose core is idle is taken. -/
theorem settleGate_of_idle {core : Nat} {a : StatusAddr} (ha : (s.coreAt core).gateReq = some a)
    (hg : (s.coreAt core).gated = false) (hst : (s.coreAt core).gateStat ≠ 3) (hb : coreBusy s core = false)
    (hf : (s.coreAt core).inbound.filled = 0) (hs : (s.dieAt (dieOfCore core)).assay = none) :
    settleGate s core = dropRef (statusWord (s.setCore core { s.coreAt core with gateStat := 3, gated := true }) a 3)
      (.gate core) := by
  have hv : gateState s core = 3 := by simp [gateState, hb, hf, hs]
  simp only [settleGate, ha, hv, hg, Bool.false_or, decide_eq_true_eq, if_neg (Ne.symm hst)]
  rfl

/-! ### The assay (R322 to R325) -/

theorem nextSlot_open {die core : Nat} (ha : (s.dieAt die).assay = none)
    (hn : (s.dieAt die).nextSlot.toNat ≤ (s.dieAt die).ntime.toNat)
    (hc : nextInService s die 144 (s.dieAt die).nextAssay = some core) : exec (.assay_slot_open die) s =
      .next ((powerUp s core).setDie die { s.dieAt die with
        assay := some ⟨core, (s.dieAt die).ntime, none⟩, nextAssay := core % 144,
        nextSlot := (s.dieAt die).nextSlot + 200000 }) := by
  have hlt : ¬(s.dieAt die).ntime.toNat < (s.dieAt die).nextSlot.toNat := by omega
  have hc' : nextInService s die Config.coresPerDie (s.dieAt die).nextAssay = some core := hc
  simp only [exec_assay_slot_open, execAssaySlotOpen, ha, Option.isSome_none, hlt, decide_false, Bool.or_self,
    Bool.false_eq_true, if_false, hc']
  rfl

/-- A group at its exit has nothing to catch up with. -/
theorem steady_catchUp {gids : List Nat} (e : Nat × Group) (h : e.1 ∈ gids → e.2.status = .parked .exit) :
    Steady gids s (catchUp s e) := by
  by_cases hk : e.1 ∈ gids
  · have hp := parkedIn_of_parked (h hk)
    unfold catchUp
    rw [hp]
    exact steady_refl s
  · unfold catchUp
    split
    · exact steady_goOn _ hk
    · exact steady_raiseCbbad hk
    · exact steady_refl s

theorem steady_catchUps {gids : List Nat} (es : List (Nat × Group))
    (h : ∀ e ∈ es, e.1 ∈ gids → e.2.status = .parked .exit) (s : State) : Steady gids s (es.foldl catchUp s) := by
  induction es generalizing s with
  | nil => exact steady_refl s
  | cons e es ih =>
    obtain ⟨he, hes⟩ := List.forall_mem_cons.mp h
    exact steady_trans (steady_catchUp e he) (ih hes _)

/-- The state as the slot of a core ends, before its groups catch up. -/
def slotClosed (s : State) (die core next : Nat) : State :=
  let s := s.setDie die { s.dieAt die with assay := none, nextAssay := next % 144 }
  s.setCore core { s.coreAt core with scanning := false }

theorem endSlot_eq (s : State) (die core next : Nat) : endSlot s die core next =
    settleGate (gateAgain ((residentOn (slotClosed s die core next) core).foldl catchUp (slotClosed s die core next)) core)
      core := rfl

theorem steady_slotClosed {gids : List Nat} (hg : ∀ k ∈ gids, Gone k s) (die core next : Nat) :
    Steady gids (slotClosed s die core next)
      ((residentOn (slotClosed s die core next) core).foldl catchUp (slotClosed s die core next)) := by
  refine steady_catchUps _ (fun e he hk => ?_) _
  have hm : e ∈ s.groups := (List.mem_filter.mp he).1
  exact ((hg _ hk).2 e.2 hm).2.2

theorem gateless_gateAgain (s : State) (core c : Nat) : gateless ((gateAgain s core).coreAt c) = gateless (s.coreAt c) := by
  unfold gateAgain
  by_cases hc : c = core
  · subst hc; rw [coreAt_setCore_same]; rfl
  · rw [coreAt_setCore_other s _ hc]

/-- What is left as a slot ends. -/
theorem endSlot_keeps (s : State) (die core next : Nat) :
    gateless ((endSlot s die core next).coreAt core) = gateless { s.coreAt core with scanning := false } ∧
    ((endSlot s die core next).dieAt die).assay = none ∧
    ((endSlot s die core next).dieAt die).nextAssay = next % 144 ∧
    (∀ r ∈ s.reports, r ∈ (endSlot s die core next).reports) ∧
    (∀ k, Gone k s → Gone k (endSlot s die core next)) ∧
    ((s.coreAt core).gateReq.isSome = true → (s.coreAt core).gateStat = 3 →
      ((endSlot s die core next).coreAt core).gated = true) := by
  have h0 := steady_slotClosed (s := s) (gids := []) (fun k hk => nomatch hk) die core next
  have hcore : (slotClosed s die core next).coreAt core = { s.coreAt core with scanning := false } :=
    coreAt_setCore_same ..
  have hdie : (slotClosed s die core next).dieAt die = { s.dieAt die with assay := none, nextAssay := next % 144 } :=
    dieAt_setDie_same s die _
  have hgone (k : Nat) (hk : Gone k s) := (steady_slotClosed (s := s) (gids := [k])
    (fun n hn => (List.mem_singleton.mp hn) ▸ hk) die core next).gone k (List.mem_singleton.mpr rfl) hk
  rw [endSlot_eq]
  have hc0 := h0.cores core
  have hd0 := h0.dies die
  have hr0 := h0.reports
  generalize (residentOn (slotClosed s die core next) core).foldl catchUp (slotClosed s die core next) = u at *
  obtain ⟨hc, hd, hr, hg⟩ := settleGate_keeps (gateAgain u core) core
  rw [hcore] at hc0
  rw [hdie] at hd0
  have hdu := (hd die).trans hd0
  refine ⟨(hc core).trans ((gateless_gateAgain u core core).trans (gateless_of_bare hc0)), ?_, ?_, fun r h => hr r (hr0 r h),
    fun k hk => hg k (hgone k hk), fun hq h3 => ?_⟩
  · have h := congrArg Die.assay hdu; exact h
  · have h := congrArg Die.nextAssay hdu; exact h
  · have hgate : ((gateAgain u core).coreAt core).gated = true := by
      have hq' := congrArg Core.gateReq hc0
      have h3' := congrArg Core.gateStat hc0
      change (u.coreAt core).gateReq = (s.coreAt core).gateReq at hq'
      change (u.coreAt core).gateStat = (s.coreAt core).gateStat at h3'
      rw [gateAgain, coreAt_setCore_same]
      simp [hq', hq, h3', h3]
    rw [settleGate_of_gated hgate, hgate]

/-! ### Cores that fail (R324) -/

theorem killCore_keeps {gids : List Nat} (s : State) (core : Nat) : Steady gids s (killCore s core) := by
  refine steady_foldl (fun s e => ?_) _ s
  exact steady_trans (steady_faultReport ..) (steady_killWhole ..)

/-- Every group that is resident on the core is reported and killed. -/
theorem killCore_kills (es : List (Nat × Group)) {s : State} (hs : ∀ e ∈ es, (s.group? e.1).isSome = true) :
    ∀ e ∈ es, Report.fault (causeCode .assay).toNat e.2.core (slotOf e.2) e.2.wid e.2.pc 0 0 ∈
        (es.foldl (fun s e => killWhole (faultReport s e.2 .assay e.2.pc 0 0) e.1) s).reports ∧
      Gone e.1 (es.foldl (fun s e => killWhole (faultReport s e.2 .assay e.2.pc 0 0) e.1) s) := by
  induction es generalizing s with
  | nil => exact fun _ he => nomatch he
  | cons e es ih =>
    obtain ⟨he, hes⟩ := List.forall_mem_cons.mp hs
    have hstep (gids : List Nat) : Steady gids s (killWhole (faultReport s e.2 .assay e.2.pc 0 0) e.1) :=
      steady_trans (steady_faultReport ..) (steady_killWhole ..)
    have hrest (gids : List Nat) := steady_foldl (gids := gids) (f := fun (s : State) (e : Nat × Group) =>
        killWhole (faultReport s e.2 .assay e.2.pc 0 0) e.1)
      (fun s e => steady_trans (steady_faultReport ..) (steady_killWhole ..)) es
      (killWhole (faultReport s e.2 .assay e.2.pc 0 0) e.1)
    refine List.forall_mem_cons.mpr ⟨⟨?_, ?_⟩, ih fun e' he' => (hstep []).here _ (hes e' he')⟩
    · refine (hrest []).reports _ ?_
      obtain ⟨d, hd⟩ := faultReport_frame s e.2 .assay e.2.pc 0 0
      refine (steady_killWhole (gids := []) _ e.1).reports _ ?_
      rw [hd]
      exact List.mem_append_right _ (List.mem_singleton.mpr rfl)
    · refine (hrest [e.1]).gone _ (List.mem_singleton.mpr rfl) ?_
      have hf := (steady_faultReport (gids := []) s e.2 .assay e.2.pc 0 0).here _ he
      obtain ⟨g, hg⟩ := Option.isSome_iff_exists.mp hf
      exact gone_killWhole hg

theorem foldl_sendReturn_frame {α : Type} (f : State → α → Return) (es : List α) (s : State) :
    ∃ r, es.foldl (fun s e => sendReturn s (f s e)) s = { s with rets := r } := by
  induction es generalizing s with
  | nil => exact ⟨s.rets, rfl⟩
  | cons e es ih =>
    obtain ⟨r, h⟩ := ih (sendReturn s (f s e))
    exact ⟨r, h⟩

theorem emptyLanding_frame (s : State) (core : Nat) : ∃ c r,
    emptyLanding s core = { s.setCore core { s.coreAt core with pools := [] } with conts := c, rets := r } := by
  refine ⟨s.conts.filter fun c => !(c.fromPkg == s.pkgid && c.fromCore == core && c.fromSlot.isSome), ?_⟩
  exact foldl_sendReturn_frame _ _ _

/-- Launches rewritten one by one, their saved blocks as they were. -/
theorem steady_mapLaunches {gids : List Nat} (s : State) {h : Nat × Launch → Nat × Launch} (hk : ∀ e, (h e).1 = e.1)
    (hb : ∀ e, (h e).2.savedBlocks = e.2.savedBlocks) : Steady gids s { s with launches := s.launches.map h } := by
  refine ⟨fun _ => rfl, fun _ => rfl, fun _ h => h, fun _ h => h, fun _ _ h => h, rfl, fun k => ?_⟩
  simp only [State.launch?, find_map _ _ hk, Option.map_map]
  exact congrArg (fun f => Option.map f _) (funext fun l => hb (k, l))

theorem steady_corePassed {gids : List Nat} (s : State) (core : Nat) : Steady gids s (corePassed s core) := by
  unfold corePassed
  refine steady_trans ?_ (steady_foldl_writeFinal _ _)
  exact steady_mapLaunches s (fun _ => rfl) fun _ => rfl

theorem steady_coreSuspect {gids : List Nat} (s : State) (core : Nat) : Steady gids s (coreSuspect s core) := by
  unfold coreSuspect
  refine steady_trans ?_ (steady_foldl_writeFinal _ _)
  exact steady_mapLaunches s (fun _ => by split <;> rfl) fun _ => by split <;> rfl

/-- What is left of a core that failed. -/
theorem failCore_keeps (s : State) (core : Nat) :
    bareCore ((failCore s core).coreAt core) = bareCore { s.coreAt core with oos := true, pools := [] } ∧
    (∀ r ∈ (killCore (s.setCore core { s.coreAt core with oos := true }) core).reports, r ∈ (failCore s core).reports) ∧
    ∀ k, Gone k (killCore (s.setCore core { s.coreAt core with oos := true }) core) → Gone k (failCore s core) := by
  unfold failCore
  dsimp only
  have hk := (killCore_keeps (gids := []) (s.setCore core { s.coreAt core with oos := true }) core).cores core
  generalize killCore (s.setCore core { s.coreAt core with oos := true }) core = u at *
  obtain ⟨c, r, he⟩ := emptyLanding_frame u core
  rw [coreAt_setCore_same] at hk
  have hs (gids : List Nat) := steady_coreSuspect (gids := gids) (emptyLanding u core) core
  refine ⟨((hs []).cores core).trans ?_, fun x hx => (hs []).reports x ?_, fun k hg =>
    (hs [k]).gone k (List.mem_singleton.mpr rfl) ?_⟩
  · have hce : (emptyLanding u core).coreAt core = { u.coreAt core with pools := [] } := by
      rw [he]; exact coreAt_setCore_same ..
    rw [hce]
    exact congrArg (fun x : Core => { x with pools := [] }) hk
  · rw [he]; exact hx
  · rw [he]; exact hg

theorem steady_assayLog {gids : List Nat} (s : State) (die core code : Nat) : Steady gids s (assayLog s die core code) :=
  steady_pitWrite ..

/-! ### Voltage, droop and heat (R328 to R331) -/

@[simp] theorem domainAt_setDomain_same (s : State) (n : Nat) (x : Domain) : (s.setDomain n x).domainAt n = x := by
  simp [State.domainAt, State.setDomain]

@[simp] theorem gddrAt_setGddr_same (s : State) (n : Nat) (x : Gddr) : (s.setGddr n x).gddrAt n = x := by
  simp [State.gddrAt, State.setGddr]

theorem tallowOf_of_since16 {dom : Nat} (hd : dom < 8) (h : (s.domainAt dom).since16.isSome = true) :
    s.tallowOf (dieOfDomain dom) = 0 := by
  rw [State.tallowOf, if_pos]
  exact List.any_eq_true.mpr ⟨dom, List.mem_range.mpr hd, by simp [h]⟩

theorem canary_warning_at_top {dom : Nat} (hd : dom < 8) (hs : 16 ≤ (s.domainAt dom).steps) :
    ∃ t, exec (.canary_warning dom) s = .next t ∧ (t.domainAt dom).steps = (s.domainAt dom).steps ∧
      (t.domainAt dom).since16.isSome = true ∧ t.tallowOf (dieOfDomain dom) = 0 := by
  simp only [exec_canary_warning, execCanaryWarning, ge_iff_le, if_neg (Nat.not_le.mpr hd), if_neg (Nat.not_lt.mpr hs)]
  refine ⟨_, rfl, by rw [domainAt_setDomain_same], ?_, tallowOf_of_since16 hd ?_⟩ <;> rw [domainAt_setDomain_same] <;> rfl

theorem clusterAt_pitWrite (s : State) (die kind code core slot : Nat) (d0 d1 : DWord) (secure : Bool) (n : Nat) :
    (pitWrite s die kind code core slot d0 d1 secure).clusterAt n = s.clusterAt n := by
  obtain ⟨x, h⟩ := pitWrite_frame s die kind code core slot d0 d1 secure
  rw [h]; rfl

theorem gddrAt_pitWrite (s : State) (die kind code core slot : Nat) (d0 d1 : DWord) (secure : Bool) (n : Nat) :
    (pitWrite s die kind code core slot d0 d1 secure).gddrAt n = s.gddrAt n := by
  obtain ⟨x, h⟩ := pitWrite_frame s die kind code core slot d0 d1 secure
  rw [h]; rfl

theorem droop_trip_stretches (cl : Nat) (s : State) :
    ∃ t, exec (.droop_trip cl) s = .next t ∧ (t.clusterAt cl).stretched = true := by
  simp only [exec_droop_trip, execDroopTrip]
  split
  · split
    · exact ⟨_, rfl, by rw [clusterAt_setCluster_same]⟩
    · exact ⟨_, rfl, by rw [clusterAt_pitWrite, clusterAt_setCluster_same]⟩
  · exact ⟨_, rfl, by rw [clusterAt_pitWrite, clusterAt_setCluster_same]⟩

theorem gddr_overheat_marks {ctrl : Nat} (temp : Int) (hc : ctrl < 32) : ∃ t, exec (.gddr_overheat ctrl temp) s = .next t ∧
    (t.gddrAt ctrl).temp = temp ∧ ((t.gddrAt ctrl).halved = true ↔ 95000 < temp) ∧
    (85000 < temp → (t.gddrAt ctrl).doubled = true) ∧ (temp < 83000 → (t.gddrAt ctrl).doubled = false) := by
  have hy : ∃ t, exec (.gddr_overheat ctrl temp) s = .next t ∧ t.gddrAt ctrl = {
      temp := temp,
      doubled := decide (temp > 85000) || (s.gddrAt ctrl).doubled && decide (temp ≥ 83000),
      halved := decide (temp > 95000) } := by
    simp only [exec_gddr_overheat, execGddrOverheat, ge_iff_le, if_neg (Nat.not_le.mpr hc)]
    split
    · refine ⟨_, rfl, ?_⟩
      rw [gddrAt_pitWrite]
      exact gddrAt_setGddr_same s ctrl _
    · exact ⟨_, rfl, gddrAt_setGddr_same ..⟩
  obtain ⟨t, ht, he⟩ := hy
  refine ⟨t, ht, ?_⟩
  rw [he]
  refine ⟨rfl, decide_eq_true_iff, fun h => by simp [h], fun h => ?_⟩
  simp only [Bool.or_eq_false_iff, Bool.and_eq_false_imp, decide_eq_false_iff_not]
  omega

/-! ### Scans (R322 to R325) -/

theorem assay_scan_start_scans {die : Nat} {a : AssaySlot} (ha : (s.dieAt die).assay = some a) (hf : a.scanFrom = none)
    (hd : drained s a.core = true) (ht : since (s.dieAt die).ntime a.opened ≤ 50000) :
    ∃ t, exec (.assay_scan_start die) s = .next t ∧ (t.coreAt a.core).scanning = true ∧
      (t.dieAt die).assay = some { a with scanFrom := some (s.dieAt die).ntime } := by
  simp only [exec_assay_scan_start, execAssayScanStart, ha, hf, hd, Option.isSome_none, Bool.not_true, Bool.or_self,
    decide_eq_false (Nat.not_lt.mpr ht), Bool.false_eq_true, if_false]
  refine ⟨_, rfl, by rw [coreAt_setCore_same], ?_⟩
  exact congrArg Die.assay (dieAt_setDie_same s die _)

/-- The state after a scan's result, before its slot ends. -/
def scanned (s : State) (die : Nat) (a : AssaySlot) (pass : Bool) : State :=
  let k := s.coreAt a.core
  let s := assayLog (s.setCore a.core { k with skip := 0, passes := if pass then k.passes + 1 else k.passes })
    die a.core (if pass then 0 else 1)
  if pass then corePassed s a.core else failCore s a.core

theorem exec_assay_scan_end_eq (pass : Bool) {die : Nat} {a : AssaySlot} {t0 : DWord} (ha : (s.dieAt die).assay = some a)
    (hf : a.scanFrom = some t0) (ht : 20000 ≤ since (s.ntime die) t0) : exec (.assay_scan_end die pass) s =
      .next (endSlot (scanned s die a pass) die a.core (a.core % 144 + 1)) := by
  simp only [exec_assay_scan_end, execAssayScanEnd, ha, hf, if_neg (Nat.not_lt.mpr ht)]
  rfl

/-- The core before the result of its scan is acted upon. -/
theorem core_assayLog (s : State) (die c code : Nat) (x : Core) :
    bareCore ((assayLog (s.setCore c x) die c code).coreAt c) = bareCore x := by
  rw [(steady_assayLog (gids := []) (s.setCore c x) die c code).cores c, coreAt_setCore_same]

theorem core_scanned_pass (s : State) (die : Nat) (a : AssaySlot) : bareCore ((scanned s die a true).coreAt a.core) =
    bareCore { s.coreAt a.core with skip := 0, passes := (s.coreAt a.core).passes + 1 } :=
  ((steady_corePassed (gids := []) _ a.core).cores a.core).trans (core_assayLog ..)

theorem core_scanned_fail (s : State) (die : Nat) (a : AssaySlot) : bareCore ((scanned s die a false).coreAt a.core) =
    bareCore { s.coreAt a.core with skip := 0, oos := true, pools := [] } :=
  (failCore_keeps _ a.core).1.trans
    (congrArg (fun x : Core => { x with oos := true, pools := [] }) (core_assayLog s die a.core 1 _))

/-- A group that is resident as its core fails is reported and killed. -/
theorem group_scanned_fail (s : State) (die : Nat) (a : AssaySlot) : ∀ e ∈ residentOn s a.core,
    Report.fault (causeCode .assay).toNat e.2.core (slotOf e.2) e.2.wid e.2.pc 0 0 ∈ (scanned s die a false).reports ∧
      Gone e.1 (scanned s die a false) := by
  intro e he
  obtain ⟨x, hx⟩ := pitWrite_frame (s.setCore a.core { s.coreAt a.core with skip := 0, passes := (s.coreAt a.core).passes })
    die 6 1 a.core noSlot 0 0 false
  have hlog : assayLog (s.setCore a.core { s.coreAt a.core with skip := 0, passes := (s.coreAt a.core).passes }) die
      a.core 1 = _ := hx
  have hsc : scanned s die a false = failCore (assayLog (s.setCore a.core { s.coreAt a.core with
      skip := 0, passes := (s.coreAt a.core).passes }) die a.core 1) a.core := rfl
  rw [hsc, hlog]
  generalize hv : ({ s.setCore a.core { s.coreAt a.core with skip := 0, passes := (s.coreAt a.core).passes } with
    dies := x } : State) = v
  have hgv : v.groups = s.groups := by rw [← hv]; rfl
  obtain ⟨-, hr, hg⟩ := failCore_keeps v a.core
  have hres : residentOn (v.setCore a.core { v.coreAt a.core with oos := true }) a.core = residentOn s a.core :=
    congrArg (fun m : Map Group => m.filter _) hgv
  have hsome : ∀ e ∈ residentOn s a.core,
      ((v.setCore a.core { v.coreAt a.core with oos := true }).group? e.1).isSome = true := by
    intro e he
    refine isSome_find_of_mem (v := e.2) ?_
    have hm : e ∈ v.groups := hgv ▸ (List.mem_filter.mp he).1
    exact hm
  obtain ⟨hk, hgone⟩ := killCore_kills _ hsome e he
  rw [← hres] at hk hgone
  exact ⟨hr _ hk, hg _ hgone⟩

theorem assay_skip_skips {die : Nat} {a : AssaySlot} (ha : (s.dieAt die).assay = some a) (hf : a.scanFrom = none)
    (ht : drained s a.core = false ∧ 50000 ≤ since (s.ntime die) a.opened ∨ 50000 < since (s.ntime die) a.opened) :
    ∃ t, exec (.assay_skip die) s = .next t ∧ (t.dieAt die).assay = none ∧ (t.dieAt die).nextAssay = a.core % 144 ∧
      (t.coreAt a.core).skip = if (s.coreAt a.core).skip = 255 then 255 else (s.coreAt a.core).skip + 1 := by
  have hx : exec (.assay_skip die) s = .next (endSlot (assayLog (s.setCore a.core { s.coreAt a.core with
      skip := if (s.coreAt a.core).skip = 255 then 255 else (s.coreAt a.core).skip + 1 }) die a.core 2) die a.core
      (a.core % 144)) := by
    have hc : ¬(a.scanFrom.isSome || decide (since (s.ntime die) a.opened < 50000) ||
        drained s a.core && since (s.ntime die) a.opened == 50000) = true := by
      rw [hf]
      rcases ht with ⟨hd, ht⟩ | ht
      · simp [hd, ht]
      · simp; omega
    simp only [exec_assay_skip, execAssaySkip, ha, if_neg hc]
    rfl
  obtain ⟨hc, hd, hn, -, -, -⟩ := endSlot_keeps (assayLog (s.setCore a.core { s.coreAt a.core with
    skip := if (s.coreAt a.core).skip = 255 then 255 else (s.coreAt a.core).skip + 1 }) die a.core 2) die a.core (a.core % 144)
  obtain ⟨-, -, hskip, -, -⟩ := gateless_fields (hc.trans (gateless_resumed (core_assayLog s die a.core 2 _)))
  exact ⟨_, hx, hd, hn.trans (Nat.mod_mod ..), hskip⟩

end Sys2Proof.Machine

namespace Sys2Proof

open Machine Machine.Assoc Machine.Bits Claims

/-- Settles O51: the registers by their own writes; a slot's end by what the kills and the groups that catch up leave of
cores, dies, reports and killed groups. -/
theorem powerSteps : Obligations.PowerSteps := by
  unfold Obligations.PowerSteps
  refine ⟨fun cl s => ?_, fun die r rest s hv => ⟨fun hr => ?_, fun hr ht => ?_⟩, fun core a s ha hg hst hb hf hs => ?_,
    fun dom s hd hs => ?_, fun dom s hd hs => ?_, fun dom s hd hs ht => ?_, fun dom t s hs hf ht => ?_, fun cl s => ?_,
    fun cl s => rfl, fun die temp s => rfl, fun ctrl temp s hc => ?_, fun die core s ha hn hc => nextSlot_open ha hn hc,
    fun die a s ha hsc hd ht => ?_, fun die a t0 s ha hsc' ht => ?_, fun die a t0 s ha hsc' ht => ?_,
    fun die a s ha hsc ht => ?_⟩
  · obtain ⟨t, ht, hc, hm, hcyc⟩ := token_refill_counts cl s
    exact ⟨t, ht, by rw [hc, refill_mtbal], by rw [hc]; rfl, hcyc, hm⟩
  · simp [execFrequencyChange, hv, hr]
  · simp [execVfsetTimeout, hv, hr, Nat.not_lt.mpr ht]
  · rw [exec_core_gate, execCoreGate, settleGate_of_idle ha hg hst hb hf hs]
  · simp [execCanaryWarning, Nat.not_le.mpr hd, hs]
  · exact canary_warning_at_top hd hs
  · have hn : ¬(8 ≤ dom ∨ (s.domainAt dom).steps = 0 ∨
        since (s.ntime (dieOfDomain dom)) (s.domainAt dom).lastWarn < 10000000) := by omega
    rw [exec_voltage_step_down, execVoltageStepDown]
    exact if_neg hn ▸ rfl
  · simp [execCanaryFatal, hs, hf, Nat.not_lt.mpr ht]
  · exact droop_trip_stretches cl s
  · exact gddr_overheat_marks temp hc
  · exact assay_scan_start_scans ha hsc hd ht
  · obtain ⟨hc, hd, -, -, -, hgate⟩ := endSlot_keeps (scanned s die a true) die a.core (a.core % 144 + 1)
    have hsc := core_scanned_pass s die a
    obtain ⟨hscan, hpass, hskip, hoos, -⟩ := gateless_fields (hc.trans (gateless_resumed hsc))
    obtain ⟨hreq, hstat⟩ := bareCore_gate hsc
    exact ⟨_, exec_assay_scan_end_eq true ha hsc' ht, hscan, hpass, hskip, hd, hoos,
      fun hq h3 => hgate (by rw [hreq]; exact hq) (hstat.trans h3)⟩
  · obtain ⟨hc, hd, -, hr, hg, -⟩ := endSlot_keeps (scanned s die a false) die a.core (a.core % 144 + 1)
    have hsc := core_scanned_fail s die a
    obtain ⟨hscan, hpass, -, hoos, hpools⟩ := gateless_fields (hc.trans (gateless_resumed hsc))
    refine ⟨_, exec_assay_scan_end_eq false ha hsc' ht, hoos, hscan, hpools, hd, hpass, fun e he => ?_⟩
    obtain ⟨hrep, hgone⟩ := group_scanned_fail s die a e he
    obtain ⟨g', hg', hl, ham, -⟩ := gone_group (hg _ hgone)
    exact ⟨hr _ hrep, g', hg', hl, ham⟩
  · exact assay_skip_skips ha hsc ht

end Sys2Proof

/-! Records, returns and notices on their way (R197 to R208). -/

namespace Sys2Proof.Machine

open Assoc Bits Claims

variable {s : State} {k gid : Nat}

/-! ### Records that arrive (R198, R207) -/

section
variable {c : Cont}

theorem exec_continuation_arrival_of_held (hk : s.conts[k]? = some c) (hh : heldBack s.conts k c = true) :
    exec (.continuation_arrival k) s = .next s := by
  simp [execContinuationArrival, hk, hh]

/-- A record for another package. -/
theorem exec_continuation_arrival_away (hk : s.conts[k]? = some c) (hh : heldBack s.conts k c = false) (hp : c.pkg ≠ s.pkgid) :
    exec (.continuation_arrival k) s =
      .next (if unreachable s c.pkg then sendReturn (recordGone { s with conts := s.conts.eraseIdx k } c)
          (bareReturn s 4 (orderOf s c.fromPkg c.clk) c.org)
        else if noticeFirst s c then s else recordGone { s with conts := s.conts.eraseIdx k } c) := by
  simp [execContinuationArrival, hk, hh, hp]

/-- A record that no launch, or a core out of service, would take. -/
theorem exec_continuation_arrival_refused (hk : s.conts[k]? = some c) (hh : heldBack s.conts k c = false)
    (hp : c.pkg = s.pkgid) (hr : landingLaunch s c = none ∨ (s.coreAt c.core).oos = true ∨ 575 < c.core) :
    exec (.continuation_arrival k) s = .next (sendReturn (recordGone { s with conts := s.conts.eraseIdx k } c)
      (bareReturn s 4 (orderOf s c.fromPkg c.clk) c.org)) := by
  cases hl : landingLaunch s c with
  | none => simp [execContinuationArrival, hk, hh, hp, hl]
  | some lid =>
    have ho : ((s.coreAt c.core).oos || decide (c.core > 575)) = true := by
      rcases hr with hr | hr | hr
      · rw [hl] at hr; cases hr
      · simp [hr]
      · simp [hr]
    simp [execContinuationArrival, hk, hh, hp, hl, ho]

/-- A record for a core in service. -/
theorem exec_continuation_arrival_here {lid : Nat} (hk : s.conts[k]? = some c) (hh : heldBack s.conts k c = false)
    (hp : c.pkg = s.pkgid) (hl : landingLaunch s c = some lid) (ho : (s.coreAt c.core).oos = false) (hc : c.core ≤ 575) :
    let s1 := wakeGated (recordGone { s with conts := s.conts.eraseIdx k } c) c.core
    exec (.continuation_arrival k) s = .next (
      match admitRecord (s1.coreAt c.core) lid (homeMode s lid c) (orderOf s c.fromPkg c.clk) with
      | none => s
      | some core => s1.setCore c.core core) := by
  simp only [exec_continuation_arrival, execContinuationArrival, hk, hh, hp, hl, ho, Nat.not_lt.mpr hc, gt_iff_lt,
    decide_false, Bool.or_self, Bool.false_eq_true, if_false, ne_eq, not_true_eq_false]
  generalize admitRecord _ _ _ _ = x
  cases x <;> rfl

end

/-! ### Pools (R198, R200, R372) -/

theorem pool_due_marks {core : Nat} {p : Pool} (hp : (s.coreAt core).pools[k]? = some p) :
    ∃ t, exec (.pool_due core k) s = .next t ∧ t.mem = s.mem ∧ t.groups = s.groups ∧
      (t.coreAt core).pools[k]? = some { p with due := decide (p.recs.length = 32 ∨
        max 16 (s.coreAt core).ldtmo.toNat ≤ since (s.coreAt core).cyc p.since) } := by
  refine ⟨_, rfl, rfl, rfl, ?_⟩
  rw [coreAt_setCore_same]
  dsimp only
  rw [List.getElem?_modify_eq, hp, Option.map_eq_map, Option.map_some, poolDue, landingTimer, Bool.decide_or]

theorem migrant_launch_adds {core i slot : Nat} {p : Pool} {l : Launch}
    (hn : nextPool (refreshDue (s.coreAt core)).pools = some i)
    (hs : (List.range Config.landingSlots).find? (landingSlotFree s core) = some slot)
    (hp : (refreshDue (s.coreAt core)).pools[i]? = some p) (hl : s.launch? p.launch = some l)
    (hh : landingHeld s core = false) : exec (.migrant_launch core) s = .next (addGroup (s.setCore core
      { refreshDue (s.coreAt core) with pools := (refreshDue (s.coreAt core)).pools.eraseIdx i }) (migrantOf l core slot p)) := by
  simp only [exec_migrant_launch, execMigrantLaunch, hn, hs, hp, hl, hh, Bool.false_eq_true, if_false]

/-! ### Returns (R204) -/

theorem exec_return_arrival_of_home {r : Return} {g : Group} (hr : s.rets[k]? = some r) (hp : r.org.hpkg = s.pkgid)
    (hf : s.fenced.contains r.fromPkg = false) (hg : homeGroup s r.org.hcore r.org.hslot r.org.gen = some (gid, g)) :
    exec (.return_arrival k) s = .next (returnTo { s with rets := s.rets.eraseIdx k } gid r.org.hlane
      ⟨r.kind, if r.kind = 1 then r.org.carry else 0, r.vals, r.bad, orderOf s r.fromPkg r.clk⟩) := by
  have hg' : homeGroup { s with rets := s.rets.eraseIdx k } r.org.hcore r.org.hslot r.org.gen = some (gid, g) := hg
  have hc : ¬(decide (r.org.hpkg ≠ s.pkgid) || s.fenced.contains r.fromPkg) = true := by simp [hp] at *; exact hf
  simp only [exec_return_arrival, execReturnArrival, hr, if_neg hc, hg']
  rfl

/-- A lane that is not away, or has its entry, gets none. -/
theorem group?_returnTo_of_kept {j : Nat} {g : Group} (e : RetEntry) (hg : s.group? gid = some g)
    (h : g.away.getLsbD j = false ∨ (find g.cont.rets j).isSome = true) : (returnTo s gid j e).group? gid = some g := by
  have hc : ¬(g.away.getLsbD j && (find g.cont.rets j).isNone) = true := by
    rcases h with h | h
    · simp [h]
    · simp only [Bool.and_eq_true, not_and, Option.isNone_iff_eq_none]
      intro _ hn
      rw [hn] at h
      cases h
  rw [returnTo, group?_updGroup, if_pos rfl, hg, Option.map_some, if_neg hc]

theorem exec_rejoin_apply_of_returned {g : Group} (hg : s.group? gid = some g) (hst : g.status = .parked .rejoin)
    (hr : allReturned g = true) (hp : preemptDue s gid g = false) (hs : (s.coreAt g.core).scanning = false) :
    exec (.rejoin_apply gid) s = .next (if rejoinWindow g then parkedFault s gid g .window 0
      else match applyEntries g with
        | (g', none) => boundary ((ranHere s g).setGroup gid (unpark g')) gid
        | (g', some (c, ls)) => haltTrapped (trapBoundary ((ranHere s g).setGroup gid g') gid
          ⟨c, false, g.pc, g.pc + 4, ls, 0, g.ins⟩) gid) := by
  simp only [exec_rejoin_apply, execRejoinApply, hg, hst, bne_self_eq_false, hr, hp, hs, Bool.not_true, Bool.or_self,
    Bool.false_eq_true, if_false]
  split
  · rfl
  · generalize applyEntries g = x
    obtain ⟨g', _ | ⟨c, ls⟩⟩ := x <;> rfl

end Sys2Proof.Machine

namespace Sys2Proof

open Machine Machine.Assoc Machine.Bits Claims

/-- Settles O52: each step by the branch of its definition that the circumstances choose. -/
theorem networkSteps : Obligations.NetworkSteps := by
  unfold Obligations.NetworkSteps
  refine ⟨fun k lid c core s hk hh hp hl ho hc => ?_, fun k c s hk hh hp hr => exec_continuation_arrival_refused hk hh hp hr,
    fun k c s hk hh => exec_continuation_arrival_of_held hk hh, fun k c s hk hh hp => exec_continuation_arrival_away hk hh hp,
    fun core k p s hp => pool_due_marks hp, fun core i slot p l s hn hs hp hl hh => ?_,
    fun k gid r g s hr hp hf hg => exec_return_arrival_of_home hr hp hf hg,
    fun s gid j g e hg h => group?_returnTo_of_kept e hg h, fun gid g g' s hg hst hr hp hs hw ha => ?_,
    fun gid g g' c ls s hg hst hr hp hs => ⟨fun hw => ?_, fun hw ha => ?_⟩, fun gid g s hg hst hm => ⟨fun hs => ?_, fun hs => ?_⟩,
    fun gid g s hg hst hk ha => ?_, fun k gid n g s hn hp hg => ?_⟩
  · rw [exec_continuation_arrival_here hk hh hp hl ho hc]
    exact ⟨fun h => by rw [h], fun h => by rw [h]⟩
  · refine ⟨_, _, _, migrant_launch_adds hn hs hp hl hh, find_set_same .., rfl, rfl, rfl, rfl, rfl, rfl, rfl, ?_, rfl⟩
    exact congrArg Core.pools (coreAt_setCore_same s core _)
  · rw [exec_rejoin_apply_of_returned hg hst hr hp hs, if_neg (by simp [hw]), ha]
  · rw [exec_rejoin_apply_of_returned hg hst hr hp hs, if_pos hw]
  · rw [exec_rejoin_apply_of_returned hg hst hr hp hs, if_neg (by simp [hw]), ha]
  · simp [execExitAwayRetire, hg, hst, hm, hs]
  · simp [execExitAwayRetire, hg, hst, hm, hs]
  · simp [execExitAwayRetire, hg, hst, mayRetire, hk, ha]
  · have hg' : homeGroup { s with notices := s.notices.eraseIdx k } n.hcore n.hslot n.gen = some (gid, g) := hg
    simp only [exec_site_notice, execSiteNotice, hn, hp, if_true, hg']
    rfl

end Sys2Proof

/-! What happens to one group between its instructions (R183, R221 to R244). -/

namespace Sys2Proof.Machine

open Assoc Bits Claims

variable {s : State} {gid : Nat} {g : Group}

/-! ### Joins touch the views and the outstanding stores alone -/

/-- What a join leaves of a group. -/
theorem seeAll_frame (s : State) (a : Aud) (g : Group) : ∃ v, seeAll s a g = { g with view := v } := by
  unfold seeAll
  cases everything s a with
  | nil => exact ⟨g.view, rfl⟩
  | cons x k =>
    suffices h : ∀ (l : List Nat) (h : Group), (∃ v, h = { g with view := v }) → ∃ v,
        l.foldl (fun g st => let v := viewAt g st; setView g st { v with fenced := joinSeen v.fenced (x :: k) }) h =
          { g with view := v } from h _ g ⟨g.view, rfl⟩
    intro l
    induction l with
    | nil => exact fun _ h => h
    | cons st l ih =>
      rintro h ⟨v, rfl⟩
      exact ih _ ⟨_, rfl⟩

/-- The fields of a group that a join leaves. -/
theorem acquireSlot_frame (s : State) (g : Group) (k : Nat) :
    ∃ v w u, acquireSlot s g k = { g with view := v, wbuf := w, unread := u } := by
  have all (a : Aud) (w : List PendStore) (u : List Nat) :
      ∃ v w' u', seeAll s a { g with wbuf := w, unread := u } = { g with view := v, wbuf := w', unread := u' } :=
    (seeAll_frame s a _).imp fun _ h => ⟨w, u, h⟩
  unfold acquireSlot
  cases find g.ev.slots k with
  | none => exact ⟨_, _, _, rfl⟩
  | some e =>
    dsimp only
    split
    · exact all _ _ _
    · exact all _ _ _
    iterate 2
      by_cases hp : g.pending.contains (evArg e.src)
      · rw [if_pos hp]
        exact all _ _ _
      · rw [if_neg hp]
        exact all _ _ _
    · exact ⟨_, _, _, rfl⟩

/-- The slot taken: its bit clear, the PC at its handler. -/
theorem takeSlot_acquireSlot (s : State) (g : Group) (k : Nat) :
    let g' := takeSlot (acquireSlot s g k) k
    g'.pc = (if handlerOf g k = 0 then g.pc + 4 else handlerOf g k) ∧ g'.ev.pend = g.ev.pend &&& ~~~(slotBit k) ∧
      g'.v = g.v ∧ g'.amask = g.amask := by
  obtain ⟨v, w, u, ha⟩ := acquireSlot_frame s g k
  rw [ha]
  have hh : handlerOf { g with view := v, wbuf := w, unread := u } k = handlerOf g k := rfl
  by_cases h : handlerOf g k = 0
  · simp only [takeSlot, hh, if_pos h, and_self]
  · simp only [takeSlot, hh, if_neg h, Group.setSPair, Group.setS, and_self]

/-! ### The clauses -/

section
variable {es : BitVec 8}

/-- A parked waitany wakes at the handler of the lowest slot (R223). -/
theorem exec_waitany_wake_of_aligned (hg : s.group? gid = some g) (hp : g.status = .parked (.waitany es))
    (ht : takeable (refreshLevels s g) es ≠ 0) (hd : preemptDue s gid (refreshLevels s g) = false)
    (hs : (s.coreAt (refreshLevels s g).core).scanning = false)
    (ha : handlerOf (refreshLevels s g) (lowestSlot (takeable (refreshLevels s g) es)) &&& 3 = 0) :
    ∃ g', exec (.waitany_wake gid) s = .next ((ranHere s g).setGroup gid g') ∧ g'.status = .ready ∧
      (let g1 := refreshLevels s g
        let k := lowestSlot (takeable g1 es)
        g'.pc = (if handlerOf g1 k = 0 then g1.pc + 4 else handlerOf g1 k) ∧
      g'.ev.pend = g1.ev.pend &&& ~~~(slotBit k) ∧ g'.v = g1.v ∧ g'.amask = g1.amask) := by
  have hr : ∀ h, (takeSlot (acquireSlot s (refreshLevels s g) h) h).launch = g.launch ∧
      (takeSlot (acquireSlot s (refreshLevels s g) h) h).core = g.core := by
    intro h
    obtain ⟨v, w, u, hq⟩ := acquireSlot_frame s (refreshLevels s g) h
    rw [hq, takeSlot]
    split <;> exact ⟨rfl, rfl⟩
  let h := lowestSlot (takeable (refreshLevels s g) es)
  let g' := takeSlot (acquireSlot s (refreshLevels s g) h) h
  refine ⟨{ g' with status := .ready, chain := g'.chain.close, dbg := { g'.dbg with haltDue := g'.dbg.haltDue || g'.dbg.step } },
    ?_, rfl, takeSlot_acquireSlot s (refreshLevels s g) _⟩
  simp only [exec_waitany_wake, execWaitanyWake, hg, hp, ht, hd, hs, ha]
  simp [ranHere, hr, g', h]

/-- A misaligned handler of a parked waitany. -/
theorem exec_waitany_wake_of_misaligned (hg : s.group? gid = some g) (hp : g.status = .parked (.waitany es))
    (ht : takeable (refreshLevels s g) es ≠ 0) (hd : preemptDue s gid (refreshLevels s g) = false)
    (hs : (s.coreAt (refreshLevels s g).core).scanning = false)
    (ha : handlerOf (refreshLevels s g) (lowestSlot (takeable (refreshLevels s g) es)) &&& 3 ≠ 0) :
    exec (.waitany_wake gid) s = .next (parkedFault s gid (refreshLevels s g) .align
      (handlerOf (refreshLevels s g) (lowestSlot (takeable (refreshLevels s g) es)))) := by
  simp only [exec_waitany_wake, execWaitanyWake, hg, hp, ht, hd, hs, ne_eq, ha]
  simp

end

/-- A pit log's entry is no report. -/
theorem reports_pitWrite (s : State) (die kind code core slot : Nat) (d0 d1 : DWord) (secure : Bool) :
    (pitWrite s die kind code core slot d0 d1 secure).reports = s.reports := by
  obtain ⟨d, hd⟩ := pitWrite_frame s die kind code core slot d0 d1 secure
  rw [hd]

section
variable {cl b : Nat}

/-- The barrier that `setCluster` puts in its cluster. -/
theorem bar_setCluster (s : State) (cl b : Nat) (o : Barrier) :
    get Barrier.idle ((s.setCluster cl { s.clusterAt cl with
      bars := put Barrier.idle (s.clusterAt cl).bars b o }).clusterAt cl).bars b = o := by
  rw [clusterAt_setCluster_same]
  exact get_put_same _ _ _ _

/-- A barrier open for 100 ms is reported once. -/
theorem exec_barrier_stall_of_old (ho : (get Barrier.idle (s.clusterAt cl).bars b).isOpen = true)
    (hs : (get Barrier.idle (s.clusterAt cl).bars b).stall = false)
    (hd : barDbgBlk s (get Barrier.idle (s.clusterAt cl).bars b) = false)
    (ht : 100000000 ≤ since (s.ntime (dieOfCluster cl)) (get Barrier.idle (s.clusterAt cl).bars b).since) :
    ∃ t, exec (.barrier_stall cl b) s = .next t ∧
      get Barrier.idle (t.clusterAt cl).bars b = { get Barrier.idle (s.clusterAt cl).bars b with stall := true } ∧
      t.reports = s.reports ++ [.barStall cl b] := by
  let s1 := s.setCluster cl { s.clusterAt cl with
    bars := put Barrier.idle (s.clusterAt cl).bars b { get Barrier.idle (s.clusterAt cl).bars b with stall := true } }
  let s2 := pitWrite s1 (dieOfCluster cl) 8 0 noCore noSlot 0 0 false
  refine ⟨report s2 (.barStall cl b), by simp [execBarrierStall, ho, hs, hd, Nat.not_lt.mpr ht, s1, s2], ?_, ?_⟩
  · have hc : (report s2 (.barStall cl b)).clusterAt cl = s1.clusterAt cl := clusterAt_pitWrite _ _ _ _ _ _ _ _ _ _
    rw [hc]
    exact bar_setCluster s cl b _
  · exact congrArg (· ++ [Report.barStall cl b]) (reports_pitWrite _ _ _ _ _ _ _ _ _)

/-- The time is counted anew while a group that the barrier waits for is Halted. -/
theorem exec_barrier_stall_of_debug (ho : (get Barrier.idle (s.clusterAt cl).bars b).isOpen = true)
    (hd : barDbgBlk s (get Barrier.idle (s.clusterAt cl).bars b) = true) :
    ∃ t, exec (.barrier_stall cl b) s = .next t ∧ t.reports = s.reports ∧
      get Barrier.idle (t.clusterAt cl).bars b =
        { get Barrier.idle (s.clusterAt cl).bars b with since := s.ntime (dieOfCluster cl), stall := false } :=
  ⟨s.setCluster cl { s.clusterAt cl with
      bars := put Barrier.idle (s.clusterAt cl).bars b { get Barrier.idle (s.clusterAt cl).bars b with
        since := s.ntime (dieOfCluster cl), stall := false } },
    by simp [execBarrierStall, ho, hd], rfl, bar_setCluster s cl b _⟩

end

/-- The group that a completed batch leaves. -/
theorem finishBatch_mx (s : State) (held : Bool) (g : Group) (b : Batch) :
    (finishBatch s held g b).mx = { g.mx with mbdone := b.num, closed := g.mx.closed.drop 1 } ∧
      (finishBatch s held g b).fst = g.fst ||| b.flags := by
  have unparked (h : Group) : (unpark h).mx = h.mx ∧ (unpark h).fst = h.fst := by
    have adv (c : Chain) : ∃ ls pc, advance { h with chain := c } = { h with chain := c, lstack := ls, pc := pc } :=
      advance_frame _
    obtain ⟨ls, pc, ha⟩ := adv h.chain.close
    rw [unpark]
    by_cases hf : h.chain.close.fpFlags = 0
    · simp only [if_pos hf, ha]
      cases h.status <;> exact ⟨rfl, rfl⟩
    · simp only [if_neg hf]
      cases h.status <;> exact ⟨rfl, rfl⟩
  unfold finishBatch
  dsimp only
  split
  · split
    · obtain ⟨v, hv⟩ := seeAll_frame s .all { g with
        mx := { g.mx with mbdone := b.num, closed := g.mx.closed.drop 1 }, fst := g.fst ||| b.flags,
        ev := pendSlots g.ev fun d => evKind d == 6 && evArg d == b.num.toNat % 2 ^ 28 }
      rw [hv]
      exact unparked _
    · exact ⟨rfl, rfl⟩
  · exact ⟨rfl, rfl⟩

/-- The oldest closed batch completes once its operations are done (R262). -/
theorem exec_matrix_batch_complete_of_done {b : Batch} {bs : List Batch} (hg : s.group? gid = some g)
    (hc : g.mx.closed = b :: bs) (hq : batchQueued s gid g b.num = false) (hs : (s.coreAt g.core).scanning = false) :
    exec (.matrix_batch_complete gid) s = .next (lanesGone
      (uceLanes ((ranHere s g).setGroup gid (finishBatch s (forcedDue s gid g) g b)) gid b.kills g.pc) gid) := by
  simp [execMatrixBatchComplete, hg, hc, hq, hs]

/-- Neither acts while its core is scanned. -/
theorem exec_batch_and_save_of_scanning (hg : s.group? gid = some g) (hs : (s.coreAt g.core).scanning = true) :
    exec (.matrix_batch_complete gid) s = .next s ∧ exec (.forced_save gid) s = .next s := by
  constructor
  · simp only [exec_matrix_batch_complete, execMatrixBatchComplete, hg, hs, Bool.or_true, if_true]
    generalize g.mx.closed = bs
    cases bs <;> rfl
  · rw [exec_forced_save, execForcedSave, hg]
    dsimp only
    cases hl : s.launch? g.launch with
    | none => rfl
    | some l =>
      dsimp only
      cases l.preempt with
      | none => rfl
      | some r => exact if_pos (by rw [hs, Bool.or_true])

/-! ### A core's TLB is all that a fetch reads of it -/

section
variable {c : Nat} {k : Core}

theorem leafFor_setCore (hk : k.tlb = (s.coreAt c).tlb) (ag : Agent) (acc : Access) (va : DWord) :
    leafFor (s.setCore c k) ag acc va = leafFor s ag acc va := by
  have ht (n : Nat) : ((s.setCore c k).coreAt n).tlb = (s.coreAt n).tlb := by
    by_cases h : n = c
    · subst h
      rw [coreAt_setCore_same, hk]
    · rw [coreAt_setCore_other s k h]
  have hf (n ctx : Nat) : tlbFind (s.setCore c k) n ctx va acc = tlbFind s n ctx va acc := by
    simp only [tlbFind, ht]
    rfl
  simp only [leafFor, hf]
  rfl

theorem fetchAt_setCore (hk : k.tlb = (s.coreAt c).tlb) (g : Group) (va : DWord) :
    fetchAt (s.setCore c k) g va = fetchAt s g va := by
  have ht (ag : Agent) : translate (s.setCore c k) ag .fetch va = translate s ag .fetch va := by
    simp only [translate, leafFor_setCore hk]
    rfl
  have hr (ag : Agent) : resolve (s.setCore c k) ag .fetch va 4 = resolve s ag .fetch va 4 := by
    simp only [resolve, ht]
    rfl
  have ha : agentOf (s.setCore c k) g none = agentOf s g none := rfl
  simp only [fetchAt, ha, hr]
  rfl

/-- A scalar source reads of a core its cycles alone. -/
theorem srcS_setCore (hc : k.cyc = (s.coreAt c).cyc) (g : Group) (a : Code) : srcS (s.setCore c k) g a = srcS s g a := by
  have hy : cycOf (s.setCore c k) g = cycOf s g := by
    by_cases h : g.core = c
    · rw [cycOf, h, coreAt_setCore_same, hc, cycOf, h]
    · rw [cycOf, coreAt_setCore_other s k h, cycOf]
  have hs : special (s.setCore c k) g a.toNat = special s g a.toNat := by
    simp only [special, hy]
    rfl
  simp only [srcS, specialNow, hs]

theorem atBoundary_setCore (hk : k.tlb = (s.coreAt c).tlb) (hc : k.cyc = (s.coreAt c).cyc) (g : Group) :
    atBoundary (s.setCore c k) g = atBoundary s g := by
  have hw (i : Instr) : extraWrites (s.setCore c k) g i = extraWrites s g i := by
    simp only [extraWrites, srcS_setCore hc]
    rfl
  have hx (i : Instr) (os : List Opr) : chainFault (s.setCore c k) g i os = chainFault s g i os := by
    rw [chainFault, chainFault, hw]
  simp only [atBoundary, chainOver, fetchAt_setCore hk, hx]

end

/-- A breakpoint outside a chain halts at once (R244). -/
theorem exec_breakpoint_halt_of_boundary (hg : s.group? gid = some g) (hd : breakpointDue s g = true)
    (hb : atBoundary s g = true) : ∃ t g', exec (.breakpoint_halt gid) s = .next t ∧ t.group? gid = some g' ∧
      g'.status = .halted none ∧ g'.pc = g.pc ∧ g'.trap.tpc = g.pc ∧ g'.trap.tnext = g.pc ∧ g'.v = g.v ∧ g'.s = g.s ∧
      (t.coreAt g.core).bpHit = (s.coreAt g.core).bpHit ||| bpMatches (s.coreAt g.core) g.pc ∧
      t.reports = s.reports ++ [.halt gid] := by
  let k := { s.coreAt g.core with bpHit := (s.coreAt g.core).bpHit ||| bpMatches (s.coreAt g.core) g.pc }
  let s1 := s.setCore g.core k
  let g' := { g with
    status := .halted none, chain := g.chain.stop, trap := { g.trap with tpc := g.pc, tnext := g.pc } }
  have hb1 : atBoundary s1 g = true := (atBoundary_setCore (k := k) rfl rfl g).trans hb
  refine ⟨report (s1.setGroup gid g') (.halt gid), g', ?_, group?_setGroup_same s1 gid g', rfl, rfl, rfl, rfl, rfl, rfl, ?_, rfl⟩
  · simp only [exec_breakpoint_halt, execBreakpointHalt, hg, hd, if_true]
    rw [if_pos hb1]
  · exact congrArg Core.bpHit (coreAt_setCore_same s g.core _)

/-! ### A fetchw is answered (R89, R90) -/

section
variable {off : Nat} {rest : List Nat} {b : Block} {l : Launch} {w : DWord}

/-- What a group has yet to be answered has no say in the block that comes next. -/
theorem nextBlock_setGroup (s : State) (gid : Nat) (g h : Group) : nextBlock (s.setGroup gid h) g = nextBlock s g := rfl

theorem exec_fetchw_delivery_of_none (hg : s.group? gid = some g) (hf : g.fetches = off :: rest)
    (hb : s.block? g.block = some b) (hn : nextBlock s g = none) : exec (.fetchw_delivery gid) s =
      .next (storeNat (storeNat (s.setGroup gid { g with fetches := rest })
        (spadLoc b.cluster (b.spadBase + off) + 4) 12 0) (spadLoc b.cluster (b.spadBase + off)) 4 2) := by
  simp only [exec_fetchw_delivery, execFetchwDelivery, hg, hf, hb, nextBlock_setGroup, hn, Nat.zero_mul]

theorem exec_fetchw_delivery_of_some (hg : s.group? gid = some g) (hf : g.fetches = off :: rest)
    (hb : s.block? g.block = some b) (hn : nextBlock s g = some (l, w)) : exec (.fetchw_delivery gid) s =
      .next (storeNat (storeNat
        ((s.setGroup gid { g with fetches := rest }).setLaunch g.launch { l with cursor := l.cursor + 1 })
        (spadLoc b.cluster (b.spadBase + off) + 4) 12 (w.toNat * 2 ^ 32)) (spadLoc b.cluster (b.spadBase + off)) 4 1) := by
  simp only [exec_fetchw_delivery, execFetchwDelivery, hg, hf, hb, nextBlock_setGroup, hn]

end

/-! ### Releases of a halted group (R244; log 26) -/

theorem exec_debug_release_of_parked {p : Park} (hg : s.group? gid = some g) (h : g.status = .halted (some p)) :
    exec (.debug_release gid) s = .next ((barRecount s gid g).setGroup gid { g with status := .parked p }) := by
  simp [execDebugRelease, hg, h]

theorem exec_debug_release_of_aligned (hg : s.group? gid = some g) (h : g.status = .halted none)
    (ha : g.trap.tnext &&& 3 = 0) : ∃ t g', exec (.debug_release gid) s = .next t ∧ t.group? gid = some g' ∧
      OthersSame (barRecount s gid g) t gid ∧ t.mem = s.mem ∧ g'.status = .ready ∧
      g'.dbg.passed = some g.trap.tnext ∧ g'.pc = (resumeAt { g with status := .ready } g.trap.tnext).pc := by
  let h0 := { g with
    status := .ready, chain := { g.chain with specials := if g.trap.tnext = g.pc then g.chain.specials else [] } }
  let h1 := resumeAt h0 g.trap.tnext
  let h2 := { h1 with dbg := { h1.dbg with passed := some h1.trap.tnext } }
  have hst : h1.status = .ready ∧ some h1.trap.tnext = some g.trap.tnext ∧ h1.pc = (resumeAt { g with status := .ready } g.trap.tnext).pc := by
    have he : atLoopEnd h0 (g.trap.tnext - 4) = atLoopEnd { g with status := .ready } (g.trap.tnext - 4) := rfl
    simp only [h1, resumeAt, resumeAfter, he]
    cases atLoopEnd { g with status := .ready } (g.trap.tnext - 4) <;> exact ⟨rfl, rfl, rfl⟩
  refine ⟨(barRecount s gid g).setGroup gid h2, h2, ?_, group?_setGroup_same _ gid h2,
    fun k hk => group?_setGroup_other _ h2 hk, rfl, hst⟩
  have hn : ¬(g.trap.tnext &&& 3 ≠ 0) := fun h => h ha
  simp only [exec_debug_release, execDebugRelease, hg, h, goToNext, if_neg hn, updGroup_setGroup]
  rfl

theorem exec_debug_release_of_running (hg : s.group? gid = some g) (h : ∀ p, g.status ≠ .halted p) :
    exec (.debug_release gid) s = .next s := by
  cases hs : g.status with
  | halted p => exact absurd hs (h p)
  | _ => simp [execDebugRelease, hg, hs]

theorem exec_debug_release_of_misaligned (hg : s.group? gid = some g) (h : g.status = .halted none)
    (ha : g.trap.tnext &&& 3 ≠ 0) : exec (.debug_release gid) s =
      .next (takeTrap ((barRecount s gid g).setGroup gid { g with
          status := .ready, chain := { g.chain with specials := if g.trap.tnext = g.pc then g.chain.specials else [] } }) gid
        ⟨.align, false, g.pc, g.pc, 0, g.trap.tnext, 0⟩) := by
  simp only [exec_debug_release, execDebugRelease, goToNext, hg, h, if_pos ha]

end Sys2Proof.Machine

namespace Sys2Proof

open Machine Machine.Assoc Machine.Bits Claims

/-- Settles O53: each step by its own case; a join of a waiting group touches its views and outstanding stores alone. -/
theorem groupSteps : Obligations.GroupSteps := by
  refine ⟨fun gid es g s hg hp ht hd hs => ⟨fun ha => ?_, fun ha => ?_⟩, fun cl b s ho hs hd ht => ?_, fun cl b s ho hd => ?_,
    fun gid g s hg hs => ?_, fun gid b bs g s hg hc hq hs => ?_, fun gid g s hg hs => ?_, fun gid g s hg ht => ?_,
    fun gid g s hg hd hb => ?_, fun gid g s hg => ⟨fun p h => ?_, fun h ha => ?_, fun h => ?_, fun h ha => ?_⟩,
    fun r rs s hr => ?_, fun gid k l g s hg hl => ?_, fun gid k w g s hg hw => ?_,
    fun gid off rest b g s hg hf hb hn => ?_, fun gid off rest b l w g s hg hf hb hn => ?_⟩
  · exact exec_waitany_wake_of_aligned hg hp ht hd hs ha
  · exact exec_waitany_wake_of_misaligned hg hp ht hd hs ha
  · exact exec_barrier_stall_of_old ho hs hd ht
  · exact exec_barrier_stall_of_debug ho hd
  · simp [execGroupTimerMatch, hg, hs]
  · obtain ⟨hm, hf⟩ := finishBatch_mx s (forcedDue s gid g) g b
    refine ⟨exec_matrix_batch_complete_of_done hg hc hq hs, ?_, ?_, hf, ?_⟩
    · rw [hm]
    · rw [hm, hc]
      rfl
    · rw [hm]
  · exact exec_batch_and_save_of_scanning hg hs
  · simp [execTrapTimer, hg, ht]
  · exact exec_breakpoint_halt_of_boundary hg hd hb
  · exact exec_debug_release_of_parked hg h
  · exact exec_debug_release_of_aligned hg h ha
  · exact exec_debug_release_of_running hg h
  · exact exec_debug_release_of_misaligned hg h ha
  · simp [execResidencyRequestForward, hr, report]
  · simp only [exec_load_return, execLoadReturn, hg, hl]
    split <;> rfl
  · simp [execWriteReachesHome, hg, hw]
  · exact exec_fetchw_delivery_of_none hg hf hb hn
  · exact exec_fetchw_delivery_of_some hg hf hb hn

end Sys2Proof

/-! Placement, completion, saves and restores of launches (R102 to R105, R234 to R242). -/

namespace Sys2Proof.Machine.Assoc

variable {α : Type}

/-- A look-up among the entries whose keys pass a test. -/
theorem get_filter (d : α) (m : Map α) (p : Nat → Bool) (k : Nat) :
    get d (m.filter fun e => p e.1) k = if p k then get d m k else d := by
  induction m with
  | nil => simp [get]
  | cons e m ih =>
    obtain ⟨k', v⟩ := e
    by_cases hk : k' = k
    · subst hk
      by_cases hp : p k' <;> simp [get, hp, ih]
    · by_cases hp : p k' <;> simp [get, hp, ih, hk]

end Sys2Proof.Machine.Assoc

namespace Sys2Proof.Machine

open Assoc Bits Claims

variable {s t : State} {gid lid : Nat} {g : Group} {l : Launch}

/-! ### The launch that is served (R103, R105) -/

/-- The better of two bids, the earlier one on a tie. -/
def betterBid (best : Option Bid) (b : Bid) : Option Bid :=
  match best with
  | none => some b
  | some x => if b.l.hdr.pri > x.l.hdr.pri || b.l.hdr.pri == x.l.hdr.pri && b.passed > x.passed then some b else some x

theorem betterBid_some (best : Option Bid) (b : Bid) :
    ∃ x, betterBid best b = some x ∧ (x = b ∨ best = some x) ∧ b.l.hdr.pri ≤ x.l.hdr.pri ∧
      ∀ y, best = some y → y.l.hdr.pri ≤ x.l.hdr.pri := by
  cases best with
  | none => exact ⟨b, rfl, .inl rfl, le_refl _, fun _ h => by cases h⟩
  | some x =>
    unfold betterBid
    dsimp only
    split
    next h =>
      refine ⟨b, rfl, .inl rfl, le_refl _, ?_⟩
      rintro _ ⟨⟩
      simp only [gt_iff_lt, Bool.or_eq_true, decide_eq_true_eq, Bool.and_eq_true, beq_iff_eq] at h
      omega
    next h =>
      refine ⟨x, rfl, .inr rfl, ?_, fun y hy => by cases hy; exact le_refl _⟩
      simp only [gt_iff_lt, Bool.or_eq_true, decide_eq_true_eq, Bool.and_eq_true, beq_iff_eq, not_or] at h
      omega

/-- The best of a list has the highest PRI. -/
theorem foldl_betterBid (bs : List Bid) (best : Option Bid) {b : Bid} (h : bs.foldl betterBid best = some b) :
    (b ∈ bs ∨ best = some b) ∧ (∀ y, best = some y → y.l.hdr.pri ≤ b.l.hdr.pri) ∧
      ∀ x ∈ bs, x.l.hdr.pri ≤ b.l.hdr.pri := by
  induction bs generalizing best with
  | nil =>
    refine ⟨.inr h, fun y hy => ?_, fun _ hx => by cases hx⟩
    cases Option.some.inj (hy.symm.trans h)
    exact le_refl _
  | cons a bs ih =>
    obtain ⟨x, hx, hor, ha, hb⟩ := betterBid_some best a
    rw [List.foldl_cons, hx] at h
    obtain ⟨hm, hy, hall⟩ := ih (some x) h
    have hxb := hy x rfl
    refine ⟨?_, fun y hy' => (hb y hy').trans hxb, fun z hz => ?_⟩
    · rcases hm with hm | hm
      · exact .inl (List.mem_cons_of_mem a hm)
      · cases hm
        exact hor.imp (fun h => by rw [h]; exact List.mem_cons_self) id
    · rcases List.mem_cons.mp hz with rfl | hz
      · exact ha.trans hxb
      · exact hall z hz

theorem serveBid_eq_foldl (die : Nat) (bs : List Bid) : serveBid die bs =
    (bs.filter fun b => (match b.cl with | some cl => dieOfCluster cl == die | none => false) && !heldOut bs b).foldl
      betterBid none := rfl

theorem serveBid_spec {die : Nat} {bs : List Bid} {b : Bid} (h : serveBid die bs = some b) :
    b ∈ bs ∧ (∃ cl, b.cl = some cl ∧ dieOfCluster cl = die) ∧
      ∀ x ∈ bs, (∃ cl, x.cl = some cl ∧ dieOfCluster cl = die) → heldOut bs x = false → x.l.hdr.pri ≤ b.l.hdr.pri := by
  rw [serveBid_eq_foldl] at h
  obtain ⟨hm, -, hall⟩ := foldl_betterBid _ _ h
  have hm := List.mem_filter.mp (hm.resolve_right fun h => by cases h)
  obtain ⟨hb, hp⟩ := hm
  refine ⟨hb, ?_, fun x hx hcl ho => hall x (List.mem_filter.mpr ⟨hx, ?_⟩)⟩
  · cases hc : b.cl with
    | none => simp [hc] at hp
    | some cl => exact ⟨cl, rfl, by simp [hc] at hp; exact hp.1⟩
  · obtain ⟨cl, hc, hd⟩ := hcl
    simp [hc, hd, ho]

/-- A launch whose block has been placed is passed over on no die. -/
theorem passed_clearPassed (s : State) (lid d : Nat) : get 0 ((clearPassed s lid).dieAt d).passed lid = 0 := by
  have h : (clearPassed s lid).dieAt d = { s.dieAt d with passed := erase (s.dieAt d).passed lid } :=
    get_map (d := Die.reset) s.dies (f := fun d => { d with passed := erase d.passed lid }) rfl d
  rw [h]
  exact get_erase_same _ _ _

/-! ### A saved block placed (R241) -/

theorem steady_goToNext (s : State) (gid : Nat) (g : Group) : Steady [] s (goToNext s gid g) :=
  steady_ite (steady_trans (steady_setGroup _ List.not_mem_nil) (steady_takeTrap _ List.not_mem_nil))
    (steady_setGroup _ List.not_mem_nil)

theorem steady_resumeGroup (s : State) (gid : Nat) : Steady [] s (resumeGroup s gid) := by
  have set (h : Group) : Steady [] s (s.setGroup gid h) := steady_setGroup h List.not_mem_nil
  unfold resumeGroup
  split
  · exact steady_refl s
  · dsimp only
    split
    · exact set _
    · exact set _
    · split
      · exact steady_goToNext ..
      · exact steady_goOn _ List.not_mem_nil
      · exact steady_goOn _ List.not_mem_nil
      · exact steady_trans (set _) (steady_raiseCbbad List.not_mem_nil)
      all_goals exact set _
    all_goals exact steady_refl s

theorem steady_seatGroup (h : Header) (cl : Nat) (s : State) (gid : Nat) : Steady [] s (seatGroup h cl s gid) := by
  unfold seatGroup
  split
  · exact steady_refl s
  · split
    · exact steady_refl s
    · refine steady_trans ?_ (steady_resumeGroup ..)
      exact steady_updGroup fun _ h => h

theorem steady_launchStatus (s : State) (lid v : Nat) : Steady [] s (launchStatus s lid v) := by
  unfold launchStatus
  split
  · exact steady_refl s
  · exact steady_trans (steady_statusWord ..) (steady_updLaunch _ _ fun _ => rfl)

/-- The slice of a restored block as its save left it. -/
theorem steady_refilled (s : State) (loc n : Nat) (bs : List (Nat × Byte)) (bad : List Nat) :
    Steady [] s (poison (writeCells (zeroRange s loc n) bs) bad) := by
  have h : Steady [] (zeroRange s loc n) (writeCells (zeroRange s loc n) bs) :=
    steady_background (background_of_memOnly (memOnly_writeCells ..))
  have hz : Steady [] s (zeroRange s loc n) := steady_of_eq rfl rfl rfl rfl rfl rfl
  exact steady_trans (steady_trans hz h) (steady_of_eq rfl rfl rfl rfl rfl rfl)

/-- A saved block is saved no more, and its launch no longer counts it among the saved ones. -/
theorem placeSaved_block {cl base bid : Nat} {b : Block} (hf : freeSlice s cl b.spad = some base) :
    (placeSaved s lid l bid b cl).block? bid = some { b with
      cluster := cl, spadBase := base, savedCbs := [], savedBars := [], savedSpad := [], savedBad := [], ranges := [],
      fullSave := false, saved := false } ∧
    ∀ l', (placeSaved s lid l bid b cl).launch? lid = some l' → bid ∉ l'.savedBlocks := by
  have seated (t : State) (ks : List Nat) : Steady [] t (let u := ks.foldl (seatGroup l.hdr cl) t
      if l.statusWas = 1 ∨ l.statusWas = 5 then u else launchStatus u lid 1) := by
    have h := steady_foldl (gids := []) (fun s k => steady_seatGroup l.hdr cl s k) ks t
    exact steady_ite h (steady_trans h (steady_launchStatus ..))
  simp only [placeSaved, hf]
  generalize hs1 : s.setCluster cl _ = s1
  generalize hb : Block.mk _ _ _ _ _ _ _ _ _ _ _ _ _ = b'
  have hr := steady_refilled (s1.setBlock bid b') (spadLoc cl base) b.spad
    (b.savedSpad.map fun e => (spadLoc cl (base + e.1), e.2)) (b.savedBad.map fun o => spadLoc cl (base + o))
  generalize poison _ _ = s2 at hr ⊢
  have hk := seated (s2.updLaunch lid fun l => { l with savedBlocks := l.savedBlocks.filter (· != bid) })
    (keys (groupsOfBlock (s2.updLaunch lid fun l => { l with savedBlocks := l.savedBlocks.filter (· != bid) }) bid))
  constructor
  · rw [State.block?, hk.blocks]
    exact (congrArg (find · bid) hr.blocks).trans (find_set_same ..)
  · intro l' hl'
    have h := hk.saved lid
    rw [hl', launch?_updLaunch, if_pos rfl] at h
    cases hx : s2.launch? lid with
    | none => rw [hx] at h; cases h
    | some x =>
      rw [hx] at h
      rw [Option.some.inj h]
      simp

/-! ### A group that its save left, on its new core (R241, R405) -/

/-- What a restored group sees anew: its pending events, and what precedes its accesses. -/
theorem resumed_frame (s : State) (g : Group) (e : EventRegs) :
    ∃ e' v, seeAll s .all (refreshLevels s { g with ev := e }) = { g with ev := e', view := v } :=
  ⟨_, seeAll_frame s .all (refreshLevels s { g with ev := e })⟩

/-- A group that runs on, executes again, waits on or is halted goes on where its save took it. -/
theorem resumeGroup_of_saved {p : Option Park} {h : Bool} {q : Status} (hg : s.group? gid = some g)
    (hst : g.status = .saved p h)
    (hq : h = true ∧ q = .halted p ∨ h = false ∧ p = none ∧ q = .ready ∨
      h = false ∧ (∃ b, p = some (.bar b)) ∧ q = .parked (p.getD .exit) ∨
      h = false ∧ (∃ m, p = some (.waitany m)) ∧ q = .ready) :
    ∃ g', resumeGroup s gid = s.setGroup gid g' ∧ g'.status = q ∧ g'.pc = g.pc ∧ g'.v = g.v ∧ g'.s = g.s ∧
      g'.m = g.m ∧ g'.amask = g.amask ∧ g'.lmask = g.lmask ∧ g'.trap = g.trap ∧ g'.mx = g.mx := by
  choose e v hr using resumed_frame s g
  rw [resumeGroup, hg]
  dsimp only
  rw [hr]
  dsimp only
  rw [hst]
  rcases hq with ⟨rfl, rfl⟩ | ⟨rfl, rfl, rfl⟩ | ⟨rfl, ⟨b, rfl⟩, rfl⟩ | ⟨rfl, ⟨m, rfl⟩, rfl⟩ <;>
    exact ⟨_, rfl, rfl, rfl, rfl, rfl, rfl, rfl, rfl, rfl, rfl⟩

/-- A group saved at `ppt` goes on at its TNEXT. -/
theorem resumeGroup_of_ppt {n : Nat} (hg : s.group? gid = some g) (hst : g.status = .saved (some (.save (some n))) false)
    (ha : g.trap.tnext &&& 3 = 0) (hl : ∀ top rest, g.lstack = top :: rest → top.last ≠ g.trap.tnext - 4) :
    ∃ g', resumeGroup s gid = s.setGroup gid g' ∧ g'.status = .ready ∧ g'.pc = g.trap.tnext ∧ g'.v = g.v ∧
      g'.s = g.s ∧ g'.m = g.m ∧ g'.amask = g.amask := by
  choose e v hr using resumed_frame s g
  have hend (h : Group) (hs : h.lstack = g.lstack) : resumeAt h g.trap.tnext = { h with pc := g.trap.tnext } := by
    have he : atLoopEnd h (g.trap.tnext - 4) = false := by
      rw [atLoopEnd, hs]
      cases hx : g.lstack with
      | nil => rfl
      | cons top rest => exact Bool.and_eq_false_imp.mpr fun _ => by simpa using hl top rest hx
    rw [resumeAt, if_neg (by rw [he]; exact Bool.false_ne_true)]
  have hn : ¬(g.trap.tnext &&& 3 ≠ 0) := fun h => h ha
  rw [resumeGroup, hg]
  dsimp only
  rw [hr]
  dsimp only
  rw [hst, goToNext]
  dsimp only
  rw [if_neg hn]
  refine ⟨_, congrArg (s.setGroup gid) (hend _ ?_), rfl, rfl, rfl, rfl, rfl, rfl⟩
  rfl

/-! ### Completion and deadline (R87, R102, R325) -/

theorem finalLaunchStatus_spec (l : Launch) : (l.suspect = true → finalLaunchStatus l = some 3) ∧
    (l.suspect = false → l.hdr.conf = false → finalLaunchStatus l = some 2) ∧
    (l.suspect = false → l.hdr.conf = true → l.confirmed = false → finalLaunchStatus l = none) :=
  ⟨fun h => by simp [finalLaunchStatus, h], fun h hc => by simp [finalLaunchStatus, h, hc],
    fun h hc hf => by simp [finalLaunchStatus, h, hc, hf]⟩

theorem exec_deadline_passed_of_past (hl : s.launch? lid = some l) (hp : l.phase = .running ∨ l.phase = .preempting)
    (hd : l.hdr.deadline ≠ 0) (hn : l.pastDeadline = false) (ht : l.hdr.deadline.toNat < s.primaryTime.toNat) :
    exec (.deadline_passed lid) s =
      .next ((launchStatus s lid 5).updLaunch lid fun l => { l with pastDeadline := true }) := by
  have hph : (l.phase != .running && l.phase != .preempting) = false := by rcases hp with h | h <;> rw [h] <;> rfl
  have hd : ¬l.hdr.deadline = 0#64 := hd
  simp [execDeadlinePassed, hl, hph, hd, hn, Nat.not_le.mpr ht]

/-! ### Saves (R234 to R240) -/

section
variable {r : PreemptRun}

/-- What a forced save does once PRETMO has passed. -/
theorem exec_forced_save_of_due (hg : s.group? gid = some g) (hl : s.launch? g.launch = some l) (hr : l.preempt = some r)
    (hd : preemptDue s gid g = true) (ht : forcedAfter s ≤ since s.primaryTime r.since)
    (hs : (s.coreAt g.core).scanning = false) : exec (.forced_save gid) s =
      match g.status with
      | .ready =>
        if g.chain.fpFlags != 0 || !atBoundary s g then .next s
        else .next (s.setGroup gid { g with
            status := .parked (.save none), chain := g.chain.stop, dbg := { g.dbg with haltDue := haltOwed g } })
      | .parked (.cbget ..) | .parked (.mwait _) | .parked .transition | .parked .stalled =>
        if r.forced.contains gid then .next s
        else .next (s.setLaunch g.launch { l with preempt := some { r with forced := r.forced ++ [gid] } })
      | .parked _ | .halted _ | .saved .. => .next s := by
  have hn : ¬(!preemptDue s gid g || decide (since s.primaryTime r.since < forcedAfter s) || (s.coreAt g.core).scanning) = true := by
    simp [hd, hs, ht]
  rw [exec_forced_save, execForcedSave, hg]
  dsimp only
  rw [hl]
  dsimp only
  rw [hr]
  refine (if_neg hn).trans ?_
  cases g.status with
  | parked p => cases p <;> rfl
  | _ => rfl

end

section
variable {b : Block} {p : SavePlan} {s' : State}

theorem exec_group_save_of_ready (hg : s.group? gid = some g) (hr : saveReady s gid g = true) (hb : batchShut s gid g = true)
    (ho : g.mx.opening.ops = 0) (hc : g.mx.closed = []) (hl : s.launch? g.launch = some l)
    (hk : s.block? g.block = some b) (hd : lastOfBlock s gid g.block = false ∨ ringsDone s g.block = true)
    (hp : planOf s g l b.spad = .plan s' p) : exec (.group_save gid) s = .next (saveGroup s' gid g l b p) := by
  have hn : (lastOfBlock s gid g.block && !ringsDone s g.block) = false := by rcases hd with h | h <;> simp [h]
  simp only [exec_group_save, execGroupSave, hg, hr, hb, ho, hc, hl, hk, hn, hp]
  rfl

theorem saveGroup_of_noRoom {s1 : State} (h : saveRoom s l (recordBytes (lastOfBlock s gid g.block) (notePlan b p) p) = (s1, none)) :
    saveGroup s gid g l b p = failSave s1 gid g := by
  simp only [saveGroup, h]

/-- Groups that a save's freed places leave alone. -/
theorem group?_vacate (h : ∀ x ∈ g.held, x.desc ≠ 63) (k : Nat) : (vacate s gid g).group? k = s.group? k := by
  have hf : g.held.filter (fun h => h.desc == 63) = [] := by simpa using h
  simp only [vacate, hf, List.foldl_nil]
  rfl

/-- A group in which nothing is uncorrectable is saved, while another of its block is resident. -/
theorem saveGroup_of_room {s1 : State} {r : Nat × List (Hit × Nat)} (h : saveRoom s l (recordBytes false (notePlan b p) p) = (s1, some r))
    (hlast : lastOfBlock s gid g.block = false) (hs : g.badS = []) (hv : g.badV = []) (hp : g.badSp = []) (hr : g.badRow = [])
    (hl : g.lmask ≠ 0) (hh : ∀ x ∈ g.held, x.desc ≠ 63) (hg : s1.group? gid = some g) :
    (saveGroup s gid g l b p).group? gid = some (savedGroup g p) := by
  have hc : saveErrors (s1.setBlock g.block (notePlan b p)) gid g p = (s1.setBlock g.block (notePlan b p)).setGroup gid g := by
    simp [saveErrors, hs, hv, hp, hr, uceLanes, maskOf]
  simp only [saveGroup, hlast, h, hc, group?_setGroup_same, if_neg hl, saveNow]
  rw [if_neg Bool.false_ne_true, group?_vacate hh]
  exact group?_setGroup_same ..

theorem isSaved_savedGroup (g : Group) (p : SavePlan) : isSaved (savedGroup g p) = true := rfl

/-- A register that the plan does not name reads zero. -/
theorem get_savedGroup_v (g : Group) (p : SavePlan) (c : Nat) {j : Nat} (hj : j < 32) :
    get 0 (savedGroup g p).v (c * 32 + j) = if p.vecs.contains c then get 0 g.v (c * 32 + j) else 0 := by
  have hc : (c * 32 + j) / 32 = c := by omega
  rw [show (savedGroup g p).v = g.v.filter fun e => p.vecs.contains (e.1 / 32) from rfl,
    get_filter 0 g.v (fun k => p.vecs.contains (k / 32)), hc]

theorem scalar_savedGroup (g : Group) (p : SavePlan) (n : Nat) :
    (savedGroup g p).scalar n = if p.scalars.contains n then g.scalar n else 0 := by
  rw [show (savedGroup g p).scalar n = get 0 (g.s.filter fun e => p.scalars.contains (e.1 / 1)) n from rfl,
    get_filter 0 g.s (fun k => p.scalars.contains (k / 1)), Nat.div_one]
  rfl

end

end Sys2Proof.Machine

namespace Sys2Proof

open Machine Machine.Assoc Machine.Bits Claims

/-- Settles O54: the bid served is the best of those that fit; a placed block's groups go on as their save left them; a save
keeps the registers of its plan. -/
theorem launchSteps : Obligations.LaunchSteps := by
  refine ⟨fun die lid cl b s hs hb hc hn => ?_, fun s b cl hc => ⟨fun hn => ?_, fun bid x hn => ?_⟩,
    fun s l bid b rest hp hl hb => ?_, fun s lid l bid b cl base hf => placeSaved_block hf,
    fun s gid g hg => ⟨fun p h q hst hq => resumeGroup_of_saved hg hst hq, fun n hst ha hl => resumeGroup_of_ppt hg hst ha hl⟩,
    passed_clearPassed, fun die s b h => serveBid_spec h, fun lid l s hl hd hp => ?_, fun lid l p s hl hd hp => ?_,
    finalLaunchStatus_spec, fun lid l s hl hp hd hn ht => exec_deadline_passed_of_past hl hp hd hn ht,
    fun gid g l r s hg hl hr hd ht hs => ⟨fun hst hf hb => ?_, fun p hp hst hf => ?_, fun hst => ?_⟩,
    fun gid g l b p s s' hg hr hb ho hc hl hk hd hp => ?_, fun gid g s hg hr hb => ?_,
    fun g p c j hj => ⟨fun hc => ?_, fun hc => ?_⟩, fun g p n => ?_,
    fun g p => ⟨rfl, rfl, rfl, rfl, rfl, rfl, rfl, rfl⟩⟩
  · subst hb
    rw [exec_block_placement, execBlockPlacement, hs]
    exact ⟨_, rfl⟩
  · simp only [placeBid, hc, hn]
  · simp only [placeBid, hc, hn]
  · simp [nextPlace, hp, hl, hb]
  · simp [execLaunchComplete, hl, hd, hp]
  · simp [execLaunchComplete, hl, hd, hp]
  · rw [exec_forced_save_of_due hg hl hr hd ht hs, hst]
    exact if_neg (by simp [hf, hb])
  · have hn : r.forced.contains gid = false := by simpa using hf
    rw [exec_forced_save_of_due hg hl hr hd ht hs, hst]
    rcases hp with rfl | rfl | ⟨t, rfl⟩ | ⟨d, n, b, rfl⟩ <;> exact if_neg (by rw [hn]; exact Bool.false_ne_true)
  · rw [exec_forced_save_of_due hg hl hr hd ht hs]
    rcases hst with h | h <;> rw [h]
  · have he := exec_group_save_of_ready hg hr hb ho hc hl hk hd hp
    refine ⟨he, fun s1 r hroom hlast hbs hbv hbp hbr hlm hh hg1 => ⟨_, he, ?_, isSaved_savedGroup g p⟩, fun s1 hroom => ?_⟩
    · exact saveGroup_of_room hroom hlast hbs hbv hbp hbr hlm hh hg1
    · rw [he, saveGroup_of_noRoom hroom]
  · have hn : (!batchShut s gid g || g.mx.opening.ops ≠ 0) = true := by rcases hb with h | h <;> simp [h]
    simp only [exec_group_save, execGroupSave, hg, hr, hn]
    rfl
  · rw [get_savedGroup_v g p c hj, if_pos (by simpa using hc)]
  · rw [get_savedGroup_v g p c hj, if_neg (by simpa using hc)]
  · rw [scalar_savedGroup]
    simp

end Sys2Proof

/-! Surface memory as it is moved, draws and fragments (R157 to R161, R290 to R300). -/

namespace Sys2Proof.Machine.Assoc

variable {α : Type}

theorem get_set_same (d : α) (m : Map α) (k : Nat) (v : α) : get d (set m k v) k = v :=
  get_insert_same d _ k v (not_mem_erase k m)

theorem get_set_other (d : α) (m : Map α) {k k' : Nat} (v : α) (h : k' ≠ k) : get d (set m k v) k' = get d m k' := by
  rw [set, get_insert_other d _ v h, get_erase_other d m h]

end Sys2Proof.Machine.Assoc

namespace Sys2Proof.Machine

open Assoc Bits Claims

variable {s t : State}

/-! ### Handles that are moved (R160, R161) -/

theorem memOnly_copyRange (s : State) (src dst n : Nat) : MemOnly s (copyRange s src dst n) :=
  memOnly_writeCells (zeroRange s dst n) _

theorem memOnly_moveHandle (s : State) (h : Sfte) (src dst : Nat → Nat → Nat) : MemOnly s (moveHandle s h src dst) := by
  unfold moveHandle
  refine memOnly_foldl (fun s st => ?_) _ s
  split
  · refine memOnly_foldl (fun s o => ?_) _ s
    dsimp only
    split <;> exact memOnly_writeByte ..
  · exact memOnly_foldl (fun s p => memOnly_copyRange ..) _ s

theorem memOnly_toCompressor (s : State) (key : Nat) (h : Sfte) : MemOnly s (toCompressor s key h) :=
  memOnly_trans (memOnly_moveHandle s h (fun st o => surfPa st (h.base + o)) (spilledHome s key h))
    (memOnly_foldl (memOnly_encodeBlock key h) _ _)

theorem memOnly_toBanks (s : State) (key : Nat) (h : Sfte) : MemOnly s (toBanks s key h) := memOnly_moveHandle ..

theorem handles_of_memOnly (h : MemOnly s t) : t.handles = s.handles := by
  have hs := congrArg State.handles h
  exact hs

/-- A handle whose state is set, in a state whose handles are as before. -/
theorem handle?_setHandleState (h : t.handles = s.handles) {ctx hn : Nat} {x : Sfte} (hx : s.handle? ctx hn = some x)
    (st : HandleState) : (setHandleState t (ctx * 4096 + hn) st).handle? ctx hn = some { x with state := st } := by
  have hf : find s.handles (ctx * 4096 + hn) = some x := hx
  simp only [setHandleState, State.handle?, h, find_upd, hf]
  rfl

section
variable {ctx hn : Nat} {h : Sfte}

theorem exec_spill_flip_of_spilling (hh : s.handle? ctx hn = some h) (hs : h.state = .spilling) :
    ∃ t, exec (.spill_flip ctx hn) s = .next t ∧ t.handle? ctx hn = some { h with state := .spilled } ∧
      t.mem = (toCompressor s (ctx * 4096 + hn) h).mem ∧ t.l1 = [] := by
  refine ⟨setHandleState (forgetCopies (toCompressor s (ctx * 4096 + hn) h)) (ctx * 4096 + hn) .spilled, ?_,
    handle?_setHandleState (t := forgetCopies _) (handles_of_memOnly (memOnly_toCompressor ..)) hh _, rfl, rfl⟩
  simp only [exec_spill_flip, execSpillFlip, hh, hs]
  exact if_neg fun hn => hn rfl

theorem exec_restore_flip_of_restoring (hh : s.handle? ctx hn = some h) (hs : h.state = .restoring) :
    ∃ t, exec (.restore_flip ctx hn) s = .next t ∧ t.handle? ctx hn = some { h with state := .resident } ∧
      t.mem = (toBanks s (ctx * 4096 + hn) h).mem ∧ t.l1 = [] := by
  refine ⟨setHandleState (forgetCopies (toBanks s (ctx * 4096 + hn) h)) (ctx * 4096 + hn) .resident, ?_,
    handle?_setHandleState (t := forgetCopies _) (handles_of_memOnly (memOnly_toBanks ..)) hh _, rfl, rfl⟩
  simp only [exec_restore_flip, execRestoreFlip, hh, hs]
  exact if_neg fun hn => hn rfl

/-! ### The LLC partition and frames (R25, R157) -/

theorem exec_llc_resize_complete_of_clear {stack : Nat} (hb : (s.stackAt stack).busy = true)
    (hc : ∀ e ∈ takers (clearLlcRows s stack), e.2.base + handleBytes e.2 ≤ llcStart (s.stackAt stack).target) :
    exec (.llc_resize_complete stack) s =
      .next ({ clearLlcRows s stack with
        llc := (clearLlcRows s stack).llc.filter fun e => stackOfLine e.1 != stack }.setStack stack
          { s.stackAt stack with busy := false, llcsz := (s.stackAt stack).target }) := by
  have hn : ((takers (clearLlcRows s stack)).any fun e =>
      decide (e.2.base + handleBytes e.2 > llcStart (s.stackAt stack).target)) = false := by
    rw [List.any_eq_false]
    intro e he
    simpa using hc e he
  rw [exec_llc_resize_complete, execLlcResizeComplete]
  simp only [hb, hn]
  rfl

theorem exec_frame_migration_of_fit {src dst : Nat} (hs : isFrame src = true) (hd : isFrame dst = true)
    (hm : src % 32 = dst % 32) (hn : dst ≠ frameAt s src) (ha : ∀ m ∈ s.moves, m.1 ≠ src ∧ m.2 ≠ dst) :
    ∃ t, exec (.frame_migration src dst) s = .next t ∧ t.moves = s.moves ++ [(src, dst)] ∧ t.frames = s.frames := by
  have hf : (s.moves.any fun m => m.1 == src || m.2 == dst) = false := by
    rw [List.any_eq_false]
    intro m hm
    simpa using ha m hm
  have hfr : (copyRange s (frameAt s src * 65536) (dst * 65536) 65536).frames = s.frames := by
    have hs := congrArg State.frames (memOnly_copyRange s (frameAt s src * 65536) (dst * 65536) 65536)
    exact hs
  exact ⟨{ copyRange s (frameAt s src * 65536) (dst * 65536) 65536 with moves := s.moves ++ [(src, dst)] },
    by simp [execFrameMigration, hs, hd, hm, hn, hf], rfl, hfr⟩

/-- The flip of a frame on the move. -/
theorem exec_frame_migration_flip_of_moving {src dst : Nat} (h : s.moves.find? (fun m => m.1 == src) = some (src, dst)) :
    ∃ t, exec (.frame_migration_flip src) s = .next t ∧ frameAt t src = dst ∧ (∀ f, f ≠ src → frameAt t f = frameAt s f) ∧
      (∀ m ∈ t.moves, m.1 ≠ src) ∧ t.mem = s.mem ∧ t.l1 = [] ∧ ∀ e ∈ t.llc, e.1 / 512 ≠ frameAt s src := by
  refine ⟨{ forgetCopies s with
      llc := s.llc.filter fun e => e.1 / 512 != frameAt s src,
      moves := s.moves.filter (·.1 != src),
      frames := if dst = src then erase s.frames src else set s.frames src dst },
    by simp only [exec_frame_migration_flip, execFrameMigrationFlip, h], ?_, fun f hf => ?_, fun m hm => ?_,
    rfl, rfl, fun e he => ?_⟩
  · simp only [frameAt]
    split
    next hd => rw [get_erase_same, hd]
    next => exact get_set_same _ _ _ _
  · simp only [frameAt]
    split
    · exact get_erase_other _ _ hf
    · exact get_set_other _ _ _ hf
  · simpa using (List.mem_filter.mp hm).2
  · simpa using (List.mem_filter.mp he).2

end

/-! ### Draws (R290 to R294) -/

section
variable {lid : Nat} {l : Launch} {d : Draw}

theorem exec_draw_start_of_next (hn : drawNow s = none) (hx : nextDraw s = some (lid, l)) (hl : s.launch? lid = some l)
    (hd : l.draw = some d) : ∃ t, exec .draw_start s = .next t ∧ t.dseq = s.dseq + 1 ∧
      t.launch? lid = some { l with draw := some { d with dseq := some s.dseq } } ∧ t.groups = s.groups ∧ t.mem = s.mem := by
  refine ⟨setDraw { s with dseq := s.dseq + 1 } lid fun d => { d with dseq := some s.dseq }, ?_, rfl, ?_, rfl, rfl⟩
  · simp only [exec_draw_start, execDrawStart, hn, hx]
  · have hl' : { s with dseq := s.dseq + 1 }.launch? lid = some l := hl
    rw [setDraw, launch?_updLaunch, if_pos rfl, hl']
    simp only [Option.map_some, hd]

/-- Which front end goes on, or whether the next primitive is read. -/
theorem exec_primitive_rasterise_of_draw (hn : drawNow s = some (lid, l, d)) : exec .primitive_rasterise s =
    match advanceFront s lid l d 0, advanceFront s lid l d 1 with
    | some t, _ => .next t
    | none, some t => .next t
    | none, none => .next (if inHand s 0 ≠ [] ∧ inHand s 1 ≠ [] then s else nextPrimitive s lid l d) := by
  simp only [exec_primitive_rasterise, execPrimitiveRasterise, hn, List.findSome?_cons, List.findSome?_nil]
  cases advanceFront s lid l d 0 with
  | some t => rfl
  | none =>
    cases advanceFront s lid l d 1 with
    | some t => rfl
    | none => simp

theorem advanceFront_of_region {st : Nat} {r : RasterNow} {more : List RasterNow} {reg : Nat × Nat} {rest : List (Nat × Nat)}
    {tr : Tri} {h : Sfte} (hh : inHand s st = r :: more) (hr : r.regions = reg :: rest) (ht : triOf d.cull r.record = some tr)
    (hs : drawSurface s l.ctx d = some h) : advanceFront s lid l d st =
      (createPixel s lid l d r.prim r.record tr h reg).map fun t =>
        setHand t st (if rest.isEmpty then more else { r with regions := rest } :: more) := by
  simp only [advanceFront, hh, hr, ht, hs]

end

/-! ### Fragments at their banks (R297 to R300) -/

section
variable {k : Nat} {f : Frag} {d : Draw} {h : Sfte}

theorem not_any_sameSample (ha : ∀ e ∈ s.frags.take k, sameSample f e = false) :
    (s.frags.take k).any (sameSample f) = false := by
  rw [List.any_eq_false]
  intro e he
  rw [ha e he]
  exact Bool.false_ne_true

/-- A coloured fragment is blended into its pixel. -/
theorem exec_fragment_apply_colour {rgba : List Word} (hf : s.frags[k]? = some f) (hc : f.colour = some rgba)
    (hw : f.waits = false) (ha : ∀ e ∈ s.frags.take k, sameSample f e = false)
    (hd : (s.launch? f.lid).bind (·.draw) = some d) (hh : find s.handles f.handle = some h) :
    let s1 := { s with frags := s.frags.eraseIdx k }
    let at_ := homeIn s1 f.handle h (pixelAt h f.x f.y f.sample).1 (pixelAt h f.x f.y f.sample).2
    exec (.fragment_apply k) s = .next (touchKey (store s1 (cellsAt at_ (bytesOfNat (pixelBytes h.fmt)
      (blendPixel (d.blends.getD (f.target.getD 0) 0) h.fmt rgba (readNat s1 at_ (pixelBytes h.fmt)))))) f.handle) := by
  have hd' : ({ s with frags := s.frags.eraseIdx k }.launch? f.lid).bind (·.draw) = some d := hd
  simp only [exec_fragment_apply, execFragmentApply, hf, not_any_sameSample ha, hc, hw, applyFrag, hd', hh, fragLoc]
  rfl

/-- A depth fragment does what it was asked next. -/
theorem exec_fragment_apply_depth {q : DepthReq} {rest : List DepthReq} (hf : s.frags[k]? = some f) (hc : f.colour = none)
    (ht : f.tests = q :: rest) (ha : ∀ e ∈ s.frags.take k, sameSample f e = false) :
    exec (.fragment_apply k) s = .next (applyDepth s f q rest) := by
  simp only [exec_fragment_apply, execFragmentApply, hf, not_any_sameSample ha, hc, ht]
  rfl

/-- A fragment behind another, or with nothing to do, does nothing. -/
theorem exec_fragment_apply_of_waits (hf : s.frags[k]? = some f)
    (h : (∃ e ∈ s.frags.take k, sameSample f e = true) ∨ f.waits = true ∧ f.colour ≠ none ∨ f.colour = none ∧ f.tests = []) :
    exec (.fragment_apply k) s = .next s := by
  simp only [exec_fragment_apply, execFragmentApply, hf]
  by_cases ha : (s.frags.take k).any (sameSample f) = true
  · exact if_pos ha
  · rw [if_neg ha]
    rcases h with h | ⟨hw, hc⟩ | ⟨hc, ht⟩
    · exact absurd (List.any_eq_true.mpr h) ha
    · obtain ⟨rgba, hc⟩ := Option.ne_none_iff_exists'.mp hc
      simp only [hc, hw, if_true]
    · simp only [hc, ht]

theorem mem_afterFail (f e : Frag) (fs : List Frag) : e ∈ afterFail f fs ↔
    e ∈ fs ∧ (sameLane f e = true → e.target ≠ none ∧ e.colour ≠ none ∧ e.waits = false) := by
  rw [afterFail, List.mem_filter]
  cases sameLane f e <;> simp [Option.isNone_iff_eq_none, Option.isSome_iff_ne_none, and_assoc]

/-- A lane's own fragments are all that a passed test touches. -/
theorem mem_afterPass_other {q : DepthReq} {rest : List DepthReq} {e : Frag} (fs : List Frag) (he : sameLane f e = false) :
    e ∈ afterPass f q rest fs ↔ e ∈ fs := by
  have upd (p : Frag → Bool) (u : Frag → Frag) (hu : ∀ x, sameLane f (u x) = sameLane f x) (l : List Frag) :
      e ∈ l.map (fun x => if sameLane f x && p x then u x else x) ↔ e ∈ l := by
    rw [List.mem_map]
    constructor
    · rintro ⟨x, hx, rfl⟩
      by_cases hp : (sameLane f x && p x) = true
      · rw [if_pos hp, hu] at he
        simp [he] at hp
      · rwa [if_neg hp]
    · exact fun hx => ⟨e, hx, by rw [he]; rfl⟩
  have h1 := upd (fun e => e.target == some q.target) (fun e => { e with waits := false }) (fun _ => rfl) fs
  unfold afterPass
  dsimp only
  split
  · rw [List.mem_filter, h1]
    simp [he]
  · exact (upd (fun e => e.target.isNone) (fun e => { e with tests := rest }) (fun _ => rfl) _).trans h1

/-- A passed test frees its target's colour. -/
theorem waits_afterPass {q : DepthReq} {rest : List DepthReq} {e : Frag} {fs : List Frag} (hm : e ∈ afterPass f q rest fs)
    (hl : sameLane f e = true) (ht : e.target = some q.target) : e.waits = false := by
  have first : ∀ x ∈ fs.map (fun e => if sameLane f e && e.target == some q.target then { e with waits := false } else e),
      sameLane f x = true → x.target = some q.target → x.waits = false := by
    intro x hx hl ht
    obtain ⟨y, -, rfl⟩ := List.mem_map.mp hx
    by_cases hp : (sameLane f y && y.target == some q.target) = true
    · rw [if_pos hp]
    · rw [if_neg hp] at hl ht
      simp [hl, ht] at hp
  unfold afterPass at hm
  dsimp only at hm
  split at hm
  · exact first e (List.mem_filter.mp hm).1 hl ht
  · obtain ⟨y, hy, rfl⟩ := List.mem_map.mp hm
    by_cases hp : (sameLane f y && y.target.isNone) = true
    · rw [if_pos hp] at ht
      have hn : y.target = some q.target := ht
      simp [hn] at hp
    · rw [if_neg hp] at hl ht ⊢
      exact first y hy hl ht

theorem frags_store (s : State) (bs : List (Nat × Byte)) : (store s bs).frags = s.frags := by
  have hs := congrArg State.frags (background_storeBy (outside s) s bs).1
  exact hs

section
variable {q : DepthReq} {rest : List DepthReq}

/-- Whether the depth of a fragment passes at its sample as that stands. -/
def fragPasses (s : State) (f : Frag) (d : Draw) (h : Sfte) : Bool :=
  depthPasses d.zfunc h.fmt f.depth (readNat s (fragLoc s f h) (pixelBytes h.fmt))

/-- A failed test drops what its lane has not sent, and leaves memory alone. -/
theorem applyDepth_of_fail (hd : (s.launch? f.lid).bind (·.draw) = some d) (hh : find s.handles f.handle = some h)
    (hq : q.test = true) (hp : fragPasses s f d h = false) :
    (applyDepth s f q rest).mem = s.mem ∧ (applyDepth s f q rest).frags = afterFail f s.frags := by
  have hp' : depthPasses d.zfunc h.fmt f.depth (readNat (touchKey s f.handle) (fragLoc s f h) (pixelBytes h.fmt)) = false := hp
  have he : applyDepth s f q rest =
      { touchKey s f.handle with frags := afterFail f s.frags }.updGroup f.gid (dropSample f) := by
    simp only [applyDepth, hd, hh, hq, hp', Bool.not_false, Bool.and_self, if_true]
    rfl
  rw [he]
  exact ⟨rfl, rfl⟩

/-- A test that passes, or is not asked for, frees the target's colour, and the depth is written where asked. -/
theorem applyDepth_of_pass (hd : (s.launch? f.lid).bind (·.draw) = some d) (hh : find s.handles f.handle = some h)
    (hq : q.test = false ∨ fragPasses s f d h = true) : applyDepth s f q rest =
      if q.write then store { touchKey s f.handle with frags := afterPass f q rest s.frags }
        (cellsAt (fragLoc s f h) (bytesOfNat (pixelBytes h.fmt) f.depth))
      else { touchKey s f.handle with frags := afterPass f q rest s.frags } := by
  have hn : (q.test && !depthPasses d.zfunc h.fmt f.depth
      (readNat (touchKey s f.handle) (fragLoc s f h) (pixelBytes h.fmt))) = false := by
    rcases hq with hq | hp
    · simp [hq]
    · have hp' : depthPasses d.zfunc h.fmt f.depth (readNat (touchKey s f.handle) (fragLoc s f h) (pixelBytes h.fmt)) = true := hp
      simp [hp']
  simp only [applyDepth, hd, hh, hn, Bool.false_eq_true, if_false]
  rfl

theorem frags_applyDepth_of_pass (hd : (s.launch? f.lid).bind (·.draw) = some d) (hh : find s.handles f.handle = some h)
    (hq : q.test = false ∨ fragPasses s f d h = true) : (applyDepth s f q rest).frags = afterPass f q rest s.frags := by
  rw [applyDepth_of_pass hd hh hq]
  split
  · exact frags_store ..
  · rfl

end

end

end Sys2Proof.Machine

namespace Sys2Proof

open Machine Machine.Assoc Machine.Bits Claims

/-- Settles O55: a move changes memory alone and then the handle's state; a depth test touches its lane's fragments alone. -/
theorem surfaceSteps : Obligations.SurfaceSteps := by
  refine ⟨fun stack s hb hc => exec_llc_resize_complete_of_clear hb hc,
    fun ctx hn h s hh hs => exec_spill_flip_of_spilling hh hs, fun ctx hn h s hh hs => exec_restore_flip_of_restoring hh hs,
    fun src dst s hs hd hm hn ha => exec_frame_migration_of_fit hs hd hm hn ha,
    fun src dst s h => exec_frame_migration_flip_of_moving h,
    fun lid l d s hn hx hl hd => exec_draw_start_of_next hn hx hl hd,
    fun lid l d s hn => ⟨fun t h0 => ?_, fun t h0 h1 => ?_, fun h0 h1 => ?_⟩,
    fun lid st l d r more reg rest tr h s hh hr ht hs => ⟨fun hc => ?_, fun t hc => ?_⟩,
    fun k f rgba d h s hf hc hw ha hd hh => exec_fragment_apply_colour hf hc hw ha hd hh,
    fun k f q rest d h s hf hc ht ha hd hh => ⟨_, exec_fragment_apply_depth hf hc ht ha, fun hq hp => ?_, fun hq => ?_⟩,
    fun k f s hf h => exec_fragment_apply_of_waits hf h⟩
  · simp only [exec_primitive_rasterise_of_draw hn, h0]
  · simp only [exec_primitive_rasterise_of_draw hn, h0, h1]
  · simp only [exec_primitive_rasterise_of_draw hn, h0, h1]
  · rw [advanceFront_of_region hh hr ht hs, hc]
    rfl
  · rw [advanceFront_of_region hh hr ht hs, hc]
    rfl
  · obtain ⟨hm, hf'⟩ := applyDepth_of_fail (rest := rest) hd hh hq hp
    rw [hf']
    refine ⟨hm, fun e he hl => ((mem_afterFail f e s.frags).mp he).2 hl, fun e hl => ?_⟩
    rw [mem_afterFail, hl]
    simp
  · rw [frags_applyDepth_of_pass hd hh hq]
    refine ⟨fun e hl => mem_afterPass_other s.frags hl, fun e he hl ht => waits_afterPass he hl ht, fun hw => ?_, fun hw => ?_⟩
    · rw [applyDepth_of_pass hd hh hq, hw]
      rfl
    · rw [applyDepth_of_pass hd hh hq, hw]
      rfl

end Sys2Proof

/-! Operations of near-bank units and copy engines as they end (R271, R279, R306 to R319). -/

namespace Sys2Proof.Machine

open Assoc Bits Claims

variable {s t : State} {oid : Nat} {o o' : EngineOp}

/-! ### Near-bank commands and copies -/

section
variable {r : BankOut}

theorem exec_nearbank_complete_ends (ho : s.op? oid = some o) (hb : bankBehind s oid o = false)
    (hd : bankDo o s = some (.ends r)) :
    exec (.nearbank_complete oid) s = .next (finishOp r.s oid (finalStatus r.code r.count r.fl)) := by
  simp [execNearbankComplete, ho, hb, hd]

theorem exec_nearbank_complete_goes (ho : s.op? oid = some o) (hb : bankBehind s oid o = false)
    (hd : bankDo o s = some (.goes t o')) : exec (.nearbank_complete oid) s = .next (t.setOp oid o') := by
  simp [execNearbankComplete, ho, hb, hd]

theorem exec_nearbank_complete_behind (ho : s.op? oid = some o) (hb : bankBehind s oid o = true) :
    exec (.nearbank_complete oid) s = .next s := by
  simp [execNearbankComplete, ho, hb]

end

section
variable {bs : List Byte} {n : Nat} {b : Bool}

theorem exec_copy_complete_ends {c : Nat} (ho : s.op? oid = some o) (hk : o.kind = .copy bs) (hs : noSlice o bs = false)
    (h : copyRows o bs (cdNy bs * cdNz bs - o.rows) o.rows o.poisoned s = (t, n, b, .code c)) :
    exec (.copy_complete oid) s = .next (finishOp t oid (finalStatus c n 0)) := by
  simp [execCopyComplete, ho, hk, hs, h]

theorem exec_copy_complete_waits (ho : s.op? oid = some o) (hk : o.kind = .copy bs) (hs : noSlice o bs = false)
    (h : copyRows o bs (cdNy bs * cdNz bs - o.rows) o.rows o.poisoned s = (t, n, b, .waits)) :
    exec (.copy_complete oid) s = .next (t.setOp oid { o with rows := n, poisoned := b }) := by
  simp [execCopyComplete, ho, hk, hs, h]

end

/-! ### Rings (R310 to R313) -/

section
variable {r : RingInfo}

theorem exec_copy_complete_ring (ho : s.op? oid = some o) (hk : o.kind = .ring r) (hd : r.detaching = true)
    (hn : r.done = r.notify) :
    exec (.copy_complete oid) s = .next (endRing s oid o (finalStatus 0 (ringCount r) 0)) := by
  simp [execCopyComplete, ho, hk, hd, hn]

theorem exec_ring_notify_read_of_attached (ho : s.op? oid = some o) (hk : o.kind = .ring r) (hd : r.detaching = false) :
    let n := readNat s ((sliceOf s o).1 + r.header) 4
    exec (.ring_notify_read oid) s = .next (if 2 ^ r.log2n < ringLag r n
        then endRing s oid o (finalStatus 0x80 (ringCount r) 0)
        else s.setOp oid { o with kind := .ring { r with notify := n } }) := by
  simp only [exec_ring_notify_read, execRingNotifyRead, ho, hk, hd, Bool.false_eq_true, if_false, gt_iff_lt]
  split <;> rfl

/-- The next entry to complete is not held back: it lies before NOTIFY, and none is before it. -/
theorem next_entry_starts (hl : 0 < ringLag r r.notify) (hf : r.finished = []) (s : State) (o : EngineOp) :
    ((r.done + 2 ^ 32 - r.done) % 2 ^ 32 ≥ ringLag r r.notify || r.finished.contains r.done) = false ∧
      notStarted s o r r.done = false := by
  have h0 : (r.done + 2 ^ 32 - r.done) % 2 ^ 32 = 0 := by rw [Nat.add_sub_cancel_left, Nat.mod_self]
  constructor
  · rw [h0, hf]
    simpa using hl.ne'
  · rw [notStarted, h0]
    simp

/-- DONE moves on by one over an entry that has completed out of turn with nothing else. -/
theorem advanceDone_one (r : RingInfo) (hf : r.finished = []) {k : Nat} (hk : 0 < k) :
    advanceDone k { r with finished := r.finished ++ [r.done] } = { r with done := (r.done + 1) % 2 ^ 32, finished := [] } := by
  obtain ⟨k, rfl⟩ := Nat.exists_eq_succ_of_ne_zero hk.ne'
  rw [hf, List.nil_append, advanceDone]
  simp only [List.contains_cons, BEq.rfl, Bool.true_or, if_true, List.filter_cons, bne_self_eq_false, List.filter_nil]
  cases k with
  | zero => rfl
  | succ k => rfl

theorem writeDones_next (s : State) (loc : Nat) {done : Nat} (hd : done < 2 ^ 32) :
    writeDones s loc done (((done + 1) % 2 ^ 32 + 2 ^ 32 - done) % 2 ^ 32) = storeNat s loc 4 ((done + 1) % 2 ^ 32) := by
  have h : ((done + 1) % 2 ^ 32 + 2 ^ 32 - done) % 2 ^ 32 = 1 := by omega
  rw [h]
  rfl

theorem exec_ring_entry_complete_ok {b : Bool} (ho : s.op? oid = some o) (hk : o.kind = .ring r)
    (hl : 0 < ringLag r r.notify) (hd : r.done < 2 ^ 32) (hf : r.finished = [])
    (hc : ringCopy o (ringEntry s o r r.done) s = (t, b, none)) : exec (.ring_entry_complete oid r.done) s = .next (storeNat
      (t.setOp oid { o with kind := .ring { r with done := (r.done + 1) % 2 ^ 32, finished := [] } })
      ((sliceOf s o).1 + r.header + 4) 4 ((r.done + 1) % 2 ^ 32)) := by
  obtain ⟨h1, h2⟩ := next_entry_starts hl hf s o
  simp only [exec_ring_entry_complete, execRingEntryComplete, ho, hk, h1, h2, hc, Bool.false_eq_true, if_false]
  rw [advanceDone_one r hf (Nat.two_pow_pos _)]
  exact congrArg Host.Outcome.next (writeDones_next _ _ hd)

theorem exec_ring_entry_complete_fails {b : Bool} {c : Nat} (ho : s.op? oid = some o) (hk : o.kind = .ring r)
    (hl : 0 < ringLag r r.notify) (hf : r.finished = [])
    (hc : ringCopy o (ringEntry s o r r.done) s = (t, b, some c)) :
    exec (.ring_entry_complete oid r.done) s = .next (endRing
      (storeNat t ((sliceOf s o).1 + r.header + 8) 4 r.done) oid o (finalStatus c (ringCount r) 0)) := by
  obtain ⟨h1, h2⟩ := next_entry_starts hl hf s o
  simp only [exec_ring_entry_complete, execRingEntryComplete, ho, hk, h1, h2, hc, Bool.false_eq_true, if_false, ne_eq,
    not_true_eq_false]

end

/-! ### Combines (R316 to R319) -/

/-- A tile without uncorrectable bytes has no bad element. -/
theorem tileBad_of_none (bf : Bool) {bs : List Bool} (h : ∀ b ∈ bs, b = false) : tileBad bf bs = [] := by
  have part (k n : Nat) : ((bs.drop k).take n).any id = false := by
    rw [List.any_eq_false]
    intro b hb
    simp [h b (List.mem_of_mem_drop (List.mem_of_mem_take hb))]
  rw [tileBad, List.filter_eq_nil_iff]
  intro i _
  cases bf <;> simp [part]

theorem exec_cpred_send_complete_of_read {bs : List Byte} {tile : List (Byte × Bool)} (ho : s.op? oid = some o)
    (hk : o.kind = .cpred bs) (hr : tileRead o (cpLenu bs) (cpSrc bs) false s = (t, tile, none))
    (hu : unreachable t (cpNode bs) = false) (hb : ∀ e ∈ tile, e.2 = false) : ∃ p : CombinePart,
      exec (.cpred_send_complete oid) s = .next (finishOp { t with parts := t.parts ++ [(cpNode bs, p)] } oid
        (finalStatus 0 o.engine 0)) ∧ p.count = 1 ∧ p.nsrc = cpNsrc bs ∧ p.gid = cpGid bs ∧ p.dst = cpDst bs ∧
      p.bad = [] ∧ p.vals = tileVals (cpType bs == 1) (tile.map (·.1)) := by
  have hbad : tile.any (·.2) = false := by
    rw [List.any_eq_false]
    intro e he
    simp [hb e he]
  have hnone : tileBad (cpType bs == 1) (tile.map (·.2)) = [] := tileBad_of_none _ fun b h => by
    obtain ⟨e, he, rfl⟩ := List.mem_map.mp h
    exact hb e he
  refine ⟨{ podid := podOf t o.launch, gid := cpGid bs, dst := cpDst bs, donew := cpDonew bs, op := cpOp bs,
            bf16 := cpType bs == 1, nsrc := cpNsrc bs, count := 1, vals := tileVals (cpType bs == 1) (tile.map (·.1)),
            bad := tileBad (cpType bs == 1) (tile.map (·.2)), pkey := t.key }, ?_, rfl, rfl, rfl, rfl, hnone, rfl⟩
  simp only [exec_cpred_send_complete, execCpredSendComplete, ho, hk, hr, hu, hbad, Bool.false_eq_true, if_false]

section
variable {p : CombinePart}

theorem exec_combine_arrival_first (h : s.combines.findIdx? (fun c => sameCombine c.part p) = none) :
    let s1 := { s with parts := s.parts.erase (s.pkgid, p) }
    exec (.combine_arrival p) s = .next (if p.nsrc ≤ p.count then combineWrite s1 p p.nsrc
      else { s1 with combines := s.combines ++ [⟨p, s.primaryTime⟩] }) := by
  simp only [exec_combine_arrival, execCombineArrival, h, ge_iff_le]
  split <;> rfl

theorem exec_combine_arrival_next {k : Nat} {c : Combine}
    (h : s.combines.findIdx? (fun c => sameCombine c.part p) = some k) (hc : s.combines[k]? = some c) :
    let s1 := { s with parts := s.parts.erase (s.pkgid, p) }
    let q := { c.part with count := c.part.count + p.count,
                           vals := (c.part.vals.zip p.vals).map fun v => combineVal p.op v.1 v.2,
                           bad := distinct (c.part.bad ++ p.bad) }
    exec (.combine_arrival p) s = .next (if q.nsrc ≤ q.count
      then combineWrite { s1 with combines := s.combines.eraseIdx k } q q.nsrc
      else { s1 with combines := s.combines.set k { c with part := q } }) := by
  simp only [exec_combine_arrival, execCombineArrival, h, hc, ge_iff_le]
  split <;> rfl

end

end Sys2Proof.Machine

namespace Sys2Proof

open Machine Machine.Assoc Machine.Bits Claims

/-- Settles O56: each operation's end by its own case; the entry that DONE names is the next to complete. -/
theorem engineSteps : Obligations.EngineSteps :=
  ⟨fun _ _ _ _ _ _ ho hb => ⟨exec_nearbank_complete_ends ho hb, exec_nearbank_complete_goes ho hb⟩,
    fun _ _ _ ho hb => exec_nearbank_complete_behind ho hb,
    fun _ _ _ _ _ _ _ ho hk hs => ⟨fun _ h => exec_copy_complete_ends ho hk hs h, exec_copy_complete_waits ho hk hs⟩,
    fun _ _ _ _ ho hk => ⟨exec_copy_complete_ring ho hk, exec_ring_notify_read_of_attached ho hk⟩,
    fun _ _ _ _ _ ho hk hl hd hf _ =>
      ⟨exec_ring_entry_complete_ok ho hk hl hd hf, fun _ h => exec_ring_entry_complete_fails ho hk hl hf h⟩,
    fun _ _ _ _ _ _ ho hk hr hu hb => exec_cpred_send_complete_of_read ho hk hr hu hb,
    fun _ _ h => exec_combine_arrival_first h, fun _ _ _ _ h hc => exec_combine_arrival_next h hc,
    fun k c s hc ht => by
      have hn : ¬since s.primaryTime c.since < 10000000 := Nat.not_lt.mpr ht
      simp only [exec_combine_timeout, execCombineTimeout, hc, if_neg hn]⟩

end Sys2Proof

/-! What a byte reads after writes that spare it, and after its own (R157, R160, R286). -/

namespace Sys2Proof.Machine

open Assoc Bits Claims

variable {s t : State} {x l : Nat} {b : Byte}

/-! ### What places depend on -/

theorem mirrorOf_of_memOnly (h : MemOnly s t) (x : Nat) : mirrorOf t x = mirrorOf s x := by
  have hs := congrArg (fun u => mirrorOf u x) h
  exact hs

theorem physLoc_of_memOnly (h : MemOnly s t) (x : Nat) : physLoc t x = physLoc s x := by
  have hs := congrArg (fun u => physLoc u x) h
  exact hs

theorem homeOf_of_memOnly (h : MemOnly s t) (x : Nat) : homeOf t x = homeOf s x := by
  have hs := congrArg (fun u => homeOf u x) h
  exact hs

theorem blockCells_of_memOnly (h : MemOnly s t) (e : Sfte) (n : Nat) : blockCells t e n = blockCells s e n := by
  have hs := congrArg (fun u => blockCells u e n) h
  exact hs

theorem blockOfShadow_of_memOnly (h : MemOnly s t) (x : Nat) : blockOfShadow t x = blockOfShadow s x := by
  have hs := congrArg (fun u => blockOfShadow u x) h
  exact hs

theorem unencoded_of_memOnly (h : MemOnly s t) : Unencoded t x l ↔ Unencoded s x l := by
  simp only [Unencoded, blockOfShadow_of_memOnly h, handles_of_memOnly h, blockCells_of_memOnly h, mirrorOf_of_memOnly h]

theorem apart_of_memOnly (h : MemOnly s t) : Apart t x l ↔ Apart s x l := by
  rw [Apart, Apart, mirrorOf_of_memOnly h, unencoded_of_memOnly h]

/-! ### Single bytes -/

/-- A write at `x`, which has no copy at `l`, spares it. -/
def Spares (s : State) (x l : Nat) : Prop := x ≠ l ∧ mirrorOf s x ≠ some l

theorem spares_of_memOnly (h : MemOnly s t) : Spares t x l ↔ Spares s x l := by
  rw [Spares, Spares, mirrorOf_of_memOnly h]

theorem Apart.spares (h : Apart s x l) : Spares s x l := ⟨h.1, h.2.1⟩

theorem readByte_writeByte_same (s : State) (x : Nat) (b : Byte) : readByte (writeByte s x b) x = b := by
  unfold writeByte
  split
  next l2 _ =>
    by_cases h : x = l2
    · rw [h]
      exact readByte_putByte_same ..
    · rw [readByte_putByte_other _ _ h]
      exact readByte_putByte_same ..
  next => exact readByte_putByte_same ..

theorem readByte_writeByte_spared (h : Spares s x l) (b : Byte) : readByte (writeByte s x b) l = readByte s l := by
  unfold writeByte
  split
  next l2 hm =>
    have hl : l ≠ l2 := fun hl => h.2 (hl ▸ hm)
    rw [readByte_putByte_other _ _ hl, readByte_putByte_other _ _ h.1.symm]
  next => exact readByte_putByte_other _ _ h.1.symm

/-- A fold of writes that spare a byte. -/
theorem readByte_foldl_spared {α : Type} {f : State → α → State} (as : List α) :
    ∀ s, (∀ t a, a ∈ as → MemOnly s t → MemOnly t (f t a) ∧ readByte (f t a) l = readByte t l) →
      readByte (as.foldl f s) l = readByte s l := by
  induction as with
  | nil => exact fun s _ => rfl
  | cons a as ih =>
    intro s hf
    obtain ⟨hm, hr⟩ := hf s a List.mem_cons_self (memOnly_refl s)
    refine (ih (f s a) fun t a' ha ht => hf t a' (List.mem_cons_of_mem a ha) (memOnly_trans hm ht)).trans hr

/-! ### Bytes at a list of locations -/

variable {bs : List (Nat × Byte)}

theorem readByte_writeCells_spared (h : ∀ e ∈ bs, Spares s e.1 l) : readByte (writeCells s bs) l = readByte s l :=
  readByte_foldl_spared bs s fun t e he ht =>
    ⟨memOnly_writeByte .., readByte_writeByte_spared ((spares_of_memOnly ht).mpr (h e he)) e.2⟩

/-- Distinct locations, none a copy of another, read what is written there. -/
theorem readByte_writeCells_of_mem (hd : (bs.map (·.1)).Nodup) (hm : ∀ e ∈ bs, ∀ e' ∈ bs, mirrorOf s e.1 ≠ some e'.1)
    {e : Nat × Byte} (he : e ∈ bs) : readByte (writeCells s bs) e.1 = e.2 := by
  induction bs generalizing s with
  | nil => cases he
  | cons c bs ih =>
    obtain ⟨hc, hd⟩ := List.nodup_cons.mp hd
    have hw := memOnly_writeByte s c.1 c.2
    rcases List.mem_cons.mp he with rfl | he
    · refine (readByte_writeCells_spared (s := writeByte s e.1 e.2) fun e' he' => ?_).trans (readByte_writeByte_same ..)
      refine (spares_of_memOnly hw).mpr ⟨fun h => hc (List.mem_map.mpr ⟨e', he', h⟩), ?_⟩
      exact hm e' (List.mem_cons_of_mem _ he') e List.mem_cons_self
    · refine ih (s := writeByte s c.1 c.2) hd (fun a ha a' ha' => ?_) he
      rw [mirrorOf_of_memOnly hw]
      exact hm a (List.mem_cons_of_mem _ ha) a' (List.mem_cons_of_mem _ ha')

/-! ### The compressor -/

/-- A block encoded anew writes its own cells alone. -/
theorem readByte_encodeBlock_spared {key n : Nat} {h : Sfte} (hc : ∀ y ∈ blockCells s h n, Spares s y l) :
    readByte (encodeBlock key h s n) l = readByte s l := by
  have hn : Spares s (physLoc s (h.rmap + n / 2)) l := hc _ List.mem_cons_self
  have hb (i : Nat) (hi : i < 16 * (blockBytes h / 16 - 1 + 1)) : Spares s (physLoc s (h.spill + n * blockBytes h + i)) l :=
    hc _ (List.mem_cons_of_mem _ (List.mem_map_of_mem (List.mem_range.mpr hi)))
  unfold encodeBlock
  dsimp only
  generalize hB : (if h.comp = 1 then [] else _) = bytes
  have hlen : bytes.length ≤ 16 * (blockBytes h / 16 - 1 + 1) := by
    rw [← hB]
    split
    next => exact Nat.zero_le _
    next hne =>
      rw [List.length_map, List.length_range]
      have := Nat.min_le_left (blockBytes h / 16 - 1)
        (Config.compressedUnits ((blockPlaces h n).map fun p => readByte s (spilledHome s key h p.1 p.2)))
      omega
  have hf (s' : State) : MemOnly s s' → readByte (bytes.zipIdx.foldl
      (fun s e => putPhys s (h.spill + n * blockBytes h + e.2) e.1) s') l = readByte s' l := by
    intro hs
    refine readByte_foldl_spared _ s' fun t e he ht => ⟨memOnly_writeByte .., readByte_writeByte_spared ?_ _⟩
    have hst := memOnly_trans hs ht
    rw [physLoc_of_memOnly hst, spares_of_memOnly hst]
    have hi := (List.mem_zipIdx' he).1
    exact hb e.2 (by omega)
  have hmem : MemOnly s (bytes.zipIdx.foldl (fun s e => putPhys s (h.spill + n * blockBytes h + e.2) e.1) s) :=
    memOnly_foldl (fun _ _ => memOnly_writeByte ..) _ _
  refine Eq.trans ?_ (hf s (memOnly_refl s))
  refine readByte_writeByte_spared ?_ _
  rw [physLoc_of_memOnly hmem, spares_of_memOnly hmem]
  exact hn

theorem readByte_recompress_spared {locs : List Nat} (h : ∀ x ∈ locs, Unencoded s x l) :
    readByte (recompress s locs) l = readByte s l := by
  refine readByte_foldl_spared _ s fun t e he ht => ?_
  obtain ⟨x, hx, hs⟩ := List.mem_filterMap.mp (List.mem_eraseDups.mp he)
  obtain ⟨hx, hb⟩ := List.mem_filter.mp hx
  simp only [Bool.and_eq_true, decide_eq_true_eq] at hb
  rw [handles_of_memOnly ht]
  cases hh : find s.handles e.1 with
  | none => exact ⟨memOnly_refl t, rfl⟩
  | some a =>
    refine ⟨memOnly_encodeBlock .., readByte_encodeBlock_spared fun y hy => ?_⟩
    rw [blockCells_of_memOnly ht] at hy
    exact (spares_of_memOnly ht).mpr (h x hx hb.1 hb.2 e a hs hh y hy)

/-! ### Stores -/

section
variable {w : Writer}

/-- The bytes of a store before the compressor sees them. -/
theorem readByte_storeBy_eq (w : Writer) (s : State) (bs : List (Nat × Byte)) (h : ∀ e ∈ bs, Unencoded s e.1 l) :
    readByte (storeBy w s bs) l = readByte (writeCells s bs) l := by
  have hn := memOnly_noteWrite w s (bs.map (·.1))
  have hw := memOnly_trans hn (memOnly_writeCells (noteWrite w s (bs.map (·.1))) bs)
  have hl := memOnly_trans hw (memOnly_llcWrites w.uncached (linesOf ((bs.map (·.1)).filter (· < gddrEnd))) _)
  have hcells : readByte (writeCells (noteWrite w s (bs.map (·.1))) bs) l = readByte (writeCells s bs) l := by
    obtain ⟨x, y, n, hx⟩ := noteWrite_frame w s (bs.map (·.1))
    exact readByte_writeCells_congr bs _ _ l (by rw [hx]) (by rw [hx]) (by rw [hx])
  have hcore : readByte (storeCore w s bs) l = readByte (writeCells s bs) l := by
    rw [← hcells]
    simp only [storeCore]
    split
    · refine (readByte_recompress_spared fun x hx => ?_).trans ?_
      · obtain ⟨e, he, rfl⟩ := List.mem_map.mp hx
        exact (unencoded_of_memOnly hl).mpr (h e he)
      · rw [readByte, foldl_llcWrite_mem]
        rfl
    · rw [readByte, foldl_llcWrite_mem]
      rfl
  rw [storeBy_eq]
  dsimp only
  split
  · exact hcore
  · exact hcore

theorem readByte_storeBy_spared (h : ∀ e ∈ bs, Apart s e.1 l) : readByte (storeBy w s bs) l = readByte s l :=
  (readByte_storeBy_eq w s bs fun e he => (h e he).2.2).trans (readByte_writeCells_spared fun e he => (h e he).spares)

/-- Every byte of a store at distinct locations reads back, where none is a copy of another, nor what a compressor writes. -/
theorem readByte_storeBy_of_mem (hd : (bs.map (·.1)).Nodup)
    (hm : ∀ e ∈ bs, ∀ e' ∈ bs, mirrorOf s e.1 ≠ some e'.1 ∧ Unencoded s e.1 e'.1) {e : Nat × Byte} (he : e ∈ bs) :
    readByte (storeBy w s bs) e.1 = e.2 :=
  (readByte_storeBy_eq w s bs fun e' he' => (hm e' he' e he).2).trans
    (readByte_writeCells_of_mem hd (fun a ha a' ha' => (hm a ha a' ha').1) he)

end

/-! ### Cells of consecutive locations -/

theorem cellsAt_eq_map (loc : Nat) (bs : List Byte) :
    cellsAt loc bs = (List.range bs.length).map fun i => (loc + i, bs.getD i 0) := by
  induction bs generalizing loc with
  | nil => rfl
  | cons b bs ih =>
    rw [cellsAt, ih, List.length_cons, List.range_succ_eq_map, List.map_cons, List.map_map]
    refine congrArg₂ List.cons rfl (List.map_congr_left fun i _ => ?_)
    simp only [Function.comp, List.getD_cons_succ]
    rw [Nat.add_assoc, Nat.add_comm 1 i]

theorem hitCells_eq_map (s : State) (h : Hit) (bs : List Byte) :
    hitCells s h bs = (List.range bs.length).map fun i => (homeOf s (h.place + i), bs.getD i 0) := by
  rw [hitCells, cellsAt_eq_map, List.map_map]
  rfl

end Sys2Proof.Machine

/-! What near-bank units, copies, rings and combines compute (R274 to R278, R306 to R319). -/

namespace Sys2Proof.Machine

open Assoc Bits Claims Float

variable {s t : State} {o : EngineOp} {r : List Byte}

/-! ### IVS bytes (R274) -/

/-- A byte written is bad no more, and no write spoils another. -/
theorem isBad_writeByte (s : State) (x : Nat) (b : Byte) {l : Nat} (h : isBad (writeByte s x b) l = true) :
    l ≠ x ∧ isBad s l = true := by
  have put (u : State) (y : Nat) (h : isBad (putByte u y b) l = true) : l ≠ y ∧ isBad u l = true := by
    rw [isBad, List.contains_iff_mem] at h ⊢
    have hm := List.mem_filter.mp h
    exact ⟨by simpa using hm.2, hm.1⟩
  unfold writeByte at h
  split at h
  · exact put s x (put _ _ h).2
  · exact put s x h

theorem isBad_writeCells (s : State) {bs : List (Nat × Byte)} {l : Nat} (h : isBad (writeCells s bs) l = true) :
    (∀ e ∈ bs, l ≠ e.1) ∧ isBad s l = true := by
  induction bs generalizing s with
  | nil => exact ⟨fun _ h => by (cases h), h⟩
  | cons e bs ih =>
    obtain ⟨hbs, hs⟩ := ih (writeByte s e.1 e.2) h
    obtain ⟨he, hs⟩ := isBad_writeByte s e.1 e.2 hs
    exact ⟨List.forall_mem_cons.mpr ⟨he, hbs⟩, hs⟩

/-- Locations beyond GDDR have no copy. -/
theorem mirrorOf_of_ge {x : Nat} (h : gddrEnd ≤ x) : mirrorOf s x = none := if_neg (Nat.not_lt.mpr h)

theorem isBad_poison {locs : List Nat} (h : ∀ x ∈ locs, mirrorOf s x = none) (l : Nat) :
    isBad (poison s locs) l = (locs.contains l || isBad s l) := by
  have hm : locs.filterMap (mirrorOf s) = [] := by
    rw [List.filterMap_eq_nil_iff]
    exact h
  rw [poison, hm, List.append_nil, isBad, isBad, Bool.eq_iff_iff]
  simp only [markBad, List.contains_iff_mem, List.mem_append, List.mem_filter, Bool.or_eq_true]
  by_cases hl : l ∈ locs <;> simp [hl]

section
variable {ch off : Nat} {bs : List (Byte × Bool)}

theorem ivsLoc_add (ch off k : Nat) : ivsLoc ch (off + k) = ivsLoc ch off + k := (Nat.add_assoc _ _ _).symm

theorem gddrEnd_le_ivsLoc (ch off : Nat) : gddrEnd ≤ ivsLoc ch off := by
  have h : gddrEnd ≤ 2 ^ 61 := by decide
  unfold ivsLoc
  omega

theorem ivsCells_eq (ch off : Nat) (bs : List (Byte × Bool)) : cellsAt (ivsLoc ch off) (bs.map (·.1)) =
    (List.range bs.length).map fun k => (ivsLoc ch (off + k), (bs.getD k (0, false)).1) := by
  rw [cellsAt_eq_map, List.length_map]
  refine List.map_congr_left fun k hk => ?_
  have hk := List.mem_range.mp hk
  rw [ivsLoc_add]
  simp [hk]

theorem readByte_ivsWrite {k : Nat} (hk : k < bs.length) :
    readByte (ivsWrite s ch off bs) (ivsLoc ch (off + k)) = (bs.getD k (0, false)).1 := by
  have hr : readByte (ivsWrite s ch off bs) (ivsLoc ch (off + k)) =
      readByte (writeCells s (cellsAt (ivsLoc ch off) (bs.map (·.1)))) (ivsLoc ch (off + k)) := rfl
  rw [hr, ivsCells_eq]
  have hm : (ivsLoc ch (off + k), (bs.getD k (0, false)).1) ∈
      (List.range bs.length).map fun k => (ivsLoc ch (off + k), (bs.getD k (0, false)).1) :=
    List.mem_map.mpr ⟨k, List.mem_range.mpr hk, rfl⟩
  refine readByte_writeCells_of_mem ?_ (fun e he e' _ => ?_) hm
  · rw [List.map_map]
    refine List.Nodup.map (fun a b h => ?_) List.nodup_range
    simp only [Function.comp, ivsLoc] at h
    omega
  · obtain ⟨j, -, rfl⟩ := List.mem_map.mp he
    rw [mirrorOf_of_ge (gddrEnd_le_ivsLoc ..)]
    exact nofun

theorem readByte_ivsWrite_other {l : Nat} (h : ∀ k < bs.length, l ≠ ivsLoc ch (off + k)) :
    readByte (ivsWrite s ch off bs) l = readByte s l := by
  have hr : readByte (ivsWrite s ch off bs) l = readByte (writeCells s (cellsAt (ivsLoc ch off) (bs.map (·.1)))) l := rfl
  rw [hr, ivsCells_eq]
  refine readByte_writeCells_spared fun e he => ?_
  obtain ⟨k, hk, rfl⟩ := List.mem_map.mp he
  refine ⟨(h k (List.mem_range.mp hk)).symm, ?_⟩
  rw [mirrorOf_of_ge (gddrEnd_le_ivsLoc ..)]
  exact nofun

theorem isBad_ivsWrite {k : Nat} (hk : k < bs.length) :
    isBad (ivsWrite s ch off bs) (ivsLoc ch (off + k)) = (bs.getD k (0, false)).2 := by
  have hw : isBad (writeCells s (cellsAt (ivsLoc ch off) (bs.map (·.1)))) (ivsLoc ch (off + k)) = false := by
    rw [← Bool.not_eq_true]
    intro hb
    refine (isBad_writeCells s hb).1 (ivsLoc ch (off + k), (bs.getD k (0, false)).1) ?_ rfl
    rw [ivsCells_eq]
    exact List.mem_map.mpr ⟨k, List.mem_range.mpr hk, rfl⟩
  unfold ivsWrite
  dsimp only
  rw [isBad_poison, hw, Bool.or_false, Bool.eq_iff_iff, List.contains_iff_mem, List.mem_map]
  · constructor
    · rintro ⟨e, he, hl⟩
      obtain ⟨hm, hb⟩ := List.mem_filter.mp he
      have hke : e.2 = k := by
        rw [ivsLoc_add] at hl
        omega
      obtain ⟨hi, hv⟩ := List.mem_zipIdx' hm
      subst hke
      rw [List.getD_eq_getElem _ _ hk, ← hv]
      exact hb
    · intro hb
      refine ⟨(bs[k], k), List.mem_filter.mpr ⟨List.mem_zipIdx_iff_getElem?.mpr (by simp [hk]), ?_⟩, (ivsLoc_add ..).symm⟩
      rwa [List.getD_eq_getElem _ _ hk] at hb
  · intro x hx
    obtain ⟨e, -, rfl⟩ := List.mem_map.mp hx
    refine mirrorOf_of_ge ?_
    have := gddrEnd_le_ivsLoc ch off
    omega

end

end Sys2Proof.Machine

namespace Sys2Proof.Machine.Float

open Bits Claims

/-! ### Order with signed zeros -/

section
variable {x y : Val}

theorem orderOf_of_isZero (h : x.isZero = true) : Claims.orderOf x = ((0 : WithTop ℚ) : WithBot (WithTop ℚ)) := by
  cases x with
  | nan | inf => cases h
  | fin n m e =>
    cases eq_of_beq h
    cases n <;> simp [Claims.orderOf, valueOf]

theorem orderOf_le_of_below (hx : x.isNan = false) (hy : y.isNan = false) (h : below true x y = true) :
    Claims.orderOf x ≤ Claims.orderOf y := by
  have hor : below false x y = true ∨ x.isZero = true ∧ y.isZero = true := by
    cases x <;> cases y <;> simp_all [below, Val.isNan]
    tauto
  rcases hor with hlt | ⟨hx0, hy0⟩
  · rw [below_iff hx hy, decide_eq_true_eq] at hlt
    exact hlt.le
  · rw [orderOf_of_isZero hx0, orderOf_of_isZero hy0]

theorem orderOf_le_of_not_below (hx : x.isNan = false) (hy : y.isNan = false) (h : below true x y = false) :
    Claims.orderOf y ≤ Claims.orderOf x := by
  have hn : below false x y = false := by
    cases x <;> cases y <;> simp_all [below, Val.isNan]
  rw [below_iff hx hy, decide_eq_false_iff_not, not_lt] at hn
  exact hn

end

section
variable {a b : Nat}

theorem canon_of_nan (h : (unpack f32 a).isNan = true ∨ (unpack f32 b).isNan = true) :
    maxCanon a b = f32.nanBits ∧ minCanon a b = f32.nanBits := by
  have hor : ((unpack f32 a).isNan || (unpack f32 b).isNan) = true := Bool.or_eq_true_iff.mpr h
  exact ⟨if_pos hor, if_pos hor⟩

theorem orderOf_canon (ha : (unpack f32 a).isNan = false) (hb : (unpack f32 b).isNan = false) :
    Claims.orderOf (unpack f32 (maxCanon a b)) = max (Claims.orderOf (unpack f32 a)) (Claims.orderOf (unpack f32 b)) ∧
      Claims.orderOf (unpack f32 (minCanon a b)) =
        min (Claims.orderOf (unpack f32 a)) (Claims.orderOf (unpack f32 b)) := by
  simp only [maxCanon, minCanon, ha, hb, Bool.or_self, Bool.false_eq_true, if_false]
  constructor
  · cases h : below true (unpack f32 a) (unpack f32 b) with
    | true => exact (max_eq_right (orderOf_le_of_below ha hb h)).symm
    | false => exact (max_eq_left (orderOf_le_of_not_below ha hb h)).symm
  · cases h : below true (unpack f32 b) (unpack f32 a) with
    | true => exact (min_eq_right (orderOf_le_of_below hb ha h)).symm
    | false => exact (min_eq_left (orderOf_le_of_not_below hb ha h)).symm

theorem maxCanon_cases (a b : Nat) : maxCanon a b = f32.nanBits ∨ maxCanon a b = a ∨ maxCanon a b = b := by
  unfold maxCanon
  split <;> [skip; split] <;> simp

theorem minCanon_cases (a b : Nat) : minCanon a b = f32.nanBits ∨ minCanon a b = a ∨ minCanon a b = b := by
  unfold minCanon
  split <;> [skip; split] <;> simp

end

/-! ### Encodings of f32 have 32 bits -/

theorem signed_lt {f : Fmt} {w : Nat} (h : w < f.signW) (n : Bool) : signed f n w < 2 * f.signW := by
  cases n <;> simp [signed] <;> omega

theorem overflowBits_lt (rm : Rm) (n : Bool) : overflowBits f32 rm n < f32.signW := by
  cases rm <;> cases n <;> decide

/-- A rounded number is an encoding of the format. -/
theorem roundMag_lt (rm : Rm) (n : Bool) (num den : Nat) (st : Bool) : (roundMag f32 rm n num den st).w < 2 ^ 32 := by
  have hs : 2 * f32.signW = 2 ^ 32 := by decide
  have hmax : f32.maxBits < f32.signW := by decide
  unfold roundMag
  dsimp only
  generalize packMag f32 _ _ = bits
  by_cases h : bits > f32.maxBits
  · rw [if_pos h, ← hs]
    exact signed_lt (overflowBits_lt rm n) n
  · rw [if_neg h, ← hs]
    exact signed_lt ((Nat.not_lt.mp h).trans_lt hmax) n

theorem roundDyad_lt (rm : Rm) (n : Bool) (a : Dyad) : (roundDyad f32 rm n a).w < 2 ^ 32 := by
  unfold roundDyad roundQuo
  split
  · cases n <;> decide
  · exact roundMag_lt ..

theorem addVal_lt (rm : Rm) (x y : Val) : (addVal f32 rm x y).w < 2 ^ 32 := by
  have inf : ∀ n, signed f32 n f32.infBits < 2 ^ 32 := by decide
  have inv : (invalid f32).w < 2 ^ 32 := by decide
  unfold addVal
  split
  · split
    · exact inf _
    · exact inv
  · exact inf _
  · exact inf _
  · exact roundDyad_lt ..

theorem quiet_lt {w : Nat} (h : w < 2 ^ 32) : quiet f32 w < 2 ^ 32 := by
  unfold quiet
  split
  next hw =>
    have hb : w / 2 ^ 22 % 2 = 0 := hw.2
    change w + 2 ^ 22 < 2 ^ 32
    omega
  next => exact h

theorem fadd32_lt {a b : Nat} (ha : a < 2 ^ 32) (hb : b < 2 ^ 32) : (fadd env32 a b).w < 2 ^ 32 := by
  unfold fadd
  dsimp only
  have rd (w : Nat) : env32.rd w = w := rfl
  rw [rd, rd]
  cases h : nanOf env32.f [a, b] with
  | none => exact addVal_lt ..
  | some r =>
    obtain ⟨w, hw, rfl⟩ := Option.map_eq_some_iff.mp h
    have hm := List.mem_of_find?_eq_some hw
    refine quiet_lt ?_
    rcases List.mem_cons.mp hm with rfl | hm
    · exact ha
    · rw [List.mem_singleton.mp hm]
      exact hb

end Sys2Proof.Machine.Float

namespace Sys2Proof.Machine

open Assoc Bits Claims Float

variable {s t : State} {o : EngineOp} {r : List Byte}

/-- What a combine makes of two values (R319). -/
theorem combineVal_toNat (a b : Word) : (combineVal 0 a b).toNat = (fadd env32 a.toNat b.toNat).w ∧
    (combineVal 1 a b).toNat = minCanon a.toNat b.toNat ∧ (combineVal 2 a b).toNat = maxCanon a.toNat b.toNat := by
  have ha := a.isLt
  have hb := b.isLt
  have hn : f32.nanBits < 2 ^ 32 := by decide
  have of (v : Nat) (h : v < 2 ^ 32) : (BitVec.ofNat 32 v).toNat = v := by
    rw [BitVec.toNat_ofNat, Nat.mod_eq_of_lt h]
  refine ⟨of _ (fadd32_lt ha hb), of _ ?_, of _ ?_⟩
  · rcases minCanon_cases a.toNat b.toNat with h | h | h <;> rw [h] <;> assumption
  · rcases maxCanon_cases a.toNat b.toNat with h | h | h <;> rw [h] <;> assumption

/-! ### Products and walks (R276, R278) -/

theorem bmRow_w (s : State) (r : List Byte) (acc i : Nat) :
    let la := fun t => surfPa (bmStk r) ((bmRow0 r + i / 32 * bmKs r + t) * 2 ^ 18 + bmCh r * 2048 + i % 32 * 64)
    let lx := fun t => ivsLoc (channelOf (bmStk r) (bmCh r)) (64 * bmIvOff r + 64 * t)
    (bmRow s r acc i).1.w = (List.range (bmKs r)).foldl (fun w t => (accumulate w (sumProds ((List.range 32).map fun k =>
      (unpack bf16 (readNat s (la t + 2 * k) 2), unpack bf16 (readNat s (lx t + 2 * k) 2))))).w) acc := by
  exact (List.foldl_hom (f := fun out : Res × Option Nat => out.1.w) fun _ _ => rfl).symm

theorem emFinal_w {a : EmAcc} {used : Nat} (hb : emObf r = false) :
    (a.bad = true → (emFinal r used a).w = 0x7FE00000) ∧
    (a.bad = false → emPool r ≠ 1 ∨ used = 0 → (emFinal r used a).w = a.v) ∧
    (a.bad = false → emPool r = 1 → 0 < used →
      (emFinal r used a).w = (fdiv env32 a.v (roundDyad f32 .rne false (Dyad.ofInt used)).w).w) := by
  refine ⟨fun h => ?_, fun h hp => ?_, fun h hp hu => ?_⟩
  · simp [emFinal, outWord, hb, h]
  · have hn : ¬(emPool r = 1 ∧ 0 < used) := by omega
    simp [emFinal, outWord, hb, h, hn]
  · simp [emFinal, outWord, hb, h, hp, hu, Res.add]

theorem emStep_spec (r : List Byte) (first : Bool) (w x : Nat) (bad : Bool) (a : EmAcc) :
    (emPool r ≠ 2 → (emStep r first w x bad a).v = (ffma env32 false x w a.v).w) ∧
    (emPool r = 2 → (emStep r first w x bad a).v = if first then (fmul env32 x w).w else maxCanon a.v (fmul env32 x w).w) ∧
    (emStep r first w x bad a).bad = (a.bad || bad) := by
  by_cases h : emPool r = 2 <;> simp [emStep, h]

/-! ### Bytes moved (R308) -/

/-- The bytes that an engine writes at once read back at their homes. -/
theorem readByte_engineStore {h : Hit} {bs : List Byte} (hl : s.late = false)
    (hd : ((List.range bs.length).map fun i => homeOf s (h.place + i)).Nodup)
    (hm : ∀ i < bs.length, ∀ j < bs.length, mirrorOf s (homeOf s (h.place + i)) ≠ some (homeOf s (h.place + j)) ∧
      Unencoded s (homeOf s (h.place + i)) (homeOf s (h.place + j))) {i : Nat} (hi : i < bs.length) :
    readByte (engineStore o s h bs) (homeOf s (h.place + i)) = bs.getD i 0 := by
  have he : engineStore o s h bs = storeUnder s (opPolicy o h) (hitCells s h bs) := by
    rw [engineStore, hl]
    rfl
  rw [he, hitCells_eq_map]
  refine readByte_storeBy_of_mem (e := (homeOf s (h.place + i), bs.getD i 0)) ?_ (fun e he e' he' => ?_)
    (List.mem_map.mpr ⟨i, List.mem_range.mpr hi, rfl⟩)
  · rw [List.map_map]
    exact hd
  · obtain ⟨a, ha, rfl⟩ := List.mem_map.mp he
    obtain ⟨b, hb, rfl⟩ := List.mem_map.mp he'
    exact hm a (List.mem_range.mp ha) b (List.mem_range.mp hb)

/-- The elements of a tile as f32 values (R319). -/
theorem getD_tileVals (bs : List Byte) (i : Nat) :
    (4 * i + 4 ≤ bs.length → (tileVals false bs).getD i 0 = BitVec.ofNat 32 (natOfBytes ((bs.drop (4 * i)).take 4))) ∧
    (2 * i + 2 ≤ bs.length →
      (tileVals true bs).getD i 0 = BitVec.ofNat 32 (natOfBytes ((bs.drop (2 * i)).take 2) * 65536)) := by
  constructor
  · intro h
    have hi : i < bs.length / 4 := by omega
    simp [tileVals, hi]
  · intro h
    have hi : i < bs.length / 2 := by omega
    simp [tileVals, hi]

end Sys2Proof.Machine

namespace Sys2Proof

open Machine Machine.Assoc Machine.Bits Machine.Float Claims

/-- Settles O57: each unit's work step by step of its own recursion; bytes written read back at their homes. -/
theorem engineWork : Obligations.EngineWork := by
  refine ⟨fun o k va seen s => ⟨rfl, fun c hc => ?_, fun h hh => ?_⟩,
    fun o r s s1 ch chs bs hc => ⟨fun hw => ?_, fun hw hr => ?_⟩,
    fun s ch off bs => ⟨fun k hk => ⟨readByte_ivsWrite hk, isBad_ivsWrite hk⟩, fun l hl => readByte_ivsWrite_other hl⟩,
    bmRow_w, fun o r n i bad fl s s1 acc h => ⟨fun ha => ?_, fun hs => ?_, fun hs ho hh hb => ?_⟩,
    fun o r va i bad fl s h x => ⟨fun ha hh => ?_, rfl, fun hk => ?_, fun hk hw hx => ?_⟩,
    fun o r k fl s s1 s2 hk ht hw hwalk hout => ?_,
    fun o r i e k v vs fl s h => ⟨rfl, rfl, fun hh => ?_⟩,
    fun o r n i k s s1 s2 s3 ix w bs hi => ⟨fun hn => ?_, fun hn hw hr => ?_⟩,
    emStep_spec, fun r used a hb => emFinal_w hb, fun a b => ⟨canon_of_nan, orderOf_canon⟩,
    fun o size seen src dst s s1 bs v h => ⟨fun hr hh => ?_, rfl, fun x hx hh => ?_⟩,
    fun o s h bs hl _ hd hm i hi => readByte_engineStore hl hd hm hi,
    fun o size n x src dst bad b s s1 => ⟨rfl, fun c hc => ?_, fun hc => ?_⟩,
    fun r row x => ⟨fun hf => ?_, fun hf => ?_, rfl⟩,
    fun o r n row bad b s s1 hc => ⟨rfl, fun hm => ?_, fun c hm => ?_⟩,
    fun o r n row loc bad b s s1 s2 s3 h hc => ⟨fun hs => ?_, fun c hs => ?_, fun hs hr hm => ?_⟩,
    fun o e s => ⟨fun he => ?_, fun he => ?_⟩, fun o k va seen s h hg hh => ?_, getD_tileVals, combineVal_toNat,
    fun o bf va v vs s h => ⟨rfl, fun hh => ?_⟩, fun s p done o h ho hh => ?_⟩
  · simp only [bankRead, hc]
  · simp only [bankRead, hh]
  · simp only [ivStep, hc, hw, if_true]
  · simp only [ivStep, hc, hw, hr, Bool.false_eq_true, if_false]
  · simp [bmOld, ha]
  · simp only [bmRun, hs, if_true]
  · simp only [bmRun, hs, ho, hh, hb, Bool.false_eq_true, if_false]
    simp [meet]
  · simp [bmOld, ha, hh]
  · simp only [bankDo, hk]
  · simp only [bankDo, hk, bmDo, hw, hx, Bool.false_eq_true, if_false]
  · simp only [bankDo, hk, emDo, ht, hw, hwalk, hout, Bool.false_eq_true, if_false]
  · simp only [emOutput, hh]
  · simp only [emWalk, hi, Bool.false_eq_true, if_false, ge_iff_le, hn, if_true]
  · simp only [emWalk, hi, Bool.false_eq_true, if_false, ge_iff_le, Nat.not_le.mpr hn, hw, hr, Bool.false_or, Bool.or_false]
  · simp only [readElem, hh]
  · have hn : meet s1 o seen none = s1 := by cases seen <;> rfl
    simp only [moveElem, hx, Option.isSome_none, hn, hh]
    rfl
  · simp only [moveRow, hc]
  · simp only [moveRow, hc]
  · simp [rowSrc, hf]
  · simp [rowSrc, hf]
  · simp only [copyRows, hc, hm, Bool.false_eq_true, if_false]
  · simp only [copyRows, hc, hm, Bool.false_eq_true, if_false]
  · simp only [copyRows, hc, hs, if_true]
  · simp only [copyRows, hc, hs, if_true]
  · simp only [copyRows, hc, hs, hr, hm, if_true]
  · exact if_pos he
  · exact if_neg (not_not.mpr he)
  · simp only [tileRead, hg, hh, if_true]
  · simp only [writeVals, hh]
    rfl
  · simp only [combineWrite, ho, hh]

end Sys2Proof

/-! Loads (R162 to R164, R171 to R186, R415 to R417, R446). -/

namespace Sys2Proof.Machine

open Assoc Bits Claims

variable {s t : State} {g : Group} {i : Instr}

/-! ### Lanes joined (R152) -/

theorem pairwise_activeLanes (g : Group) : g.activeLanes.Pairwise (· < ·) := List.pairwise_lt_range.filter _

section
variable {rs : List (Nat × Except AccFault Hit)}

/-- What fails is the lowest lane that fails. -/
theorem joinLanes_error {f : AccFault} {w : Word} (hp : rs.Pairwise fun a b => a.1 < b.1)
    (h : joinLanes rs = .error (f, w)) : ∃ j, (j, .error f) ∈ rs ∧ ∀ e ∈ rs, e.1 < j → ∃ x, e.2 = .ok x := by
  unfold joinLanes at h
  dsimp only at h
  generalize hb : rs.filterMap _ = bad at h
  cases bad with
  | nil => cases h
  | cons b bad =>
    obtain ⟨l1, ⟨j, r⟩, l2, hrs, hnone, hsome, -⟩ := List.filterMap_eq_cons_iff.mp hb
    have hf : b.2 = f := (Prod.ext_iff.mp (Except.error.inj h)).1
    cases r with
    | ok x => cases hsome
    | error e =>
      have he : e = f := (congrArg Prod.snd (Option.some.inj hsome)).trans hf
      subst hrs he
      refine ⟨j, List.mem_append_right _ List.mem_cons_self, fun e he hlt => ?_⟩
      rcases List.mem_append.mp he with he | he
      · have hn := hnone e he
        cases hr : e.2 with
        | ok x => exact ⟨x, rfl⟩
        | error c => rw [hr] at hn; cases hn
      · rcases List.mem_cons.mp he with rfl | he
        · exact absurd hlt (Nat.lt_irrefl _)
        · have hp2 := (List.pairwise_cons.mp (List.pairwise_append.mp hp).2.1).1 e he
          exact absurd hlt (Nat.lt_asymm hp2)

/-- Lanes that all succeed. -/
theorem joinLanes_ok {hits : List (Nat × Hit)} (h : joinLanes rs = .ok hits) {e : Nat × Hit} (he : e ∈ hits) :
    (e.1, .ok e.2) ∈ rs := by
  unfold joinLanes at h
  dsimp only at h
  split at h
  · rw [← Except.ok.inj h, List.mem_filterMap] at he
    obtain ⟨⟨j, r⟩, hm, hr⟩ := he
    cases r with
    | ok x => cases hr; exact hm
    | error c => cases hr
  · cases h

end

/-- The lanes of a group, each with what its access comes to. -/
theorem joinLanes_active_error {r : Nat → Except AccFault Hit} {f : AccFault} {w : Word}
    (h : joinLanes (g.activeLanes.map fun j => (j, r j)) = .error (f, w)) :
    ∃ j, g.active j = true ∧ r j = .error f ∧ ∀ k, k < j → g.active k = true → ∃ x, r k = .ok x := by
  obtain ⟨j, hj, hlow⟩ := joinLanes_error (List.pairwise_map.mpr (pairwise_activeLanes g)) h
  obtain ⟨j', hm, he⟩ := List.mem_map.mp hj
  obtain ⟨rfl, hr⟩ := Prod.mk.inj he
  exact ⟨j', mem_activeLanes.mp hm, hr, fun k hk ha =>
    hlow (k, r k) (List.mem_map.mpr ⟨k, mem_activeLanes.mpr ha, rfl⟩) hk⟩

/-! ### The value of a load -/

/-- The number of some bytes is below the power of their count. -/
theorem natOfBytes_lt (bs : List Byte) : natOfBytes bs < 256 ^ bs.length := by
  induction bs with
  | nil => decide
  | cons b bs ih =>
    have hb : b.toNat < 256 := b.isLt
    rw [natOfBytes, List.length_cons, pow_succ]
    omega

theorem extendBytes_false (bs : List Byte) : extendBytes false bs = BitVec.ofNat 64 (natOfBytes bs) := rfl

/-- A signed value repeats the bit at its top. -/
theorem extendBytes_true {bs : List Byte} (h : 0 < bs.length) :
    extendBytes true bs = (BitVec.ofNat (8 * bs.length) (natOfBytes bs)).signExtend 64 := by
  have hlt : natOfBytes bs < 2 ^ (8 * bs.length) := by
    rw [pow_mul]
    exact natOfBytes_lt bs
  have hn : (BitVec.ofNat (8 * bs.length) (natOfBytes bs)).toNat = natOfBytes bs := by
    rw [BitVec.toNat_ofNat, Nat.mod_eq_of_lt hlt]
  have hw : 2 ^ (8 * bs.length) = 2 * 2 ^ (8 * bs.length - 1) := by
    rw [← pow_succ', Nat.sub_add_cancel (by omega)]
  rw [BitVec.signExtend, BitVec.toInt_eq_toNat_cond, hn]
  simp only [extendBytes, Bool.true_and, Bool.and_eq_true, decide_eq_true_eq]
  by_cases hs : 2 ^ (8 * bs.length - 1) ≤ natOfBytes bs
  · rw [if_pos ⟨by omega, hs⟩, if_neg (by omega)]
    push_cast
    rfl
  · rw [if_neg (fun h => hs h.2), if_pos (by omega), BitVec.ofInt_natCast]

section
variable {gid : Nat} {l : PendLoad} {p : LoadPart}

theorem oldCopy_of_not_old (h : l.old = false) : oldCopy s gid g l p = none := by
  unfold oldCopy
  dsimp only
  split
  · rw [h]
    rfl
  · rfl

/-- With no outstanding store of its own, and no dirty data, a load reads the bytes at their homes. -/
theorem loadByte_of_quiet (hw : g.wbuf = []) (hd : dirtyOn s g.core = []) (x : Nat) :
    loadByte s g l p none x = (readByte s (homeOf s x), isBad s (homeOf s x)) := by
  have ho : ownByte s g x = none := by simp [ownByte, hw]
  have hf : dirtyFor s g l p x = none := by simp [dirtyFor, hd]
  simp only [loadByte, ho, hf, Option.bind_none, readOwn]

theorem partValue_of_quiet {st reg size : Nat} {lane : Option Nat} {signed : Bool} {h : Hit} (hc : h.cb = none)
    (hn : h.nonres = false) (hw : g.wbuf = []) (hd : dirtyOn s g.core = []) (ho : l.old = false) :
    (partValue s gid g l (loadPart s g st lane reg size signed h)).1 =
      extendBytes signed ((List.range size).map fun i => readByte s (homeOf s (h.place + i))) := by
  have hk : (loadPart s g st lane reg size signed h).known = none := by simp [loadPart, hn, hc]
  have hp : (loadPart s g st lane reg size signed h).places = (List.range size).map (h.place + ·) := by
    simp [loadPart, hitPlaces, hn]
  have hs : (loadPart s g st lane reg size signed h).signed = signed := rfl
  simp only [partValue, hk, partBytes, hp, hs, oldCopy_of_not_old ho, List.map_map]
  refine congrArg (extendBytes signed) (List.map_congr_left fun i _ => ?_)
  simp only [Function.comp, loadByte_of_quiet hw hd]

/-- What an old byte is taken from. -/
theorem oldCopy_some {c : L1Copy} (h : oldCopy s gid g l p = some c) : l.old = true ∧ l.acquire = false ∧ c.core = g.core ∧
    ∀ x ∈ p.places, ∀ o, oldByte c (homeOf s x % 128) = some o → ∀ n ∈ o.missed, known gid g l.stream n = false := by
  unfold oldCopy at h
  dsimp only at h
  split at h
  next cp x rest hcp hlocs =>
    split at h
    · cases h
    next hcond =>
      simp only [Bool.or_eq_true, Bool.not_eq_true', not_or, Bool.not_eq_false, Bool.not_eq_true] at hcond
      obtain ⟨hcopy, hall⟩ := Option.filter_eq_some_iff.mp h
      refine ⟨hcond.1.1, hcond.1.2, ?_, fun y hy o ho n hn => ?_⟩
      · simpa using List.find?_some hcopy
      · have := List.all_eq_true.mp hall (homeOf s y) (List.mem_map_of_mem hy)
        rw [ho] at this
        simpa using List.all_eq_true.mp this n hn
  · cases h

end

/-! ### Loads that issue -/

/-- A state without what the marks of an access change. -/
def sansMarks (s : State) : State := { sansGroups s with cores := [], clusters := [], handles := [] }

theorem sansMarks_of_background (h : Background s t) : sansMarks t = sansMarks s := by
  have hs := congrArg (fun u => { u with cores := [], clusters := [], handles := [] }) h.1
  exact hs

theorem sansMarks_touchPlace (s : State) (p : Nat) : sansMarks (touchPlace s p) = sansMarks s := by
  unfold touchPlace
  split
  · rfl
  · split
    · split <;> rfl
    · rfl

theorem sansMarks_tlbFill (s : State) (core : Nat) (e : TlbEntry) : sansMarks (tlbFill s core e) = sansMarks s := by
  unfold tlbFill
  dsimp only
  split
  · rfl
  · split <;> rfl

theorem sansMarks_markHit (s : State) (h : Hit) : sansMarks (markHit s h) = sansMarks s := by
  have hleaf : sansMarks (match h.leaf with | some (locs, d) => markLeaf s locs d | none => s) = sansMarks s := by
    split
    · exact sansMarks_of_background (background_ite (background_refl s) (background_storeBy ..))
    · rfl
  have hfill (u : State) : sansMarks (match h.fill with | some (core, e) => tlbFill u core e | none => u) = sansMarks u := by
    split
    · exact sansMarks_tlbFill ..
    · rfl
  exact (sansMarks_touchPlace ..).trans ((hfill _).trans hleaf)

theorem sansMarks_markHits (s : State) (hs : List Hit) : sansMarks (markHits s hs) = sansMarks s :=
  foldl_keeps sansMarks sansMarks_markHit hs s

theorem late_markHits (s : State) (hs : List Hit) : (markHits s hs).late = s.late := by
  have h := congrArg State.late (sansMarks_markHits s hs)
  exact h

theorem after_issueLoad (l : PendLoad) (hs : List Hit) :
    after i s g (issueLoad s s.cur l hs) .none = loadAfter i s g l hs := by
  have hl : ((markHits s hs).updGroup s.cur fun g => takeOwn (markHits s hs) l.stream
      (audOf s.cur g.core l.scope) (loadPlaces l) g).late = s.late := late_markHits s hs
  unfold issueLoad loadAfter
  dsimp only
  rw [hl]
  split <;> rfl

section
variable {d a b : Code} {st : BitVec 4} {x signed pair : Bool} {size : Nat} {hits : List (Nat × Hit)}

theorem gather_issues (hw : loadWaits s g st.toNat x (loadPlaces (gatherOf s g d st x size signed pair hits)) = false) :
    gather d st x size signed pair s s.cur g hits =
      .plain (issueLoad s s.cur (gatherOf s g d st x size signed pair hits) (hits.map (·.2))) := by
  unfold gather
  exact if_neg (by rw [Bool.not_eq_true]; exact hw)

/-- A gather that issues. -/
theorem issue_vectorLoad (h : Admits i s g) (hh : laneHits s g .load size (laneAddr s g a b) = .ok hits)
    (hw : loadWaits s g st.toNat x (loadPlaces (gatherOf s g d st x size signed pair hits)) = false) :
    issue i (vectorLoad d a b st x size signed pair) s =
      .next (loadAfter i s g (gatherOf s g d st x size signed pair hits) (hits.map (·.2))) := by
  rw [← after_issueLoad]
  exact issue_plain h (by simp only [vectorLoad, hh, gather_issues hw])

theorem issue_vectorLoad_fault {c : AccFault} {w : Word} (h : Admits i s g)
    (hh : laneHits s g .load size (laneAddr s g a b) = .error (c, w)) :
    issue i (vectorLoad d a b st x size signed pair) s = .next (faulted i s g c.cause w c.addr) :=
  issue_fault h (by simp only [vectorLoad, hh, laneFault])

/-- A scalar load that issues. -/
theorem issue_scalarLoad {hit : Hit} (h : Admits i s g)
    (hh : checkedHit s (agentOf s g none) .load (scalarAddr s g a b size) size = .ok hit)
    (hw : loadWaits s g st.toNat x (loadPlaces (scalarLoadOf s g d st x size hit)) = false) :
    issue i (scalarLoad d a b st x size) s = .next (loadAfter i s g (scalarLoadOf s g d st x size hit) [hit]) := by
  rw [← after_issueLoad]
  refine issue_plain h ?_
  simp only [scalarLoad, hh]
  exact if_neg (by rw [Bool.not_eq_true]; exact hw)

theorem issue_scalarLoad_fault {c : AccFault} (h : Admits i s g)
    (hh : checkedHit s (agentOf s g none) .load (scalarAddr s g a b size) size = .error c) :
    issue i (scalarLoad d a b st x size) s = .next (faulted i s g c.cause 0 c.addr) :=
  issue_fault h (by simp only [scalarLoad, hh])

end

end Sys2Proof.Machine

namespace Sys2Proof

open Machine Machine.Assoc Machine.Bits Claims

/-- Settles O30: a checked load issues as `issueLoad` says; a lane's value by where each of its bytes is taken from. -/
theorem loadResult : Obligations.LoadResult := by
  refine ⟨?_, fun d a b st x s g hits h hh hw => ?_, ?_, ?_, fun d a b st x s g c w h hh => ?_,
    fun s g acc base f w h => joinLanes_active_error h, fun s g acc base j => ⟨fun h => ?_, fun h hl => ?_⟩, ?_,
    fun s ag acc va size h => if_pos h, fun s g acc size addr f w h => joinLanes_active_error h,
    fun s gid g l st lane reg size signed h hc => ⟨fun hn => ?_, fun hn hw hd ho hs _ => ?_⟩,
    fun s g l p c x => ⟨fun b hb => ?_, fun e b hb he hf => ?_, fun ha hg => ?_⟩,
    fun s gid g l p c h => oldCopy_some h⟩
  · intro f hf d a b st x s g hits h hh hw
    fin_cases hf
    · rw [exec_vld_s8, execVldS8]; exact issue_vectorLoad h hh hw
    · rw [exec_vld_z8, execVldZ8]; exact issue_vectorLoad h hh hw
    · rw [exec_vld_s16, execVldS16]; exact issue_vectorLoad h hh hw
    · rw [exec_vld_z16, execVldZ16]; exact issue_vectorLoad h hh hw
    · rw [exec_vld_w, execVldW]; exact issue_vectorLoad h hh hw
    · rw [exec_vld_d, execVldD]; exact issue_vectorLoad h hh hw
  · rw [exec_vldc, execVldc, ← after_issueLoad]
    have hh : lineHits s g .load (lineAddr s g a b) = .ok hits := hh
    exact issue_plain h (by simp only [hh, gather_issues hw])
  · intro f hf d a b st x s g hit h hh hw
    fin_cases hf
    · rw [exec_sld_w, execSldW]; exact issue_scalarLoad h hh hw
    · rw [exec_sld_d, execSldD]; exact issue_scalarLoad h hh hw
  · intro f hf d a b st x s g c w h hh
    fin_cases hf
    · rw [exec_vld_s8, execVldS8]; exact issue_vectorLoad_fault h hh
    · rw [exec_vld_z8, execVldZ8]; exact issue_vectorLoad_fault h hh
    · rw [exec_vld_s16, execVldS16]; exact issue_vectorLoad_fault h hh
    · rw [exec_vld_z16, execVldZ16]; exact issue_vectorLoad_fault h hh
    · rw [exec_vld_w, execVldW]; exact issue_vectorLoad_fault h hh
    · rw [exec_vld_d, execVldD]; exact issue_vectorLoad_fault h hh
  · rw [exec_vldc, execVldc]
    have hh : lineHits s g .load (lineAddr s g a b) = .error (c, w) := hh
    exact issue_fault h (by simp only [hh, laneFault])
  · exact if_pos h
  · have hn : ¬base.toNat % 128 ≠ 0 := fun hn => hn h
    rw [lineHit, if_neg hn, if_pos hl]
  · intro f hf d a b st x s g c h hh
    fin_cases hf
    · rw [exec_sld_w, execSldW]; exact issue_scalarLoad_fault h hh
    · rw [exec_sld_d, execSldD]; exact issue_scalarLoad_fault h hh
  · simp [partValue, loadPart, hn]
  · have hlen : ((List.range size).map fun i => readByte s (homeOf s (h.place + i))).length = size := by simp
    rw [partValue_of_quiet hc hn hw hd ho]
    cases signed with
    | false => rfl
    | true =>
      rw [extendBytes_true (by rw [hlen]; exact hs), hlen]
      rfl
  · simp only [loadByte, hb, readOwn]
  · simp only [loadByte, hb, he, hf]
    rfl
  · simp [dirtyFor, hitsDirty, ha, hg]

end Sys2Proof

/-! Stores (R137, R162 to R164, R415 to R417, R446). -/

namespace Sys2Proof.Machine

open Assoc Bits Claims

variable {s t : State} {g : Group} {i : Instr}

/-! ### What a store reads back -/

/-- Locations read what is written there where each is given one value, and none is a copy of another. -/
theorem readByte_writeCells_of_mem_of_agree {bs : List (Nat × Byte)}
    (hd : ∀ e ∈ bs, ∀ e' ∈ bs, e.1 = e'.1 → e.2 = e'.2) (hm : ∀ e ∈ bs, ∀ e' ∈ bs, mirrorOf s e.1 ≠ some e'.1)
    {e : Nat × Byte} (he : e ∈ bs) : readByte (writeCells s bs) e.1 = e.2 := by
  induction bs generalizing s e with
  | nil => cases he
  | cons c bs ih =>
    have hw := memOnly_writeByte s c.1 c.2
    have htail : ∀ a ∈ bs, readByte (writeCells (writeByte s c.1 c.2) bs) a.1 = a.2 := fun a ha => by
      refine ih (s := writeByte s c.1 c.2)
        (fun a ha a' ha' => hd a (List.mem_cons_of_mem _ ha) a' (List.mem_cons_of_mem _ ha')) (fun a ha a' ha' => ?_) ha
      rw [mirrorOf_of_memOnly hw]
      exact hm a (List.mem_cons_of_mem _ ha) a' (List.mem_cons_of_mem _ ha')
    by_cases hin : ∃ e' ∈ bs, e'.1 = e.1
    · obtain ⟨e', he', h1⟩ := hin
      rw [← h1, ← hd e' (List.mem_cons_of_mem _ he') e he h1]
      exact htail e' he'
    · rcases List.mem_cons.mp he with rfl | he
      · refine (readByte_writeCells_spared (s := writeByte s e.1 e.2) fun e' he' => ?_).trans (readByte_writeByte_same ..)
        exact (spares_of_memOnly hw).mpr
          ⟨fun h => hin ⟨e', he', h⟩, hm e' (List.mem_cons_of_mem _ he') e List.mem_cons_self⟩
      · exact absurd ⟨e, he, rfl⟩ hin

/-- A location outside the area of the compressor has no block. -/
theorem unencoded_of_lt {x l : Nat} (h : x < 2 ^ 90) : Unencoded s x l := fun h' _ => absurd h (Nat.not_lt.mpr h')

/-- What a write leaves in memory is what its store leaves. -/
theorem mem_applyWrite {gid : Nat} {w : PendStore} (hg : s.group? gid = some g) :
    ∃ by_, (applyWrite s gid w).mem = (storeBy by_ s (w.bytes.map fun e => (homeOf s e.1, e.2))).mem := by
  refine ⟨if w.maker != .group then { outside s with uncached := w.uncached }
    else { core := some g.core, carries := w.carries, uncached := w.uncached }, ?_⟩
  rw [applyWrite, hg]
  dsimp only
  rw [apply_ite State.mem]
  exact ite_self _

/-! ### Lines and the window of circular buffers (R137, R163) -/

theorem aperture_spad {va : DWord} {off : Nat} : aperture va = .spad off ↔ va.toNat = 0xFFFFFF0000000000 + off := by
  rw [aperture]
  by_cases h : va.toNat ≥ 0xFFFFFF0000000000
  · rw [if_pos h, Aperture.spad.injEq]
    omega
  · rw [if_neg h]
    constructor
    · repeat' split
      all_goals exact nofun
    · omega

theorem cb_of_translate {ag : Agent} {acc : Access} {va : DWord} {h : Hit} (hr : translate s ag acc va = .ok h) :
    h.cb = none := by
  unfold translate at hr
  dsimp only at hr
  repeat' split at hr
  all_goals cases hr
  all_goals rfl

/-- Only the scratchpad aperture holds the window. -/
theorem cb_of_resolve {ag : Agent} {acc : Access} {va : DWord} {size : Nat} {h : Hit} (ha : ∀ off, aperture va ≠ .spad off)
    (hr : resolve s ag acc va size = .ok h) : h.cb = none := by
  unfold resolve at hr
  split at hr
  next off hs => exact absurd hs (ha off)
  next =>
    split at hr
    · cases hr
    · unfold resolveLane at hr
      dsimp only at hr
      repeat' split at hr
      all_goals cases hr
      all_goals rfl
  next =>
    split at hr
    · cases hr
    · unfold resolveShaft at hr
      dsimp only at hr
      repeat' split at hr
      all_goals cases hr
      all_goals rfl
  next => exact cb_of_translate hr
  next =>
    split at hr
    · exact cb_of_translate hr
    · cases hr
  next => cases hr

/-- A whole line of a scratchpad lies below the window. -/
theorem cb_of_resolve_line {ag : Agent} {acc : Access} {base : DWord} {h h' : Hit} {j : Nat} (hb : base.toNat % 128 = 0)
    (hj : j < 32) (hl : resolve s ag acc base 128 = .ok h')
    (hr : resolve s ag acc (base + BitVec.ofNat 64 (4 * j)) 4 = .ok h) : h.cb = none := by
  have hlt := base.isLt
  have hadd : (base + BitVec.ofNat 64 (4 * j)).toNat = base.toNat + 4 * j := by
    rw [BitVec.toNat_add, BitVec.toNat_ofNat, Nat.mod_eq_of_lt (a := 4 * j) (by omega), Nat.mod_eq_of_lt (by omega)]
  by_cases hs : ∃ off, aperture (base + BitVec.ofNat 64 (4 * j)) = .spad off
  · obtain ⟨off, hs⟩ := hs
    have hoff := aperture_spad.mp hs
    have hbase : aperture base = .spad (off - 4 * j) := aperture_spad.mpr (by omega)
    simp only [resolve, hs, hbase] at hl hr
    cases hacc : acc == .fetch with
    | true => simp [hacc] at hr
    | false =>
      simp only [hacc, resolveSpad] at hl hr
      cases hm : ag.migrant with
      | true => simp [hm] at hr
      | false =>
        cases hbl : ag.block.bind s.block? with
        | none => simp [hm, hbl] at hr
        | some b =>
          simp only [hm, hbl] at hl hr
          by_cases hfit : off - 4 * j + 128 ≤ b.spad
          · have hfit' : off + 4 ≤ b.spad := by omega
            simp only [if_pos hfit'] at hr
            cases hr
            rfl
          · simp only [if_neg hfit] at hl
            cases hc : cbWindow (off - 4 * j) <;> simp [hc] at hl
  · exact cb_of_resolve (fun off h => hs ⟨off, h⟩) hr

theorem cb_of_lineHit {acc : Access} {base : DWord} {h : Hit} {j : Nat} (hj : j < 32)
    (hr : lineHit s g acc base j = .ok h) : h.cb = none := by
  unfold lineHit at hr
  split at hr
  · cases hr
  next hb =>
    split at hr
    · cases hr
    · split at hr
      · cases hr
      next h' hl =>
        unfold checkedHit at hr
        split at hr
        · cases hr
        · split at hr
          · cases hr
          next hl2 =>
            cases hr
            exact cb_of_resolve_line (Decidable.not_not.mp hb) hj hl hl2

/-- Accesses none of which is to a descriptor. -/
theorem cbStores_of_none (s : State) (g : Group) (size : Nat) (data : Nat → DWord) {hits : List (Nat × Hit)}
    (h : ∀ e ∈ hits, e.2.cb = none) : cbStores s g size hits data = (s, []) := by
  unfold cbStores
  generalize (s, ([] : List Nat)) = r
  induction hits with
  | nil => rfl
  | cons e hits ih =>
    rw [List.foldl_cons, h e List.mem_cons_self]
    exact ih fun e he => h e (List.mem_cons_of_mem _ he)

/-! ### Stores that issue -/

theorem joinLanes_all_ok {rs : List (Nat × Except AccFault Hit)} {hits : List (Nat × Hit)} (h : joinLanes rs = .ok hits)
    {e : Nat × Except AccFault Hit} (he : e ∈ rs) : ∃ x, e.2 = .ok x := by
  unfold joinLanes at h
  dsimp only at h
  split at h
  next hbad =>
    cases hr : e.2 with
    | ok x => exact ⟨x, rfl⟩
    | error f =>
      have hn := List.filterMap_eq_nil_iff.mp hbad e he
      rw [hr] at hn
      cases hn
  next => cases h

section
variable {st : BitVec 4} {x pair : Bool} {size : Nat} {hits : List (Nat × Hit)} {addr data : Nat → DWord}
  {d a b : Code}

/-- Stores of lanes that issue. -/
theorem storeLanes_issues {s' : State} (hc : cbStores s g size hits data = (s', []))
    (hw : storeWaits s g st.toNat ((laneStores s s.cur g st.toNat x size hits data).flatMap storePlaces) = false) :
    storeLanes s s.cur g st.toNat x size addr hits data = .plain (issueStores
      (cbNoted s.cur g st.toNat x size s' (hits.map (·.2))) s.cur (laneStores s s.cur g st.toNat x size hits data)
      (hits.map (·.2))) := by
  simp only [storeLanes, hc, hw]
  exact if_neg Bool.false_ne_true

theorem issue_vectorStore {s' : State} (h : Admits i s g) (hh : laneHits s g .store size (laneAddr s g a b) = .ok hits)
    (hc : cbStores s g size hits (storeData g d pair) = (s', []))
    (hw : storeWaits s g st.toNat
      ((laneStores s s.cur g st.toNat x size hits (storeData g d pair)).flatMap storePlaces) = false) :
    issue i (vectorStore d a b st x size pair) s = .next (after i s g (issueStores
      (cbNoted s.cur g st.toNat x size s' (hits.map (·.2))) s.cur
      (laneStores s s.cur g st.toNat x size hits (storeData g d pair)) (hits.map (·.2))) .none) :=
  issue_plain h (by simp only [vectorStore, hh, storeLanes_issues hc hw])

/-- A store whose word a descriptor refuses. -/
theorem issue_vectorStore_refused {j : Nat} {js : List Nat} (h : Admits i s g)
    (hh : laneHits s g .store size (laneAddr s g a b) = .ok hits)
    (hc : (cbStores s g size hits (storeData g d pair)).2 = j :: js) :
    issue i (vectorStore d a b st x size pair) s =
      .next (faulted i s g .cbbad (maskOf (j :: js)) (laneAddr s g a b j)) :=
  issue_fault h (by simp only [vectorStore, hh, storeLanes, hc])

theorem issue_vectorStore_fault {e : AccFault × Word} (h : Admits i s g)
    (hh : laneHits s g .store size (laneAddr s g a b) = .error e) :
    issue i (vectorStore d a b st x size pair) s =
      .next (faulted i s g (storeFault s g size (laneAddr s g a b) (storeData g d pair) e).1.cause
        (storeFault s g size (laneAddr s g a b) (storeData g d pair) e).2
        (storeFault s g size (laneAddr s g a b) (storeData g d pair) e).1.addr) :=
  issue_fault h (by simp only [vectorStore, hh, laneFault])

end

/-- What a scalar store comes to, at a place of memory and at a descriptor. -/
theorem issue_scalarStore {d a b : Code} {st : BitVec 4} {x : Bool} {size : Nat} {hit : Hit} (h : Admits i s g)
    (hh : checkedHit s (agentOf s g none) .store (scalarAddr s g a b size) size = .ok hit) :
    let v := if size = 8 then srcSP s g d else (srcS s g d).setWidth 64
    let w := storeOf s s.cur g st.toNat x size none hit v
    (hit.cb = none → storeWaits s g st.toNat (storePlaces w) = false →
      issue i (scalarStore d a b st x size) s = .next (after i s g (issueStores s s.cur [w] [hit]) .none)) ∧
    (∀ c s', hit.cb = some c → cbStore s (clusterOfCore g.core) g.block c.1 c.2 size v.toNat = some s' →
      storeWaits s g st.toNat [] = false →
      issue i (scalarStore d a b st x size) s = .next (after i s g (cbNoted s.cur g st.toNat x size s' [hit]) .none)) ∧
    (∀ c, hit.cb = some c → cbStore s (clusterOfCore g.core) g.block c.1 c.2 size v.toNat = none →
      issue i (scalarStore d a b st x size) s = .next (faulted i s g .cbbad 0 (scalarAddr s g a b size))) := by
  intro v w
  refine ⟨fun hc hw => issue_plain h ?_, fun c s' hc hs hw => issue_plain h ?_, fun c hc hs => issue_fault h ?_⟩
  · simp only [scalarStore, hh, hc]
    exact if_neg (by rw [Bool.not_eq_true]; exact hw)
  · simp only [scalarStore, hh, hc]
    rw [show cbStore s (clusterOfCore g.core) g.block c.1 c.2 size _ = some s' from hs]
    exact if_neg (by rw [Bool.not_eq_true]; exact hw)
  · simp only [scalarStore, hh, hc]
    rw [show cbStore s (clusterOfCore g.core) g.block c.1 c.2 size _ = none from hs]

/-- A lane of a scatter as it is judged: by its address, or at a descriptor. -/
theorem storeFault_lowest {size : Nat} {addr data : Nat → DWord} {e : AccFault × Word}
    (h : laneHits s g .store size addr = .error e) :
    let r := fun j => checkedHit s (agentOf s g (some j)) .store (addr j) size
    let bad := (cbStores s g size (g.activeLanes.filterMap fun j => match r j with
      | .ok h => some (j, h)
      | .error _ => none) data).2
    ∃ j, g.active j = true ∧ (r j = .error (storeFault s g size addr data e).1 ∨
        j ∈ bad ∧ (storeFault s g size addr data e).1 = ⟨.cbbad, addr j⟩) ∧
      ∀ k, k < j → g.active k = true → (∃ h, r k = .ok h) ∧ k ∉ bad := by
  intro r bad
  let q : Nat → Except AccFault Hit := fun j => if bad.contains j then .error ⟨.cbbad, addr j⟩ else r j
  have hj : judgedLanes s g size addr data (g.activeLanes.map fun j => (j, r j)) = g.activeLanes.map fun j => (j, q j) := by
    simp only [judgedLanes, List.filterMap_map, List.map_map]
    refine List.map_congr_left fun j _ => ?_
    exact apply_ite (Prod.mk j) _ _ _ |>.symm
  have hq {k : Nat} {x : Hit} (hk : q k = .ok x) : r k = .ok x ∧ k ∉ bad := by
    by_cases hb : bad.contains k = true
    · simp only [q, hb] at hk; cases hk
    · simp only [q, hb] at hk
      exact ⟨hk, by simpa using hb⟩
  have hf : ∃ w, joinLanes (g.activeLanes.map fun j => (j, q j)) = .error ((storeFault s g size addr data e).1, w) := by
    cases hjoin : joinLanes (g.activeLanes.map fun j => (j, q j)) with
    | error f =>
      refine ⟨f.2, ?_⟩
      have hs : storeFault s g size addr data e = f := by
        unfold storeFault
        rw [hj, hjoin]
      rw [hs]
    | ok hits =>
      obtain ⟨f, w⟩ := e
      obtain ⟨j, ha, hr, -⟩ := joinLanes_active_error h
      obtain ⟨x, hx⟩ := joinLanes_all_ok hjoin (List.mem_map.mpr ⟨j, mem_activeLanes.mpr ha, rfl⟩)
      cases hr.symm.trans (hq hx).1
  obtain ⟨w, hf⟩ := hf
  obtain ⟨j, ha, hr, hlow⟩ := joinLanes_active_error hf
  refine ⟨j, ha, ?_, fun k hk hka => ?_⟩
  · by_cases hb : bad.contains j = true
    · simp only [q, hb] at hr
      exact .inr ⟨by simpa using hb, (Except.error.inj hr).symm⟩
    · simp only [q, hb] at hr
      exact .inl hr
  · obtain ⟨x, hx⟩ := hlow k hk hka
    exact ⟨⟨x, (hq hx).1⟩, (hq hx).2⟩

end Sys2Proof.Machine

namespace Sys2Proof

open Machine Machine.Assoc Machine.Bits Claims

/-- Settles O31: a checked store issues as `issueStores` says, and reads back; what faults, the lowest lane that does. -/
theorem storeResult : Obligations.StoreResult := by
  refine ⟨?_, fun d a b st x s s' g hits h hh hc hw => ?_, ?_, ?_, ?_, fun s g base hits data hh => ?_, ?_,
    fun s g size addr data e h => storeFault_lowest h, fun d a b st x s g c w h hh => ?_,
    fun s gid ws hs => ⟨fun hl => ?_, fun hl => ?_⟩, fun s gid g st size lane rel h v => rfl,
    fun s gid w hg hw e he => ?_⟩
  · intro f hf d a b st x s s' g hits h hh hc ws hw
    fin_cases hf
    · rw [exec_vst_b, execVstB]; exact issue_vectorStore h hh hc hw
    · rw [exec_vst_h, execVstH]; exact issue_vectorStore h hh hc hw
    · rw [exec_vst_w, execVstW]; exact issue_vectorStore h hh hc hw
    · rw [exec_vst_d, execVstD]; exact issue_vectorStore h hh hc hw
  · rw [exec_vstc, execVstc]
    have hh : lineHits s g .store (lineAddr s g a b) = .ok hits := hh
    exact issue_plain h (by simp only [hh, storeLanes_issues hc hw])
  · intro f hf d a b st x s g hit h hh v w
    fin_cases hf
    · rw [exec_sst_w, execSstW]; exact issue_scalarStore h hh
    · rw [exec_sst_d, execSstD]; exact issue_scalarStore h hh
  · intro f hf d a b st x s g c h hh
    fin_cases hf
    · rw [exec_sst_w, execSstW]
      have hh : checkedHit s (agentOf s g none) .store (scalarAddr s g a b 4) 4 = .error c := hh
      exact issue_fault h (by simp only [scalarStore, hh])
    · rw [exec_sst_d, execSstD]
      have hh : checkedHit s (agentOf s g none) .store (scalarAddr s g a b 8) 8 = .error c := hh
      exact issue_fault h (by simp only [scalarStore, hh])
  · intro f hf d a b st x s g hits j js h hh hc
    fin_cases hf
    · rw [exec_vst_b, execVstB]; exact issue_vectorStore_refused h hh hc
    · rw [exec_vst_h, execVstH]; exact issue_vectorStore_refused h hh hc
    · rw [exec_vst_w, execVstW]; exact issue_vectorStore_refused h hh hc
    · rw [exec_vst_d, execVstD]; exact issue_vectorStore_refused h hh hc
  · have hcb : ∀ e ∈ hits, e.2.cb = none := fun e he => by
      obtain ⟨j, hj, hr⟩ := List.mem_map.mp (joinLanes_ok hh he)
      obtain ⟨rfl, hr⟩ := Prod.mk.inj hr
      exact cb_of_lineHit (List.mem_range.mp (List.mem_of_mem_filter hj)) hr
    exact ⟨hcb, by rw [cbStores_of_none s g 4 data hcb]⟩
  · intro f hf d a b st x s g e h hh e'
    fin_cases hf
    · rw [exec_vst_b, execVstB]; exact issue_vectorStore_fault h hh
    · rw [exec_vst_h, execVstH]; exact issue_vectorStore_fault h hh
    · rw [exec_vst_w, execVstW]; exact issue_vectorStore_fault h hh
    · rw [exec_vst_d, execVstD]; exact issue_vectorStore_fault h hh
  · rw [exec_vstc, execVstc]
    have hh : lineHits s g .store (lineAddr s g a b) = .error (c, w) := hh
    exact issue_fault h (by simp only [hh, laneFault])
  · rw [issueStores]
    exact if_neg (by rw [late_markHits, hl]; exact Bool.false_ne_true)
  · rw [issueStores]
    exact if_pos (by rw [late_markHits, hl])
  · obtain ⟨g, hg⟩ := Option.isSome_iff_exists.mp hg
    obtain ⟨by_, hm⟩ := mem_applyWrite (w := w) hg
    have hback := readByte_writeCells_of_mem_of_agree (s := s) (bs := w.bytes.map fun e => (homeOf s e.1, e.2))
      (fun c hc c' hc' hcc => ?_) (fun c hc c' hc' => ?_) (List.mem_map.mpr ⟨e, he, rfl⟩)
    · rw [readByte, hm]
      refine (readByte_storeBy_eq by_ s _ fun c hc => ?_).trans hback
      obtain ⟨a, ha, rfl⟩ := List.mem_map.mp hc
      exact unencoded_of_lt (hw a ha).1
    · obtain ⟨a, ha, rfl⟩ := List.mem_map.mp hc
      obtain ⟨a', ha', rfl⟩ := List.mem_map.mp hc'
      rw [((hw a ha).2 a' ha').2 hcc]
    · obtain ⟨a, ha, rfl⟩ := List.mem_map.mp hc
      obtain ⟨a', ha', rfl⟩ := List.mem_map.mp hc'
      exact ((hw a ha).2 a' ha').1

end Sys2Proof

/-! Vector atomics (R165, R172 to R177, R431, R432). -/

namespace Sys2Proof.Machine

open Assoc Bits Claims Machine.Float

variable {s t : State} {g : Group} {i : Instr}

/-! ### A value at its homes -/

/-- Bytes stored at distinct homes read back there. -/
theorem map_readByte_storeBy {w : Writer} {locs : List Nat} {bs : List Byte} (hl : locs.length = bs.length)
    (hd : locs.Nodup) (hm : ∀ a ∈ locs, ∀ b ∈ locs, mirrorOf s a ≠ some b ∧ Unencoded s a b) :
    locs.map (readByte (storeBy w s (locs.zip bs))) = bs := by
  have hfst : (locs.zip bs).map (·.1) = locs := List.map_fst_zip (Nat.le_of_eq hl)
  refine List.ext_getElem (by rw [List.length_map, hl]) fun n h1 h2 => ?_
  have hn : n < locs.length := hl ▸ h2
  have hmem : (locs[n], bs[n]) ∈ locs.zip bs := by
    refine List.mem_iff_getElem.mpr ⟨n, by rw [List.length_zip, hl, min_self]; exact h2, ?_⟩
    exact List.getElem_zip
  have hin (e : Nat × Byte) (he : e ∈ locs.zip bs) : e.1 ∈ locs := hfst ▸ List.mem_map_of_mem he
  rw [List.getElem_map]
  exact readByte_storeBy_of_mem (by rw [hfst]; exact hd) (fun e he e' he' => hm e.1 (hin e he) e'.1 (hin e' he')) hmem

theorem valueAt_storeBy {w : Writer} {locs : List Nat} {v : Nat} (hd : locs.Nodup)
    (hm : ∀ a ∈ locs, ∀ b ∈ locs, mirrorOf s a ≠ some b ∧ Unencoded s a b) :
    valueAt (storeBy w s (locs.zip (bytesOfNat locs.length v))) locs = v % 256 ^ locs.length := by
  rw [valueAt, map_readByte_storeBy (length_bytesOfNat ..).symm hd hm, natOfBytes_bytesOfNat]

/-- What an atomic reads and leaves at its word. -/
theorem wordAt_atomAt {w : Writer} {op : AtomOp} {locs : List Nat} {x cmp : Word} (hl : locs.length = 4) (hd : locs.Nodup)
    (hm : ∀ a ∈ locs, ∀ b ∈ locs, mirrorOf s a ≠ some b ∧ Unencoded s a b) :
    wordAt (atomAt w s op locs x cmp).1 locs = (atomValue op (wordAt s locs) x cmp).1 := by
  have h := valueAt_storeBy (w := w) (v := (atomValue op (wordAt s locs) x cmp).1.toNat) hd hm
  rw [hl] at h
  refine BitVec.eq_of_toNat_eq ?_
  rw [wordAt, atomAt, h, BitVec.toNat_ofNat]
  omega

theorem minS_toInt (a b : Word) : (minS a b).toInt = min a.toInt b.toInt := by
  simp only [minS, BitVec.slt, decide_eq_true_eq]
  split <;> omega

theorem maxS_toInt (a b : Word) : (maxS a b).toInt = max a.toInt b.toInt := by
  simp only [maxS, BitVec.slt, decide_eq_true_eq]
  split <;> omega

/-! ### Atomics that issue -/

section
variable {d a b : Code} {st : BitVec 4} {op : AtomOp} {hits : List (Nat × Hit)}

theorem issue_vectorAtomic (h : Admits i s g) (hh : laneHits s g .atomic 4 (laneAddr s g a b) = .ok hits)
    (hw : atomicWaits s g st.toNat (loadPlaces (atomicOf op d st s g hits)) = false) :
    issue i (vectorAtomic op d a b st) s =
      .next (after i s g (issueLoad s s.cur (atomicOf op d st s g hits) (hits.map (·.2))) .none) := by
  refine issue_plain h ?_
  simp only [vectorAtomic, hh, hw]
  exact if_neg Bool.false_ne_true

theorem issue_vectorAtomic_fault {c : AccFault} {w : Word} (h : Admits i s g)
    (hh : laneHits s g .atomic 4 (laneAddr s g a b) = .error (c, w)) :
    issue i (vectorAtomic op d a b st) s = .next (faulted i s g c.cause w c.addr) :=
  issue_fault h (by simp only [vectorAtomic, hh, laneFault])

end

/-- A form of the table is the instruction of its operation. -/
theorem exec_atomForms {f : (Code → Code → Code → BitVec 4 → Instr) × AtomOp} (hf : f ∈ atomForms) (d a b : Code)
    (st : BitVec 4) (s : State) : exec (f.1 d a b st) s = issue (f.1 d a b st) (vectorAtomic f.2 d a b st) s := by
  fin_cases hf
  · rw [exec_vatom_iadd, execVatomIadd]
  · rw [exec_vatom_fadd, execVatomFadd]
  · rw [exec_vatom_and, execVatomAnd]
  · rw [exec_vatom_or, execVatomOr]
  · rw [exec_vatom_smin, execVatomSmin]
  · rw [exec_vatom_smax, execVatomSmax]
  · rw [exec_vatom_xchg, execVatomXchg]
  · rw [exec_vatom_cas, execVatomCas]

end Sys2Proof.Machine

namespace Sys2Proof

open Machine Machine.Assoc Machine.Bits Machine.Float Claims

/-- Settles O33: an atomic issues as `issueLoad` says; its lanes act in turn, each as `atomAt` does at its word. -/
theorem atomicResult : Obligations.AtomicResult := by
  refine ⟨?_, fun s gid l hs => ⟨fun hl => ?_, fun hl => ?_⟩,
    fun s gid g l hg ha => ?_, fun gid g l r p a hp => ⟨fun hb => ?_, fun hb => ?_⟩, fun s gid g lanes x hg hm => ?_,
    fun f hf d a b st s g c w h hh => ?_, fun w s op locs x cmp hl hd hm => ⟨rfl, wordAt_atomAt hl hd hm⟩,
    fun s loc => ?_, fun old x cmp => ⟨rfl, ?_, rfl, rfl, rfl, rfl, minS_toInt .., maxS_toInt .., if_pos rfl, fun h => if_neg h⟩⟩
  · intro f hf d a b st s g hits h hh l hw
    rw [exec_atomForms hf]
    exact issue_vectorAtomic h hh hw
  · have hl : (markHits s hs).late = false := (late_markHits s hs).trans hl
    simp only [issueLoad, State.updGroup_late, hl]
    exact if_neg Bool.false_ne_true
  · have hl : (markHits s hs).late = true := (late_markHits s hs).trans hl
    simp only [issueLoad, State.updGroup_late, hl]
    exact if_pos trivial
  · have hr : returnLoad s gid l = returnAtoms s gid g l := by
      rw [returnLoad, hg]
      exact if_pos ha
    refine ⟨fun hd => ?_, hr⟩
    rw [hr, returnAtoms, hd]
    unfold uceLanes
    split
    · rfl
    · exact if_pos rfl
  · have hany : (p.places.map (homeOf r.s)).any (isBad r.s) = false := by
      simpa using hb
    simp only [atomStep, hp, hany]
    exact ⟨rfl, rfl, rfl⟩
  · have hany : (p.places.map (homeOf r.s)).any (isBad r.s) = true := by
      simpa using hb
    simp only [atomStep, hp, hany]
    exact ⟨rfl, rfl, rfl, rfl⟩
  · by_cases hl : lanes = 0
    · subst hl
      have hk (w : Word) : w &&& ~~~0 = w := BitVec.and_allOnes
      have ho (w : Word) : w ||| 0 = w := BitVec.or_zero
      rw [uceLanes, hg, hk, hk, ho]
      exact (congrArg (State.group? · gid) (if_pos rfl)).trans hg
    · exact uceLanes_home hg hm hl
  · rw [exec_atomForms hf]
    exact issue_vectorAtomic_fault h hh
  · have hv : valueAt s [loc, loc + 1, loc + 2, loc + 3] = readNat s loc 4 := rfl
    have hlt := natOfBytes_lt (readBytes s loc 4)
    have hlen : (readBytes s loc 4).length = 4 := by simp [readBytes]
    rw [hlen] at hlt
    rw [wordAt, BitVec.toNat_ofNat, hv]
    exact Nat.mod_eq_of_lt hlt
  · exact BitVec.toNat_ofNat ..

end Sys2Proof

/-! Zeros where two moves of one frame are in progress (R146, R157). -/

namespace Sys2Proof.Machine

open Assoc Bits

/-- A state in which frame 0 is on the move to two frames at once, the second of which holds a byte that is not 0. -/
def twiceMoved : State := { State.reset with mem := [(6 * 65536, 1)], moves := [(0, 5), (0, 6)] }

/-- The copy of a byte of frame 0 is the one in the first frame that it moves to. -/
theorem mirrorOf_twiceMoved : mirrorOf twiceMoved 0 = some (5 * 65536) := by decide

/-- A line of zeros is made in both frames. -/
theorem readByte_zeroLine_twiceMoved : readByte (zeroLine (outside twiceMoved) twiceMoved 0) (6 * 65536) = 0 := by decide

theorem readByte_twiceMoved : readByte twiceMoved (6 * 65536) = 1 := by decide

end Sys2Proof.Machine

namespace Sys2Proof

open Machine Claims

/-- Refutes O34: where frame 0 is on the move to frames 5 and 6 at once, a line of zeros in it also changes frame 6, though
the copy of its bytes (`mirrorOf`) is in frame 5. -/
theorem not_orderResult : ¬ Obligations.OrderResult := by
  unfold Obligations.OrderResult
  intro h
  obtain ⟨-, -, -, -, -, -, -, -, -, -, -, hz, -⟩ := h
  obtain ⟨-, hother, -⟩ := hz (outside twiceMoved) twiceMoved 0 (by decide)
  have hsame := hother (6 * 65536) (by decide) fun l2 hl2 => by
    have h5 : 5 * 65536 = l2 := Option.some.inj (mirrorOf_twiceMoved.symm.trans hl2)
    omega
  rw [readByte_zeroLine_twiceMoved, readByte_twiceMoved] at hsame
  exact absurd hsame (by decide)

end Sys2Proof

/-! A `czero` where two moves of one frame are in progress (R146, R157). -/

namespace Sys2Proof.Machine

open Assoc Bits Claims Tests

/-- The group that zeroes the line at 0x100100, and frame 16, where it lies, on the move to frames 2000 and 2001 at once;
the copy of the line's first byte in the second is not 0. -/
def twiceMovedRange : State :=
  let s := at_ rangeG
  { s with mem := s.mem ++ [(2001 * 65536 + 0x100, 1)], moves := [(16, 2000), (16, 2001)] }

/-- A location that a write at `x` leaves alone, where no compressor writes. -/
def sparesB (s : State) (x l : Nat) : Bool := decide (x ≠ l) && decide (mirrorOf s x ≠ some l) && decide (x < 2 ^ 90)

theorem apart_of_sparesB {s : State} {x l : Nat} (h : sparesB s x l = true) : Apart s x l := by
  simp only [sparesB, Bool.and_eq_true, decide_eq_true_eq] at h
  exact ⟨h.1.1, h.1.2, unencoded_of_lt h.2⟩

/-- What the pages of a range come to spares a location: their lines, and their leaf entries. -/
def rangeSparesB (s : State) (l : Nat) (e : Hit × Nat) : Bool :=
  (partPlaces e.1 e.2).all (fun p => (List.range 128).all fun i => sparesB s (homeOf s (p + i)) l) &&
  match e.1.leaf with
  | some (ps, _) => ps.all fun p => sparesB s p l
  | none => true

theorem leaf_of_rangeSparesB {s : State} {l : Nat} {e : Hit × Nat} (h : rangeSparesB s l e = true) {ps : List Nat} {m : Bool}
    (hl : e.1.leaf = some (ps, m)) {p : Nat} (hp : p ∈ ps) : Apart s p l := by
  simp only [rangeSparesB, hl, Bool.and_eq_true, List.all_eq_true] at h
  exact apart_of_sparesB (h.2 p hp)

theorem places_of_rangeSparesB {s : State} {l : Nat} {e : Hit × Nat} (h : rangeSparesB s l e = true) {p i : Nat}
    (hp : p ∈ partPlaces e.1 e.2) (hi : i < 128) : Apart s (homeOf s (p + i)) l := by
  simp only [rangeSparesB, Bool.and_eq_true, List.all_eq_true] at h
  exact apart_of_sparesB (h.1 p hp i (List.mem_range.mpr hi))

theorem admits_twiceMovedRange : Admits (.czero 15 10 5) twiceMovedRange rangeG := by
  rw [admits_iff]
  decide +kernel

theorem rangeHits_twiceMovedRange :
    okIs (rangeHits twiceMovedRange (agentOf twiceMovedRange rangeG none) .czero
      (rangePages (srcSP twiceMovedRange rangeG 10).toNat (srcS twiceMovedRange rangeG 5).toNat))
      (fun hs => hs.all (rangeSparesB twiceMovedRange (2001 * 65536 + 0x100))) = true := by decide +kernel

/-- The byte that no write of the range names becomes 0. -/
theorem exec_twiceMovedRange :
    nextIs (exec (.czero 15 10 5) twiceMovedRange) (fun t => readByte t (2001 * 65536 + 0x100) == 0) = true := by
  decide +kernel

theorem readByte_twiceMovedRange : readByte twiceMovedRange (2001 * 65536 + 0x100) = 1 := by decide +kernel

end Sys2Proof.Machine

namespace Sys2Proof

open Machine Claims Tests

/-- Refutes O32: where frame 16 is on the move to frames 2000 and 2001 at once, a `czero` in it also zeroes its bytes in
frame 2001, though the copy of a byte (`mirrorOf`) is in frame 2000. -/
theorem not_memoryFrame : ¬ Obligations.MemoryFrame := by
  unfold Obligations.MemoryFrame
  intro h
  obtain ⟨-, -, -, -, -, hz, -⟩ := h
  cases hh : rangeHits twiceMovedRange (agentOf twiceMovedRange rangeG none) .czero
      (rangePages (srcSP twiceMovedRange rangeG 10).toNat (srcS twiceMovedRange rangeG 5).toNat) with
  | error f => exact absurd rangeHits_twiceMovedRange (by rw [hh]; exact Bool.false_ne_true)
  | ok hs =>
    have hall := rangeHits_twiceMovedRange
    simp only [hh, okIs, List.all_eq_true] at hall
    have hnext := exec_twiceMovedRange
    cases ht : exec (.czero 15 10 5) twiceMovedRange with
    | next t =>
      simp only [ht, nextIs, beq_iff_eq] at hnext
      have hsame := hz 15 10 5 twiceMovedRange t rangeG hs (2001 * 65536 + 0x100) admits_twiceMovedRange
        ((calm_iff ..).mpr (by decide +kernel)) (by decide +kernel) (by decide +kernel) (by decide +kernel)
        (by decide +kernel) (by decide +kernel) hh ht (fun e he p hp i hi => places_of_rangeSparesB (hall e he) hp hi)
        (fun h hm ps m hl p hp => by
          obtain ⟨e, he, rfl⟩ := List.mem_map.mp hm
          exact leaf_of_rangeSparesB (hall e he) hl hp)
      rw [hnext, readByte_twiceMovedRange] at hsame
      exact absurd hsame (by decide)
    | _ => simp only [ht, nextIs, Bool.false_eq_true] at hnext

end Sys2Proof

/-! Circular buffers (R137, R139 to R143, R365, R366). -/

namespace Sys2Proof.Machine

open Assoc Bits Claims

variable {s : State} {g : Group} {d a : Code}

section
variable (h : Admits (.cbget d a) s g)
include h

theorem exec_cbget_of_bad (hid : cbIdOk g (srcS s g a) = false) :
    exec (.cbget d a) s = .next (faulted (.cbget d a) s g .cbbad 0 0) := by
  rw [exec_cbget, execCbget]
  exact issue_fault h (by simp [hid])

/-- An admitted identifier names the shaft, or a descriptor. -/
theorem exec_cbget_shaft {e : Effect} (hid : cbIdOk g (srcS s g a) = true) (hn : fieldNat (srcS s g a) 0 6 = 63)
    (he : shaftGet d.toNat (bit (srcS s g a) 7) s s.cur g = e) :
    exec (.cbget d a) s = issue (.cbget d a) (fun _ _ _ => e) s := by
  rw [exec_cbget, execCbget, issue_of_admits h, issue_of_admits h, ← he]
  simp [hid, cbIdDesc, cbIdProd, hn]

theorem exec_cbget_buffer {e : Effect} (hid : cbIdOk g (srcS s g a) = true) (hn : fieldNat (srcS s g a) 0 6 ≠ 63)
    (he : bufferGet d.toNat (fieldNat (srcS s g a) 0 6) (bit (srcS s g a) 7) s s.cur g = e) :
    exec (.cbget d a) s = issue (.cbget d a) (fun _ _ _ => e) s := by
  rw [exec_cbget, execCbget, issue_of_admits h, issue_of_admits h, ← he]
  simp [hid, cbIdDesc, cbIdProd, hn]

end

end Sys2Proof.Machine

namespace Sys2Proof

open Machine Machine.Assoc Machine.Bits Claims

/-- Settles O35: what `cbget` and `cbput` come to, by the descriptor or the shaft and by the slots that it has. -/
theorem bufferResult : Obligations.BufferResult := by
  refine ⟨?_, fun d a s g h => ⟨exec_cbget_of_bad h, fun hn hen => ?_, fun hn hp ho => ?_⟩, ?_, ?_, ?_,
    fun g v hm => by simp [cbIdOk, hm], fun c hf hp => ?_⟩
  · intro d a s g h hid n prod cl c hn hen
    refine ⟨fun hc => ?_, fun hc => ?_⟩
    · rw [exec_cbget_buffer h hid hn rfl]
      exact issue_plain h (by simp only [bufferGet]; rw [if_neg (by simpa using hen), if_neg hc.ne'])
    · rw [exec_cbget_buffer h hid hn rfl]
      exact issue_park h (by simp only [bufferGet]; rw [if_neg (by simpa using hen), if_pos hc])
  · cases hid : cbIdOk g (srcS s g a) with
    | false => exact exec_cbget_of_bad h hid
    | true =>
      rw [exec_cbget_buffer h hid hn rfl]
      exact issue_fault h (by simp [bufferGet, hen])
  · cases hid : cbIdOk g (srcS s g a) with
    | false => exact exec_cbget_of_bad h hid
    | true =>
      rw [exec_cbget_shaft h hid hn rfl]
      exact issue_fault h (by simp [shaftGet, hp, fifoOf, ho])
  · intro d a s g h hid hn prod fc k ho
    have ho : (prod && k.oos) = false := by rcases ho with ho | ho <;> simp [ho]
    refine ⟨fun hc => ?_, fun hc => ?_⟩
    · rw [exec_cbget_shaft h hid hn rfl]
      refine issue_plain h ?_
      simp only [shaftGet]
      rw [if_neg (by rw [Bool.not_eq_true]; exact ho), if_neg hc.ne']
    · rw [exec_cbget_shaft h hid hn rfl]
      refine issue_park h ?_
      simp only [shaftGet]
      rw [if_neg (by rw [Bool.not_eq_true]; exact ho), if_pos hc]
  · intro a hs s g h hid hf hq
    rw [exec_cbput, execCbput]
    refine issue_plain h ?_
    simp only [cbIdDesc, cbIdProd, hf, hid, hq]
    rfl
  · intro a s g h found
    refine ⟨fun hb => ?_, fun hf hid hq => ?_⟩
    · rw [exec_cbput, execCbput]
      refine issue_fault h ?_
      simp only [cbIdDesc, cbIdProd]
      cases hfound : found with
      | none => simp only [found] at hfound; simp only [hfound]
      | some x =>
        have hid := hb.resolve_left (by rw [hfound]; exact Option.some_ne_none x)
        simp only [found] at hfound
        simp only [hfound, hid]
        rfl
    · obtain ⟨x, hfound⟩ := Option.ne_none_iff_exists'.mp hf
      rw [exec_cbput, execCbput]
      refine issue_stall h ?_
      simp only [found] at hfound
      simp only [cbIdDesc, cbIdProd, hfound, hid, hq]
      rfl
  · exact ⟨rfl, Nat.sub_add_cancel hf, rfl, rfl⟩

end Sys2Proof

/-! Events and barriers (R211 to R221, R233, R234, R359). -/

namespace Sys2Proof.Machine

open Assoc Bits Claims

variable {s : State} {g : Group} {d a b : Code}

/-! ### Event slots -/

theorem boundMailbox_iff {bl : Block} {v : Word} (hb : s.block? g.block = some bl) : boundMailbox s g v = true ↔
    evKind v = 3 ∧ ∃ i < 4, (readOwn s g (spadLoc bl.cluster (bl.spadBase + 4 * evArg v) + i)).1 ≠ 0 := by
  simp [boundMailbox, hb]

theorem boundMailbox_of_free {v : Word} (hk : evKind v = 0) : boundMailbox s g v = false := by
  simp [boundMailbox, hk]

/-- A place that no store of the group covers reads as at its home. -/
theorem readOwn_of_apart {p : Nat} (h : ∀ w ∈ g.wbuf, w.known = false ∨ ∀ e ∈ w.bytes, homeOf s e.1 ≠ homeOf s p) :
    (readOwn s g p).1 = readByte s (homeOf s p) := by
  have ho : ownByte s g p = none := by
    rw [ownByte, List.findSome?_eq_none_iff]
    intro w hw
    obtain ⟨hw, hk⟩ := List.mem_filter.mp (List.mem_reverse.mp hw)
    have hne := (h w hw).resolve_left (by rw [hk]; exact Bool.true_eq_false_eq_False)
    rw [Option.map_eq_none_iff, List.find?_eq_none]
    intro e he
    simpa using hne e (List.mem_reverse.mp he)
  rw [readOwn, ho]

/-- What `evbind` leaves of the event registers. -/
def evBound (s : State) (g : Group) (k : Nat) (v : Word) (h : DWord) : EventRegs :=
  let ev := { g.ev with pend := g.ev.pend &&& ~~~(slotBit k), slots := erase g.ev.slots k }
  if evKind v = 0 then ev else
    { ev with slots := set ev.slots k ⟨v, h⟩, pend := if boundMailbox s g v then ev.pend ||| slotBit k else ev.pend }

section
variable (k : Nat) (v : Word) (h : DWord)

theorem evBound_frame : (evBound s g k v h).mask = g.ev.mask ∧ (evBound s g k v h).gtcmp = g.ev.gtcmp ∧
    (evBound s g k v h).barsel = g.ev.barsel := by
  unfold evBound
  dsimp only
  split
  · exact ⟨rfl, rfl, rfl⟩
  · exact ⟨rfl, rfl, rfl⟩

theorem evBound_pend : (evBound s g k v h).pend =
    (g.ev.pend &&& ~~~(slotBit k)) ||| (if boundMailbox s g v then slotBit k else 0) := by
  have hz (w : BitVec 8) : w ||| 0 = w := BitVec.or_zero
  unfold evBound
  dsimp only
  split
  next hk => rw [boundMailbox_of_free hk, if_neg Bool.false_ne_true, hz]
  next =>
    dsimp only
    split
    · rfl
    · exact (hz _).symm

theorem evBound_slots_other {n : Nat} (hn : n ≠ k) : find (evBound s g k v h).slots n = find g.ev.slots n := by
  unfold evBound
  dsimp only
  split
  · exact find_erase_other _ hn
  · exact (find_set_other _ _ hn).trans (find_erase_other _ hn)

theorem evBound_slots_bound (hk : evKind v ≠ 0) : find (evBound s g k v h).slots k = some ⟨v, h⟩ := by
  unfold evBound
  rw [if_neg hk]
  exact find_set_same ..

theorem evBound_slots_free (hk : evKind v = 0) : find (evBound s g k v h).slots k = none := by
  unfold evBound
  rw [if_pos hk]
  exact find_erase_same ..

end

/-! ### Barriers -/

theorem mem_arrived_barArrive (s : State) (gid : Nat) (g : Group) (o : Barrier) (k : Nat) :
    k ∈ (barArrive s gid g o).arrived ↔ k = gid ∨ k ∈ if o.isOpen then o.arrived else deadIn s g.block := by
  unfold barArrive
  dsimp only
  cases o.isOpen with
  | false =>
    rw [if_neg Bool.false_ne_true, if_neg Bool.false_ne_true]
    split
    next hc =>
      have hc := List.contains_iff_mem.mp hc
      exact ⟨.inr, fun hk => hk.elim (· ▸ hc) id⟩
    next => simp [or_comm]
  | true =>
    rw [if_pos rfl, if_pos rfl]
    split
    next hc =>
      have hc := List.contains_iff_mem.mp hc
      exact ⟨.inr, fun hk => hk.elim (· ▸ hc) id⟩
    next => simp [or_comm]

theorem barArrive_of_open (s : State) (gid : Nat) (g : Group) {o : Barrier} (ho : o.isOpen = true) :
    (barArrive s gid g o).isOpen = true ∧ (barArrive s gid g o).expected = o.expected ∧
      (barArrive s gid g o).owner = o.owner := by
  unfold barArrive
  rw [if_pos ho]
  dsimp only
  split
  · exact ⟨ho, rfl, rfl⟩
  · exact ⟨ho, rfl, rfl⟩

theorem barArrive_of_idle (s : State) (gid : Nat) (g : Group) {o : Barrier} (ho : o.isOpen = false) :
    (barArrive s gid g o).isOpen = true ∧ (barArrive s gid g o).expected = expectedOf s g.block ∧
      (barArrive s gid g o).owner = g.block := by
  unfold barArrive
  rw [ho, if_neg Bool.false_ne_true]
  dsimp only
  split
  · exact ⟨rfl, rfl, rfl⟩
  · exact ⟨rfl, rfl, rfl⟩

end Sys2Proof.Machine

namespace Sys2Proof

open Machine Machine.Assoc Machine.Bits Claims

/-- Settles O36: the event forms by their effects; what arriving at a barrier leaves of it. -/
theorem eventResult : Obligations.EventResult := by
  refine ⟨fun d a b s g h hm hd => ?_, fun s g b v hb => boundMailbox_iff hb, fun s g p h => readOwn_of_apart h,
    fun d a b s g h hbad => ?_, fun a s g h => ?_, fun a s g h => ?_, fun d s g h => ?_, ?_,
    fun a s g h hbad => ?_, fun a s g h hbad => ?_, ?_, ?_, fun s gid g o => ?_, fun s bid k => ?_⟩
  · obtain ⟨hmask, hcmp, hsel⟩ := evBound_frame (s := s) (g := g) d.toNat (srcS s g a) (srcSP s g b)
    refine ⟨evBound s g d.toNat (srcS s g a) (srcSP s g b), ?_, hmask, hcmp, hsel, evBound_pend ..,
      fun k hk => evBound_slots_other _ _ _ hk, evBound_slots_bound _ _ _, evBound_slots_free _ _ _⟩
    rw [exec_evbind, execEvbind]
    exact issue_plain h (if_neg (by simp [hm, hd]))
  · rw [exec_evbind, execEvbind]
    exact issue_fault h (if_pos (by simpa using hbad))
  · rw [exec_evmask, execEvmask]
    exact issue_plain h (by rw [field_zero])
  · rw [exec_evclr, execEvclr]
    exact issue_plain h (by rw [clearPending, field_zero])
  · rw [exec_evpend, execEvpend]
    exact issue_done h rfl
  · intro a s g h hm hv hes hb g1 p
    have hok : ¬(isMigrant g || fieldNat (srcS s g a) 8 24 != 0 || (srcS s g a).setWidth 8 == 0#8 ||
        (srcS s g a).setWidth 8 &&& ~~~(evbound g.ev) != 0) = true := by
      simp [hm, hv, hes, hb]
    refine ⟨fun hp hdue hal => ?_, fun hp hdue hal => ?_, fun hp => ?_⟩
    · rw [exec_waitany, execWaitany]
      simp only [field_zero]
      refine issue_jump h ((if_neg hok).trans ?_)
      have hno : ¬((p = 0 : Bool) || preemptDue s s.cur g1) = true := by simpa [hdue] using hp
      exact (if_neg hno).trans (if_neg (not_not.mpr hal))
    · rw [exec_waitany, execWaitany]
      simp only [field_zero]
      refine issue_gone h ((if_neg hok).trans ?_)
      have hno : ¬((p = 0 : Bool) || preemptDue s s.cur g1) = true := by simpa [hdue] using hp
      exact (if_neg hno).trans (if_pos hal)
    · rw [exec_waitany, execWaitany]
      simp only [field_zero]
      refine issue_park h ((if_neg hok).trans (if_pos ?_))
      simpa using hp
  · rw [exec_waitany, execWaitany]
    simp only [field_zero]
    refine issue_fault h (if_pos ?_)
    simpa [or_assoc] using hbad
  · rw [exec_bar, execBar]
    exact issue_fault h (if_pos (by simpa [or_assoc] using hbad))
  · intro a s g h hm h9 h6 hq cl b o ho s1 due
    have hok : ¬(isMigrant g || fieldNat (srcS s g a) 9 23 != 0 || fieldNat (srcS s g a) 6 2 != 0) = true := by
      simp [hm, h9, h6]
    have hfree : ¬(o.isOpen && o.owner != g.block) = true := by
      rcases ho with ho | ho <;> simp [ho]
    have hquiet : ¬(!quiet g) = true := by simp [hq]
    have hpre (hd : due = false) : ¬(preemptDue s1 s.cur g && !fpFirst g (.bar a)) = true := by
      rw [Bool.not_eq_true]; exact hd
    refine ⟨fun h8 hd => ?_, fun h8 hd => ?_, fun h8 hd => ?_, fun h8 hd => ?_⟩
    · rw [exec_bar, execBar]
      refine issue_plain h ((if_neg hok).trans ((if_neg hfree).trans ((if_neg hquiet).trans ?_)))
      exact (if_pos h8).trans (if_neg (hpre hd))
    · rw [exec_bar, execBar]
      refine issue_park h ((if_neg hok).trans ((if_neg hfree).trans ((if_neg hquiet).trans ?_)))
      exact (if_pos h8).trans (if_pos hd)
    · have h8 : ¬bit (srcS s g a) 8 = true := by rw [h8]; exact Bool.false_ne_true
      rw [exec_bar, execBar]
      refine issue_park h ((if_neg hok).trans ((if_neg hfree).trans ((if_neg hquiet).trans ?_)))
      exact (if_neg h8).trans (congrArg Effect.park (if_neg (hpre hd)))
    · have h8 : ¬bit (srcS s g a) 8 = true := by rw [h8]; exact Bool.false_ne_true
      rw [exec_bar, execBar]
      refine issue_park h ((if_neg hok).trans ((if_neg hfree).trans ((if_neg hquiet).trans ?_)))
      exact (if_neg h8).trans (congrArg Effect.park (if_pos hd))
  · intro a s g h hm h9 h6 o ho hown
    have hok : ¬(isMigrant g || fieldNat (srcS s g a) 9 23 != 0 || fieldNat (srcS s g a) 6 2 != 0) = true := by
      simp [hm, h9, h6]
    have hheld : (o.isOpen && o.owner != g.block) = true := by simp [ho, hown]
    rw [exec_bar, execBar]
    exact issue_hold h ((if_neg hok).trans (if_pos hheld))
  · refine ⟨?_, (mem_arrived_barArrive ..).mpr (.inl rfl), fun ho => ?_, fun ho => ?_⟩
    · cases ho : o.isOpen with
      | false => exact (barArrive_of_idle s gid g ho).1
      | true => exact (barArrive_of_open s gid g ho).1
    · obtain ⟨-, hexp, hown⟩ := barArrive_of_idle s gid g ho
      refine ⟨hown, fun k => (mem_arrived_barArrive ..).trans (by rw [ho, if_neg Bool.false_ne_true]), fun k => ?_⟩
      simp [hexp, expectedOf]
    · obtain ⟨-, hexp, hown⟩ := barArrive_of_open s gid g ho
      exact ⟨hexp, hown, fun k => (mem_arrived_barArrive ..).trans (by rw [if_pos ho])⟩
  · simp [deadIn, and_assoc]

end Sys2Proof

/-! Work: `fetchw` and `spawn` (R88 to R91, R184, R234, R380, R420). -/

namespace Sys2Proof.Machine

open Assoc Bits Claims

variable {s : State} {g : Group} {a : Code}

section
variable (h : Admits (.fetchw a) s g)
include h

theorem exec_fetchw_misaligned (ha : (srcS s g a).toNat % 16 ≠ 0) :
    exec (.fetchw a) s = .next (faulted (.fetchw a) s g .align 0 (spadVa (srcS s g a).toNat)) := by
  rw [exec_fetchw, execFetchw]
  exact issue_fault h (if_pos ha)

/-- An offset outside the slice, or a group without one. -/
theorem exec_fetchw_outside (ha : (srcS s g a).toNat % 16 = 0) (ho : isMigrant g = true ∨ s.block? g.block = none ∨
    ∃ b, s.block? g.block = some b ∧ b.spad < (srcS s g a).toNat + 16) :
    exec (.fetchw a) s = .next (faulted (.fetchw a) s g .aper 0 (spadVa (srcS s g a).toNat)) := by
  rw [exec_fetchw, execFetchw]
  refine issue_fault h ((if_neg (not_not.mpr ha)).trans ?_)
  cases hm : isMigrant g with
  | true => rw [if_pos rfl]
  | false =>
    rw [if_neg Bool.false_ne_true]
    rcases ho with ho | ho | ⟨b, hb, hlt⟩
    · exact absurd (hm.symm.trans ho) Bool.false_ne_true
    · rw [ho]
    · rw [hb]
      exact if_pos hlt

/-- What an admissible address comes to. -/
theorem exec_fetchw_inside {b : Block} {e : Effect} (ha : (srcS s g a).toNat % 16 = 0) (hm : isMigrant g = false)
    (hb : s.block? g.block = some b) (hle : (srcS s g a).toNat + 16 ≤ b.spad)
    (he : (if preemptDue s s.cur g then Effect.hold (s.setGroup s.cur { g with status := .parked (.save none) })
      else if preempting s g && !isPixel g then .stall
      else if g.fetches.length ≥ 4 || mailboxBusy g (spadLoc b.cluster (b.spadBase + (srcS s g a).toNat)) then .stall
      else .plain (s.setGroup s.cur { g with fetches := g.fetches ++ [(srcS s g a).toNat] })) = e) :
    exec (.fetchw a) s = issue (.fetchw a) (fun _ _ _ => e) s := by
  rw [exec_fetchw, execFetchw, issue_of_admits h, issue_of_admits h, ← he]
  have hn : ¬(srcS s g a).toNat + 16 > b.spad := Nat.not_lt.mpr hle
  refine congrArg (fun x => Host.Outcome.next (settle s s.cur g _ _ _ x)) ((if_neg (not_not.mpr ha)).trans ?_)
  rw [hm, if_neg Bool.false_ne_true, hb]
  exact if_neg hn

end

/-! ### `spawn` -/

theorem spawnCount_le (s : State) (gid : Nat) (g : Group) (l : Launch) (n : Nat) : spawnCount s gid g l n ≤ n := by
  unfold spawnCount
  split
  · exact Nat.zero_le n
  · exact (Nat.min_le_left ..).trans (Nat.min_le_left ..)

theorem spawnCount_le_room (s : State) (gid : Nat) (g : Group) (l : Launch) (n : Nat) :
    spawnCount s gid g l n ≤ 64 - (groupsOfBlock s g.block).length := by
  unfold spawnCount
  split
  · exact Nat.zero_le _
  · exact (Nat.min_le_right ..).trans (Nat.min_le_left ..)

end Sys2Proof.Machine

namespace Sys2Proof

open Machine Machine.Assoc Machine.Bits Claims

/-- Settles O37: what `fetchw` comes to by its address, its place in a PREEMPT and its requests; what `spawn` creates. -/
theorem workResult : Obligations.WorkResult := by
  refine ⟨fun a b s g h hm hb ha hle hd hp hf hbusy => ?_, fun a s g h => ⟨exec_fetchw_misaligned h,
    exec_fetchw_outside h, fun b ha hm hb hle => ⟨fun hd => ?_, fun hd hw => ?_⟩⟩, ?_, fun d a b s g h ha => ?_,
    fun s gid g l n => ⟨spawnCount_le .., fun hm => ?_, ?_⟩⟩
  · have hp : ¬(preempting s g && !isPixel g) = true := by rcases hp with hp | hp <;> simp [hp]
    have hw : ¬(g.fetches.length ≥ 4 ||
        mailboxBusy g (spadLoc b.cluster (b.spadBase + (srcS s g a).toNat))) = true := by
      simp [hbusy, hf]
    rw [exec_fetchw_inside h ha hm hb hle ((if_neg (by rw [hd]; exact Bool.false_ne_true)).trans
      ((if_neg hp).trans (if_neg hw)))]
    exact issue_plain h rfl
  · rw [exec_fetchw_inside h ha hm hb hle (if_pos hd)]
    exact issue_hold h rfl
  · have hstall : (if preempting s g && !isPixel g then Effect.stall
        else if g.fetches.length ≥ 4 || mailboxBusy g (spadLoc b.cluster (b.spadBase + (srcS s g a).toNat)) then .stall
        else .plain (s.setGroup s.cur { g with fetches := g.fetches ++ [(srcS s g a).toNat] })) = .stall := by
      rcases hw with ⟨hp, hx⟩ | hw
      · exact if_pos (by simp [hp, hx])
      · rw [if_pos (c := (_ || _) = true) (by simpa using hw)]
        exact ite_self _
    rw [exec_fetchw_inside h ha hm hb hle ((if_neg (by rw [hd]; exact Bool.false_ne_true)).trans hstall)]
    exact issue_stall h rfl
  · intro d a b l s g h ha hl c t
    have hc : spawnable s s.cur g (g.scalar d.toNat).toNat = c := by rw [spawnable, hl]
    refine ⟨fun hz => ?_, fun hz g1 hg1 hr hl1 => ?_⟩
    · rw [exec_spawn, execSpawn]
      refine issue_plain h ?_
      simp only [hc]
      exact (if_neg (not_not.mpr ha)).trans (if_pos hz)
    · rw [exec_spawn, execSpawn]
      refine issue_plain h ?_
      simp only [hc]
      refine (if_neg (not_not.mpr ha)).trans ((if_neg hz).trans ?_)
      rw [show quiesce s s.cur = t from rfl, hg1]
      exact (if_pos (by simp [hr])).trans (by rw [spawnNow, hl1])
  · rw [exec_spawn, execSpawn]
    exact issue_fault h (if_pos ha)
  · simp [spawnCount, hm]
  · have := spawnCount_le_room s gid g l n
    omega

end Sys2Proof

/-! Continuations (R188 to R196, R202, R205, R382 to R386, R404). -/

namespace Sys2Proof.Machine

open Assoc Bits Claims

variable {s : State} {g g' : Group} {a : Code}

/-! ### The entries of `rejoin` applied (R205) -/

/-- What a lane holds of its group is as before: its bits, its entry, its registers and which of them are uncorrectable. -/
def LaneSame (j : Nat) (g g' : Group) : Prop :=
  g'.lmask.getLsbD j = g.lmask.getLsbD j ∧ g'.amask.getLsbD j = g.amask.getLsbD j ∧
  g'.away.getLsbD j = g.away.getLsbD j ∧ find g'.cont.rets j = find g.cont.rets j ∧
  find g'.cont.sites j = find g.cont.sites j ∧ (∀ n, regAt g' n j = regAt g n j) ∧
  ∀ n, g'.badV.contains (elemOf n j) = g.badV.contains (elemOf n j)

theorem laneSame_refl (j : Nat) (g : Group) : LaneSame j g g := ⟨rfl, rfl, rfl, rfl, rfl, fun _ => rfl, fun _ => rfl⟩

theorem laneSame_trans {j : Nat} {g1 g2 g3 : Group} (h : LaneSame j g1 g2) (h' : LaneSame j g2 g3) : LaneSame j g1 g3 := by
  obtain ⟨hl, ha, hw, hr, hs, hv, hb⟩ := h
  obtain ⟨hl', ha', hw', hr', hs', hv', hb'⟩ := h'
  exact ⟨hl'.trans hl, ha'.trans ha, hw'.trans hw, hr'.trans hr, hs'.trans hs, fun n => (hv' n).trans (hv n),
    fun n => (hb' n).trans (hb n)⟩

/-- What no entry changes. -/
def EntryFrame (g g' : Group) : Prop :=
  g'.s = g.s ∧ g'.m = g.m ∧ g'.pc = g.pc ∧ g'.status = g.status ∧ g'.cont.hopcfg = g.cont.hopcfg ∧ g'.wb = g.wb

theorem entryFrame_refl (g : Group) : EntryFrame g g := ⟨rfl, rfl, rfl, rfl, rfl, rfl⟩

theorem entryFrame_trans {g1 g2 g3 : Group} (h : EntryFrame g1 g2) (h' : EntryFrame g2 g3) : EntryFrame g1 g3 := by
  obtain ⟨h1, h2, h3, h4, h5, h6⟩ := h
  obtain ⟨h1', h2', h3', h4', h5', h6'⟩ := h'
  exact ⟨h1'.trans h1, h2'.trans h2, h3'.trans h3, h4'.trans h4, h5'.trans h5, h6'.trans h6⟩

/-- Only the views of streams change where a group sees what a lane has seen. -/
theorem seeViews_frame (g : Group) (clk : Map View) : ∃ v, seeViews g clk = { g with view := v } := by
  unfold seeViews
  dsimp only
  split
  · exact ⟨g.view, rfl⟩
  · have hfold : ∀ (sts : List Nat) (a d : Seen) (g : Group), ∃ v, sts.foldl (fun g st =>
        let v := viewAt g st
        setView g st { v with came := joinSeen v.came a, mine := joinSeen v.mine d }) g = { g with view := v } := by
      intro sts a d
      induction sts with
      | nil => exact fun g => ⟨g.view, rfl⟩
      | cons st sts ih => exact fun g => ih _
    exact hfold ..

section
variable {j : Nat} {e : RetEntry} {i : Nat}

theorem applyValue_frame (j : Nat) (e : RetEntry) (g : Group) (i : Nat) :
    ∃ v b, applyValue j e g i = { g with v := v, badV := b } := by
  unfold applyValue
  split
  · dsimp only
    split
    · exact ⟨_, _, rfl⟩
    · exact ⟨_, _, rfl⟩
  · exact ⟨g.v, g.badV, rfl⟩

/-- A value written to its lane. -/
theorem regAt_applyValue (hj : j < 32) {n k : Nat} (hk : k < 32) : regAt (applyValue j e g i) n k =
    if e.carry.getLsbD i = true ∧ n = g.wb + i ∧ k = j then e.vals.getD i 0 else regAt g n k := by
  unfold applyValue
  by_cases hc : e.carry.getLsbD i = true
  · have hset := regAt_setElem g i (e.vals.getD i 0) (r := n) hj hk
    rw [if_pos hc]
    simp only [hc, true_and]
    rw [← hset]
    split <;> rfl
  · rw [if_neg hc, if_neg fun h => hc h.1]

theorem badV_applyValue (hj : j < 32) {n k : Nat} (hk : k < 32) : (applyValue j e g i).badV.contains (elemOf n k) =
    if e.carry.getLsbD i = true ∧ n = g.wb + i ∧ k = j then e.bad.contains i else g.badV.contains (elemOf n k) := by
  have hin := elemOf_inj (r := n) (r' := g.wb + i) hk hj
  unfold applyValue
  by_cases hc : e.carry.getLsbD i = true
  · rw [if_pos hc]
    simp only [hc, true_and, ← hin]
    by_cases he : elemOf n k = elemOf (g.wb + i) j
    · rw [if_pos he, he]
      cases hb : e.bad.contains i with
      | true => simp [Group.setElem]
      | false => simp [Group.setElem]
    · rw [if_neg he]
      cases hb : e.bad.contains i with
      | true => simp [Group.setElem, he]
      | false => simp [Group.setElem, he]
  · rw [if_neg hc, if_neg fun h => hc h.1]

/-- The first values of an entry written to its lane. -/
theorem applyValues_frame (j : Nat) (e : RetEntry) (is : List Nat) (g : Group) :
    ∃ v b, is.foldl (applyValue j e) g = { g with v := v, badV := b } := by
  induction is generalizing g with
  | nil => exact ⟨g.v, g.badV, rfl⟩
  | cons i is ih =>
    obtain ⟨v, b, h⟩ := applyValue_frame j e g i
    obtain ⟨v', b', h'⟩ := ih (applyValue j e g i)
    exact ⟨v', b', by rw [List.foldl_cons, h', h]⟩

theorem regAt_applyValues (hj : j < 32) {n k : Nat} (hk : k < 32) (is : List Nat) (g : Group) :
    regAt (is.foldl (applyValue j e) g) n k =
      if ∃ i ∈ is, e.carry.getLsbD i = true ∧ n = g.wb + i ∧ k = j then e.vals.getD (n - g.wb) 0 else regAt g n k := by
  induction is generalizing g with
  | nil => simp
  | cons i is ih =>
    obtain ⟨v, b, hf⟩ := applyValue_frame j e g i
    have hwb : (applyValue j e g i).wb = g.wb := by rw [hf]
    rw [List.foldl_cons, ih, hwb, regAt_applyValue hj hk]
    by_cases htail : ∃ i ∈ is, e.carry.getLsbD i = true ∧ n = g.wb + i ∧ k = j
    · obtain ⟨i', hi', h⟩ := htail
      rw [if_pos ⟨i', hi', h⟩, if_pos ⟨i', List.mem_cons_of_mem _ hi', h⟩]
    · rw [if_neg htail]
      by_cases hhead : e.carry.getLsbD i = true ∧ n = g.wb + i ∧ k = j
      · rw [if_pos hhead, if_pos ⟨i, List.mem_cons_self, hhead⟩, hhead.2.1, Nat.add_sub_cancel_left]
      · rw [if_neg hhead, if_neg]
        rintro ⟨i', hi', h⟩
        rcases List.mem_cons.mp hi' with rfl | hi'
        · exact hhead h
        · exact htail ⟨i', hi', h⟩

theorem badV_applyValues (hj : j < 32) {n k : Nat} (hk : k < 32) (is : List Nat) (g : Group) :
    (is.foldl (applyValue j e) g).badV.contains (elemOf n k) =
      if ∃ i ∈ is, e.carry.getLsbD i = true ∧ n = g.wb + i ∧ k = j then e.bad.contains (n - g.wb)
      else g.badV.contains (elemOf n k) := by
  induction is generalizing g with
  | nil => simp
  | cons i is ih =>
    obtain ⟨v, b, hf⟩ := applyValue_frame j e g i
    have hwb : (applyValue j e g i).wb = g.wb := by rw [hf]
    rw [List.foldl_cons, ih, hwb, badV_applyValue hj hk]
    by_cases htail : ∃ i ∈ is, e.carry.getLsbD i = true ∧ n = g.wb + i ∧ k = j
    · obtain ⟨i', hi', h⟩ := htail
      rw [if_pos ⟨i', hi', h⟩, if_pos ⟨i', List.mem_cons_of_mem _ hi', h⟩]
    · rw [if_neg htail]
      by_cases hhead : e.carry.getLsbD i = true ∧ n = g.wb + i ∧ k = j
      · rw [if_pos hhead, if_pos ⟨i, List.mem_cons_self, hhead⟩, hhead.2.1, Nat.add_sub_cancel_left]
      · rw [if_neg hhead, if_neg]
        rintro ⟨i', hi', h⟩
        rcases List.mem_cons.mp hi' with rfl | hi'
        · exact hhead h
        · exact htail ⟨i', hi', h⟩

end

/-- The registers of an entry's group once the entry's values are written. -/
def valuesApplied (g : Group) (e : Nat × RetEntry) : Group :=
  if e.2.kind = 1 then (List.range 16).foldl (applyValue e.1 e.2) g else g

theorem valuesApplied_frame (g : Group) (e : Nat × RetEntry) : ∃ v b, valuesApplied g e = { g with v := v, badV := b } := by
  unfold valuesApplied
  split
  · exact applyValues_frame ..
  · exact ⟨g.v, g.badV, rfl⟩

/-- The live lanes once an entry is applied. -/
def liveAfter (g : Group) (e : Nat × RetEntry) : Word := if e.2.kind = 3 then setBit g.lmask e.1 false else g.lmask

theorem applyEntry_eq (g : Group) (e : Nat × RetEntry) : applyEntry g e = { valuesApplied g e with
    lmask := liveAfter g e, away := setBit g.away e.1 false,
    amask := if (liveAfter g e).getLsbD e.1 then setBit g.amask e.1 true else g.amask,
    cont := { g.cont with rets := erase g.cont.rets e.1, sites := erase g.cont.sites e.1 } } := by
  obtain ⟨v, b, h⟩ := valuesApplied_frame g e
  have hv : (if e.2.kind = 1 then (List.range 16).foldl (applyValue e.1 e.2) g else g) = { g with v := v, badV := b } := h
  simp only [applyEntry, hv, h, liveAfter]
  split <;> rfl

theorem getLsbD_liveAfter (g : Group) {e : Nat × RetEntry} (he : e.1 < 32) (j : Nat) : (liveAfter g e).getLsbD j =
    (g.lmask.getLsbD j && !(decide (j = e.1) && decide (e.2.kind = 3))) := by
  unfold liveAfter
  by_cases hk : e.2.kind = 3
  · rw [if_pos hk, getLsbD_setBit _ he]
    by_cases hj : j = e.1 <;> simp [hj, hk]
  · simp [hk]

/-- An entry applied changes no other lane. -/
theorem applyEntry_other {e : Nat × RetEntry} (he : e.1 < 32) {j : Nat} (hj : j < 32) (hne : j ≠ e.1) :
    LaneSame j g (applyEntry g e) := by
  have hno (n : Nat) : ¬∃ i ∈ List.range 16, e.2.carry.getLsbD i = true ∧ n = g.wb + i ∧ j = e.1 :=
    fun ⟨_, _, h⟩ => hne h.2.2
  rw [applyEntry_eq]
  refine ⟨?_, ?_, ?_, find_erase_other _ hne, find_erase_other _ hne, fun n => ?_, fun n => ?_⟩
  · show (liveAfter g e).getLsbD j = _
    simp [getLsbD_liveAfter g he, hne]
  · dsimp only
    split
    · rw [getLsbD_setBit _ he, if_neg hne]
    · rfl
  · exact (getLsbD_setBit _ he ..).trans (if_neg hne)
  · show regAt (valuesApplied g e) n j = _
    unfold valuesApplied
    split
    · rw [regAt_applyValues he hj, if_neg (hno n)]
    · rfl
  · show (valuesApplied g e).badV.contains _ = _
    unfold valuesApplied
    split
    · rw [badV_applyValues he hj, if_neg (hno n)]
    · rfl

theorem applyEntry_frame (g : Group) (e : Nat × RetEntry) : EntryFrame g (applyEntry g e) := by
  obtain ⟨v, b, h⟩ := valuesApplied_frame g e
  rw [applyEntry_eq, h]
  exact ⟨rfl, rfl, rfl, rfl, rfl, rfl⟩

/-- What an entry leaves in its own lane. -/
structure EntryIn (g : Group) (j : Nat) (e : RetEntry) (g' : Group) : Prop where
  rets : find g'.cont.rets j = none
  sites : find g'.cont.sites j = none
  away : g'.away.getLsbD j = false
  lmask : g'.lmask.getLsbD j = (g.lmask.getLsbD j && e.kind != 3)
  amask : g'.amask.getLsbD j = (g'.lmask.getLsbD j || g.amask.getLsbD j)
  vals : ∀ i < 16, e.kind = 1 → e.carry.getLsbD i = true → regAt g' (g.wb + i) j = e.vals.getD i 0 ∧
    g'.badV.contains (elemOf (g.wb + i) j) = e.bad.contains i
  kept : ∀ n, e.kind ≠ 1 ∨ n < g.wb ∨ g.wb + 16 ≤ n ∨ e.carry.getLsbD (n - g.wb) = false → regAt g' n j = regAt g n j

theorem applyEntry_own {j : Nat} (hj : j < 32) (e : RetEntry) : EntryIn g j e (applyEntry g (j, e)) := by
  have hlive := getLsbD_liveAfter g (e := (j, e)) hj j
  rw [applyEntry_eq]
  refine ⟨find_erase_same .., find_erase_same .., ?_, ?_, ?_, fun i hi hk hc => ?_, fun n hn => ?_⟩
  · exact (getLsbD_setBit _ hj ..).trans (if_pos rfl)
  · show (liveAfter g (j, e)).getLsbD j = _
    rw [hlive]
    by_cases hk : e.kind = 3 <;> simp [hk]
  · show (if (liveAfter g (j, e)).getLsbD j then setBit g.amask j true else g.amask).getLsbD j = _
    cases hl : (liveAfter g (j, e)).getLsbD j with
    | true => rw [if_pos rfl, getLsbD_setBit _ hj, if_pos rfl]; rfl
    | false => rw [if_neg Bool.false_ne_true]; rfl
  · have hin : ∃ i' ∈ List.range 16, e.carry.getLsbD i' = true ∧ g.wb + i = g.wb + i' ∧ j = j :=
      ⟨i, List.mem_range.mpr hi, hc, rfl, rfl⟩
    have hv : valuesApplied g (j, e) = (List.range 16).foldl (applyValue j e) g := if_pos hk
    refine ⟨?_, ?_⟩
    · show regAt (valuesApplied g (j, e)) _ j = _
      rw [hv, regAt_applyValues hj hj, if_pos hin, Nat.add_sub_cancel_left]
    · show (valuesApplied g (j, e)).badV.contains _ = _
      rw [hv, badV_applyValues hj hj, if_pos hin, Nat.add_sub_cancel_left]
  · show regAt (valuesApplied g (j, e)) n j = _
    unfold valuesApplied
    split
    next hk =>
      rw [regAt_applyValues hj hj, if_neg]
      rintro ⟨i, hi, hc, rfl, -⟩
      have hi := List.mem_range.mp hi
      rw [Nat.add_sub_cancel_left, hc] at hn
      rcases hn with hn | hn | hn | hn
      · exact hn hk
      · omega
      · omega
      · cases hn
    next => rfl

/-- What an entry leaves in its lane stays where nothing else of the lane changes. -/
theorem EntryIn.trans {j : Nat} {e : RetEntry} {g0 g1 g2 g3 : Group} (h0 : LaneSame j g0 g1) (hwb : g1.wb = g0.wb)
    (h : EntryIn g1 j e g2) (h3 : LaneSame j g2 g3) : EntryIn g0 j e g3 := by
  obtain ⟨hl, ha, hw, hr, hs, hv, hb⟩ := h0
  obtain ⟨hl', ha', hw', hr', hs', hv', hb'⟩ := h3
  refine ⟨hr'.trans h.rets, hs'.trans h.sites, hw'.trans h.away, ?_, ?_, fun i hi hk hc => ?_, fun n hn => ?_⟩
  · rw [hl', h.lmask, hl]
  · rw [ha', h.amask, hl', ha]
  · rw [← hwb, hv', hb']
    exact h.vals i hi hk hc
  · rw [hv', h.kept n (by rw [hwb]; exact hn), hv]

/-- One step of `applyEntries`. -/
def entryStep (g : Group) (e : Nat × RetEntry) : Group := seeViews (applyEntry g e) e.2.clk

theorem laneSame_seeViews (j : Nat) (g : Group) (clk : Map View) : LaneSame j g (seeViews g clk) := by
  obtain ⟨v, h⟩ := seeViews_frame g clk
  rw [h]
  exact ⟨rfl, rfl, rfl, rfl, rfl, fun _ => rfl, fun _ => rfl⟩

theorem entryFrame_seeViews (g : Group) (clk : Map View) : EntryFrame g (seeViews g clk) := by
  obtain ⟨v, h⟩ := seeViews_frame g clk
  rw [h]
  exact ⟨rfl, rfl, rfl, rfl, rfl, rfl⟩

theorem foldl_entryFrame (es : List (Nat × RetEntry)) (g : Group) : EntryFrame g (es.foldl entryStep g) := by
  induction es generalizing g with
  | nil => exact entryFrame_refl g
  | cons e es ih =>
    exact entryFrame_trans (entryFrame_trans (applyEntry_frame g e) (entryFrame_seeViews ..)) (ih _)

/-- Entries of other lanes. -/
theorem foldl_laneSame {es : List (Nat × RetEntry)} (hes : ∀ e ∈ es, e.1 < 32) {j : Nat} (hj : j < 32)
    (hno : ∀ e ∈ es, j ≠ e.1) (g : Group) : LaneSame j g (es.foldl entryStep g) := by
  induction es generalizing g with
  | nil => exact laneSame_refl j g
  | cons e es ih =>
    have he := hes e List.mem_cons_self
    have hone := laneSame_trans (applyEntry_other (g := g) he hj (hno e List.mem_cons_self)) (laneSame_seeViews j _ e.2.clk)
    exact laneSame_trans hone (ih (fun e' h => hes e' (List.mem_cons_of_mem _ h))
      (fun e' h => hno e' (List.mem_cons_of_mem _ h)) _)

/-- The one entry of a lane. -/
theorem foldl_entryIn {es : List (Nat × RetEntry)} (hes : ∀ e ∈ es, e.1 < 32) (hp : es.Pairwise fun a b => a.1 < b.1)
    {j : Nat} {e : RetEntry} (hm : (j, e) ∈ es) (g : Group) : EntryIn g j e (es.foldl entryStep g) := by
  obtain ⟨l1, l2, rfl⟩ := List.append_of_mem hm
  have hj : j < 32 := hes (j, e) hm
  obtain ⟨-, hp2, hp12⟩ := List.pairwise_append.mp hp
  have h1 := foldl_laneSame (es := l1) (fun e he => hes e (List.mem_append_left _ he)) hj
    (fun e' he' => (hp12 e' he' (j, e) List.mem_cons_self).ne') g
  have h2 := foldl_laneSame (es := l2) (fun e he => hes e (List.mem_append_right _ (List.mem_cons_of_mem _ he))) hj
    (fun e' he' => ((List.pairwise_cons.mp hp2).1 e' he').ne) (entryStep (l1.foldl entryStep g) (j, e))
  rw [List.foldl_append, List.foldl_cons]
  have hwb : (l1.foldl entryStep g).wb = g.wb := (foldl_entryFrame l1 g).2.2.2.2.2
  exact EntryIn.trans h1 hwb (applyEntry_own hj e) (laneSame_trans (laneSame_seeViews ..) h2)

/-! ### The lanes that are away -/

theorem mem_awayEntries {j : Nat} {e : RetEntry} :
    (j, e) ∈ awayEntries g ↔ (j < 32 ∧ g.away.getLsbD j = true) ∧ find g.cont.rets j = some e := by
  simp only [awayEntries, lanesOf, List.mem_filterMap, List.mem_filter, List.mem_range, Option.map_eq_some_iff,
    Prod.mk.injEq]
  constructor
  · rintro ⟨k, hk, x, hx, rfl, rfl⟩
    exact ⟨hk, hx⟩
  · rintro ⟨hj, he⟩
    exact ⟨j, hj, e, he, rfl, rfl⟩

theorem pairwise_awayEntries (g : Group) : (awayEntries g).Pairwise fun a b => a.1 < b.1 := by
  refine List.Pairwise.filterMap _ (R := (· < ·)) (fun j k hjk x hx y hy => ?_) (List.pairwise_lt_range.filter _)
  obtain ⟨_, -, rfl⟩ := Option.map_eq_some_iff.mp hx
  obtain ⟨_, -, rfl⟩ := Option.map_eq_some_iff.mp hy
  exact hjk

theorem lt_of_mem_awayEntries {e : Nat × RetEntry} (he : e ∈ awayEntries g) : e.1 < 32 := (mem_awayEntries.mp he).1.1

/-- The group once every entry is applied, but for the lanes refused. -/
theorem applyEntries_fst (g : Group) : (applyEntries g).1 =
    let g' := (awayEntries g).foldl entryStep g
    { g' with cont := { g'.cont with hopref := refusedLanes (awayEntries g), hopttl := spentLanes (awayEntries g) } } := rfl

theorem getLsbD_lanes (es : List (Nat × RetEntry)) (p : RetEntry → Bool) {j : Nat} (hj : j < 32) :
    (maskOf ((es.filter fun e => p e.2).map (·.1))).getLsbD j = es.any fun e => e.1 == j && p e.2 := by
  rw [getLsbD_maskOf, Bool.eq_iff_iff, decide_eq_true_eq, List.any_eq_true]
  simp only [List.mem_map, List.mem_filter, Bool.and_eq_true, beq_iff_eq]
  constructor
  · rintro ⟨-, e, ⟨he, hp⟩, rfl⟩
    exact ⟨e, he, rfl, hp⟩
  · rintro ⟨e, he, rfl, hp⟩
    exact ⟨hj, e, ⟨he, hp⟩, rfl⟩

theorem getLsbD_refusedLanes (es : List (Nat × RetEntry)) {j : Nat} (hj : j < 32) :
    (refusedLanes es).getLsbD j = es.any fun e => e.1 == j && decide (4 ≤ e.2.kind) :=
  getLsbD_lanes es (fun e => decide (e.kind ≥ 4)) hj

theorem getLsbD_spentLanes (es : List (Nat × RetEntry)) {j : Nat} (hj : j < 32) :
    (spentLanes es).getLsbD j = es.any fun e => e.1 == j && e.2.kind == 5 :=
  getLsbD_lanes es (fun e => e.kind == 5) hj

/-! ### Lanes sent (R193) -/

theorem windowOut_iff : ((List.range 16).any fun i => g.cont.hopcfg.getLsbD i && decide (g.wb + i ≥ g.vregs)) = true ↔
    ∃ i < 16, g.cont.hopcfg.getLsbD i = true ∧ g.vregs ≤ g.wb + i := by
  simp [List.any_eq_true]

theorem not_windowOut (h : ∀ i < 16, g.cont.hopcfg.getLsbD i = true → g.wb + i < g.vregs) :
    ¬((List.range 16).any fun i => g.cont.hopcfg.getLsbD i && decide (g.wb + i ≥ g.vregs)) = true := by
  rw [windowOut_iff]
  rintro ⟨i, hi, hb, hle⟩
  exact absurd (h i hi hb) (Nat.not_lt.mpr hle)

theorem sendLanes_window {os : List (Nat × Word)} {nres : Bool} {gid : Nat}
    (h : ∃ i < 16, g.cont.hopcfg.getLsbD i = true ∧ g.vregs ≤ g.wb + i) :
    sendLanes os nres s gid g = .fault .window 0 0 := if_pos (windowOut_iff.mpr h)

section
variable {os : List (Nat × Word)} {nres : Bool} {gid : Nat}
  (hw : ∀ i < 16, g.cont.hopcfg.getLsbD i = true → g.wb + i < g.vregs)
include hw

theorem sendLanes_stay (hl : leaving s g os = []) :
    sendLanes os nres s gid g = .plain (s.setGroup gid (g.orM7 (if nres then stayNres s g os else 0))) := by
  have hl : (os.filter fun e => !staysHere s g e.2) = [] := hl
  rw [sendLanes, if_neg (not_windowOut hw)]
  simp only [hl]
  rfl

theorem sendLanes_full (hl : leaving s g os ≠ []) (hm : isMigrant g = false)
    (hf : 64 < (outbound s g.core).length + (queuedLanes s g (leaving s g os)).length) :
    sendLanes os nres s gid g = .hold (s.setGroup gid { g with status := .parked .room }) := by
  have hne : ¬(leaving s g os).isEmpty = true := by simpa using hl
  have hfull : (!isMigrant g && decide (Config.outbound <
      (outbound s g.core).length + (queuedLanes s g (leaving s g os)).length)) = true := by
    rw [hm, Bool.not_false, Bool.true_and, decide_eq_true_eq]
    exact hf
  rw [sendLanes, if_neg (not_windowOut hw)]
  exact (if_neg hne).trans (if_pos hfull)

theorem sendLanes_sends {g1 : Group} (hl : leaving s g os ≠ [])
    (hf : isMigrant g = true ∨ (outbound s g.core).length + (queuedLanes s g (leaving s g os)).length ≤ 64)
    (hg : (quiesce s gid).group? gid = some g1) (hr : g1.status = .ready) : sendLanes os nres s gid g =
      sendOut (leaving s g os) (if nres then stayNres s g os else 0) (quiesce s gid) gid g1 := by
  have hne : ¬(leaving s g os).isEmpty = true := by simpa using hl
  have hroom : ¬(!isMigrant g && decide (Config.outbound <
      (outbound s g.core).length + (queuedLanes s g (leaving s g os)).length)) = true := by
    rw [Bool.and_eq_true, Bool.not_eq_true', decide_eq_true_eq]
    rintro ⟨hm, hlt⟩
    rcases hf with hf | hf
    · rw [hm] at hf; cases hf
    · exact absurd hlt (Nat.not_lt.mpr hf)
  rw [sendLanes, if_neg (not_windowOut hw)]
  refine (if_neg hne).trans ((if_neg hroom).trans ?_)
  dsimp only
  rw [hg]
  exact if_pos (by rw [hr]; rfl)

end

/-- A form that sends lanes, its owners known. -/
theorem exec_hopForms {f : (Code → Instr) × Bool} (hf : f ∈ hopForms) {os : List (Nat × Word)} (h : Admits (f.1 a) s g)
    (ho : if f.2 then laneOwners s g a = .ok os else os = g.activeLanes.map fun j => (j, srcV g a j)) :
    exec (f.1 a) s = issue (f.1 a) (sendLanes os f.2) s := by
  fin_cases hf
  · have ho : laneOwners s g a = .ok os := ho
    rw [exec_hop, execHop, issue_of_admits h, issue_of_admits h, ho]
  · have ho : os = g.activeLanes.map fun j => (j, srcV g a j) := ho
    rw [exec_hopx, execHopx, issue_of_admits h, issue_of_admits h, ho]

/-! ### A group with nothing outstanding -/

theorem quiesce_of_quiet {gid : Nat} (hg : s.group? gid = some g) (hl : g.loads = []) (hw : g.wbuf = [])
    (ha : g.ahead = []) (hf : g.fences = []) :
    ∃ gs, quiesce s gid = { s with groups := gs } ∧ find gs gid = some g ∧ ∀ k, k ≠ gid → find gs k = s.group? k := by
  have hg1 : { g with loads := [] } = g := by rw [← hl]
  have hg2 : { g with wbuf := [] } = g := by rw [← hw]
  have hset (t : State) : (t.setGroup gid g).group? gid = some g := find_set_same ..
  have hfence : settleFences gid g = g := by simp [settleFences, hf]
  have hatoms : atomsAct (s.setGroup gid g) gid (fun _ => true) = s.setGroup gid g := by
    rw [atomsAct, hset]
    simp [hl]
  have hreach : reachHome (s.setGroup gid g) gid (fun _ => true) = (s.setGroup gid g).setGroup gid g := by
    rw [reachHome, hset]
    dsimp only
    rw [hw, List.filter_nil, List.filter_nil, List.foldl_nil, hg2, updGroup_setGroup, hfence]
  have hland : landAhead ((s.setGroup gid g).setGroup gid g) gid = (s.setGroup gid g).setGroup gid g := by
    rw [landAhead, hset]
    dsimp only
    rw [ha, List.foldl_nil]
  have hq : quiesce s gid = (s.setGroup gid g).setGroup gid g := by
    rw [quiesce, hg]
    dsimp only
    rw [hl, hg1, List.foldl_nil, settleAccesses, hatoms, hreach, hland]
  refine ⟨_, hq, find_set_same .., fun k hk => ?_⟩
  exact (find_set_other _ _ hk).trans (find_set_other _ _ hk)

end Sys2Proof.Machine

namespace Sys2Proof

open Machine Machine.Assoc Machine.Bits Claims

/-- Settles O39: the forms by their effects; the entries of `rejoin` lane by lane, by a fold over the lanes away. -/
theorem continuationResult : Obligations.ContinuationResult := by
  refine ⟨fun d a nw os s g h ho => ?_, fun a e s g he => ⟨fun d nw h => ?_, fun h => ?_⟩, ?_,
    fun s gid g hg hl hw ha hf => quiesce_of_quiet hg hl hw ha hf, fun s g h => ⟨fun hm => ?_, fun hm hq => ?_, fun hm hq => ?_⟩,
    fun s g h => ⟨fun hm => ?_, fun hm (ha : ¬g.away = 0#32) hr => ?_, fun hm (ha : ¬g.away = 0#32) hr hw ht => ?_, fun hm (ha : ¬g.away = 0#32) hr hw => ?_,
      fun c ls hm (ha : ¬g.away = 0#32) hr hw ht => ?_⟩, fun g => rfl, fun g hall => ?_⟩
  · rw [exec_owner, execOwner]
    exact issue_done h (by rw [ho]; rfl)
  · rw [exec_owner, execOwner]
    exact issue_fault h (by rw [he])
  · rw [exec_hop, execHop]
    exact issue_fault h (by rw [he])
  · intro f hf a os s g h ho m7
    rw [exec_hopForms hf h ho]
    refine ⟨fun hw hl => issue_plain h (sendLanes_stay hw hl), fun hw => issue_fault h (sendLanes_window hw),
      fun hw hl hm hfull => issue_hold h (sendLanes_full hw hl hm hfull), fun g1 hw hl hroom hg1 hr => ?_⟩
    intro out t
    have hsend := sendLanes_sends (nres := f.2) (gid := s.cur) hw hl hroom hg1 hr
    by_cases hq : (isMigrant g1 || (queuedLanes (quiesce s s.cur) g1 out).isEmpty) = true
    · rw [if_pos hq]
      exact issue_plain h (hsend.trans (if_pos hq))
    · rw [if_neg hq]
      exact issue_park h (hsend.trans (if_neg hq))
  · rw [exec_hopback, execHopback]
    exact issue_plain h (if_pos (by rw [hm]; rfl))
  · rw [exec_hopback, execHopback]
    exact issue_gone h (by simp only [hm, hq]; rfl)
  · rw [exec_hopback, execHopback]
    exact issue_stall h (by simp only [hm, hq]; rfl)
  · rw [exec_rejoin, execRejoin]
    exact issue_plain h (if_pos (by simpa using hm))
  · rw [exec_rejoin, execRejoin]
    exact issue_park h (by simp [hm, ha, hr])
  · rw [exec_rejoin, execRejoin]
    refine issue_plain h ((if_neg (by simp [hm, ha])).trans ((if_neg (by simp [hr])).trans
      ((if_neg (by simp [hw])).trans ?_)))
    generalize applyEntries g = x at ht ⊢
    obtain ⟨g', t⟩ := x
    cases ht
    rfl
  · rw [exec_rejoin, execRejoin]
    exact issue_fault h (by simp [hm, ha, hr, hw])
  · rw [exec_rejoin, execRejoin]
    refine issue_thenTrap h ((if_neg (by simp [hm, ha])).trans ((if_neg (by simp [hr])).trans
      ((if_neg (by simp [hw])).trans ?_)))
    generalize applyEntries g = x at ht ⊢
    obtain ⟨g', t⟩ := x
    cases ht
    rfl
  · have hes := fun e => lt_of_mem_awayEntries (g := g) (e := e)
    obtain ⟨hs, hm, hpc, hst, hcfg, hwb⟩ := foldl_entryFrame (awayEntries g) g
    have hown {j : Nat} {e : RetEntry} (hj : j < 32) (ha : g.away.getLsbD j = true) (he : find g.cont.rets j = some e) :=
      foldl_entryIn hes (pairwise_awayEntries g) (mem_awayEntries.mpr ⟨⟨hj, ha⟩, he⟩) g
    have hother {j : Nat} (hj : j < 32) (ha : g.away.getLsbD j = false) :=
      foldl_laneSame hes hj (fun e he hje => by
        obtain ⟨⟨-, h⟩, -⟩ := mem_awayEntries.mp (hje ▸ he : (j, e.2) ∈ awayEntries g)
        exact Bool.false_ne_true (ha.symm.trans h)) g
    rw [applyEntries_fst]
    refine ⟨?_, hs, hm, hpc, hst, hcfg, fun j hj => ⟨getLsbD_refusedLanes _ hj, getLsbD_spentLanes _ hj⟩, fun j hj ha => ?_,
      fun j hj e ha he => ?_⟩
    · refine BitVec.eq_of_getLsbD_eq fun j hj => ?_
      cases ha : g.away.getLsbD j with
      | false =>
        obtain ⟨-, -, haw, -⟩ := hother hj ha
        exact (haw.trans ha).trans BitVec.getLsbD_zero.symm
      | true =>
        have hret := List.all_eq_true.mp hall j (List.mem_filter.mpr ⟨List.mem_range.mpr hj, ha⟩)
        obtain ⟨e, he⟩ := Option.isSome_iff_exists.mp hret
        exact (hown hj ha he).away.trans BitVec.getLsbD_zero.symm
    · obtain ⟨hl, ham, -, hr, -, hv, -⟩ := hother hj ha
      exact ⟨hl, ham, hr, hv⟩
    · have h := hown hj ha he
      exact ⟨h.rets, h.sites, h.lmask, h.amask, fun i hi hk hc => h.vals i hi hk hc, h.kept⟩

end Sys2Proof

/-! A view read as a row of s8 (R251, R257). -/

namespace Sys2Proof.Machine

open Assoc Bits Claims Tests

/-- A bf16 surface under handle 1, its first pixel holding 1.0 in its first component. -/
def bf16Surface : State :=
  let s := s0.setHandle 0 1 (surf 5 0)
  { s with mem := [(pixelLoc s 0 1 (surf 5 0) 0 0 0, 0x80), (pixelLoc s 0 1 (surf 5 0) 0 0 0 + 1, 0x3F)] }

/-- One s8 element; no product takes a view of it (R257). -/
def oneByte : MtxShape := { cls := 5, k := 1, bpn := 0, m := 8, n := 8, many := false }

theorem handle_bf16Surface : bf16Surface.handle? g0.ctx 1 = some (surf 5 0) := by decide +kernel

/-- The row takes the low byte of the element. -/
theorem readRow_bf16Surface : (readRow bf16Surface g0 oneByte (.view 1 0 0 0) 0 0 0).ints = [-128] := by decide +kernel

theorem viewElem_bf16Surface : viewElem bf16Surface g0.ctx 1 (surf 5 0) 0 0 0 = 0x3F80 := by decide +kernel

end Sys2Proof.Machine

namespace Sys2Proof

open Machine Claims Tests

/-- Refutes O40: a row of s8 elements read from a view of bf16 pixels holds the low byte of an element, where the statement
asks for the whole element less 2^8 (0x3F80 - 0x100). -/
theorem not_matrixResult : ¬ Obligations.MatrixResult := by
  unfold Obligations.MatrixResult
  intro h
  obtain ⟨-, -, -, -, -, -, -, -, -, -, -, -, -, -, -, -, -, -, -, hview, -⟩ := h
  obtain ⟨hints, -⟩ := hview bf16Surface g0 oneByte 1 0 0 0 0 0 0 (surf 5 0) handle_bf16Surface
  have hrow := hints rfl
  rw [readRow_bf16Surface] at hrow
  have hone : (List.range oneByte.k).map (fun k => readInt true 8
      (viewElem bf16Surface g0.ctx 1 (surf 5 0) 0 (0 + 0 + 32 * 0) (0 + k))) = [16000] := by
    rw [show oneByte.k = 1 from rfl, List.range_one, List.map_singleton, viewElem_bf16Surface]
    rfl
  rw [hone] at hrow
  exact absurd hrow (by decide)

end Sys2Proof

/-! What the operations of the matrix engine leave alone (R70, R248, R258 to R261). -/

namespace Sys2Proof.Machine

namespace Assoc

variable {α : Type} [DecidableEq α]

theorem get_puts_other (d : α) {es : List (Nat × α)} {k : Nat} (h : ∀ e ∈ es, e.1 ≠ k) (m : Map α) :
    get d (puts d m es) k = get d m k := by
  induction es generalizing m with
  | nil => rfl
  | cons e es ih =>
    exact (ih (fun e he => h e (List.mem_cons_of_mem _ he)) _).trans (get_put_other d m e.2 (h e List.mem_cons_self).symm)

/-- A key that is put with one value only. -/
theorem get_puts_of_agree (d : α) {es : List (Nat × α)} {k : Nat} {v : α} (hm : (k, v) ∈ es)
    (h : ∀ e ∈ es, e.1 = k → e.2 = v) (m : Map α) : get d (puts d m es) k = v := by
  induction es generalizing m with
  | nil => cases hm
  | cons e es ih =>
    by_cases hin : (k, v) ∈ es
    · exact ih hin (fun e he => h e (List.mem_cons_of_mem _ he)) _
    · have hev : e = (k, v) := ((List.mem_cons.mp hm).resolve_right hin).symm
      have hno : ∀ e' ∈ es, e'.1 ≠ k := fun e' he' hk => by
        have hv := h e' (List.mem_cons_of_mem _ he') hk
        exact hin ((show e' = (k, v) from Prod.ext hk hv) ▸ he')
      rw [hev]
      exact (get_puts_other d hno _).trans (get_put_same d m k v)

/-- Distinct keys read what is put. -/
theorem get_puts_of_mem (d : α) {es : List (Nat × α)} (hd : (es.map (·.1)).Nodup) {k : Nat} {v : α} (hm : (k, v) ∈ es)
    (m : Map α) : get d (puts d m es) k = v :=
  get_puts_of_agree d hm (fun _ he hk => congrArg Prod.snd (List.inj_on_of_nodup_map hd he hm hk)) m

end Assoc

open Assoc Bits Claims Machine.Float

variable {s : State} {g h : Group}

/-! ### Elements of tiles -/

theorem tileIdx_inj {t t' r r' c c' : Nat} (hr : r < 128) (hr' : r' < 128) (hc : c < 128) (hc' : c' < 128) :
    tileIdx t r c = tileIdx t' r' c' ↔ t = t' ∧ r = r' ∧ c = c' := by
  unfold tileIdx
  omega

theorem tileAt_setTiles_other {es : List (Nat × Word)} {t r c : Nat} (h : ∀ e ∈ es, e.1 ≠ tileIdx t r c) :
    tileAt (setTiles g es) t r c = tileAt g t r c := get_puts_other 0 h _

theorem tileAt_spoilRows_other {t : Nat} {rows : List Nat} (hrows : ∀ r ∈ rows, r < 128) {t' r c : Nat} (hr : r < 128)
    (hc : c < 128) (h : t' ≠ t ∨ r ∉ rows) : tileAt (spoilRows g t rows) t' r c = tileAt g t' r c := by
  refine tileAt_setTiles_other (es := rows.flatMap fun r => (List.range 128).map fun c => (tileIdx t r c, badElem))
    fun e he hk => ?_
  obtain ⟨r', hr', he⟩ := List.mem_flatMap.mp he
  obtain ⟨c', hc', rfl⟩ := List.mem_map.mp he
  obtain ⟨rfl, rfl, -⟩ := (tileIdx_inj (hrows r' hr') hr (List.mem_range.mp hc') hc).mp hk
  rcases h with h | h
  · exact h rfl
  · exact h hr'

/-! ### What a product writes -/

/-- The rows of a product lie in the tile, in active lanes. -/
theorem row_of_product {sh : MtxShape} {pr : Product} (hp : pr ∈ productsOf h sh)
    {r : Nat × Nat} (hr : r ∈ pr.rows) : r.2 < 128 ∧ h.active (r.2 / 4) = true := by
  have howned {x : Nat} (hx : x ∈ rowsOfLanes h.activeLanes) : x < 128 ∧ h.active (x / 4) = true := by
    obtain ⟨j, hj, hx⟩ := List.mem_flatMap.mp hx
    obtain ⟨i, hi, rfl⟩ := List.mem_map.mp hx
    have hi := List.mem_range.mp hi
    have ha := mem_activeLanes.mp hj
    have hj32 : j < 32 := BitVec.lt_of_getLsbD ha
    have hdiv : (4 * j + i) / 4 = j := by omega
    exact ⟨by omega, by rw [hdiv]; exact ha⟩
  unfold productsOf at hp
  dsimp only at hp
  split at hp
  next =>
    obtain ⟨p, -, rfl⟩ := List.mem_map.mp hp
    exact howned (List.contains_iff_mem.mp (List.mem_filter.mp hr).2)
  next =>
    obtain rfl := List.mem_singleton.mp hp
    obtain ⟨x, hx, rfl⟩ := List.mem_map.mp hr
    exact howned (List.mem_filter.mp hx).1

/-- The columns of a product lie in the tile. -/
theorem col_of_product {sh : MtxShape} (hn : sh.n ≤ 128) (hmany : sh.many = true → sh.n ≤ 32) {pr : Product}
    (hp : pr ∈ productsOf h sh) {c : Nat × Nat} (hc : c ∈ pr.cols) : c.2 < 128 := by
  unfold productsOf at hp
  dsimp only at hp
  split at hp
  next hm =>
    obtain ⟨p, hp16, rfl⟩ := List.mem_map.mp hp
    obtain ⟨n, hn, rfl⟩ := List.mem_map.mp hc
    have := hmany hm
    have := List.mem_range.mp hp16
    have := List.mem_range.mp hn
    dsimp only
    omega
  next =>
    obtain rfl := List.mem_singleton.mp hp
    obtain ⟨n, hn, rfl⟩ := List.mem_map.mp hc
    have := List.mem_range.mp hn
    dsimp only
    omega

/-- Every element that a product writes is one of its rows and columns. -/
theorem mem_runProduct {sh : MtxShape} {t : Nat} {a b : MtxOpd} {lost : List Nat} {pr : Product} {e : Nat × Word}
    (he : e ∈ (runProduct s h sh t a b lost pr).1) : ∃ r ∈ pr.rows, ∃ c ∈ pr.cols, e.1 = tileIdx t r.2 c.2 := by
  have hcols {x : Nat × MtxRow} (hx : x ∈ colsB s h sh b pr) : ∃ c ∈ pr.cols, x.1 = c.2 := by
    obtain ⟨c, hc, rfl⟩ := List.mem_map.mp hx
    exact ⟨c, hc, rfl⟩
  unfold runProduct at he
  dsimp only at he
  refine List.foldlRecOn (motive := fun out : List (Nat × Word) × Flags =>
    ∀ e ∈ out.1, ∃ r ∈ pr.rows, ∃ c ∈ pr.cols, e.1 = tileIdx t r.2 c.2) pr.rows _ (fun e he => absurd he List.not_mem_nil)
    (fun out hout r hr e he => ?_) e he
  split at he
  · rcases List.mem_append.mp he with he | he
    · exact hout e he
    · obtain ⟨x, hx, rfl⟩ := List.mem_map.mp he
      obtain ⟨c, hc, hxc⟩ := hcols hx
      exact ⟨r, hr, c, hc, by rw [hxc]⟩
  · split at he
    · exact hout e he
    · rcases List.mem_append.mp he with he | he
      · exact hout e he
      · obtain ⟨y, hy, rfl⟩ := List.mem_map.mp he
        obtain ⟨x, hx, rfl⟩ := List.mem_map.mp hy
        obtain ⟨c, hc, hxc⟩ := hcols hx
        exact ⟨r, hr, c, hc, by rw [hxc]⟩

theorem setTiles_frame (g : Group) (es : List (Nat × Word)) : ∃ mx, setTiles g es = { g with mx := mx } := ⟨_, rfl⟩

theorem noteBatch_frame (g : Group) (n : Word) (fl : Flags) (k : Word) : ∃ mx, noteBatch g n fl k = { g with mx := mx } :=
  ⟨_, rfl⟩

theorem spoilRows_frame (g : Group) (t : Nat) (rows : List Nat) :
    ∃ mx b, spoilRows g t rows = { g with mx := mx, badRow := b } := by
  obtain ⟨mx, h⟩ := setTiles_frame g (rows.flatMap fun r => (List.range 128).map fun c => (tileIdx t r c, badElem))
  refine ⟨mx, g.badRow.filter fun x => !(rows.map (t * 128 + ·)).contains x, ?_⟩
  rw [spoilRows, h]

/-- Tiles written, rows made readable, a batch noted. -/
theorem noted_frame (g : Group) (es : List (Nat × Word)) (t : Nat) (rows : List Nat) (n : Word) (fl : Flags) (k : Word) :
    ∃ mx b, noteBatch (spoilRows (setTiles g es) t rows) n fl k = { g with mx := mx, badRow := b } := by
  obtain ⟨mx1, h1⟩ := setTiles_frame g es
  obtain ⟨mx2, b, h2⟩ := spoilRows_frame (setTiles g es) t rows
  obtain ⟨mx3, h3⟩ := noteBatch_frame (spoilRows (setTiles g es) t rows) n fl k
  exact ⟨mx3, b, by rw [h3, h2, h1]⟩

theorem tileAt_noteBatch (g : Group) (n : Word) (fl : Flags) (k : Word) (t r c : Nat) :
    tileAt (noteBatch g n fl k) t r c = tileAt g t r c := rfl

theorem performOn_product {e : MatrixOp} {many : Bool} {t a b : Nat} {p : MatrixSnap} (he : e.act = .product many t a b p) :
    performOn s g e =
      let h := asIssued g p
      let r := runProducts s h (shapeOf h many) t (operandOf h (BitVec.ofNat 7 a)) (operandOf h (BitVec.ofNat 7 b))
      noteBatch (spoilRows (setTiles g r.1) t r.2.2.1) e.batch r.2.1 r.2.2.2 := by
  unfold performOn
  rw [he]

theorem performOn_write {e : MatrixOp} {cells : List (Nat × Word)} (he : e.act = .write cells) :
    performOn s g e = setTiles g cells := by
  unfold performOn
  rw [he]

/-- The rows that an operation makes readable are rows of its products. -/
theorem mem_spoiled {sh : MtxShape} {t : Nat} {a b : MtxOpd} {x : Nat} (hx : x ∈ (runProducts s h sh t a b).2.2.1) :
    ∃ pr ∈ productsOf h sh, ∃ r ∈ pr.rows, r.2 = x := by
  obtain ⟨pr, hp, hx⟩ := List.mem_flatMap.mp (List.mem_filter.mp hx).1
  obtain ⟨r, hr, rfl⟩ := List.mem_map.mp hx
  exact ⟨pr, hp, r, hr, rfl⟩

/-- The operation of a queue changes tiles, batches and which rows are uncorrectable. -/
theorem performOn_frame (s : State) (g : Group) (e : MatrixOp) :
    ∃ mx b, performOn s g e = { g with mx := mx, badRow := b } := by
  cases he : e.act with
  | product many t a b p =>
    rw [performOn_product he]
    exact noted_frame ..
  | zero t rows =>
    unfold performOn
    rw [he]
    exact ⟨_, _, rfl⟩
  | write cells =>
    rw [performOn_write he]
    exact ⟨_, _, rfl⟩

section
variable {e : MatrixOp} {t' r c : Nat}

/-- A product changes no other tile, and no row of a lane that was not active. -/
theorem tileAt_product {many : Bool} {t a b : Nat} {p : MatrixSnap} (he : e.act = .product many t a b p)
    (hn : (shapeOf (asIssued g p) many).n ≤ 128) (hmany : many = true → (shapeOf (asIssued g p) many).n ≤ 32)
    (hr : r < 128) (hc : c < 128) (h : t' ≠ t ∨ p.amask.getLsbD (r / 4) = false) :
    tileAt (performOn s g e) t' r c = tileAt g t' r c := by
  have hsm : (shapeOf (asIssued g p) many).many = many := rfl
  have hout {pr : Product} (hp : pr ∈ productsOf (asIssued g p) (shapeOf (asIssued g p) many)) {x : Nat × Nat}
      (hx : x ∈ pr.rows) : ¬(t' = t ∧ x.2 = r) := by
    rintro ⟨rfl, rfl⟩
    rcases h with h | h
    · exact h rfl
    · exact Bool.false_ne_true (h.symm.trans (row_of_product hp hx).2)
  have hrows : ∀ x ∈ (runProducts s (asIssued g p) (shapeOf (asIssued g p) many) t
      (operandOf (asIssued g p) (BitVec.ofNat 7 a)) (operandOf (asIssued g p) (BitVec.ofNat 7 b))).2.2.1,
      x < 128 ∧ ¬(t' = t ∧ x = r) := fun x hx => by
    obtain ⟨pr, hp, y, hy, rfl⟩ := mem_spoiled hx
    exact ⟨(row_of_product hp hy).1, hout hp hy⟩
  have hno : t' ≠ t ∨ r ∉ (runProducts s (asIssued g p) (shapeOf (asIssued g p) many) t
      (operandOf (asIssued g p) (BitVec.ofNat 7 a)) (operandOf (asIssued g p) (BitVec.ofNat 7 b))).2.2.1 := by
    by_cases ht : t' = t
    · exact .inr fun hr => (hrows r hr).2 ⟨ht, rfl⟩
    · exact .inl ht
  rw [performOn_product he]
  dsimp only
  rw [tileAt_noteBatch, tileAt_spoilRows_other (fun x hx => (hrows x hx).1) hr hc hno]
  refine tileAt_setTiles_other fun e he hk => ?_
  obtain ⟨out, hout', he⟩ := List.mem_flatMap.mp he
  obtain ⟨pr, hp, rfl⟩ := List.mem_map.mp hout'
  obtain ⟨x, hx, y, hy, hxy⟩ := mem_runProduct he
  have hx' := (row_of_product hp hx).1
  have hy' := col_of_product hn (fun hm => hmany (hsm ▸ hm)) hp hy
  obtain ⟨ht, hxr, -⟩ := (tileIdx_inj hx' hr hy' hc).mp (hxy.symm.trans hk)
  exact hout hp hx ⟨ht.symm, hxr⟩

theorem tileAt_zero {t : Nat} {rows : List Nat} (he : e.act = .zero t rows) (hrows : ∀ r ∈ rows, r < 128) (hr : r < 128)
    (hc : c < 128) : tileAt (performOn s g e) t' r c = if t' = t ∧ r ∈ rows then 0 else tileAt g t' r c := by
  have hp : tileAt (performOn s g e) t' r c =
      tileAt (setTiles g (rows.flatMap fun r => (List.range 128).map fun c => (tileIdx t r c, 0))) t' r c := by
    unfold performOn
    rw [he]
    rfl
  rw [hp]
  by_cases hin : t' = t ∧ r ∈ rows
  · rw [if_pos hin, hin.1]
    refine get_puts_of_agree 0 (List.mem_flatMap.mpr ⟨r, hin.2, List.mem_map.mpr ⟨c, List.mem_range.mpr hc, rfl⟩⟩)
      (fun e he _ => ?_) _
    obtain ⟨r', -, he⟩ := List.mem_flatMap.mp he
    obtain ⟨c', -, rfl⟩ := List.mem_map.mp he
    rfl
  · rw [if_neg hin]
    refine tileAt_setTiles_other fun e he hk => hin ?_
    obtain ⟨r', hr', he⟩ := List.mem_flatMap.mp he
    obtain ⟨c', hc', rfl⟩ := List.mem_map.mp he
    obtain ⟨rfl, rfl, -⟩ := (tileIdx_inj (hrows r' hr') hr (List.mem_range.mp hc') hc).mp hk
    exact ⟨rfl, hr'⟩

end

end Sys2Proof.Machine

namespace Sys2Proof

open Machine Machine.Assoc Machine.Bits Claims

/-- Settles O41: an operation changes tiles and batches only; its elements are those of its rows and columns. -/
theorem matrixFrame : Obligations.MatrixFrame := by
  intro s g e
  obtain ⟨mx, b, hf⟩ := performOn_frame s g e
  refine ⟨by rw [hf], by rw [hf], by rw [hf], by rw [hf], by rw [hf], by rw [hf], by rw [hf], by rw [hf], by rw [hf],
    by rw [hf]; exact ⟨rfl, rfl⟩, fun many t a b p he hn hmany t' r c hr hc h => tileAt_product he hn hmany hr hc h,
    fun t rows he hrows t' r c hr hc => tileAt_zero he hrows hr hc, fun cells he t' r c h => ?_,
    fun cells he hd t' r c x hx => ?_⟩
  · rw [performOn_write he]
    exact tileAt_setTiles_other h
  · rw [performOn_write he]
    exact get_puts_of_mem 0 hd hx _

end Sys2Proof

/-! The instructions of the engines (R270, R305, R306, R333, R362). -/

namespace Sys2Proof.Machine

open Assoc Bits Claims

variable {s : State} {g : Group} {i : Instr} {d a : Code} {st : BitVec 4}

/-! ### Near-bank instructions -/

theorem exec_bankForms {f : (Code → Code → BitVec 4 → Instr) × Nat × (List Byte → BankCmd)} (hf : f ∈ bankForms)
    (d a : Code) (st : BitVec 4) (s : State) :
    exec (f.1 d a st) s = issue (f.1 d a st) (bankIssue f.2.1 f.2.2 d a st) s := by
  fin_cases hf
  · rw [exec_ivsld, execIvsld]
  · rw [exec_bmac, execBmac]
  · rw [exec_embw, execEmbw]

section
variable {n : Nat} {cmd : List Byte → BankCmd} {r : RecordRead} (ha : (srcSP s g a).toNat % n = 0)
include ha

theorem bankIssue_fault {e : AccFault} (hr : recordPart s s.cur g st.toNat (srcSP s g a) n = .error e) :
    bankIssue n cmd d a st s s.cur g = .fault e.cause 0 e.addr := by
  simp only [bankIssue, hr]
  exact if_neg (not_not.mpr ha)

variable (hr : recordPart s s.cur g st.toNat (srcSP s g a) n = .ok r)
include hr

theorem bankIssue_bad (hb : r.bad = true) : bankIssue n cmd d a st s s.cur g = .gone (uceKill s s.cur g.pc) := by
  simp only [bankIssue, hr]
  exact (if_neg (not_not.mpr ha)).trans (if_pos hb)

variable (hb : r.bad = false)
include hb

theorem bankIssue_away (hw : handleAway s g.ctx (cmd r.bytes).handle = true) :
    bankIssue n cmd d a st s s.cur g = .fault .surfbad 0 0 := by
  simp only [bankIssue, hr, hb]
  exact (if_neg (not_not.mpr ha)).trans ((if_neg Bool.false_ne_true).trans (if_pos hw))

variable (hw : handleAway s g.ctx (cmd r.bytes).handle = false) (hwait : recordWaits s g st.toNat r = false)
include hw hwait

theorem bankIssue_refused (hc : (cmd r.bytes).bad = true) : bankIssue n cmd d a st s s.cur g =
    .plain (endAtOnce (noteRecord s s.cur st.toNat r) s.cur d.toNat 0x80 0) := by
  simp only [bankIssue, hr, hb, hw, hwait]
  exact (if_neg (not_not.mpr ha)).trans ((if_neg Bool.false_ne_true).trans ((if_neg Bool.false_ne_true).trans
    ((if_neg Bool.false_ne_true).trans (if_pos hc))))

theorem bankIssue_starts (hc : (cmd r.bytes).bad = false) (hq : ∀ ch ∈ (cmd r.bytes).channels, queuedAt s ch < 32) :
    bankIssue n cmd d a st s s.cur g = .plain (startOp (noteRecord s s.cur st.toNat r) s.cur
      { opOf s s.cur g (cmd r.bytes).kind d.toNat st with
        channels := (cmd r.bytes).channels,
        pins := ((cmd r.bytes).handle.map fun h => g.ctx * 4096 + h).toList }) := by
  have hroom : ¬((cmd r.bytes).channels.any fun ch => decide (queuedAt s ch ≥ Config.channelQueue)) = true := by
    rw [List.any_eq_true]
    rintro ⟨ch, hch, hge⟩
    exact absurd (of_decide_eq_true hge) (Nat.not_le.mpr (hq ch hch))
  simp only [bankIssue, hr, hb, hw, hwait, hc]
  exact (if_neg (not_not.mpr ha)).trans ((if_neg Bool.false_ne_true).trans ((if_neg Bool.false_ne_true).trans
    ((if_neg Bool.false_ne_true).trans ((if_neg Bool.false_ne_true).trans (if_neg hroom)))))

end

/-! ### Copy engines -/

section
variable {r : RecordRead} {o : EngineOp} {bad : Option Nat} {begin_ : State → State} {e : Nat}

theorem engineIssue_none (hl : leastBusy s (enginesOf s (dieOfCore g.core) g.secure) = none) :
    engineIssue s s.cur g r o bad begin_ =
      .plain (endAtOnce (noteRecord s s.cur o.stream r) s.cur o.scalar 0x18 0) := by
  simp only [engineIssue, hl]

variable (hl : leastBusy s (enginesOf s (dieOfCore g.core) g.secure) = some e)
include hl

theorem engineIssue_bad {c : Nat} : engineIssue s s.cur g r o (some c) begin_ =
    .plain (endAtOnce (noteRecord s s.cur o.stream r) s.cur o.scalar c
      (match o.kind with | .cpred _ => e | _ => 0)) := by
  simp only [engineIssue, hl] <;> rfl

theorem engineIssue_full (hq : 64 ≤ queuedOn s e) : engineIssue s s.cur g r o none begin_ = .stall := by
  simp only [engineIssue, hl]
  exact if_pos hq

theorem engineIssue_starts (hq : queuedOn s e < 64) (hring : ∀ x, o.kind = .ring x → ringsOn s e < 4) :
    engineIssue s s.cur g r o none begin_ =
      .plain (startOp (begin_ (noteRecord s s.cur o.stream r)) s.cur { o with engine := e }) := by
  simp only [engineIssue, hl]
  refine (if_neg (Nat.not_le.mpr hq)).trans (if_neg ?_)
  cases hk : o.kind with
  | ring x => simpa using hring x hk
  | _ => simp

theorem engineIssue_fifth {x : RingInfo} (hk : o.kind = .ring x) (hq : queuedOn s e < 64) (hring : 4 ≤ ringsOn s e) :
    engineIssue s s.cur g r o none begin_ =
      .plain (endAtOnce (noteRecord s s.cur o.stream r) s.cur o.scalar 0x88 0) := by
  simp only [engineIssue, hl, hk]
  exact (if_neg (Nat.not_le.mpr hq)).trans (if_pos (by simpa using hring))

end

/-- An admitted instruction does what its body says, whatever else the body does elsewhere. -/
theorem issue_congr (h : Admits i s g) {body : State → Nat → Group → Effect} {e : Effect} (hb : body s s.cur g = e) :
    issue i body s = issue i (fun _ _ _ => e) s := by
  rw [issue_of_admits h, issue_of_admits h, hb]

section
variable {r : RecordRead}

/-- A copy whose record is read. -/
theorem exec_cpa_read (h : Admits (.cpa d a st) s g) (ha : (srcSP s g a).toNat % 64 = 0)
    (hr : recordPart s s.cur g st.toNat (srcSP s g a) 64 = .ok r) : exec (.cpa d a st) s = issue (.cpa d a st) (fun _ _ _ =>
      if r.bad then .gone (uceKill s s.cur g.pc) else if recordWaits s g st.toNat r then .stall
      else engineIssue s s.cur g r (opOf s s.cur g (.copy r.bytes) d.toNat st)
        (if cdBad r.bytes then some 0x80 else none) id) s := by
  rw [exec_cpa, execCpa]
  refine issue_congr h ((if_neg (not_not.mpr ha)).trans ?_)
  rw [hr]

theorem exec_cpa_error (h : Admits (.cpa d a st) s g) (ha : (srcSP s g a).toNat % 64 = 0) {e : AccFault}
    (hr : recordPart s s.cur g st.toNat (srcSP s g a) 64 = .error e) :
    exec (.cpa d a st) s = .next (faulted (.cpa d a st) s g e.cause 0 e.addr) := by
  rw [exec_cpa, execCpa]
  refine issue_fault h ((if_neg (not_not.mpr ha)).trans ?_)
  rw [hr]

/-- The operation of a ring. -/
def ringOp (s : State) (g : Group) (d a : Code) (st : BitVec 4) (r : RecordRead) : EngineOp :=
  opOf s s.cur g (.ring (attach (srcSP s g a) r.bytes)) d.toNat st

theorem exec_cpa_ring_read (h : Admits (.cpa_ring d a st) s g) (ha : (srcSP s g a).toNat % 32 = 0)
    (hs : 0xFFFFFF0000000000 ≤ (srcSP s g a).toNat) (hr : recordPart s s.cur g st.toNat (srcSP s g a) 32 = .ok r) :
    exec (.cpa_ring d a st) s = issue (.cpa_ring d a st) (fun _ _ _ =>
      if r.bad then .gone (uceKill s s.cur g.pc) else if recordWaits s g st.toNat r then .stall
      else engineIssue s s.cur g r (ringOp s g d a st r)
        (if rhBad (sliceOf s (ringOp s g d a st r)).2 r.bytes then some 0x80 else none)
        fun s' => storeNat s' ((sliceOf s (ringOp s g d a st r)).1 + (attach (srcSP s g a) r.bytes).header + 4) 4
          (attach (srcSP s g a) r.bytes).done) s := by
  rw [exec_cpa_ring, execCpaRing]
  refine issue_congr h ((if_neg (not_not.mpr ha)).trans ((if_neg (Nat.not_lt.mpr hs)).trans ?_))
  rw [hr]
  rfl

theorem exec_cpa_ring_error (h : Admits (.cpa_ring d a st) s g) (ha : (srcSP s g a).toNat % 32 = 0)
    (hs : 0xFFFFFF0000000000 ≤ (srcSP s g a).toNat) {e : AccFault}
    (hr : recordPart s s.cur g st.toNat (srcSP s g a) 32 = .error e) :
    exec (.cpa_ring d a st) s = .next (faulted (.cpa_ring d a st) s g e.cause 0 e.addr) := by
  rw [exec_cpa_ring, execCpaRing]
  refine issue_fault h ((if_neg (not_not.mpr ha)).trans ((if_neg (Nat.not_lt.mpr hs)).trans ?_))
  rw [hr]

theorem exec_cpred_read (h : Admits (.cpred d a st) s g) (ha : (srcSP s g a).toNat % 64 = 0)
    (hr : recordParts s s.cur g st.toNat [(srcSP s g a, 64), (srcSP s g a + 64, 16)] = .ok r) :
    exec (.cpred d a st) s = issue (.cpred d a st) (fun _ _ _ =>
      if r.bad then .gone (uceKill s s.cur g.pc) else if recordWaits s g st.toNat r then .stall
      else engineIssue s s.cur g r (opOf s s.cur g (.cpred r.bytes) d.toNat st)
        (if cpBad r.bytes then some 0x80 else if podOf s g.launch = 0 || !s.fabric then some 0x8A else none) id) s := by
  rw [exec_cpred, execCpred]
  refine issue_congr h ((if_neg (not_not.mpr ha)).trans ?_)
  rw [hr]

theorem exec_cpred_error (h : Admits (.cpred d a st) s g) (ha : (srcSP s g a).toNat % 64 = 0) {e : AccFault}
    (hr : recordParts s s.cur g st.toNat [(srcSP s g a, 64), (srcSP s g a + 64, 16)] = .error e) :
    exec (.cpred d a st) s = .next (faulted (.cpred d a st) s g e.cause 0 e.addr) := by
  rw [exec_cpred, execCpred]
  refine issue_fault h ((if_neg (not_not.mpr ha)).trans ?_)
  rw [hr]

/-! ### A record read -/

variable {x y : Effect}

/-- An uncorrectable record, one that waits, and one that is given to an engine. -/
theorem recordEffect_bad (hb : r.bad = true) : (if r.bad then x else y) = x := if_pos hb

theorem recordEffect_waits (hb : r.bad = false) (hw : recordWaits s g st.toNat r = true) :
    (if r.bad then x else if recordWaits s g st.toNat r then .stall else y) = .stall :=
  (if_neg (by rw [hb]; exact Bool.false_ne_true)).trans (if_pos hw)

theorem recordEffect_given (hb : r.bad = false) (hw : recordWaits s g st.toNat r = false) :
    (if r.bad then x else if recordWaits s g st.toNat r then .stall else y) = y :=
  (if_neg (by rw [hb]; exact Bool.false_ne_true)).trans (if_neg (by rw [hw]; exact Bool.false_ne_true))

end

/-! ### Statuses read (R183) -/

/-- A form that reads statuses, and has no uncorrectable operand, works in the state that has joined them. -/
theorem issue_of_reads {ds : List Nat} {g1 : Group} {body : State → Nat → Group → Effect} (h : Reads i s g ds)
    (hg1 : (readState s g i).group? s.cur = some g1) : issue i body s =
      .next (settle s s.cur g i (oprsOf g.fmt i) (chainAt g (oprsOf g.fmt i)) (body (readState s g i) s.cur g1)) := by
  obtain ⟨hg, hr, hs, hd, hst, hb, -, -, hc⟩ := h
  rw [issue, hg]
  simp [hr, hs, hd, hst, hb, hc, hg1]

/-- The scalar forms of two sources are `scalar2` of their function. -/
theorem exec_scaForms_scalar2 : ∀ f ∈ scaForms, ∀ (d a b : Code) (nw : Bool) (s : State),
    exec (f.1 d a b nw) s = issue (f.1 d a b nw) (scalar2 d a b nw f.2) s := by
  have same {f f' : Word → Word → Word} (hf : f = f') (i : Instr) (d a b : Code) (nw : Bool) (s : State) :
      issue i (scalar2 d a b nw f) s = issue i (scalar2 d a b nw f') s := by rw [hf]
  simp only [scaForms, List.forall_mem_cons, List.not_mem_nil, false_implies, implies_true, and_true]
  refine ⟨?_, ?_, ?_, ?_, ?_, ?_, ?_, ?_, ?_, ?_, fun d a b nw s => same (funext₂ minS_eq) _ d a b nw s,
    fun d a b nw s => same (funext₂ maxS_eq) _ d a b nw s, fun d a b nw s => same (funext₂ ofBool_slt) _ d a b nw s,
    fun d a b nw s => same (funext₂ ofBool_ult) _ d a b nw s⟩ <;> exact fun _ _ _ _ _ => rfl

theorem loadFollows_joinWrite {ds : List Nat} {x : Nat} (hx : x ∈ ds) {w : PendStore} (hw : w.maker = .copy x false)
    (ps : List Nat) : loadFollows s ps (joinWrite ds false w) = true := by
  simp [joinWrite, hw, hx, loadFollows, PendStore.joined]

end Sys2Proof.Machine

namespace Sys2Proof

open Machine Machine.Assoc Machine.Bits Claims

/-- Settles O42: each instruction by its record, its engine and its place in the queue; statuses read by `issue_of_reads`. -/
theorem engineResult : Obligations.EngineResult := by
  refine ⟨?_, ?_, ?_, ?_, ?_, ?_, ?_, ?_, ?_, ?_, ?_, ?_, ?_, ?_⟩
  · intro f hf d a st s g h
    rw [exec_bankForms hf]
    exact ⟨fun ha => issue_fault h (if_pos ha), fun e ha hr => issue_fault h (bankIssue_fault ha hr),
      fun r ha hr => ⟨fun hb => issue_gone h (bankIssue_bad ha hr hb), fun hb hw =>
        issue_fault h (bankIssue_away ha hr hb hw)⟩⟩
  · intro f hf d a st s g r h ha hr hb hw hwait
    rw [exec_bankForms hf]
    exact ⟨fun hc => issue_plain h (bankIssue_refused ha hr hb hw hwait hc),
      fun hc hq => issue_plain h (bankIssue_starts ha hr hb hw hwait hc hq)⟩
  · intro d a st s g r e h ha hr hb hw hl hbad hq
    rw [exec_cpa_read h ha hr]
    refine issue_plain h ((recordEffect_given hb hw).trans ?_)
    rw [hbad]
    exact engineIssue_starts hl hq nofun
  · intro d a st s g r e h ha hs hr hb hw hl hq hring o hbad
    rw [exec_cpa_ring_read h ha hs hr]
    refine issue_plain h ((recordEffect_given hb hw).trans ?_)
    rw [show rhBad (sliceOf s (ringOp s g d a st r)).2 r.bytes = false from hbad]
    exact engineIssue_starts hl hq fun _ _ => hring
  · intro d a st s g r e h ha hr hb hw hl hbad hpod hfab hq
    rw [exec_cpred_read h ha hr]
    refine issue_plain h ((recordEffect_given hb hw).trans ?_)
    rw [hbad, if_neg Bool.false_ne_true, if_neg (by simp [hpod, hfab])]
    exact engineIssue_starts hl hq nofun
  · intro f hf d a st s g h ha
    fin_cases hf
    · rw [exec_cpa, execCpa]; exact issue_fault h (if_pos ha)
    · rw [exec_cpa_ring, execCpaRing]; exact issue_fault h (if_pos ha)
    · rw [exec_cpred, execCpred]; exact issue_fault h (if_pos ha)
  · intro d a st s g h ha hs
    rw [exec_cpa_ring, execCpaRing]
    exact issue_fault h ((if_neg (not_not.mpr ha)).trans (if_pos hs))
  · intro f hf d a st s g h ha hs
    fin_cases hf
    · refine ⟨fun e hr => exec_cpa_error h ha hr, fun r hr => ?_⟩
      rw [exec_cpa_read h ha hr]
      exact ⟨fun hb => issue_gone h (recordEffect_bad hb), fun hb hw => issue_stall h (recordEffect_waits hb hw),
        fun hb hw hl => issue_plain h ((recordEffect_given hb hw).trans (engineIssue_none hl))⟩
    · refine ⟨fun e hr => exec_cpa_ring_error h ha hs hr, fun r hr => ?_⟩
      rw [exec_cpa_ring_read h ha hs hr]
      exact ⟨fun hb => issue_gone h (recordEffect_bad hb), fun hb hw => issue_stall h (recordEffect_waits hb hw),
        fun hb hw hl => issue_plain h ((recordEffect_given hb hw).trans (engineIssue_none hl))⟩
  · intro d a st s g h ha read
    refine ⟨fun e hr => exec_cpred_error h ha hr, fun r hr => ?_⟩
    rw [exec_cpred_read h ha hr]
    exact ⟨fun hb => issue_gone h (recordEffect_bad hb), fun hb hw => issue_stall h (recordEffect_waits hb hw),
      fun hb hw hl => issue_plain h ((recordEffect_given hb hw).trans (engineIssue_none hl))⟩
  · intro d a st s g r e h ha hr hb hw hl
    rw [exec_cpa_read h ha hr]
    refine ⟨fun hbad => issue_plain h ((recordEffect_given hb hw).trans ?_),
      fun hbad hq => issue_stall h ((recordEffect_given hb hw).trans ?_)⟩
    · rw [hbad]
      exact engineIssue_bad hl
    · rw [hbad]
      exact engineIssue_full hl hq
  · intro d a st s g r e h ha hs hr hb hw hl o
    rw [exec_cpa_ring_read h ha hs hr]
    refine ⟨fun hbad => issue_plain h ((recordEffect_given hb hw).trans ?_),
      fun hbad hq hring => issue_plain h ((recordEffect_given hb hw).trans ?_)⟩
    · rw [show rhBad (sliceOf s (ringOp s g d a st r)).2 r.bytes = true from hbad]
      exact engineIssue_bad hl
    · rw [show rhBad (sliceOf s (ringOp s g d a st r)).2 r.bytes = false from hbad]
      exact engineIssue_fifth hl rfl hq hring
  · intro f hf d a b nw s g ds h t g1 hg1
    rw [exec_scaForms_scalar2 f hf, issue_of_reads h hg1]
    rfl
  · intro s g i ds hg hu hds
    have hread : readState s g i = s.updGroup s.cur (joinOps s ds false) := by
      rw [readState, hu]
      cases ds with
      | nil => exact absurd rfl hds
      | cons d ds => rfl
    obtain ⟨v, hv⟩ := seeAll_frame s .all
      { g with unread := g.unread.filter fun d => !ds.contains d, wbuf := g.wbuf.map (joinWrite ds false) }
    refine ⟨joinOps s ds false g, ?_, ?_⟩
    · rw [hread, group?_updGroup, if_pos rfl, hg, Option.map_some]
    · rw [joinOps, hv]
      exact ⟨rfl, rfl, rfl, fun d => by simp [List.mem_filter], rfl, fun d hd w _ hw ps => loadFollows_joinWrite hd hw ps⟩
  · intro d a st s g r e h ha hr hb hw hl
    rw [exec_cpred_read h ha hr]
    refine ⟨fun hbad => issue_plain h ((recordEffect_given hb hw).trans ?_),
      fun hbad hp => issue_plain h ((recordEffect_given hb hw).trans ?_)⟩
    · rw [hbad]
      exact engineIssue_bad hl
    · rw [hbad, if_neg Bool.false_ne_true, if_pos (by simpa using hp)]
      exact engineIssue_bad hl

end Sys2Proof

/-! Surface and pixel instructions (R291, R296 to R298, R302, R303, R403, R424, R425, R450, R455). -/

namespace Sys2Proof.Machine

open Assoc Bits Claims Machine.Float

variable {s : State} {g : Group} {d a b : Code}

/-! ### Surfaces by coordinates -/

theorem uceLanes_zero (s : State) (gid : Nat) (x : DWord) : uceLanes s gid 0 x = s := by
  unfold uceLanes
  split
  · rfl
  · exact if_pos rfl

theorem lanesOf_all (g : Group) : lanesOf (g.amask &&& ~~~0) = g.activeLanes :=
  congrArg lanesOf BitVec.and_allOnes

section
variable {h : Sfte} {c : Cause}

theorem exec_sfld_surfbad (ha : Admits (.sfld d a b) s g)
    (hs : surfaceArg s g (srcS s g a) = none ∨ surfaceArg s g (srcS s g a) = some h ∧ sampleOk h (srcS s g a) = false) :
    exec (.sfld d a b) s = .next (faulted (.sfld d a b) s g .surfbad 0 0) := by
  rw [exec_sfld, execSfld]
  refine issue_fault ha ?_
  rcases hs with hs | ⟨hs, hk⟩
  · dsimp only
    rw [hs]
  · dsimp only
    rw [hs]
    exact if_pos (by rw [hk]; rfl)

theorem exec_sfst_surfbad (ha : Admits (.sfst d a b) s g)
    (hs : surfaceArg s g (srcS s g a) = none ∨ surfaceArg s g (srcS s g a) = some h ∧ sampleOk h (srcS s g a) = false) :
    exec (.sfst d a b) s = .next (faulted (.sfst d a b) s g .surfbad 0 0) := by
  rw [exec_sfst, execSfst]
  refine issue_fault ha ?_
  rcases hs with hs | ⟨hs, hk⟩
  · dsimp only
    rw [hs]
  · dsimp only
    rw [hs]
    exact if_pos (by rw [hk]; rfl)

theorem exec_sfld_regs (ha : Admits (.sfld d a b) s g) (hs : surfaceArg s g (srcS s g a) = some h)
    (hk : sampleOk h (srcS s g a) = true) (hr : pixelRegs g h d.toNat = some c) :
    exec (.sfld d a b) s = .next (faulted (.sfld d a b) s g c 0 0) := by
  rw [exec_sfld, execSfld]
  refine issue_fault ha ?_
  dsimp only
  rw [hs]
  refine (if_neg (by rw [hk]; exact Bool.false_ne_true)).trans ?_
  rw [hr]

theorem exec_sfst_regs (ha : Admits (.sfst d a b) s g) (hs : surfaceArg s g (srcS s g a) = some h)
    (hk : sampleOk h (srcS s g a) = true) (hr : pixelRegs g h d.toNat = some c) :
    exec (.sfst d a b) s = .next (faulted (.sfst d a b) s g c 0 0) := by
  rw [exec_sfst, execSfst]
  refine issue_fault ha ?_
  dsimp only
  rw [hs]
  refine (if_neg (by rw [hk]; exact Bool.false_ne_true)).trans ?_
  rw [hr]

end

/-! ### Pixels in no secure region -/

/-- Lanes that all succeed join. -/
theorem joinLanes_of_ok {rs : List (Nat × Except AccFault Hit)} (h : ∀ e ∈ rs, ∃ x, e.2 = .ok x) :
    ∃ hits, joinLanes rs = .ok hits := by
  unfold joinLanes
  dsimp only
  generalize hb : rs.filterMap _ = bad
  cases bad with
  | nil => exact ⟨_, rfl⟩
  | cons b bad =>
    obtain ⟨l1, ⟨j, r⟩, l2, rfl, -, hsome, -⟩ := List.filterMap_eq_cons_iff.mp hb
    obtain ⟨x, hx⟩ := h (j, r) (List.mem_append_right _ List.mem_cons_self)
    cases r with
    | ok y => cases hsome
    | error f => cases hx

section
variable (hs : s.secRegions = [] ∨ g.secure = true)
include hs

theorem pixelHit_ok (hn : Nat) (h : Sfte) (x y m : Nat) : ∃ hit, pixelHit s g hn h x y m = .ok hit := by
  have hno : ¬(inBank h.state && inSecure s (surfPa (pixelAt h x y m).1 (h.base + (pixelAt h x y m).2)) && !g.secure) =
      true := by
    rcases hs with hs | hs
    · simp [inSecure, hs]
    · simp [hs]
  exact ⟨_, if_neg hno⟩

theorem coverSecv_ok (c : PixelCtx) (hn : Nat) (js : List Nat) : ∀ e ∈ coverSecv s g c hn js, ∃ x, e.2 = .ok x := by
  intro e he
  unfold coverSecv at he
  split at he
  · cases he
  · obtain ⟨j, -, he⟩ := List.mem_flatMap.mp he
    obtain ⟨m, -, rfl⟩ := List.mem_map.mp he
    exact pixelHit_ok hs ..

theorem pxoutSecv_ok (c : PixelCtx) (k : Nat) (js : List Nat) : ∀ e ∈ pxoutSecv s g c k js, ∃ x, e.2 = .ok x := by
  intro e he
  obtain ⟨j, -, he⟩ := List.mem_flatMap.mp he
  rcases List.mem_append.mp he with he | he
  · exact coverSecv_ok hs _ _ _ e he
  · split at he
    · obtain ⟨hn, -, he⟩ := List.mem_flatMap.mp he
      exact coverSecv_ok hs _ _ _ e he
    · cases he

end

end Sys2Proof.Machine

namespace Sys2Proof

open Machine Machine.Assoc Machine.Bits Machine.Float Claims

/-- Settles O43: each instruction by its surface, its pixel context or its draw; fragments by what is sent to them. -/
theorem pixelResult : Obligations.PixelResult := by
  refine ⟨?_, ?_, ?_, ?_, fun t p c hw hn => ?_, fun d a b h s g => ⟨fun hs ha => ?_, fun hs => ⟨fun ha =>
      exec_sfld_surfbad ha hs, fun ha => exec_sfst_surfbad ha hs⟩, fun c hs hk hr => ⟨fun ha => exec_sfld_regs ha hs hk hr,
      fun ha => exec_sfst_regs ha hs hk hr⟩, fun hp => ?_⟩, fun d a nw c s g h hc hk => ?_, ?_, ?_, ?_,
    fun d a b s g h hb => ?_, fun d a b nw s g hc => ⟨fun h => ?_, fun h => ?_, fun h => ?_⟩,
    fun gid k rgba s c j => ⟨fun _ => rfl, rfl, rfl⟩, fun gid j k rgba q f hg hl => ⟨fun ht => ?_, fun ht => ?_,
      fun t ht hne => ?_⟩, fun gid j k rgba q f h => ?_, fun dr i j k => ⟨fun hz => ?_, fun ht q hq => ?_, fun hz ht => ?_⟩⟩
  · intro d a b h hs s g ha v hsurf hk hr hhits l hw h8
    rw [exec_sfld, execSfld, ← after_issueLoad]
    refine issue_plain ha ?_
    have hgo : ¬(loadWaits s g l.stream false (loadPlaces l) || pixelBytes h.fmt == 8 && awaitsRun g d.toNat 2) = true := by
      rw [hw, Bool.false_or, Bool.and_eq_true, beq_iff_eq]
      rintro ⟨hn, hx⟩
      exact Bool.false_ne_true ((h8 hn).symm.trans hx)
    dsimp only
    rw [hsurf]
    refine (if_neg (by rw [hk]; exact Bool.false_ne_true)).trans ?_
    rw [hr]
    dsimp only
    rw [hhits]
    exact if_neg hgo
  · intro d a b h hs s g ha v n hsurf hk hr h8 hhits ws hw
    rw [exec_sfst, execSfst]
    refine issue_plain ha ?_
    have hdead : (if n = 8 then badLanes g (d.toNat + 1) 1 else 0) = 0 := by
      by_cases hn : n = 8
      · rw [if_pos hn, (h8 hn).1]
      · rw [if_neg hn]
    have hgo : ¬(storeWaits s g (fieldNat v 14 4) (ws.flatMap storePlaces) || n == 8 && awaitsRun g d.toNat 2) = true := by
      rw [hw, Bool.false_or, Bool.and_eq_true, beq_iff_eq]
      rintro ⟨hn, hx⟩
      exact Bool.false_ne_true ((h8 hn).2.symm.trans hx)
    dsimp only
    rw [hsurf]
    refine (if_neg (by rw [hk]; exact Bool.false_ne_true)).trans ?_
    rw [hr]
    dsimp only
    rw [show (if pixelBytes h.fmt = 8 then badLanes g (d.toNat + 1) 1 else 0) = 0 from hdead, lanesOf_all, hhits]
    exact (if_neg hgo).trans (congrArg Effect.plain (uceLanes_zero ..))
  · intro d a b h hs s g ha v hn l hsurf hhits hw
    rw [exec_tsmp, execTsmp, ← after_issueLoad]
    refine issue_plain ha ?_
    dsimp only
    rw [hsurf]
    dsimp only
    rw [hhits]
    exact if_neg (by rw [Bool.not_eq_true]; exact hw)
  · intro s gid g l hn d a j h v x y hxy
    have ht : laneTexels g h v a j = [] := if_pos (by simpa using hxy)
    simp [partWords, samplePart, partValue, ht]
  · have hn : (unpack f32 (texelComp t.fmt p c)).isNan = true := hn
    simp [sampleComp, hw, hn]
  · rw [exec_tsmp, execTsmp]
    exact issue_fault ha (by dsimp only; rw [hs])
  · rw [pixelRegs, if_pos hp]
    split <;> simp [*]
  · rw [exec_vinterp, execVinterp]
    refine issue_done h ?_
    dsimp only
    rw [hc]
    exact (if_neg (Nat.not_le.mpr hk)).trans rfl
  · intro d c s g h hc hz hw hsec r
    obtain ⟨hits, hj⟩ := joinLanes_of_ok (rs := (depthSurface c.d).flatMap fun hn => coverSecv s g c hn g.activeLanes)
      fun e he => by
        obtain ⟨hn, -, he⟩ := List.mem_flatMap.mp he
        exact coverSecv_ok hsec _ _ _ e he
    rw [exec_zt, execZt]
    refine issue_plain h ?_
    dsimp only
    rw [hc]
    refine (if_neg (by rw [hz]; exact Bool.false_ne_true)).trans ?_
    rw [hj]
    exact if_neg (by rw [hw]; exact Bool.false_ne_true)
  · intro a b c s g h hc hk js hsec r
    obtain ⟨hits, hj⟩ := joinLanes_of_ok (pxoutSecv_ok hsec c (srcS s g b).toNat js)
    rw [exec_pxout, execPxout]
    refine issue_plain h ?_
    dsimp only
    rw [hc]
    refine (if_neg (Nat.not_le.mpr hk)).trans ?_
    rw [hj]
  · intro d a b s s1 dr hs l g h hm hb dead hr hhits hq haw hdirty hl
    rw [exec_vtxout, execVtxout]
    refine issue_plain h ?_
    dsimp only
    rw [hm, if_neg Bool.false_ne_true, hb]
    dsimp only
    rw [hr]
    dsimp only
    rw [hhits]
    refine (if_neg ?_).trans ?_
    · simp [hq, haw, hdirty]
    · rw [hl]
  · rw [exec_vtxout, execVtxout]
    refine issue_fault h ?_
    dsimp only
    cases hm : isMigrant g with
    | true => rw [if_pos rfl]
    | false => rw [if_neg Bool.false_ne_true, hb.resolve_left (by rw [hm]; exact Bool.false_ne_true)]
  · rw [exec_zt, execZt]
    exact issue_fault h (by rw [hc])
  · rw [exec_pxout, execPxout]
    exact issue_fault h (by rw [hc])
  · rw [exec_vinterp, execVinterp]
    exact issue_fault h (by rw [hc])
  · simp [sentFrag, hg, hl, ht]
  · simp [sentFrag, hg, hl, ht]
  · simp [sentFrag, hg, hl, ht, hne]
  · exact if_pos (by simpa using h)
  · simp [depthReq, hz]
  · cases hz : dr.zen with
    | false => simp [depthReq, hz] at hq
    | true =>
      simp only [depthReq, hz, ht] at hq
      by_cases hl : (writesLater dr && !i.zwritten.getLsbD j) = true
      · simp [hl] at hq
        rw [← hq]
      · simp [hl] at hq
  · refine ⟨⟨k, true, writesAtTest dr || writesLater dr && !i.zwritten.getLsbD j⟩, ?_, rfl, rfl⟩
    simp [depthReq, hz, ht]

end Sys2Proof

/-! The numbers of a format by their magnitudes, and what an exact magnitude is rounded to (R114, R123, R126). -/

namespace Sys2Proof.Machine.Float

open Bits Claims

/-! ### Magnitudes -/

/-- The magnitude that an encoding without its sign stands for, of an exponent field without bound. -/
def magVal (f : Fmt) (b : Nat) : ℚ :=
  if b < 2 ^ f.m then b * 2 ^ (f.emin - f.m) else ((2 ^ f.m + b % 2 ^ f.m : Nat) : ℚ) * 2 ^ ((b / 2 ^ f.m : Nat) - (f.bias : Int) - f.m)

/-- What the formats have in common: a mantissa bit, and a largest number whose encoding leaves room for no other. -/
structure Fmt.Sound (f : Fmt) : Prop where
  mant : 0 < f.m
  expo : 0 < f.e
  max_lt : f.maxBits < f.signW
  max_normal : 2 ^ f.m ≤ f.maxBits
  finite : ∀ b, b < f.signW → (b ≤ f.maxBits ↔ ¬(b / 2 ^ f.m = 2 ^ f.e - 1 ∧ f.top = .ieee) ∧
    ¬(b / 2 ^ f.m = 2 ^ f.e - 1 ∧ f.top = .nanOnly ∧ b % 2 ^ f.m = 2 ^ f.m - 1))

theorem sound_of_mem {f : Fmt} (h : f ∈ formats) : f.Sound := by
  simp only [formats, List.mem_cons, List.not_mem_nil, or_false] at h
  rcases h with rfl | rfl | rfl | rfl | rfl | rfl | rfl
  all_goals
    refine ⟨by decide, by decide, by decide, by decide, fun b hb => ?_⟩
    simp only [Fmt.signW, Fmt.maxBits, Fmt.infBits, f64, f32, f16, bf16, e5m2, e4m3, mx4, Nat.reduceAdd, Nat.reducePow,
      Nat.reduceSub, Nat.reduceMul, reduceCtorEq, and_true, and_false, false_and, true_and, not_false_eq_true, iff_true] at *
    omega

section
variable {f : Fmt}

theorem two_zpow_succ (k : Int) : (2 : ℚ) ^ (k + 1) = 2 * 2 ^ k := by rw [zpow_add_one₀ (by norm_num), mul_comm]

theorem magVal_zero : magVal f 0 = 0 := by simp [magVal]

theorem magVal_succ (b : Nat) : magVal f b < magVal f (b + 1) := by
  have hp : 0 < 2 ^ f.m := Nat.two_pow_pos _
  simp only [magVal]
  generalize 2 ^ f.m = p at *
  by_cases h : b + 1 < p
  · rw [if_pos (by omega), if_pos h]
    have : (0 : ℚ) < 2 ^ (f.emin - f.m) := by positivity
    push_cast
    nlinarith
  rw [if_neg h]
  by_cases hb : b < p
  · obtain rfl : b + 1 = p := by omega
    rw [if_pos hb, Nat.mod_self, Nat.div_self hp]
    simp only [Fmt.emin, Nat.cast_one, add_zero]
    gcongr
  rw [if_neg hb]
  by_cases hm : b % p + 1 < p
  · have h1 : (b + 1) % p = b % p + 1 := by rw [Nat.add_mod, Nat.mod_eq_of_lt (show 1 < p by omega), Nat.mod_eq_of_lt hm]
    have h2 : (b + 1) / p = b / p := by
      have hdm := Nat.div_add_mod b p
      rw [Nat.div_eq_iff hp, Nat.mul_comm]
      omega
    rw [h1, h2]
    gcongr
    omega
  · have hlt := Nat.mod_lt b hp
    have hdm := Nat.div_add_mod b p
    have he : b + 1 = p * (b / p + 1) := by rw [Nat.mul_add]; omega
    rw [he, Nat.mul_mod_right, Nat.mul_div_cancel_left _ hp]
    rw [show ((b / p + 1 : Nat) : Int) - f.bias - f.m = ((b / p : Nat) - (f.bias : Int) - f.m) + 1 by push_cast; ring, two_zpow_succ]
    have hq : ((b % p : Nat) : ℚ) + 1 = p := by exact_mod_cast (show b % p + 1 = p by omega)
    have : (0 : ℚ) < 2 ^ ((b / p : Nat) - (f.bias : Int) - f.m) := by positivity
    generalize (2 : ℚ) ^ (((b / p : Nat) : Int) - f.bias - f.m) = E at this ⊢
    push_cast
    nlinarith

theorem magVal_strictMono : StrictMono (magVal f) := strictMono_nat_of_lt_succ magVal_succ

theorem magVal_nonneg (b : Nat) : 0 ≤ magVal f b := by
  rw [← magVal_zero (f := f)]
  exact magVal_strictMono.monotone (Nat.zero_le b)

/-- A magnitude is an integer of at most m + 1 bits on its grid, none finer than the subnormal one. -/
theorem magVal_eq (b : Nat) : ∃ (k : Nat) (q : Int), magVal f b = k * 2 ^ q ∧ k < 2 ^ (f.m + 1) ∧ f.emin - f.m ≤ q := by
  have hlt := Nat.mod_lt b (Nat.two_pow_pos f.m)
  rw [Nat.pow_succ]
  by_cases h : b < 2 ^ f.m
  · exact ⟨b, _, if_pos h, by omega, le_rfl⟩
  · refine ⟨_, _, if_neg h, by omega, ?_⟩
    have : 1 ≤ b / 2 ^ f.m := (Nat.one_le_div_iff (Nat.two_pow_pos _)).mpr (by omega)
    simp only [Fmt.emin]
    omega

/-! ### Encodings -/

/-- The sign, the exponent field and the mantissa of an encoding. -/
theorem fields_signed (n : Bool) {b : Nat} (hb : b < f.signW) : signed f n b / f.signW % 2 = n.toNat ∧
    signed f n b / 2 ^ f.m % 2 ^ f.e = b / 2 ^ f.m ∧ signed f n b % 2 ^ f.m = b % 2 ^ f.m := by
  have hdiv : b / 2 ^ f.m < 2 ^ f.e := by
    rw [Nat.div_lt_iff_lt_mul (Nat.two_pow_pos _), ← Nat.pow_add]
    exact hb
  cases n with
  | false => exact ⟨by simp [signed, Nat.div_eq_of_lt hb], Nat.mod_eq_of_lt hdiv, rfl⟩
  | true =>
    have hw : 0 < f.signW := by omega
    refine ⟨by simp [signed, Nat.add_div_left _ hw, Nat.div_eq_of_lt hb], ?_, ?_⟩
    · rw [signed, if_pos rfl, Fmt.signW, Nat.pow_add, Nat.add_comm, Nat.add_mul_div_right _ _ (Nat.two_pow_pos _),
        Nat.add_mod_right, Nat.mod_eq_of_lt hdiv]
    · rw [signed, if_pos rfl, Fmt.signW, Nat.pow_add, Nat.add_comm, Nat.add_mul_mod_self_right]

theorem unpack_signed (hs : f.Sound) (n : Bool) {b : Nat} (hb : b ≤ f.maxBits) :
    ∃ M E, unpack f (signed f n b) = .fin n M E ∧ (M : ℚ) * 2 ^ E = magVal f b := by
  have hlt : b < f.signW := hb.trans_lt hs.max_lt
  obtain ⟨hinf, hnan⟩ := (hs.finite b hlt).mp hb
  obtain ⟨hsign, hexp, hmant⟩ := fields_signed n hlt
  have hneg : (n.toNat == 1) = n := by cases n <;> rfl
  simp only [unpack, hsign, hexp, hmant, hneg, hinf, hnan, if_false, magVal]
  by_cases h : b < 2 ^ f.m
  · rw [if_pos (Nat.div_eq_of_lt h), if_pos h, Nat.mod_eq_of_lt h]
    exact ⟨_, _, rfl, rfl⟩
  · have : ¬b / 2 ^ f.m = 0 := by
      have := (Nat.one_le_div_iff (Nat.two_pow_pos f.m)).mpr (by omega : 2 ^ f.m ≤ b)
      omega
    rw [if_neg this, if_neg h]
    exact ⟨_, _, rfl, rfl⟩

theorem two_pow_bits : 2 ^ f.bits = 2 * f.signW := by
  rw [Fmt.bits, Fmt.signW, Nat.add_assoc, Nat.pow_add]

theorem isNumber_signed (hs : f.Sound) (n : Bool) {b : Nat} (hb : b ≤ f.maxBits) : IsNumber f (signed f n b) := by
  obtain ⟨M, E, hu, -⟩ := unpack_signed hs n hb
  exact ⟨two_pow_bits ▸ signed_lt (hb.trans_lt hs.max_lt) n, n, M, E, hu⟩

theorem numberOf_signed (hs : f.Sound) (n : Bool) {b : Nat} (hb : b ≤ f.maxBits) :
    numberOf f (signed f n b) = if n then -magVal f b else magVal f b := by
  obtain ⟨M, E, hu, hv⟩ := unpack_signed hs n hb
  rw [numberOf, hu, valueOf, ← hv]
  cases n <;> simp

/-- An encoding is one of a sign and a magnitude. -/
theorem exists_signed {w : Nat} (hw : w < 2 ^ f.bits) : ∃ n b, b < f.signW ∧ w = signed f n b := by
  rw [two_pow_bits] at hw
  by_cases h : w < f.signW
  · exact ⟨false, w, h, rfl⟩
  · exact ⟨true, w - f.signW, by omega, by simp only [signed, if_true]; omega⟩

/-- A number is one of a sign and of a magnitude up to the largest. -/
theorem exists_of_isNumber (hs : f.Sound) {w : Nat} (hw : IsNumber f w) : ∃ n b, b ≤ f.maxBits ∧ w = signed f n b := by
  obtain ⟨hlt, n', M, E, hu⟩ := hw
  obtain ⟨n, b, hb, rfl⟩ := exists_signed hlt
  obtain ⟨-, hexp, hmant⟩ := fields_signed n hb
  simp only [unpack, hexp, hmant] at hu
  refine ⟨n, b, (hs.finite b hb).mpr ⟨fun h => ?_, fun h => ?_⟩, rfl⟩
  · rw [if_pos h] at hu
    split at hu <;> cases hu
  · rw [if_neg (by simp [h.2.1]), if_pos h] at hu
    cases hu

/-! ### Packing -/

theorem packMag_mod_two (hm : 0 < f.m) (r : Nat) (q : Int) : packMag f r q % 2 = r % 2 := by
  have hp : 2 ^ f.m = 2 * 2 ^ (f.m - 1) := by rw [← Nat.pow_succ', Nat.succ_eq_add_one, Nat.sub_add_cancel hm]
  rw [packMag]
  split
  next => rfl
  next h =>
    rw [hp, Nat.mul_left_comm, Nat.mul_add_mod]
    omega

theorem magVal_packMag {r : Nat} {q : Int} (hr : r < 2 ^ (f.m + 1)) (hq : f.emin - f.m ≤ q)
    (h : 2 ^ f.m ≤ r ∨ q = f.emin - f.m) : magVal f (packMag f r q) = r * 2 ^ q := by
  have hp : 0 < 2 ^ f.m := Nat.two_pow_pos _
  rw [Nat.pow_succ] at hr
  rw [packMag]
  split
  next hlt =>
    obtain rfl : q = f.emin - f.m := h.resolve_left (by omega)
    exact if_pos hlt
  next hge =>
    have hE : 0 < (q + f.m + f.bias).toNat := by simp only [Fmt.emin] at hq; omega
    have hle : 2 ^ f.m ≤ (q + f.m + f.bias).toNat * 2 ^ f.m := Nat.le_mul_of_pos_left _ hE
    have hrem : r - 2 ^ f.m < 2 ^ f.m := by omega
    rw [magVal, if_neg (by omega), Nat.mul_add_mod', Nat.mod_eq_of_lt hrem, Nat.add_sub_cancel' (by omega), Nat.add_comm,
      Nat.add_mul_div_right _ _ hp, Nat.div_eq_of_lt hrem]
    congr 2
    simp only [Fmt.emin] at hq
    omega

end

/-! ### Rounding to an integer (R123) -/

/-- A magnitude rounded to an integer by a mode, its sign given. -/
def RoundedAt (rm : Rm) (neg : Bool) (y : ℝ) (n : Nat) : Prop :=
  match rm with
  | .rne => |(n : ℝ) - y| ≤ 1 / 2 ∧ (|(n : ℝ) - y| = 1 / 2 → n % 2 = 0)
  | .rtz => (n : ℝ) ≤ y ∧ y < n + 1
  | .rup => if neg then (n : ℝ) ≤ y ∧ y < n + 1 else y ≤ n ∧ (n : ℝ) < y + 1
  | .rdn => if neg then y ≤ n ∧ (n : ℝ) < y + 1 else (n : ℝ) ≤ y ∧ y < n + 1

section
variable {rm : Rm} {neg : Bool} {y : ℝ}

theorem roundedAt_roundsUp {n : Nat} {half : Ordering} {inexact : Bool} (h0 : (n : ℝ) ≤ y) (h1 : y < n + 1)
    (hi : inexact = true ↔ (n : ℝ) ≠ y) (hlt : half = .lt ↔ y - n < 1 / 2) (heq : half = .eq ↔ y - n = 1 / 2) :
    RoundedAt rm neg y (if roundsUp rm neg n half inexact then n + 1 else n) := by
  have hup : inexact = true → (n : ℝ) < y := fun h => lt_of_le_of_ne h0 (hi.mp h)
  have hno : inexact = false → (n : ℝ) = y := fun h => by
    by_contra hne
    simp [hi.mpr hne] at h
  cases rm with
  | rtz => exact ⟨h0, h1⟩
  | rup =>
    cases neg <;> cases inexact <;> simp only [roundsUp, RoundedAt, Bool.false_and, Bool.true_and, Bool.not_true,
      Bool.not_false, Bool.false_eq_true, if_false, if_true]
    · exact ⟨(hno rfl).ge, by linarith⟩
    · push_cast
      exact ⟨h1.le, by linarith [hup rfl]⟩
    · exact ⟨h0, h1⟩
    · exact ⟨h0, h1⟩
  | rdn =>
    cases neg <;> cases inexact <;> simp only [roundsUp, RoundedAt, Bool.false_and, Bool.true_and,
      Bool.false_eq_true, if_false, if_true]
    · exact ⟨h0, h1⟩
    · exact ⟨h0, h1⟩
    · exact ⟨(hno rfl).ge, by linarith⟩
    · push_cast
      exact ⟨h1.le, by linarith [hup rfl]⟩
  | rne =>
    cases half with
    | lt =>
      have h := hlt.mp rfl
      have habs : |(n : ℝ) - y| < 1 / 2 := by rw [abs_lt]; constructor <;> linarith
      have hr : roundsUp .rne neg n .lt inexact = false := rfl
      rw [hr, if_neg Bool.false_ne_true]
      exact ⟨habs.le, fun h => absurd h habs.ne⟩
    | gt =>
      have h2 : ¬y - n < 1 / 2 := fun h => nomatch hlt.mpr h
      have h3 : ¬y - n = 1 / 2 := fun h => nomatch heq.mpr h
      have habs : |((n + 1 : Nat) : ℝ) - y| < 1 / 2 := by
        have : 1 / 2 < y - n := lt_of_le_of_ne (not_lt.mp h2) (Ne.symm h3)
        push_cast
        rw [abs_lt]; constructor <;> linarith
      have hr : roundsUp .rne neg n .gt inexact = true := rfl
      rw [if_pos hr]
      exact ⟨habs.le, fun h => absurd h habs.ne⟩
    | eq =>
      have h := heq.mp rfl
      have hr : roundsUp .rne neg n .eq inexact = (n % 2 == 1) := rfl
      rw [hr]
      split
      next ho =>
        have he : |((n + 1 : Nat) : ℝ) - y| = 1 / 2 := by
          push_cast
          rw [abs_of_nonneg (by linarith)]; linarith
        have : n % 2 = 1 := by simpa using ho
        exact ⟨he.le, fun _ => by omega⟩
      next ho =>
        have he : |(n : ℝ) - y| = 1 / 2 := by rw [abs_of_nonpos (by linarith)]; linarith
        have : ¬n % 2 = 1 := by simpa using ho
        exact ⟨he.le, fun _ => by omega⟩

/-- num / den, with `sticky`, reads the real y on the grid of the halves of 2^q: it is y, or lies below it with no point of
the grid between them. -/
structure Reads (y : ℝ) (num den : Nat) (sticky : Bool) (q : Int) : Prop where
  le : (num : ℝ) / den ≤ y
  sticky_iff : sticky = true ↔ (num : ℝ) / den ≠ y
  gap : ∀ j : ℤ, (num : ℝ) / den < j * 2 ^ (q - 1) → y < j * 2 ^ (q - 1)

theorem reads_exact (num den : Nat) (q : Int) : Reads ((num : ℝ) / den) num den false q :=
  ⟨le_rfl, by simp, fun _ h => h⟩

theorem Reads.mono {num den : Nat} {sticky : Bool} {q q' : Int} (h : Reads y num den sticky q) (hq : q ≤ q') :
    Reads y num den sticky q' := by
  refine ⟨h.le, h.sticky_iff, fun j hj => ?_⟩
  have hz : (j : ℝ) * 2 ^ (q' - 1) = ((j * 2 ^ (q' - q).toNat : ℤ) : ℝ) * 2 ^ (q - 1) := by
    push_cast
    rw [← zpow_natCast, mul_assoc, ← zpow_add₀ (by norm_num)]
    congr 2
    omega
  rw [hz] at hj ⊢
  exact h.gap _ hj

/-- The quotient of natural numbers that the rounding to a multiple of 2^q divides. -/
theorem scaled_div (num den : Nat) (q : Int) :
    ((if q ≥ 0 then num else num * 2 ^ (-q).toNat : Nat) : ℝ) / (if q ≥ 0 then den * 2 ^ q.toNat else den : Nat) =
      (num : ℝ) / den / 2 ^ q := by
  split
  next h =>
    obtain ⟨k, rfl⟩ := Int.eq_ofNat_of_zero_le h
    simp [div_div]
  next h =>
    obtain ⟨k, hk⟩ := Int.eq_ofNat_of_zero_le (a := -q) (by omega)
    obtain rfl : q = -(k : Int) := by omega
    simp [div_mul_eq_mul_div]

/-- The rounding of the model is that of the real read. -/
theorem roundAt_spec {num den : Nat} {sticky : Bool} {q : Int} (hden : 0 < den) (h : Reads y num den sticky q) :
    RoundedAt rm neg (y / 2 ^ q) (roundAt rm neg num den sticky q).1 ∧
      ((roundAt rm neg num den sticky q).2 = true ↔ ∀ n : Nat, (n : ℝ) ≠ y / 2 ^ q) := by
  have hz := scaled_div num den q
  have hq : (0 : ℝ) < 2 ^ q := by positivity
  have hd : 0 < (if q ≥ 0 then den * 2 ^ q.toNat else den) := by split <;> positivity
  have hle : (num : ℝ) / den / 2 ^ q ≤ y / 2 ^ q := by gcongr; exact h.le
  have hst : sticky = true ↔ (num : ℝ) / den / 2 ^ q ≠ y / 2 ^ q := by
    rw [h.sticky_iff, Ne, Ne, div_left_inj' hq.ne']
  have hgap : ∀ j : ℤ, (num : ℝ) / den / 2 ^ q < j / 2 → y / 2 ^ q < j / 2 := by
    intro j hj
    have hj2 : (j : ℝ) / 2 * 2 ^ q = j * 2 ^ (q - 1) := by rw [zpow_sub_one₀ (by norm_num)]; ring
    rw [div_lt_iff₀ hq, hj2] at hj ⊢
    exact h.gap j hj
  simp only [roundAt]
  generalize (if q ≥ 0 then num else num * 2 ^ (-q).toNat) = a at *
  generalize (if q ≥ 0 then den * 2 ^ q.toNat else den) = d at *
  rw [← hz] at hle hst hgap
  generalize y / 2 ^ q = Y at *
  have hd0 : (0 : ℝ) < d := by exact_mod_cast hd
  have hrlt : (a % d : Nat) < d := Nat.mod_lt _ hd
  have hsplit : (a : ℝ) / d = (a / d : Nat) + (a % d : Nat) / (d : ℝ) := by
    rw [eq_comm, ← eq_sub_iff_add_eq', div_sub' hd0.ne', div_left_inj' hd0.ne', eq_sub_iff_add_eq]
    exact_mod_cast Nat.mod_add_div a d
  generalize (a : ℝ) / d = Z at *
  generalize a / d = n at *
  generalize a % d = r at *
  have hr1 : (r : ℝ) / d < 1 := by rw [div_lt_one hd0]; exact_mod_cast hrlt
  have hr0 : (0 : ℝ) ≤ r / d := by positivity
  have h1 : Y < n + 1 := by
    have := hgap (2 * (n + 1)) (by push_cast; linarith)
    push_cast at this
    linarith
  have hin : ((r != 0 || sticky) = true) ↔ (n : ℝ) ≠ Y := by
    by_cases hr : r = 0
    · subst hr
      simp only [Nat.cast_zero, zero_div, add_zero] at hsplit
      rw [← hsplit, ← hst]; simp
    · have : (0 : ℝ) < r / d := by have := Nat.pos_of_ne_zero hr; positivity
      simp only [bne_iff_ne, ne_eq, hr, not_false_eq_true, Bool.or_eq_true, true_or, true_iff]
      intro he; linarith
  have hlt : 2 * r < d ↔ Y - n < 1 / 2 := by
    have hrd : 2 * r < d ↔ (r : ℝ) / d < 1 / 2 := by
      rw [div_lt_div_iff₀ hd0 two_pos, one_mul, mul_comm]
      exact_mod_cast Iff.rfl
    rw [hrd]
    refine ⟨fun hr => ?_, fun hY => by linarith⟩
    have := hgap (2 * n + 1) (by push_cast; linarith)
    push_cast at this
    linarith
  have heq : 2 * r = d → (r : ℝ) / d = 1 / 2 := by
    rintro rfl
    push_cast at hd0 ⊢
    rw [div_eq_div_iff hd0.ne' two_ne_zero]
    ring
  have hst' : sticky = false ↔ Z = Y := by rw [← Bool.not_eq_true, hst, not_not]
  refine ⟨roundedAt_roundsUp (by linarith) h1 hin ?_ ?_, hin.trans ⟨fun hne k hk => hne ?_, fun hall => hall n⟩⟩
  · rw [← hlt]
    split
    next h2 => cases sticky <;> simp [h2]
    next => exact Nat.compare_eq_lt
  · split
    next h2 =>
      have := heq h2
      cases sticky with
      | true =>
        have hne := hst.mp rfl
        simp only [if_true, reduceCtorEq, false_iff]
        exact fun hY => hne (by linarith)
      | false =>
        have hZ := hst'.mp rfl
        simp only [Bool.false_eq_true, if_false, true_iff]
        linarith
    next h2 =>
      rw [Nat.compare_eq_eq]
      refine ⟨fun h => absurd h h2, fun hY => ?_⟩
      have hge : d ≤ 2 * r := not_lt.mp fun hr => (hlt.mp hr).ne hY
      have : (1 : ℝ) / 2 < r / d := by
        rw [div_lt_div_iff₀ two_pos hd0, one_mul, mul_comm]
        exact_mod_cast lt_of_le_of_ne hge (Ne.symm h2)
      linarith
  · have h2 : k < n + 1 := by exact_mod_cast (hk ▸ h1)
    have h3 : n < k + 1 := by
      have : (n : ℝ) < k + 1 := by linarith
      exact_mod_cast this
    rw [show n = k by omega, hk]

end

/-! ### The leading exponent -/

theorem cast_log2 {n : Nat} (h : 0 < n) : (2 : ℝ) ^ (n.log2 : Int) ≤ n ∧ (n : ℝ) < 2 ^ ((n.log2 : Int) + 1) := by
  constructor
  · rw [zpow_natCast]
    exact_mod_cast Nat.log2_self_le h.ne'
  · have := Nat.lt_log2_self (n := n)
    exact_mod_cast this

theorem leadExp_spec {num den : Nat} (hn : 0 < num) (hd : 0 < den) :
    (2 : ℝ) ^ leadExp num den ≤ (num : ℝ) / den ∧ (num : ℝ) / den < 2 ^ (leadExp num den + 1) := by
  have hd0 : (0 : ℝ) < den := by exact_mod_cast hd
  obtain ⟨hn1, hn2⟩ := cast_log2 hn
  obtain ⟨hd1, hd2⟩ := cast_log2 hd
  have hlow : (2 : ℝ) ^ ((num.log2 : Int) - den.log2 - 1) < (num : ℝ) / den := by
    rw [lt_div_iff₀ hd0]
    calc (2 : ℝ) ^ ((num.log2 : Int) - den.log2 - 1) * den
        < 2 ^ ((num.log2 : Int) - den.log2 - 1) * 2 ^ ((den.log2 : Int) + 1) := by gcongr
      _ = 2 ^ (num.log2 : Int) := by rw [← zpow_add₀ two_ne_zero]; congr 1; ring
      _ ≤ num := hn1
  have hhigh : (num : ℝ) / den < 2 ^ ((num.log2 : Int) - den.log2 + 1) := by
    rw [div_lt_iff₀ hd0]
    calc (num : ℝ) < 2 ^ ((num.log2 : Int) + 1) := hn2
      _ = 2 ^ ((num.log2 : Int) - den.log2 + 1) * 2 ^ (den.log2 : Int) := by
        rw [← zpow_add₀ two_ne_zero]; congr 1; ring
      _ ≤ 2 ^ ((num.log2 : Int) - den.log2 + 1) * den := by gcongr
  have hcond : (if (num.log2 : Int) - den.log2 ≥ 0 then num < den * 2 ^ ((num.log2 : Int) - den.log2).toNat
      else num * 2 ^ (-((num.log2 : Int) - den.log2)).toNat < den) ↔
      (num : ℝ) / den < 2 ^ ((num.log2 : Int) - den.log2) := by
    generalize (num.log2 : Int) - den.log2 = e
    rw [div_lt_iff₀ hd0]
    split
    next h =>
      obtain ⟨k, rfl⟩ := Int.eq_ofNat_of_zero_le h
      rw [mul_comm (2 ^ _)]
      exact_mod_cast Iff.rfl
    next h =>
      obtain ⟨k, hk⟩ := Int.eq_ofNat_of_zero_le (a := -e) (by omega)
      obtain rfl : e = -(k : Int) := by omega
      rw [neg_neg, Int.toNat_natCast, zpow_neg, zpow_natCast, inv_mul_eq_div, lt_div_iff₀ (by positivity)]
      exact_mod_cast Iff.rfl
  simp only [leadExp, hcond]
  split
  next h => exact ⟨hlow.le, by rwa [sub_add_cancel]⟩
  next h => exact ⟨not_lt.mp h, hhigh⟩

end Sys2Proof.Machine.Float

/-! An exact magnitude rounded to a format: the number, the flags and the overflow (R123, R126). -/

namespace Sys2Proof.Machine.Float

open Bits Claims

section
variable {f : Fmt} {rm : Rm} {neg : Bool} {y : ℝ}

/-! ### Near and between -/

theorem RoundedAt.near {n : Nat} (h : RoundedAt rm neg y n) : y - 1 < n ∧ (n : ℝ) < y + 1 := by
  cases rm with
  | rne =>
    have := abs_le.mp h.1
    constructor <;> linarith
  | rtz =>
    obtain ⟨h1, h2⟩ := h
    constructor <;> linarith
  | rup => cases neg <;> obtain ⟨h1, h2⟩ := h <;> constructor <;> linarith
  | rdn => cases neg <;> obtain ⟨h1, h2⟩ := h <;> constructor <;> linarith

theorem RoundedAt.le_of_le {n : Nat} (h : RoundedAt rm neg y n) {k : Int} (hk : y ≤ k) : (n : Int) ≤ k := by
  have h1 : ((n : Int) : ℝ) < (k + 1 : Int) := by push_cast; linarith [h.near.2]
  have := Int.cast_lt.mp h1
  omega

theorem RoundedAt.ge_of_ge {n : Nat} (h : RoundedAt rm neg y n) {k : Int} (hk : k ≤ y) : k ≤ (n : Int) := by
  have h1 : ((k - 1 : Int) : ℝ) < (n : Int) := by push_cast; linarith [h.near.1]
  have := Int.cast_lt.mp h1
  omega

/-- What is an integer is rounded to itself. -/
theorem RoundedAt.eq_of_int {n k : Nat} (h : RoundedAt rm neg y n) (hk : (k : ℝ) = y) : n = k := by
  have h1 := h.le_of_le (k := k) (by push_cast; exact hk.ge)
  have h2 := h.ge_of_ge (k := k) (by push_cast; exact hk.le)
  omega

/-! ### The model's rounding, in one equation -/

/-- The exponent of the least bit that a magnitude of leading exponent e keeps. -/
def quantum (f : Fmt) (e : Int) : Int := max e f.emin - f.m

theorem roundMag_eq (hs : f.Sound) {num den : Nat} {st : Bool} (hnum : 0 < num) (hden : 0 < den)
    (hr : Reads y num den st (leadExp num den - f.m)) :
    ∃ (e : Int) (n b : Nat) (inexact tiny : Bool), (2 : ℝ) ^ e ≤ y ∧ y < 2 ^ (e + 1) ∧
      RoundedAt rm neg (y / 2 ^ quantum f e) n ∧ (inexact = true ↔ ∀ k : Nat, (k : ℝ) ≠ y / 2 ^ quantum f e) ∧
      magVal f b = n * 2 ^ quantum f e ∧ (n % 2 = 0 → b % 2 = 0) ∧ (tiny = true → e < f.emin) ∧
      (e + 1 < f.emin → tiny = true) ∧
      roundMag f rm neg num den st = if b > f.maxBits then ⟨signed f neg (overflowBits f rm neg), fOF ||| fNX⟩
        else ⟨signed f neg b, (if inexact then fNX else 0) ||| (if tiny && inexact then fUF else 0)⟩ := by
  obtain ⟨hlow, hhigh⟩ := leadExp_spec hnum hden
  rw [roundMag]
  generalize leadExp num den = e at *
  have hy1 : (2 : ℝ) ^ e ≤ y := hlow.trans hr.le
  have hy2 : y < 2 ^ (e + 1) := by
    have hg := hr.gap (2 ^ (f.m + 2))
    have hz : (((2 : ℤ) ^ (f.m + 2) : ℤ) : ℝ) * 2 ^ (e - f.m - 1) = 2 ^ (e + 1) := by
      push_cast
      rw [← zpow_natCast, ← zpow_add₀ two_ne_zero]
      congr 1
      push_cast
      ring
    rw [hz] at hg
    exact hg hhigh
  have hq : e - f.m ≤ quantum f e := by rw [quantum]; omega
  obtain ⟨hround, hinex⟩ := roundAt_spec (rm := rm) (neg := neg) hden (hr.mono hq)
  rw [quantum] at hround hinex hq
  dsimp only
  generalize (roundAt rm neg num den st (e - f.m)).1 = r'
  generalize roundAt rm neg num den st (max e f.emin - f.m) = p at *
  obtain ⟨n, inexact⟩ := p
  dsimp only at *
  have hp : (0 : ℝ) < 2 ^ (max e f.emin - (f.m : Int)) := by positivity
  have hup : n ≤ 2 ^ (f.m + 1) := by
    have := hround.le_of_le (k := 2 ^ (f.m + 1)) (by
      rw [div_le_iff₀ hp]
      push_cast
      rw [← zpow_natCast, ← zpow_add₀ two_ne_zero]
      exact hy2.le.trans (zpow_le_zpow_right₀ one_le_two (by push_cast; omega)))
    exact_mod_cast this
  have hdown : 2 ^ f.m ≤ n ∨ max e f.emin - f.m = f.emin - f.m := by
    by_cases he : e ≤ f.emin
    · exact .inr (by rw [max_eq_right he])
    · refine .inl ?_
      have := hround.ge_of_ge (k := 2 ^ f.m) (by
        rw [le_div_iff₀ hp]
        push_cast
        rw [← zpow_natCast, ← zpow_add₀ two_ne_zero]
        exact le_trans (zpow_le_zpow_right₀ one_le_two (by omega)) hy1)
      exact_mod_cast this
  have htiny1 (c : Bool) : (decide (e < f.emin) && !(e + 1 == f.emin && c)) = true → e < f.emin := by
    intro h
    exact of_decide_eq_true (Bool.and_eq_true_iff.mp h).1
  have htiny2 (c : Bool) : e + 1 < f.emin → (decide (e < f.emin) && !(e + 1 == f.emin && c)) = true := by
    intro h
    have h1 : (e + 1 == f.emin) = false := by simp; omega
    rw [h1, decide_eq_true (by omega)]
    rfl
  by_cases htop : n = 2 ^ (f.m + 1)
  · rw [if_pos htop]
    refine ⟨e, n, _, inexact, _, hy1, hy2, hround, hinex, ?_, ?_, htiny1 _, htiny2 _, rfl⟩
    · rw [magVal_packMag (Nat.pow_lt_pow_right one_lt_two (by omega)) (by omega) (.inl le_rfl), htop, quantum]
      rw [zpow_add_one₀ two_ne_zero]
      push_cast
      ring
    · intro _
      rw [packMag_mod_two hs.mant]
      obtain ⟨k, hk⟩ : ∃ k, f.m = k + 1 := ⟨f.m - 1, by have := hs.mant; omega⟩
      rw [hk, Nat.pow_succ, Nat.mul_mod_left]
  · rw [if_neg htop]
    refine ⟨e, n, _, inexact, _, hy1, hy2, hround, hinex, ?_, ?_, htiny1 _, htiny2 _, rfl⟩
    · exact magVal_packMag (by omega) (by omega) hdown
    · intro h
      rw [packMag_mod_two hs.mant, h]

/-! ### No other number is nearer -/

/-- Between a number of the format and a magnitude of leading exponent e lies a multiple of the quantum of e. -/
theorem exists_between {e : Int} {V : ℚ} (hV : (∃ b, V = magVal f b) ∨ V ≤ 0) (hy : (2 : ℝ) ^ e ≤ y) :
    ∃ j : ℤ, ((V : ℝ) / 2 ^ quantum f e ≤ j ∧ (j : ℝ) ≤ y / 2 ^ quantum f e) ∨ (V : ℝ) / 2 ^ quantum f e = j := by
  have hp : (0 : ℝ) < 2 ^ quantum f e := by positivity
  have hy0 : 0 < y := lt_of_lt_of_le (by positivity) hy
  rcases hV with ⟨b, rfl⟩ | hV
  · obtain ⟨k, q', hk, hlt, hq'⟩ := magVal_eq (f := f) b
    rw [hk]
    by_cases hle : quantum f e ≤ q'
    · refine ⟨k * 2 ^ (q' - quantum f e).toNat, .inr ?_⟩
      push_cast
      rw [div_eq_iff hp.ne', mul_assoc, ← zpow_natCast, ← zpow_add₀ two_ne_zero]
      congr 2
      omega
    · refine ⟨2 ^ f.m, .inl ?_⟩
      have he : quantum f e = e - f.m := by rw [quantum] at hle ⊢; omega
      rw [he] at hle hp ⊢
      push_cast
      rw [div_le_iff₀ hp, le_div_iff₀ hp, ← zpow_natCast, ← zpow_add₀ two_ne_zero]
      rw [show ((f.m : Nat) : Int) + (e - f.m) = e by ring]
      refine ⟨?_, hy⟩
      calc (k : ℝ) * 2 ^ q' ≤ 2 ^ (f.m + 1) * 2 ^ (e - f.m - 1) := by
            exact mul_le_mul (by exact_mod_cast hlt.le) (zpow_le_zpow_right₀ one_le_two (by omega)) (by positivity)
              (by positivity)
        _ = 2 ^ e := by
            rw [← zpow_natCast, ← zpow_add₀ two_ne_zero]
            congr 1
            push_cast
            ring
  · refine ⟨0, .inl ⟨?_, ?_⟩⟩
    · rw [div_le_iff₀ hp]
      push_cast
      rw [zero_mul]
      exact_mod_cast hV
    · push_cast
      positivity

/-- A number of the format and its opposite are magnitudes or not above 0. -/
theorem magVal_or_nonpos (hs : f.Sound) {u : Nat} (hu : IsNumber f u) :
    ((∃ b, numberOf f u = magVal f b) ∨ numberOf f u ≤ 0) ∧ ((∃ b, -numberOf f u = magVal f b) ∨ -numberOf f u ≤ 0) ∧
      ∃ b, |numberOf f u| = magVal f b := by
  obtain ⟨n, b, hb, rfl⟩ := exists_of_isNumber hs hu
  rw [numberOf_signed hs n hb]
  have h0 := magVal_nonneg (f := f) b
  cases n with
  | false => exact ⟨.inl ⟨b, rfl⟩, .inr (neg_nonpos.mpr h0), b, abs_of_nonneg h0⟩
  | true => exact ⟨.inr (neg_nonpos.mpr h0), .inl ⟨b, neg_neg _⟩, b, by simp [abs_of_nonneg h0]⟩

/-- Of the reals with an integer between them and y none is nearer than the integer that y is rounded to, and none as near
where that is odd. -/
theorem RoundedAt.nearest {n : Nat} (h : RoundedAt .rne neg y n) {v : ℝ} {j : ℤ} (hj : v ≤ j ∧ (j : ℝ) ≤ y ∨ v = j) :
    |(n : ℝ) - y| ≤ |v - y| ∧ (|(n : ℝ) - y| = |v - y| → v ≠ n → n % 2 = 0) := by
  obtain ⟨hle, hev⟩ := h
  have hjv : |(j : ℝ) - y| ≤ |v - y| := by
    rcases hj with ⟨h1, h2⟩ | rfl
    · rw [abs_of_nonpos (by linarith), abs_of_nonpos (by linarith)]; linarith
    · exact le_rfl
  have hfar : j ≠ n → 1 - |(n : ℝ) - y| ≤ |(j : ℝ) - y| := by
    intro hne
    have h1 : (1 : ℝ) ≤ |((j - n : ℤ) : ℝ)| := by
      rw [← Int.cast_abs]
      exact_mod_cast Int.one_le_abs (sub_ne_zero.mpr hne)
    have h2 := abs_sub_le (j : ℝ) y n
    rw [abs_sub_comm y] at h2
    push_cast at h1
    linarith
  constructor
  · by_cases hne : j = n
    · rw [← Int.cast_natCast, ← hne]; exact hjv
    · linarith [hfar hne]
  · intro heq hv
    apply hev
    by_contra hlt
    have hlt : |(n : ℝ) - y| < 1 / 2 := lt_of_le_of_ne hle hlt
    have hjn : j = n := by
      by_contra hne
      linarith [hfar hne]
    subst hjn
    rcases hj with ⟨h1, h2⟩ | rfl
    · push_cast at h1 h2
      rw [abs_of_nonpos (by linarith), abs_of_nonpos (by linarith)] at heq
      exact hv (by linarith)
    · exact hv (by push_cast; rfl)

/-- The integer part bounds every real below y with an integer between. -/
theorem le_of_between {n : Nat} {v : ℝ} (hn : y < n + 1) {j : ℤ} (hj : v ≤ j ∧ (j : ℝ) ≤ y ∨ v = j) (hv : v ≤ y) : v ≤ n := by
  have hjy : v ≤ j ∧ (j : ℝ) ≤ y := hj.elim id fun h => ⟨h.le, h ▸ hv⟩
  have h1 : (j : ℝ) < ((n + 1 : ℤ) : ℝ) := by push_cast; linarith
  have h2 : j ≤ n := by have := Int.cast_lt.mp h1; omega
  have h3 : (j : ℝ) ≤ n := by exact_mod_cast h2
  linarith

theorem ge_of_between {n : Nat} {v : ℝ} (hn : (n : ℝ) < y + 1) {j : ℤ} (hj : v ≤ j ∧ (j : ℝ) ≤ y ∨ v = j) (hv : y ≤ v) :
    (n : ℝ) ≤ v := by
  have hjy : y ≤ j ∧ (j : ℝ) ≤ v := hj.elim (fun h => ⟨hv.trans h.1, h.2.trans hv⟩) fun h => ⟨h ▸ hv, h.ge⟩
  have h1 : ((n : ℤ) : ℝ) < ((j + 1 : ℤ) : ℝ) := by push_cast; linarith
  have h2 : (n : ℤ) ≤ j := by have := Int.cast_lt.mp h1; omega
  have h3 : (n : ℝ) ≤ j := by exact_mod_cast h2
  linarith

/-- The same for a real and its rounding of either sign on a grid of step Q. -/
theorem RoundedAt.nearest_scaled {n : Nat} {Q : ℝ} (hp : 0 < Q) (h : RoundedAt .rne neg y n) {v : ℝ} {j : ℤ}
    (hj : (if neg then -v else v) / Q ≤ j ∧ (j : ℝ) ≤ y ∨ (if neg then -v else v) / Q = j) :
    |(if neg then -((n : ℝ) * Q) else n * Q) - (if neg then -(y * Q) else y * Q)| ≤
        |v - if neg then -(y * Q) else y * Q| ∧
      (|(if neg then -((n : ℝ) * Q) else n * Q) - (if neg then -(y * Q) else y * Q)| =
          |v - if neg then -(y * Q) else y * Q| → v ≠ (if neg then -((n : ℝ) * Q) else n * Q) → n % 2 = 0) := by
  obtain ⟨h1, h2⟩ := h.nearest hj
  have hscale (a : ℝ) : |a * Q| = |a| * Q := by rw [abs_mul, abs_of_pos hp]
  have hw : |(if neg then -((n : ℝ) * Q) else n * Q) - (if neg then -(y * Q) else y * Q)| = |(n : ℝ) - y| * Q := by
    rw [← hscale, sub_mul]
    cases neg
    · rfl
    · rw [if_pos rfl, if_pos rfl, neg_sub_neg, abs_sub_comm]
  have hv : |v - if neg then -(y * Q) else y * Q| = |(if neg then -v else v) / Q - y| * Q := by
    rw [← hscale, sub_mul, div_mul_cancel₀ _ hp.ne']
    cases neg
    · rfl
    · rw [if_pos rfl, if_pos rfl, sub_neg_eq_add, ← neg_add', abs_neg]
  rw [hw, hv, mul_le_mul_iff_left₀ hp, mul_left_inj' hp.ne']
  refine ⟨h1, fun heq hne => h2 heq fun hvn => hne ?_⟩
  rw [div_eq_iff hp.ne'] at hvn
  cases neg
  · exact hvn
  · rw [if_pos rfl] at hvn ⊢
    rw [← hvn, neg_neg]

theorem signed_mod_two (hs : f.Sound) (n : Bool) (b : Nat) : signed f n b % 2 = b % 2 := by
  have h : f.signW = 2 * 2 ^ (f.e + f.m - 1) := by
    rw [Fmt.signW, ← Nat.pow_succ', Nat.succ_eq_add_one, Nat.sub_add_cancel (by have := hs.mant; omega)]
  cases n with
  | false => rfl
  | true => rw [signed, if_pos rfl, h, Nat.mul_add_mod]

/-- A magnitude rounded on the grid of its exponent is rounded to the format. -/
theorem roundsTo_signed (hs : f.Sound) {e : Int} {n b : Nat} (hb : b ≤ f.maxBits) (hy : (2 : ℝ) ^ e ≤ y)
    (hround : RoundedAt rm neg (y / 2 ^ quantum f e) n) (hmag : magVal f b = n * 2 ^ quantum f e)
    (hpar : n % 2 = 0 → b % 2 = 0) : RoundsTo f rm (if neg then -y else y) (signed f neg b) := by
  have hp : (0 : ℝ) < 2 ^ quantum f e := by positivity
  have hy0 : 0 < y := lt_of_lt_of_le (by positivity) hy
  have hbet {V : ℚ} (hV : (∃ b, V = magVal f b) ∨ V ≤ 0) := exists_between hV hy
  have hmagR : ((magVal f b : ℚ) : ℝ) = n * 2 ^ quantum f e := by rw [hmag]; push_cast; rfl
  have hw : (numberOf f (signed f neg b) : ℝ) = if neg then -((n : ℝ) * 2 ^ quantum f e) else (n : ℝ) * 2 ^ quantum f e := by
    rw [numberOf_signed hs neg hb, ← hmagR]
    cases neg <;> simp
  refine ⟨isNumber_signed hs neg hb, ?_⟩
  rw [hw]
  generalize (2 : ℝ) ^ quantum f e = Q at *
  obtain ⟨Y, rfl⟩ : ∃ Y, y = Y * Q := ⟨y / Q, by field_simp⟩
  rw [mul_div_cancel_right₀ _ hp.ne'] at hround
  simp only [mul_div_cancel_right₀ _ hp.ne'] at hbet
  have hY : 0 < Y := pos_of_mul_pos_left hy0 hp.le
  cases rm with
  | rne =>
    intro u hu
    obtain ⟨hpos, hneg, -⟩ := magVal_or_nonpos hs hu
    have hj : ∃ j : ℤ, (if neg then -(numberOf f u : ℝ) else numberOf f u) / Q ≤ j ∧ (j : ℝ) ≤ Y ∨
        (if neg then -(numberOf f u : ℝ) else numberOf f u) / Q = j := by
      cases neg
      · exact hbet hpos
      · simpa using hbet hneg
    obtain ⟨j, hj⟩ := hj
    obtain ⟨h1, h2⟩ := hround.nearest_scaled hp hj
    refine ⟨h1, fun heq hne => signed_mod_two hs neg b ▸ hpar (h2 heq fun h => hne ?_)⟩
    exact Rat.cast_injective (α := ℝ) (hw ▸ h)
  | rtz =>
    obtain ⟨h0, h1⟩ := hround
    have hle : (n : ℝ) * Q ≤ Y * Q := by gcongr
    have hnQ : (0 : ℝ) ≤ n * Q := by positivity
    have hx : |if neg then -(Y * Q) else Y * Q| = Y * Q := by cases neg <;> simp [abs_of_pos, hY, hp]
    have hW : |if neg then -((n : ℝ) * Q) else n * Q| = n * Q := by cases neg <;> simp [abs_of_pos, hp]
    rw [hx, hW]
    refine ⟨hle, ?_, fun u hu hux => ?_⟩
    · cases neg
      · exact mul_nonneg hnQ hy0.le
      · exact mul_nonneg_of_nonpos_of_nonpos (neg_nonpos.mpr hnQ) (neg_nonpos.mpr hy0.le)
    · obtain ⟨-, -, c, hc⟩ := magVal_or_nonpos hs hu
      obtain ⟨j, hj⟩ := hbet (.inl ⟨c, rfl⟩)
      have hcR : |(numberOf f u : ℝ)| = (magVal f c : ℝ) := by rw [← hc, Rat.cast_abs]
      rw [hcR, ← div_le_iff₀ hp] at hux
      have h := le_of_between h1 hj hux
      rw [div_le_iff₀ hp, ← hW, ← hw, ← hcR] at h
      exact_mod_cast h
  | rup =>
    cases neg with
    | false =>
      obtain ⟨h0, h1⟩ := hround
      refine ⟨mul_le_mul_of_nonneg_right h0 hp.le, fun u hu hxu => ?_⟩
      obtain ⟨j, hj⟩ := hbet (magVal_or_nonpos hs hu).1
      have h := ge_of_between h1 hj ((le_div_iff₀ hp).mpr hxu)
      rw [le_div_iff₀ hp] at h
      exact_mod_cast hw.trans_le h
    | true =>
      obtain ⟨h0, h1⟩ := hround
      refine ⟨neg_le_neg (mul_le_mul_of_nonneg_right h0 hp.le), fun u hu hxu => ?_⟩
      obtain ⟨j, hj⟩ := hbet (magVal_or_nonpos hs hu).2.1
      rw [if_pos rfl] at hxu
      have h := le_of_between h1 hj ((div_le_iff₀ hp).mpr (by push_cast; linarith))
      rw [div_le_iff₀ hp] at h
      push_cast at h
      exact_mod_cast hw.trans_le (neg_le.mp h)
  | rdn =>
    cases neg with
    | false =>
      obtain ⟨h0, h1⟩ := hround
      refine ⟨mul_le_mul_of_nonneg_right h0 hp.le, fun u hu hxu => ?_⟩
      obtain ⟨j, hj⟩ := hbet (magVal_or_nonpos hs hu).1
      have h := le_of_between h1 hj ((div_le_iff₀ hp).mpr hxu)
      rw [div_le_iff₀ hp] at h
      exact_mod_cast h.trans_eq hw.symm
    | true =>
      obtain ⟨h0, h1⟩ := hround
      refine ⟨neg_le_neg (mul_le_mul_of_nonneg_right h0 hp.le), fun u hu hxu => ?_⟩
      obtain ⟨j, hj⟩ := hbet (magVal_or_nonpos hs hu).2.1
      rw [if_pos rfl] at hxu
      have h := ge_of_between h1 hj ((le_div_iff₀ hp).mpr (by push_cast; linarith))
      rw [le_div_iff₀ hp] at h
      push_cast at h
      exact_mod_cast (le_neg.mp h).trans_eq hw.symm

/-! ### Range and flags -/

theorem numberOf_maxBits (hs : f.Sound) : numberOf f f.maxBits = magVal f f.maxBits := numberOf_signed hs false le_rfl

theorem two_zpow_emin_le (hs : f.Sound) : (2 : ℚ) ^ f.emin ≤ magVal f f.maxBits := by
  calc (2 : ℚ) ^ f.emin = magVal f (packMag f (2 ^ f.m) (f.emin - f.m)) := by
        rw [magVal_packMag (Nat.pow_lt_pow_right one_lt_two (by omega)) le_rfl (.inl le_rfl)]
        push_cast
        rw [← zpow_natCast, ← zpow_add₀ two_ne_zero]
        congr 1
        ring
    _ ≤ magVal f f.maxBits := by
        refine magVal_strictMono.monotone (le_of_eq_of_le ?_ hs.max_normal)
        simp [packMag, Fmt.emin]

/-- A magnitude up to the largest number is rounded to none beyond it. -/
theorem le_maxBits_of_le {e : Int} {n b : Nat} (hy : (2 : ℝ) ^ e ≤ y)
    (hround : RoundedAt rm neg (y / 2 ^ quantum f e) n) (hmag : magVal f b = n * 2 ^ quantum f e)
    (hle : y ≤ (magVal f f.maxBits : ℝ)) : b ≤ f.maxBits := by
  have hp : (0 : ℝ) < 2 ^ quantum f e := by positivity
  obtain ⟨j, hj⟩ := exists_between (.inl ⟨f.maxBits, rfl⟩) hy
  have hYM := (div_le_div_iff_of_pos_right hp).mpr hle
  have h : (n : ℝ) ≤ (magVal f f.maxBits : ℝ) / 2 ^ quantum f e :=
    ge_of_between hround.near.2 hj hYM
  rw [le_div_iff₀ hp] at h
  rw [← magVal_strictMono.le_iff_le (f := magVal f), hmag, ← Rat.cast_le (K := ℝ)]
  push_cast
  exact h

/-- A magnitude of at least twice the largest number is rounded beyond it. -/
theorem maxBits_lt_of_ge (hs : f.Sound) {e : Int} {n b : Nat} (hy1 : (2 : ℝ) ^ e ≤ y) (hy : y < (2 : ℝ) ^ (e + 1))
    (hround : RoundedAt rm neg (y / 2 ^ quantum f e) n) (hmag : magVal f b = n * 2 ^ quantum f e)
    (hge : 2 * (magVal f f.maxBits : ℝ) ≤ y) : f.maxBits < b := by
  have hp : (0 : ℝ) < 2 ^ quantum f e := by positivity
  have hmin : (2 : ℝ) ^ f.emin ≤ (magVal f f.maxBits : ℝ) := by
    have := (Rat.cast_le (K := ℝ)).mpr (two_zpow_emin_le hs)
    push_cast at this
    exact this
  have hee : f.emin ≤ e := by
    have h : (2 : ℝ) ^ (f.emin + 1) < 2 ^ (e + 1) := by
      rw [zpow_add_one₀ two_ne_zero]
      linarith
    have := (zpow_lt_zpow_iff_right₀ one_lt_two).mp h
    omega
  have hq : quantum f e + f.m = e := by rw [quantum, max_eq_left hee]; ring
  have hY : 2 ≤ y / 2 ^ quantum f e := by
    rw [le_div_iff₀ hp]
    calc (2 : ℝ) * 2 ^ quantum f e = 2 ^ (quantum f e + 1) := by rw [zpow_add_one₀ two_ne_zero, mul_comm]
      _ ≤ 2 ^ e := zpow_le_zpow_right₀ one_le_two (by have := hs.mant; omega)
      _ ≤ y := hy1
  have hM : 2 * ((magVal f f.maxBits : ℝ) / 2 ^ quantum f e) ≤ y / 2 ^ quantum f e := by
    rw [← mul_div_assoc]
    exact (div_le_div_iff_of_pos_right hp).mpr hge
  have h : (magVal f f.maxBits : ℝ) / 2 ^ quantum f e < n := by linarith [hround.near.1]
  rw [div_lt_iff₀ hp] at h
  rw [← magVal_strictMono.lt_iff_lt (f := magVal f), hmag, ← Rat.cast_lt (K := ℝ)]
  push_cast
  exact h

/-- R126: the flags of a result within the format's range. -/
theorem range_flags : ∀ inexact tiny : Bool,
    let fl := (if inexact then fNX else 0) ||| (if tiny && inexact then fUF else 0)
    (fl &&& fNX ≠ 0 ↔ inexact = true) ∧ fl &&& (fNV ||| fDZ ||| fOF) = 0 ∧
      (fl &&& fUF ≠ 0 ↔ inexact = true ∧ tiny = true) := by decide

/-- A magnitude of at most half the least normal number that is off the grid lies two binades below it. -/
theorem exponent_lt_of_inexact (hs : f.Sound) {e : Int} (hy1 : (2 : ℝ) ^ e ≤ y) (hle : 2 * y ≤ 2 ^ f.emin)
    (hinex : ∀ k : Nat, (k : ℝ) ≠ y / 2 ^ quantum f e) : e + 1 < f.emin := by
  by_contra hge
  have h1 : (2 : ℝ) ^ (e + 1) ≤ 2 ^ f.emin := by
    rw [zpow_add_one₀ two_ne_zero]
    linarith
  have h2 := (zpow_le_zpow_iff_right₀ one_lt_two).mp h1
  have he : e + 1 = f.emin := by omega
  rw [← he, zpow_add_one₀ two_ne_zero] at hle
  have hy : y = 2 ^ e := by linarith
  refine hinex (2 ^ (f.m - 1)) ?_
  rw [hy, quantum, max_eq_right (by omega), ← he, eq_div_iff (by positivity)]
  push_cast
  rw [← zpow_natCast, ← zpow_add₀ two_ne_zero]
  congr 1
  have := hs.mant
  omega

/-- R123, R126: the rounding of a magnitude by the model is that of the exact number. -/
theorem rounded_roundMag (hs : f.Sound) {num den : Nat} {st : Bool} (hnum : 0 < num) (hden : 0 < den)
    (hr : Reads y num den st (leadExp num den - f.m)) :
    Rounded f rm (if neg then -y else y) (roundMag f rm neg num den st) := by
  obtain ⟨e, n, b, inexact, tiny, hy1, hy2, hround, hinex, hmag, hpar, htiny1, htiny2, heq⟩ :=
    roundMag_eq (rm := rm) (neg := neg) hs hnum hden hr
  have hy0 : 0 < y := lt_of_lt_of_le (by positivity) hy1
  have habs : |if neg then -y else y| = y := by cases neg <;> simp [abs_of_pos hy0]
  rw [Rounded, habs, heq, numberOf_maxBits hs]
  constructor
  · intro hle
    have hb := le_maxBits_of_le hy1 hround hmag hle
    have hp : (0 : ℝ) < 2 ^ quantum f e := by positivity
    have hne : (numberOf f (signed f neg b) : ℝ) ≠ (if neg then -y else y) ↔ inexact = true := by
      have hmagR : ((magVal f b : ℚ) : ℝ) = n * 2 ^ quantum f e := by rw [hmag]; push_cast; rfl
      have hiff : (numberOf f (signed f neg b) : ℝ) = (if neg then -y else y) ↔ (n : ℝ) = y / 2 ^ quantum f e := by
        rw [numberOf_signed hs neg hb, eq_div_iff hp.ne', ← hmagR]
        cases neg <;> simp
      rw [hinex, Ne, hiff]
      exact ⟨fun h k hk => h (hround.eq_of_int hk ▸ hk), fun h => h n⟩
    obtain ⟨hnx, hrest, huf_iff⟩ := range_flags inexact tiny
    rw [if_neg (not_lt.mpr hb), hne]
    refine ⟨roundsTo_signed hs hb hy1 hround hmag hpar, ?_, ?_, ?_, ?_⟩
    · exact hnx
    · exact hrest
    · intro huf
      obtain ⟨hi, ht⟩ := huf_iff.mp huf
      exact ⟨hi, hy2.trans_le (zpow_le_zpow_right₀ one_le_two (by have := htiny1 ht; omega))⟩
    · intro hsmall hi
      exact huf_iff.mpr ⟨hi, htiny2 (exponent_lt_of_inexact hs hy1 hsmall (hinex.mp hi))⟩
  · intro neg' hneg hge
    have hb := maxBits_lt_of_ge hs hy1 hy2 hround hmag hge
    have hnn : neg' = neg := by
      rw [Bool.eq_iff_iff, hneg]
      cases neg
      · simpa using hy0.le
      · simpa using hy0
    rw [if_pos hb, hnn]

end

end Sys2Proof.Machine.Float

/-! What the float operations give on numbers: the exact value rounded (R123, R126, R132, R133, R442, R443). -/

namespace Sys2Proof.Machine.Float

open Bits Claims

section
variable {f : Fmt} {rm : Rm}

/-! ### Exact values rounded -/

theorem numberOf_signed_zero (hs : f.Sound) (n : Bool) : numberOf f (signed f n 0) = 0 := by
  rw [numberOf_signed hs n (Nat.zero_le _), magVal_zero]
  cases n <;> simp

/-- An exact zero of either sign. -/
theorem rounded_zero (hs : f.Sound) (n : Bool) : Rounded f rm 0 ⟨signed f n 0, 0⟩ := by
  have h0 : (numberOf f (signed f n 0) : ℝ) = 0 := by rw [numberOf_signed_zero hs]; simp
  have hmax : (0 : ℝ) < numberOf f f.maxBits := by
    have h := lt_of_lt_of_le (show (0 : ℚ) < 2 ^ f.emin by positivity) (two_zpow_emin_le hs)
    rw [numberOf_maxBits hs]
    exact_mod_cast h
  refine ⟨fun _ => ⟨⟨isNumber_signed hs n (Nat.zero_le _), ?_⟩, by simp [h0], by simp, by simp, by simp [h0]⟩,
    fun neg hneg hge => ?_⟩
  · rw [h0]
    cases rm with
    | rne =>
      intro u hu
      refine ⟨by simp, fun h hne => absurd ?_ hne⟩
      rw [sub_zero, sub_zero, abs_zero, eq_comm, abs_eq_zero] at h
      rw [numberOf_signed_zero hs]
      exact_mod_cast h
    | rtz =>
      refine ⟨by simp, by simp, fun u hu h => ?_⟩
      rw [numberOf_signed_zero hs]
      rw [abs_zero] at h
      exact_mod_cast h.trans_eq abs_zero.symm
    | rup =>
      refine ⟨le_rfl, fun u hu h => ?_⟩
      rw [numberOf_signed_zero hs]
      exact_mod_cast h
    | rdn =>
      refine ⟨le_rfl, fun u hu h => ?_⟩
      rw [numberOf_signed_zero hs]
      exact_mod_cast h
  · rw [abs_zero] at hge
    linarith

theorem rounded_roundMag_exact (hs : f.Sound) (neg : Bool) {num den : Nat} (hnum : 0 < num) (hden : 0 < den) :
    Rounded f rm (if neg then -((num : ℝ) / den) else (num : ℝ) / den) (roundMag f rm neg num den false) :=
  rounded_roundMag hs hnum hden (reads_exact ..)

theorem rounded_roundQuo (hs : f.Sound) (z : Bool) (num : Int) {den : Nat} (hden : 0 < den) :
    Rounded f rm ((num : ℝ) / den) (roundQuo f rm z num den) := by
  rw [roundQuo]
  split
  next h =>
    subst h
    simpa using rounded_zero hs z
  next h =>
    have hx : (num : ℝ) / den = if decide (num < 0) then -((num.natAbs : ℝ) / den) else (num.natAbs : ℝ) / den := by
      rw [Nat.cast_natAbs]
      by_cases hn : num < 0
      · simp [hn, abs_of_neg hn, neg_div]
      · simp [hn, abs_of_nonneg (not_lt.mp hn)]
    rw [hx]
    exact rounded_roundMag_exact hs _ (Int.natAbs_pos.mpr h) hden

/-- An exact dyad is rounded to the format as its value is. -/
theorem rounded_roundDyad (hs : f.Sound) (z : Bool) (d : Dyad) : Rounded f rm (d.val : ℝ) (roundDyad f rm z d) := by
  rw [d.val_eq_div]
  push_cast
  exact rounded_roundQuo hs z d.num d.den_pos

/-! ### Numbers as operands -/

theorem rd_of_keep (f : Fmt) (rm : Rm) (w : Nat) : Env.rd ⟨f, rm, false⟩ w = w := by simp [Env.rd]

theorem wr_of_keep (f : Fmt) (rm : Rm) (r : Res) : Env.wr ⟨f, rm, false⟩ r = r := by simp [Env.wr]

theorem nanOf_of_numbers {ws : List Nat} (h : ∀ w ∈ ws, IsNumber f w) : nanOf f ws = none := by
  rw [nanOf, Option.map_eq_none_iff, List.find?_eq_none]
  intro w hw
  obtain ⟨-, n, m, e, hu⟩ := h w hw
  simp [hu, Val.isNan]

/-- The number of a finite value, as a quotient of its dyad. -/
theorem cast_numberOf (f : Fmt) (w : Nat) : (numberOf f w : ℝ) = ((unpack f w).dyad.val : ℝ) := by
  rw [numberOf, valueOf_eq]

theorem flip_signed (n : Bool) {b : Nat} (hb : b < f.signW) : flip f (signed f n b) = signed f (!n) b := by
  obtain ⟨hsign, -, -⟩ := fields_signed n hb
  rw [flip, hsign]
  cases n <;> simp [signed, Nat.add_comm]

theorem numberOf_flip (hs : f.Sound) {w : Nat} (hw : IsNumber f w) :
    IsNumber f (flip f w) ∧ numberOf f (flip f w) = -numberOf f w := by
  obtain ⟨n, b, hb, rfl⟩ := exists_of_isNumber hs hw
  rw [flip_signed n (hb.trans_lt hs.max_lt), numberOf_signed hs _ hb, numberOf_signed hs _ hb]
  refine ⟨isNumber_signed hs _ hb, ?_⟩
  cases n <;> simp

/-! ### Sums, differences, products -/

variable {a b c : Nat}

theorem fadd_numbers (ha : IsNumber f a) (hb : IsNumber f b) :
    fadd ⟨f, rm, false⟩ a b = roundDyad f rm (zeroSign rm (unpack f a).neg (unpack f b).neg)
      ((unpack f a).dyad.add (unpack f b).dyad) := by
  simp only [fadd, rd_of_keep, wr_of_keep, nanOf_of_numbers (f := f) (ws := [a, b]) (by simp [ha, hb])]
  obtain ⟨-, n, m, e, hu⟩ := ha
  obtain ⟨-, n', m', e', hu'⟩ := hb
  rw [hu, hu']
  rfl

theorem rounded_fadd (hs : f.Sound) (ha : IsNumber f a) (hb : IsNumber f b) :
    Rounded f rm ((numberOf f a : ℝ) + numberOf f b) (fadd ⟨f, rm, false⟩ a b) := by
  rw [fadd_numbers ha hb, cast_numberOf, cast_numberOf, ← Rat.cast_add, ← Dyad.val_add]
  exact rounded_roundDyad hs _ _

theorem fsub_numbers (hs : f.Sound) (ha : IsNumber f a) (hb : IsNumber f b) :
    fsub ⟨f, rm, false⟩ a b = fadd ⟨f, rm, false⟩ a (flip f b) := by
  have hb' := (numberOf_flip hs hb).1
  simp only [fsub, fadd, rd_of_keep, wr_of_keep, nanOf_of_numbers (f := f) (ws := [a, b]) (by simp [ha, hb]),
    nanOf_of_numbers (f := f) (ws := [a, flip f b]) (by simp [ha, hb'])]

theorem rounded_fsub (hs : f.Sound) (ha : IsNumber f a) (hb : IsNumber f b) :
    Rounded f rm ((numberOf f a : ℝ) - numberOf f b) (fsub ⟨f, rm, false⟩ a b) := by
  obtain ⟨hb', hn⟩ := numberOf_flip hs hb
  have h := rounded_fadd (rm := rm) hs ha hb'
  rw [hn] at h
  rw [fsub_numbers hs ha hb, sub_eq_add_neg]
  exact_mod_cast h

theorem rounded_fmul (hs : f.Sound) (ha : IsNumber f a) (hb : IsNumber f b) :
    Rounded f rm ((numberOf f a : ℝ) * numberOf f b) (fmul ⟨f, rm, false⟩ a b) := by
  have h := rounded_roundDyad (rm := rm) hs ((unpack f a).neg != (unpack f b).neg)
    ((unpack f a).dyad.mul (unpack f b).dyad)
  rw [Dyad.val_mul, Rat.cast_mul, ← cast_numberOf, ← cast_numberOf] at h
  simp only [fmul, rd_of_keep, wr_of_keep, nanOf_of_numbers (f := f) (ws := [a, b]) (by simp [ha, hb])]
  obtain ⟨-, n, m, e, hu⟩ := ha
  obtain ⟨-, n', m', e', hu'⟩ := hb
  rw [hu, hu'] at h ⊢
  exact h

theorem rounded_ffma (hs : f.Sound) (ha : IsNumber f a) (hb : IsNumber f b) (hc : IsNumber f c) :
    Rounded f rm ((numberOf f a : ℝ) * numberOf f b + numberOf f c) (ffma ⟨f, rm, false⟩ false a b c) ∧
      Rounded f rm ((numberOf f c : ℝ) - numberOf f a * numberOf f b) (ffma ⟨f, rm, false⟩ true a b c) := by
  have h (z : Bool) := rounded_roundDyad (rm := rm) hs z
    (((unpack f a).dyad.mul (unpack f b).dyad).add (unpack f c).dyad)
  have h' (z : Bool) := rounded_roundDyad (rm := rm) hs z
    (((unpack f a).dyad.mul (unpack f b).dyad).negate.add (unpack f c).dyad)
  simp only [Dyad.val_add, Dyad.val_negate, Dyad.val_mul, Rat.cast_add, Rat.cast_neg, Rat.cast_mul, ← cast_numberOf] at h h'
  simp only [neg_add_eq_sub] at h'
  simp only [ffma, rd_of_keep, wr_of_keep, nanOf_of_numbers (f := f) (ws := [a, b, c]) (by simp [ha, hb, hc])]
  obtain ⟨-, n, m, e, hu⟩ := ha
  obtain ⟨-, n', m', e', hu'⟩ := hb
  obtain ⟨-, k, l, i, hw⟩ := hc
  rw [hu, hu', hw] at h h' ⊢
  exact ⟨h _, h' _⟩

/-! ### Quotients -/

theorem Dyad.num_eq_zero_iff (d : Dyad) : d.num = 0 ↔ d.val = 0 := by
  have := d.den_pos
  rw [d.val_eq_div, div_eq_zero_iff]
  simp [this.ne']

/-- The sign of a finite value that is not zero is that of its number. -/
theorem Dyad.num_neg_iff (d : Dyad) : d.num < 0 ↔ d.val < 0 := by
  have : (0 : ℚ) < d.den := by exact_mod_cast d.den_pos
  rw [d.val_eq_div, div_neg_iff]
  simp [this, this.le]

theorem abs_val (d : Dyad) : |d.val| = (d.num.natAbs : ℚ) / d.den := by
  rw [d.val_eq_div, abs_div, Nat.cast_natAbs, Nat.abs_cast, Int.cast_abs]

/-- A finite value is of its sign and of its magnitude. -/
theorem val_eq_signed (n : Bool) (m : Nat) (e : Int) :
    (Val.fin n m e).dyad.val = if n then -|(Val.fin n m e).dyad.val| else |(Val.fin n m e).dyad.val| := by
  have h : (0 : ℚ) ≤ m * 2 ^ e := by positivity
  cases n <;> simp [Val.dyad, Dyad.val, abs_of_nonneg h]

/-- R125: a number by a number other than zero. -/
theorem rounded_quoVal (hs : f.Sound) {n n' : Bool} {m m' : Nat} {e e' : Int} (hy : (Val.fin n' m' e').dyad.val ≠ 0) :
    Rounded f rm (((Val.fin n m e).dyad.val : ℝ) / ((Val.fin n' m' e').dyad.val : ℝ))
      (quoVal f rm (.fin n m e) (.fin n' m' e')) := by
  have hx := val_eq_signed n m e
  have hy' := val_eq_signed n' m' e'
  rw [quoVal]
  simp only [Val.neg]
  generalize (Val.fin n m e).dyad = x at *
  generalize (Val.fin n' m' e').dyad = y at *
  have hyn : 0 < y.num.natAbs := Int.natAbs_pos.mpr fun h => hy (y.num_eq_zero_iff.mp h)
  have hden : 0 < x.den * y.num.natAbs := Nat.mul_pos x.den_pos hyn
  split
  next h =>
    have hx0 : x.num.natAbs = 0 := (Nat.mul_eq_zero.mp h).resolve_right y.den_pos.ne'
    rw [Int.natAbs_eq_zero, Dyad.num_eq_zero_iff] at hx0
    rw [hx0, Rat.cast_zero, zero_div]
    exact rounded_zero hs _
  next h =>
    have hq : |x.val| / |y.val| = ((x.num.natAbs * y.den : Nat) : ℚ) / (x.den * y.num.natAbs : Nat) := by
      rw [abs_val, abs_val, div_div_div_eq]
      push_cast
      rfl
    have hv : x.val / y.val = if n != n' then -(((x.num.natAbs * y.den : Nat) : ℚ) / (x.den * y.num.natAbs : Nat))
        else ((x.num.natAbs * y.den : Nat) : ℚ) / (x.den * y.num.natAbs : Nat) := by
      rw [← hq, hx, hy']
      cases n <;> cases n' <;> simp [neg_div, div_neg]
    have h := rounded_roundMag_exact (f := f) (rm := rm) hs (n != n') (Nat.pos_of_ne_zero h) hden
    rw [← Rat.cast_div, hv]
    convert h using 1
    cases n <;> cases n' <;> simp

theorem isZero_iff_val (n : Bool) (m : Nat) (e : Int) : (Val.fin n m e).isZero = true ↔ (Val.fin n m e).dyad.val = 0 := by
  rw [Dyad.val_eq_zero_iff]
  cases n <;> simp [Val.isZero, Val.dyad]

theorem rounded_fdiv (hs : f.Sound) (ha : IsNumber f a) (hb : IsNumber f b) (hy : numberOf f b ≠ 0) :
    Rounded f rm ((numberOf f a : ℝ) / numberOf f b) (fdiv ⟨f, rm, false⟩ a b) := by
  simp only [fdiv, rd_of_keep, wr_of_keep, nanOf_of_numbers (f := f) (ws := [a, b]) (by simp [ha, hb])]
  rw [numberOf, valueOf_eq] at hy
  rw [cast_numberOf, cast_numberOf]
  obtain ⟨-, n, m, e, hu⟩ := ha
  obtain ⟨-, n', m', e', hu'⟩ := hb
  rw [hu'] at hy
  rw [hu, hu']
  have hz : (Val.fin n' m' e').isZero = false := by
    rw [← Bool.not_eq_true, isZero_iff_val]
    exact hy
  simp only [hz, Bool.false_eq_true, if_false]
  exact rounded_quoVal hs hy

/-- R126: a number by zero. -/
theorem fdiv_by_zero (ha : IsNumber f a) (hb : IsNumber f b) (hx : numberOf f a ≠ 0) (hy : numberOf f b = 0) :
    fdiv ⟨f, rm, false⟩ a b = ⟨signed f ((unpack f a).neg != (unpack f b).neg) f.infBits, fDZ⟩ := by
  simp only [fdiv, rd_of_keep, wr_of_keep, nanOf_of_numbers (f := f) (ws := [a, b]) (by simp [ha, hb])]
  rw [numberOf, valueOf_eq] at hx hy
  obtain ⟨-, n, m, e, hu⟩ := ha
  obtain ⟨-, n', m', e', hu'⟩ := hb
  rw [hu'] at hy
  rw [hu] at hx
  rw [hu, hu']
  have hz : (Val.fin n' m' e').isZero = true := (isZero_iff_val ..).mpr hy
  have hxz : (Val.fin n m e).isZero = false := by
    rw [← Bool.not_eq_true, isZero_iff_val]
    exact hx
  simp only [hz, hxz, Bool.false_eq_true, if_false, if_true]

theorem one_number : ∀ f ∈ vecFormats, IsNumber f (f.bias * 2 ^ f.m) ∧ numberOf f (f.bias * 2 ^ f.m) = 1 := by
  intro f hf
  have hu : f.bias * 2 ^ f.m < 2 ^ f.bits ∧ unpack f (f.bias * 2 ^ f.m) = .fin false (2 ^ f.m) (-f.m) := by
    revert f
    decide
  refine ⟨⟨hu.1, _, _, _, hu.2⟩, ?_⟩
  rw [numberOf, hu.2, valueOf, zpow_neg]
  simp

theorem rounded_frcp (hs : f.Sound) (hf : f ∈ vecFormats) (ha : IsNumber f a) (hx : numberOf f a ≠ 0) :
    Rounded f rm (1 / (numberOf f a : ℝ)) (frcp ⟨f, rm, false⟩ a) := by
  obtain ⟨h1, hv⟩ := one_number f hf
  have h := rounded_fdiv (rm := rm) hs h1 ha hx
  rw [hv, Rat.cast_one] at h
  exact h

/-! ### Minimum, maximum, sign -/

theorem orderOf_numbers {x y : Val} (hx : ∃ n m e, x = .fin n m e) (hy : ∃ n m e, y = .fin n m e)
    (h : Claims.orderOf x ≤ Claims.orderOf y) : valueOf x ≤ valueOf y := by
  obtain ⟨n, m, e, rfl⟩ := hx
  obtain ⟨n', m', e', rfl⟩ := hy
  exact WithTop.coe_le_coe.mp (WithBot.coe_le_coe.mp h)

theorem numberOf_fminmax (ha : IsNumber f a) (hb : IsNumber f b) :
    numberOf f (fminmax ⟨f, rm, false⟩ false a b).w = min (numberOf f a) (numberOf f b) ∧
      numberOf f (fminmax ⟨f, rm, false⟩ true a b).w = max (numberOf f a) (numberOf f b) := by
  have hna : (unpack f a).isNan = false := by obtain ⟨-, n, m, e, hu⟩ := ha; rw [hu]; rfl
  have hnb : (unpack f b).isNan = false := by obtain ⟨-, n, m, e, hu⟩ := hb; rw [hu]; rfl
  have hab := orderOf_numbers ha.2 hb.2
  have hba := orderOf_numbers hb.2 ha.2
  simp only [fminmax, rd_of_keep, hna, hnb, Bool.and_self, Bool.false_eq_true, if_false, if_true]
  constructor
  · cases h : below true (unpack f b) (unpack f a) with
    | true => exact (min_eq_right (hba (orderOf_le_of_below hnb hna h))).symm
    | false => exact (min_eq_left (hab (orderOf_le_of_not_below hnb hna h))).symm
  · cases h : below true (unpack f a) (unpack f b) with
    | true => exact (max_eq_right (hab (orderOf_le_of_below hna hnb h))).symm
    | false => exact (max_eq_left (hba (orderOf_le_of_not_below hna hnb h))).symm

theorem numberOf_fabs (hs : f.Sound) (ha : IsNumber f a) : numberOf f (fabs ⟨f, rm, false⟩ a).w = |numberOf f a| := by
  obtain ⟨n, b, hb, rfl⟩ := exists_of_isNumber hs ha
  have hlt := hb.trans_lt hs.max_lt
  have hmod : signed f n b % f.signW = b := by
    cases n <;> simp [signed, Nat.mod_eq_of_lt hlt]
  have h := numberOf_signed hs false hb
  rw [fabs, rd_of_keep, hmod, numberOf_signed hs n hb]
  rw [show signed f false b = b from rfl] at h
  rw [h]
  cases n <;> simp [abs_of_nonneg (magVal_nonneg b)]

theorem numberOf_fneg (hs : f.Sound) (ha : IsNumber f a) : numberOf f (fneg ⟨f, rm, false⟩ a).w = -numberOf f a := by
  rw [fneg, rd_of_keep]
  exact (numberOf_flip hs ha).2

end

end Sys2Proof.Machine.Float

/-! Roots and reciprocal roots on a grid finer than the format's (R123, R442). -/

namespace Sys2Proof.Machine.Float

open Bits Claims

/-! ### The integer square root -/

theorem isqrtGo_spec (n : Nat) : ∀ k r, r * r ≤ n → n < (r + 2 ^ k) * (r + 2 ^ k) →
    isqrtGo n k r * isqrtGo n k r ≤ n ∧ n < (isqrtGo n k r + 1) * (isqrtGo n k r + 1) := by
  intro k
  induction k with
  | zero => exact fun r h1 h2 => ⟨h1, h2⟩
  | succ k ih =>
    intro r h1 h2
    rw [isqrtGo]
    rw [Nat.pow_succ, Nat.mul_two, ← Nat.add_assoc] at h2
    split
    next h => exact ih _ h h2
    next h => exact ih _ h1 (not_le.mp h)

theorem isqrt_spec (n : Nat) : isqrt n * isqrt n ≤ n ∧ n < (isqrt n + 1) * (isqrt n + 1) := by
  refine isqrtGo_spec n _ 0 (Nat.zero_le _) ?_
  rw [Nat.zero_add, ← Nat.pow_add]
  exact Nat.lt_log2_self.trans_le (Nat.pow_le_pow_right two_pos (by omega))

/-! ### The grid -/

section
variable {num den k : Nat}

/-- The integer root of a quotient on the grid of 2^-k is the integer part of the real one. -/
theorem isqrt_grid (hden : 0 < den) :
    ((isqrt (num * 2 ^ (2 * k) / den) : ℝ) ≤ Real.sqrt ((num : ℝ) / den) * 2 ^ k ∧
      Real.sqrt ((num : ℝ) / den) * 2 ^ k < isqrt (num * 2 ^ (2 * k) / den) + 1) ∧
      ((isqrt (num * 2 ^ (2 * k) / den) * isqrt (num * 2 ^ (2 * k) / den) * den != num * 2 ^ (2 * k)) = true ↔
        (isqrt (num * 2 ^ (2 * k) / den) : ℝ) ≠ Real.sqrt ((num : ℝ) / den) * 2 ^ k) := by
  obtain ⟨h1, h2⟩ := isqrt_spec (num * 2 ^ (2 * k) / den)
  generalize isqrt (num * 2 ^ (2 * k) / den) = r at *
  rw [Nat.le_div_iff_mul_le hden] at h1
  rw [Nat.div_lt_iff_lt_mul hden] at h2
  have hd : (0 : ℝ) < den := by exact_mod_cast hden
  have hroot : Real.sqrt ((num : ℝ) / den) * 2 ^ k = Real.sqrt ((num : ℝ) * 2 ^ (2 * k) / den) := by
    rw [mul_div_right_comm, Real.sqrt_mul (by positivity), pow_mul', Real.sqrt_sq (by positivity)]
  rw [hroot]
  refine ⟨⟨Real.le_sqrt_of_sq_le ?_, (Real.sqrt_lt' (by positivity)).mpr ?_⟩, ?_⟩
  · rw [le_div_iff₀ hd, sq]
    exact_mod_cast h1
  · rw [div_lt_iff₀ hd, sq]
    exact_mod_cast h2
  · rw [bne_iff_ne, not_iff_not, eq_comm (a := (r : ℝ)), Real.sqrt_eq_iff_mul_self_eq (by positivity) (by positivity),
      div_eq_iff hd.ne', eq_comm]
    exact_mod_cast Iff.rfl

/-- A root of a quotient not below 2^-l, rounded from its grid. -/
theorem rounded_root {f : Fmt} {rm : Rm} (hs : f.Sound) (hden : 0 < den) {l : Nat} (hl : l + f.m + 1 ≤ k)
    (hge : (den : ℝ) ≤ num * 2 ^ l) :
    Rounded f rm (Real.sqrt ((num : ℝ) / den)) (roundMag f rm false (isqrt (num * 2 ^ (2 * k) / den)) (2 ^ k)
      (isqrt (num * 2 ^ (2 * k) / den) * isqrt (num * 2 ^ (2 * k) / den) * den != num * 2 ^ (2 * k))) := by
  obtain ⟨⟨hle, hlt⟩, hst⟩ := isqrt_grid (num := num) (k := k) hden
  generalize isqrt (num * 2 ^ (2 * k) / den) = r at *
  generalize (r * r * den != num * 2 ^ (2 * k)) = st at *
  have hd : (0 : ℝ) < den := by exact_mod_cast hden
  have hk : (0 : ℝ) < 2 ^ k := by positivity
  have hroot : ((2 : ℝ) ^ l)⁻¹ ≤ Real.sqrt ((num : ℝ) / den) := by
    refine Real.le_sqrt_of_sq_le ?_
    rw [le_div_iff₀ hd, inv_pow, inv_mul_le_iff₀ (by positivity), sq]
    have h1 : (1 : ℝ) ≤ 2 ^ l := one_le_pow₀ one_le_two
    have h2 : (0 : ℝ) ≤ num * 2 ^ l := by positivity
    nlinarith
  have hr : 2 ^ (k - l) ≤ r := by
    have h : ((2 ^ (k - l) : Nat) : ℝ) < (r + 1 : Nat) := by
      push_cast
      refine lt_of_le_of_lt ?_ hlt
      rw [pow_sub₀ _ two_ne_zero (by omega), mul_comm]
      gcongr
    have := Nat.cast_lt.mp h
    omega
  have hr0 : 0 < r := lt_of_lt_of_le (Nat.two_pow_pos _) hr
  have hlead : -(l : Int) ≤ leadExp r (2 ^ k) := by
    have h1 := (leadExp_spec hr0 (Nat.two_pow_pos k)).2
    have h2 : (2 : ℝ) ^ (-(l : Int)) ≤ (r : ℝ) / (2 ^ k : Nat) := by
      rw [le_div_iff₀ (by positivity)]
      push_cast
      calc (2 : ℝ) ^ (-(l : Int)) * 2 ^ k = 2 ^ (k - l) := by
            rw [zpow_neg, zpow_natCast, pow_sub₀ _ two_ne_zero (by omega), mul_comm]
        _ ≤ r := by exact_mod_cast hr
    have := (zpow_lt_zpow_iff_right₀ one_lt_two).mp (h2.trans_lt h1)
    omega
  refine rounded_roundMag (neg := false) hs hr0 (Nat.two_pow_pos k) ⟨?_, ?_, fun j hj => ?_⟩
  · push_cast
    rwa [div_le_iff₀ hk]
  · push_cast
    rw [hst, not_iff_not, div_eq_iff hk.ne']
  · have hz : (j : ℝ) * 2 ^ (leadExp r (2 ^ k) - f.m - 1) =
        ((j * 2 ^ (leadExp r (2 ^ k) - f.m - 1 + k).toNat : ℤ) : ℝ) / 2 ^ k := by
      rw [eq_div_iff hk.ne', mul_assoc]
      push_cast
      rw [← zpow_natCast, ← zpow_natCast, ← zpow_add₀ two_ne_zero]
      congr 2
      omega
    rw [hz] at hj ⊢
    generalize j * 2 ^ (leadExp r (2 ^ k) - f.m - 1 + k).toNat = i at *
    push_cast at hj
    rw [div_lt_div_iff_of_pos_right hk] at hj
    rw [lt_div_iff₀ hk]
    have h1 : (r : ℤ) + 1 ≤ i := by
      have : ((r : ℤ) : ℝ) < (i : ℝ) := by exact_mod_cast hj
      exact Int.cast_lt.mp this
    have h2 : (r : ℝ) + 1 ≤ i := by exact_mod_cast h1
    exact hlt.trans_le h2

end

/-! ### Roots of numbers -/

section
variable {f : Fmt} {rm : Rm} {a : Nat}

/-- A positive number lies between the least subnormal one and the exponent field's end. -/
theorem number_bounds (hs : f.Sound) (ha : IsNumber f a) (hx : 0 < numberOf f a) :
    (2 : ℚ) ^ (f.emin - f.m) ≤ numberOf f a ∧ numberOf f a < 2 ^ ((2 ^ f.e : Nat) - (f.bias : Int)) := by
  obtain ⟨n, b, hb, rfl⟩ := exists_of_isNumber hs ha
  rw [numberOf_signed hs n hb] at *
  have h0 := magVal_nonneg (f := f) b
  obtain rfl : n = false := by
    cases n
    · rfl
    · rw [if_pos rfl] at hx
      linarith
  simp only [Bool.false_eq_true, if_false] at *
  constructor
  · have hb1 : 1 ≤ b := by
      by_contra hlt
      obtain rfl : b = 0 := by omega
      rw [magVal_zero] at hx
      exact absurd hx (lt_irrefl _)
    have h1 : magVal f 1 = 2 ^ (f.emin - f.m) := by
      rw [magVal, if_pos (Nat.one_lt_two_pow hs.mant.ne'), Nat.cast_one, one_mul]
    exact h1 ▸ magVal_strictMono.monotone hb1
  · have htop : magVal f (2 ^ f.e * 2 ^ f.m) = 2 ^ ((2 ^ f.e : Nat) - (f.bias : Int)) := by
      have hge : ¬2 ^ f.e * 2 ^ f.m < 2 ^ f.m := not_lt.mpr (Nat.le_mul_of_pos_left _ (Nat.two_pow_pos _))
      rw [magVal, if_neg hge, Nat.mul_mod_left, Nat.mul_div_cancel _ (Nat.two_pow_pos _), add_zero]
      push_cast
      rw [← zpow_natCast, ← zpow_add₀ two_ne_zero]
      congr 1
      ring
    rw [← htop, ← Nat.pow_add]
    exact magVal_strictMono (hb.trans_lt hs.max_lt)

/-- A positive number's value is not zero and not of negative sign. -/
theorem positive_number (hx : 0 < numberOf f a) (ha : IsNumber f a) :
    (unpack f a).isZero = false ∧ (unpack f a).neg = false ∧ ∃ m e, unpack f a = .fin false m e := by
  rw [numberOf, valueOf_eq] at hx
  obtain ⟨-, n, m, e, hu⟩ := ha
  rw [hu] at hx ⊢
  have hn : n = false := by
    have h := val_eq_signed n m e
    cases n
    · rfl
    · rw [if_pos rfl] at h
      linarith [abs_nonneg (Val.fin true m e).dyad.val]
  subst hn
  refine ⟨?_, rfl, m, e, rfl⟩
  rw [← Bool.not_eq_true, isZero_iff_val]
  exact hx.ne'

/-- The fields of a positive number's quotient. -/
theorem positive_quotient (d : Dyad) (hx : 0 < d.val) :
    0 < d.num.toNat ∧ (d.val : ℝ) = (d.num.toNat : ℝ) / d.den := by
  have hn : 0 ≤ d.num := by
    by_contra h
    linarith [d.num_neg_iff.mp (not_le.mp h)]
  have h0 : d.num ≠ 0 := fun h => hx.ne' (d.num_eq_zero_iff.mp h)
  refine ⟨by omega, ?_⟩
  rw [d.val_eq_div]
  push_cast
  congr 1
  exact_mod_cast (Int.toNat_of_nonneg hn).symm

theorem bias_of_vecFormats : ∀ f ∈ vecFormats, 2 ^ f.e = 2 * f.bias + 2 := by decide

/-- The grid's root of a quotient, rounded; the last bit says whether more follows. -/
def rootRes (f : Fmt) (rm : Rm) (num den : Nat) : Res :=
  roundMag f rm false (isqrt (num * 2 ^ (2 * gridOf f) / den)) (2 ^ gridOf f)
    (isqrt (num * 2 ^ (2 * gridOf f) / den) * isqrt (num * 2 ^ (2 * gridOf f) / den) * den != num * 2 ^ (2 * gridOf f))

theorem roots_positive (ha : IsNumber f a) (hx : 0 < numberOf f a) :
    fsqrt ⟨f, rm, false⟩ a = rootRes f rm (unpack f a).dyad.num.toNat (unpack f a).dyad.den ∧
      frsq ⟨f, rm, false⟩ a = rootRes f rm (unpack f a).dyad.den (unpack f a).dyad.num.toNat := by
  obtain ⟨hz, hneg, m, e, hu⟩ := positive_number hx ha
  have hnan := nanOf_of_numbers (f := f) (ws := [a]) (by simp [ha])
  rw [fsqrt, frsq, rd_of_keep]
  simp only [hnan, wr_of_keep, hz, hneg, Bool.false_eq_true, if_false]
  rw [hu]
  exact ⟨rfl, rfl⟩

/-- The value of a positive number as a quotient, and its bounds. -/
theorem positive_quotient_bounds (hs : f.Sound) (ha : IsNumber f a) (hx : 0 < numberOf f a) :
    0 < (unpack f a).dyad.num.toNat ∧
      (numberOf f a : ℝ) = ((unpack f a).dyad.num.toNat : ℝ) / (unpack f a).dyad.den ∧
      ((unpack f a).dyad.den : ℝ) ≤ (unpack f a).dyad.num.toNat * 2 ^ (f.bias + f.m) := by
  obtain ⟨hlow, -⟩ := number_bounds hs ha hx
  rw [numberOf, valueOf_eq] at hx
  obtain ⟨hnum, hq⟩ := positive_quotient _ hx
  have hd : (0 : ℝ) < (unpack f a).dyad.den := by exact_mod_cast (unpack f a).dyad.den_pos
  rw [← cast_numberOf] at hq
  refine ⟨hnum, hq, ?_⟩
  have h1 : ((2 : ℝ) ^ (f.bias + f.m))⁻¹ ≤ numberOf f a := by
    have h2 := (Rat.cast_le (K := ℝ)).mpr hlow
    push_cast at h2
    refine le_trans ?_ h2
    rw [← zpow_natCast, ← zpow_neg]
    exact zpow_le_zpow_right₀ one_le_two (by rw [Fmt.emin]; push_cast; omega)
  rw [hq, le_div_iff₀ hd, inv_mul_le_iff₀ (by positivity), mul_comm] at h1
  exact h1

theorem rounded_fsqrt (hs : f.Sound) (ha : IsNumber f a) (hx : 0 < numberOf f a) :
    Rounded f rm (Real.sqrt (numberOf f a)) (fsqrt ⟨f, rm, false⟩ a) := by
  obtain ⟨-, hq, hle⟩ := positive_quotient_bounds hs ha hx
  rw [(roots_positive ha hx).1, hq, rootRes]
  exact rounded_root hs (Dyad.den_pos _) (by rw [gridOf]; omega) hle

theorem rounded_frsq (hf : f ∈ vecFormats) (hs : f.Sound) (ha : IsNumber f a) (hx : 0 < numberOf f a) :
    Rounded f rm (1 / Real.sqrt (numberOf f a)) (frsq ⟨f, rm, false⟩ a) := by
  obtain ⟨hnum, hq, -⟩ := positive_quotient_bounds hs ha hx
  obtain ⟨-, hhigh⟩ := number_bounds hs ha hx
  have hd : (0 : ℝ) < (unpack f a).dyad.den := by exact_mod_cast (unpack f a).dyad.den_pos
  have hle : ((unpack f a).dyad.num.toNat : ℝ) ≤ (unpack f a).dyad.den * 2 ^ (f.bias + 2) := by
    have h2 := (Rat.cast_lt (K := ℝ)).mpr hhigh
    rw [bias_of_vecFormats f hf, hq, div_lt_iff₀ hd, mul_comm] at h2
    push_cast at h2
    rw [show 2 * (f.bias : Int) + 2 - f.bias = (f.bias + 2 : Nat) by push_cast; ring, zpow_natCast] at h2
    exact h2.le
  rw [(roots_positive ha hx).2, hq, one_div, ← Real.sqrt_inv, inv_div, rootRes]
  exact rounded_root hs hnum (by rw [gridOf]; have := hs.mant; omega) hle

theorem root_of_negative (ha : IsNumber f a) (hx : numberOf f a < 0) :
    fsqrt ⟨f, rm, false⟩ a = invalid f ∧ frsq ⟨f, rm, false⟩ a = invalid f := by
  have hnan := nanOf_of_numbers (f := f) (ws := [a]) (by simp [ha])
  simp only [fsqrt, frsq, rd_of_keep, hnan]
  rw [numberOf, valueOf_eq] at hx
  obtain ⟨-, n, m, e, hu⟩ := ha
  rw [hu] at hx ⊢
  have hz : (Val.fin n m e).isZero = false := by
    rw [← Bool.not_eq_true, isZero_iff_val]
    exact hx.ne
  obtain rfl : n = true := by
    have h := val_eq_signed n m e
    cases n
    · rw [if_neg Bool.false_ne_true] at h
      linarith [abs_nonneg (Val.fin false m e).dyad.val]
    · rfl
  simp only [hz, Val.neg, Bool.false_eq_true, if_false, if_true, and_self]

end

end Sys2Proof.Machine.Float

/-! Sums of products (R132, R133, R276), and the float operations on numbers. -/

namespace Sys2Proof.Machine.Float

open Bits Claims

section
variable {rm : Rm}

/-- Numbers that cancel leave a zero of the sign that the mode gives. -/
theorem fadd_of_cancel {f : Fmt} {a b : Nat} (ha : IsNumber f a) (hb : IsNumber f b) (h : numberOf f a + numberOf f b = 0)
    (hn : (unpack f a).neg ≠ (unpack f b).neg) : (fadd ⟨f, rm, false⟩ a b).w = signed f (rm == .rdn) 0 := by
  have hnum : ((unpack f a).dyad.add (unpack f b).dyad).num = 0 := by
    rw [Dyad.num_eq_zero_iff, Dyad.val_add, ← valueOf_eq, ← valueOf_eq]
    exact h
  have hz : zeroSign rm (unpack f a).neg (unpack f b).neg = (rm == .rdn) := by rw [zeroSign, if_neg (by simpa using hn)]
  rw [fadd_numbers ha hb, roundDyad, hnum, roundQuo, if_pos rfl, hz]

/-- R132: the two products of `vfdot2` and their sum are exact. -/
theorem rounded_dot2 {f : Fmt} {a b c d : Nat} (ha : IsNumber f a) (hb : IsNumber f b) (hc : IsNumber f c)
    (hd : IsNumber f d) :
    Rounded f32 rm ((numberOf f a : ℝ) * numberOf f c + numberOf f b * numberOf f d) (dot2 f rm a b c d) := by
  have hs : f32.Sound := sound_of_mem (by decide)
  have h (z : Bool) := rounded_roundDyad (rm := rm) hs z
    (((unpack f a).dyad.mul (unpack f c).dyad).add ((unpack f b).dyad.mul (unpack f d).dyad))
  simp only [Dyad.val_add, Dyad.val_mul, Rat.cast_add, Rat.cast_mul, ← cast_numberOf] at h
  have hnan : [a, b, c, d].find? (fun w => (unpack f w).isNan) = none := by
    have := nanOf_of_numbers (f := f) (ws := [a, b, c, d]) (by simp [ha, hb, hc, hd])
    rwa [nanOf, Option.map_eq_none_iff] at this
  simp only [dot2, hnan]
  obtain ⟨-, n₁, m₁, e₁, hu₁⟩ := ha
  obtain ⟨-, n₂, m₂, e₂, hu₂⟩ := hb
  obtain ⟨-, n₃, m₃, e₃, hu₃⟩ := hc
  obtain ⟨-, n₄, m₄, e₄, hu₄⟩ := hd
  rw [hu₁, hu₂, hu₃, hu₄] at h ⊢
  exact h _

/-- The pairs of a K-group that are finite. -/
def FinitePairs (ps : List (Val × Val)) : Prop :=
  ∀ p ∈ ps, (∃ n m e, p.1 = .fin n m e) ∧ ∃ n m e, p.2 = .fin n m e

theorem foldl_sumProds (ps : List (Val × Val)) (h : FinitePairs ps) : ∀ t : Dyad,
    ∃ d, ps.foldl (fun (t : Float.Sum) p => t.add (prodVal p.1 p.2)) (Sum.fin t) = Sum.fin d ∧
      d.val = t.val + (ps.map fun p => valueOf p.1 * valueOf p.2).sum := by
  induction ps with
  | nil => exact fun t => ⟨t, rfl, by simp⟩
  | cons p ps ih =>
    intro t
    obtain ⟨⟨n, m, e, h1⟩, n', m', e', h2⟩ := h p (List.mem_cons_self ..)
    have hprod : Sum.add (.fin t) (prodVal p.1 p.2) = .fin (t.add (p.1.dyad.mul p.2.dyad)) := by rw [h1, h2]; rfl
    obtain ⟨d, hd, hval⟩ := ih (fun q hq => h q (List.mem_cons_of_mem _ hq)) (t.add (p.1.dyad.mul p.2.dyad))
    refine ⟨d, by rw [List.foldl_cons, hprod, hd], ?_⟩
    rw [hval, Dyad.val_add, Dyad.val_mul, List.map_cons, List.sum_cons, valueOf_eq, valueOf_eq, add_assoc]

/-- R133: an accumulation of finite products onto a number. -/
theorem rounded_accumulate {acc : Nat} {ps : List (Val × Val)} (ha : IsNumber f32 acc) (h : FinitePairs ps) :
    Rounded f32 .rne ((numberOf f32 acc : ℝ) + ((ps.map fun p => valueOf p.1 * valueOf p.2).sum : ℚ))
      (accumulate acc (sumProds ps)) := by
  obtain ⟨d, hd, hval⟩ := foldl_sumProds ps h ⟨0, 0⟩
  rw [show (Dyad.mk 0 0).val = 0 by simp [Dyad.val], zero_add] at hval
  have hr := rounded_roundDyad (f := f32) (rm := .rne) (sound_of_mem (by decide)) false ((unpack f32 acc).dyad.add d)
  rw [Dyad.val_add, Rat.cast_add, ← cast_numberOf, hval] at hr
  rw [sumProds, hd, accumulate]
  obtain ⟨-, n, m, e, hu⟩ := ha
  rw [hu] at hr ⊢
  exact hr

end

end Sys2Proof.Machine.Float

namespace Sys2Proof

open Machine Machine.Float Claims

/-- Settles O20: every operation rounds the exact dyad, quotient or root, and the rounding of a magnitude is R123's
because between a number of the format and the magnitude lies a multiple of the quantum. -/
theorem floatValues : Obligations.FloatValues := by
  unfold Obligations.FloatValues
  refine ⟨fun f hf rm z d => ?_, fun f hf rm a b ha hb => ?_, fun f _ rm a b c d ha hb hc hd => rounded_dot2 ha hb hc hd,
    fun acc ps ha h => rounded_accumulate ha h⟩
  · have h := rounded_roundDyad (rm := rm) (sound_of_mem hf) z d
    rw [Dyad.val] at h
    push_cast at h
    exact h
  · have hs : f.Sound := by
      refine sound_of_mem ?_
      have hsub : ∀ f ∈ [f64, f32, f16, bf16], f ∈ formats := by decide
      exact hsub f hf
    exact ⟨rounded_fadd hs ha hb, rounded_fsub hs ha hb, rounded_fmul hs ha hb,
      fun hy => rounded_fdiv hs ha hb (Rat.cast_ne_zero.mp hy), fun hx => rounded_frcp hs hf ha (Rat.cast_ne_zero.mp hx),
      fun hx => ⟨rounded_fsqrt hs ha (Rat.cast_pos.mp hx), rounded_frsq hf hs ha (Rat.cast_pos.mp hx)⟩,
      fun hx => root_of_negative ha (Rat.cast_lt_zero.mp hx),
      fun hx hy => fdiv_by_zero ha hb (Rat.cast_ne_zero.mp hx) (Rat.cast_eq_zero.mp hy),
      fun h hn => fadd_of_cancel ha hb (by exact_mod_cast h) hn, fun c hc => rounded_ffma hs ha hb hc,
      (numberOf_fminmax ha hb).1, (numberOf_fminmax ha hb).2, numberOf_fabs hs ha, numberOf_fneg hs ha⟩

end Sys2Proof

/-! Conversions between integer and float types (R54, R124, R130, R131, R439). -/

namespace Sys2Proof.Machine.Float

open Bits Claims

section
variable {f : Fmt} {rm : Rm}

/-! ### Conversion to an integer (R123) -/

/-- The distances of rounding to nearest, of rationals. -/
theorem nearest_rat {x : ℚ} {n : Nat} {neg : Bool} (h : RoundedAt .rne neg (x : ℝ) n) :
    |(n : ℚ) - x| ≤ 1 / 2 ∧ (|(n : ℚ) - x| = 1 / 2 → n % 2 = 0) := by
  have hc : |(n : ℝ) - x| = ((|(n : ℚ) - x| : ℚ) : ℝ) := by push_cast; rfl
  have h2 : (1 / 2 : ℝ) = ((1 / 2 : ℚ) : ℝ) := by push_cast; rfl
  rw [RoundedAt, hc, h2] at h
  exact ⟨Rat.cast_le.mp h.1, fun he => h.2 (congrArg _ he)⟩

/-- The sign and the magnitude rounded make the signed value rounded. -/
theorem intRounds_of_roundedAt {x : ℚ} {n : Nat} (h : RoundedAt rm (decide (x < 0)) ((|x| : ℚ) : ℝ) n) :
    IntRounds rm x (if x < 0 then -(n : Int) else n) := by
  by_cases hx : x < 0
  · rw [abs_of_neg hx, decide_eq_true hx] at h
    rw [if_pos hx]
    cases rm with
    | rne =>
      obtain ⟨h1, h2⟩ := nearest_rat h
      have he : |((-(n : Int) : Int) : ℚ) - x| = |(n : ℚ) - -x| := by
        push_cast
        rw [← abs_neg]
        ring_nf
      rw [IntRounds, he]
      exact ⟨h1, fun h => by have := h2 h; omega⟩
    | rtz =>
      obtain ⟨h1, h2⟩ := h
      rw [IntRounds, if_neg (not_le.mpr hx), eq_comm, Int.ceil_eq_iff]
      have h1 : (n : ℚ) ≤ -x := by exact_mod_cast h1
      have h2 : -x < n + 1 := by exact_mod_cast h2
      constructor <;> push_cast <;> linarith
    | rup =>
      obtain ⟨h1, h2⟩ := h
      rw [IntRounds, eq_comm, Int.ceil_eq_iff]
      have h1 : (n : ℚ) ≤ -x := by exact_mod_cast h1
      have h2 : -x < n + 1 := by exact_mod_cast h2
      constructor <;> push_cast <;> linarith
    | rdn =>
      obtain ⟨h1, h2⟩ := h
      rw [IntRounds, eq_comm, Int.floor_eq_iff]
      have h1 : -x ≤ n := by exact_mod_cast h1
      have h2 : (n : ℚ) < -x + 1 := by exact_mod_cast h2
      constructor <;> push_cast <;> linarith
  · have hx0 := not_lt.mp hx
    rw [abs_of_nonneg hx0, decide_eq_false hx] at h
    rw [if_neg hx]
    cases rm with
    | rne =>
      obtain ⟨h1, h2⟩ := nearest_rat h
      exact ⟨h1, fun h => by have := h2 h; omega⟩
    | rtz =>
      obtain ⟨h1, h2⟩ := h
      rw [IntRounds, if_pos hx0, eq_comm, Int.floor_eq_iff]
      exact ⟨by exact_mod_cast h1, by exact_mod_cast h2⟩
    | rup =>
      obtain ⟨h1, h2⟩ := h
      rw [IntRounds, eq_comm, Int.ceil_eq_iff]
      have h2 : (n : ℚ) < x + 1 := by exact_mod_cast h2
      exact ⟨by push_cast; linarith, by exact_mod_cast h1⟩
    | rdn =>
      obtain ⟨h1, h2⟩ := h
      rw [IntRounds, eq_comm, Int.floor_eq_iff]
      exact ⟨by exact_mod_cast h1, by exact_mod_cast h2⟩

theorem roundInt_spec (d : Dyad) : IntRounds rm d.val (roundInt rm d).1 ∧
    ((roundInt rm d).2 = false ↔ ((roundInt rm d).1 : ℚ) = d.val) := by
  have hr : Reads ((|d.val| : ℚ) : ℝ) d.num.natAbs d.den false 0 := by
    rw [abs_val]
    push_cast
    exact reads_exact ..
  obtain ⟨h1, h2⟩ := roundAt_spec (rm := rm) (neg := decide (d.val < 0)) d.den_pos hr
  rw [zpow_zero, div_one] at h1 h2
  have hneg : decide (d.v < 0) = decide (d.val < 0) := by rw [decide_eq_decide, d.val_neg_iff]
  rw [roundInt, hneg]
  simp only [← d.val_neg_iff]
  generalize roundAt rm (decide (d.val < 0)) d.num.natAbs d.den false 0 = p at *
  obtain ⟨n, i⟩ := p
  dsimp only at *
  refine ⟨intRounds_of_roundedAt h1, ?_⟩
  have hex : ((n : ℝ) = ((|d.val| : ℚ) : ℝ)) ↔ (((if d.val < 0 then -(n : Int) else n : Int) : ℚ) = d.val) := by
    rw [← Rat.cast_natCast, Rat.cast_inj]
    split
    next h =>
      rw [abs_of_neg h]
      push_cast
      rw [neg_eq_iff_eq_neg]
    next h =>
      rw [abs_of_nonneg (not_lt.mp h)]
      push_cast
      rfl
  rw [← hex, ← Bool.not_eq_true, h2]
  constructor
  · intro hall
    by_contra hne
    refine hall fun k hk => hne ?_
    rw [h1.eq_of_int hk, hk]
  · exact fun he hall => hall n he

/-! ### NaNs converted (R115, R124, R130) -/

/-- A NaN made quiet keeps its sign, and its mantissa has the top bit. -/
theorem quiet_nan (hf : f ∈ formats) {x : Nat} (hx : x < 2 ^ f.bits) (h : (unpack f x).isNan = true) :
    ∃ b, b < f.signW ∧ quiet f x = signed f (unpack f x).neg b ∧ 2 ^ (f.m - 1) ≤ b % 2 ^ f.m := by
  have hs := sound_of_mem hf
  obtain ⟨n, b, hb, rfl⟩ := exists_signed hx
  obtain ⟨hsign, hexp, hmant⟩ := fields_signed n hb
  have hneg : (n.toNat == 1) = n := by cases n <;> rfl
  have hn : (unpack f (signed f n b)).neg = n := by
    simp only [unpack, hsign, hneg]
    split_ifs <;> rfl
  rw [hn]
  have hp : 2 ^ f.m = 2 * 2 ^ (f.m - 1) := by rw [← Nat.pow_succ', Nat.succ_eq_add_one, Nat.sub_add_cancel hs.mant]
  have hpos := Nat.two_pow_pos (f.m - 1)
  by_cases htop : f.top = .ieee
  · have hbit : signed f n b / 2 ^ (f.m - 1) % 2 = b % 2 ^ f.m / 2 ^ (f.m - 1) := by
      rw [← hmant, hp, Nat.mul_comm, Nat.mod_mul_right_div_self]
    have hW : f.signW = 2 ^ f.m * 2 ^ f.e := by rw [Fmt.signW, Nat.add_comm, Nat.pow_add]
    have hlt := Nat.mod_lt b (Nat.two_pow_pos f.m)
    rw [quiet, hbit]
    split
    next h0 =>
      have hsmall : b % 2 ^ f.m < 2 ^ (f.m - 1) := (Nat.div_eq_zero_iff_lt hpos).mp h0.2
      have hdiv : b / 2 ^ f.m < 2 ^ f.e := by rwa [Nat.div_lt_iff_lt_mul (Nat.two_pow_pos _), Nat.mul_comm, ← hW]
      have hroom : 2 ^ f.m * (b / 2 ^ f.m + 1) ≤ f.signW := by rw [hW]; exact Nat.mul_le_mul_left _ hdiv
      have hdm := Nat.div_add_mod b (2 ^ f.m)
      rw [Nat.mul_add] at hroom
      refine ⟨b + 2 ^ (f.m - 1), by omega, ?_, ?_⟩
      · cases n <;> simp [signed, Nat.add_assoc]
      · rw [Nat.add_mod, Nat.mod_eq_of_lt (show 2 ^ (f.m - 1) < 2 ^ f.m by omega), Nat.mod_eq_of_lt (by omega)]
        omega
    next h1 =>
      refine ⟨b, hb, rfl, ?_⟩
      by_contra hlow
      exact h1 ⟨htop, Nat.div_eq_of_lt (not_le.mp hlow)⟩
  · refine ⟨b, hb, by rw [quiet, if_neg (fun h => htop h.1)], ?_⟩
    have hall : b % 2 ^ f.m = 2 ^ f.m - 1 := by
      by_contra hne
      simp only [unpack, htop, and_false, if_false, hmant, hne] at h
      split at h <;> cases h
    omega

theorem unpack_ieeeNan {t : Fmt} (ht : t.top = .ieee) (n : Bool) {k : Nat} (h0 : k ≠ 0) (hk : k < 2 ^ t.m) :
    unpack t (signed t n (t.infBits + k)) = .nan n k := by
  have he : 2 ^ t.e - 1 + 1 = 2 ^ t.e := Nat.sub_add_cancel (Nat.one_le_two_pow)
  have hlt : t.infBits + k < t.signW := by
    rw [Fmt.signW, Nat.pow_add, ← he, Nat.add_mul, one_mul, Fmt.infBits]
    omega
  obtain ⟨hsign, hexp, hmant⟩ := fields_signed n hlt
  have hd : (t.infBits + k) / 2 ^ t.m = 2 ^ t.e - 1 := by
    rw [Fmt.infBits, Nat.add_comm, Nat.add_mul_div_right _ _ (Nat.two_pow_pos _), Nat.div_eq_of_lt hk, zero_add]
  have hm : (t.infBits + k) % 2 ^ t.m = k := by
    rw [Fmt.infBits, Nat.add_comm, Nat.add_mul_mod_self_right, Nat.mod_eq_of_lt hk]
  have hneg : (n.toNat == 1) = n := by cases n <;> rfl
  simp only [unpack, hsign, hexp, hmant, hd, hm, hneg, ht, and_self, if_true, h0, if_false]

/-- A mantissa with its top bit, taken to another width from the top, keeps it. -/
theorem resized_mantissa {m m' k : Nat} (hm : 0 < m) (hm' : 0 < m') (h1 : 2 ^ (m - 1) ≤ k) (h2 : k < 2 ^ m) :
    2 ^ (m' - 1) ≤ (if m' ≥ m then k * 2 ^ (m' - m) else k / 2 ^ (m - m')) ∧
      (if m' ≥ m then k * 2 ^ (m' - m) else k / 2 ^ (m - m')) < 2 ^ m' := by
  split
  next h =>
    have e1 : 2 ^ (m' - 1) = 2 ^ (m - 1) * 2 ^ (m' - m) := by rw [← Nat.pow_add]; congr 1; omega
    have e2 : 2 ^ m' = 2 ^ m * 2 ^ (m' - m) := by rw [← Nat.pow_add]; congr 1; omega
    rw [e1, e2]
    exact ⟨Nat.mul_le_mul_right _ h1, Nat.mul_lt_mul_of_pos_right h2 (Nat.two_pow_pos _)⟩
  next h =>
    have e1 : 2 ^ (m - 1) = 2 ^ (m' - 1) * 2 ^ (m - m') := by rw [← Nat.pow_add]; congr 1; omega
    have e2 : 2 ^ m = 2 ^ m' * 2 ^ (m - m') := by rw [← Nat.pow_add]; congr 1; omega
    rw [Nat.le_div_iff_mul_le (Nat.two_pow_pos _), Nat.div_lt_iff_lt_mul (Nat.two_pow_pos _), ← e1, ← e2]
    exact ⟨h1, h2⟩

theorem neg_quiet (hf : f ∈ formats) {x : Nat} (hx : x < 2 ^ f.bits) (h : (unpack f x).isNan = true) :
    (quiet f x / f.signW % 2 == 1) = (unpack f x).neg := by
  obtain ⟨b, hb, hq, -⟩ := quiet_nan hf hx h
  rw [hq, (fields_signed _ hb).1]
  cases (unpack f x).neg <;> rfl

theorem cvtNan_minifloat (hf : f ∈ formats) {t : Fmt} (ht : t = e4m3 ∨ t = e5m2) {x : Nat} (hx : x < 2 ^ f.bits)
    (h : (unpack f x).isNan = true) :
    cvtNan f t x = ⟨signed t (unpack f x).neg t.nanBits, if signalling f x then fNV else 0⟩ := by
  have htop : t.top ≠ .normal := by rcases ht with rfl | rfl <;> decide
  simp only [cvtNan, neg_quiet hf hx h, if_neg htop, if_pos ht]

/-- R130: a NaN of a wide format is the source's, quiet, its mantissa taken from the top. -/
theorem cvtNan_wide (hf : f ∈ formats) {t : Fmt} (ht : t ∈ vecFormats) {x : Nat} (hx : x < 2 ^ f.bits)
    (h : (unpack f x).isNan = true) :
    (cvtNan f t x).fl = (if signalling f x then fNV else 0) ∧ (unpack t (cvtNan f t x).w).isNan = true ∧
      (unpack t (cvtNan f t x).w).neg = (unpack f x).neg ∧ signalling t (cvtNan f t x).w = false := by
  have hts : t.top = .ieee ∧ ¬(t = e4m3 ∨ t = e5m2) ∧ t ∈ formats := by
    revert t
    decide
  obtain ⟨htop, hmini, htf⟩ := hts
  have hsf := sound_of_mem hf
  have hst := sound_of_mem htf
  obtain ⟨b, hb, hq, hm⟩ := quiet_nan hf hx h
  have hmq : quiet f x % 2 ^ f.m = b % 2 ^ f.m := by rw [hq, (fields_signed _ hb).2.2]
  obtain ⟨hlo, hhi⟩ := resized_mantissa hsf.mant hst.mant hm (Nat.mod_lt _ (Nat.two_pow_pos _))
  have hnn : ¬t.top = .normal := by rw [htop]; decide
  simp only [cvtNan, neg_quiet hf hx h, if_neg hnn, if_neg hmini, hmq]
  generalize (if t.m ≥ f.m then b % 2 ^ f.m * 2 ^ (t.m - f.m) else b % 2 ^ f.m / 2 ^ (f.m - t.m)) = k at *
  have hu := unpack_ieeeNan htop (unpack f x).neg (by have := Nat.two_pow_pos (t.m - 1); omega) hhi
  refine ⟨trivial, ?_, ?_, ?_⟩
  · rw [hu]; rfl
  · rw [hu]; rfl
  · rw [signalling, hu]
    simp [hlo]

end

end Sys2Proof.Machine.Float

namespace Sys2Proof.Machine

open Assoc Bits Sys2Proof.Machine.Float Claims

/-! ### The types (R54) -/

theorem float_of_cvtType {c : Nat} {f : Fmt} (h : cvtType c = .flt f) : f ∈ formats := by
  unfold cvtType at h
  split at h <;> cases h <;> decide

theorem int_of_cvtType {c : Nat} {sg : Bool} {n : Nat} (h : cvtType c = .int sg n) : n ∈ [8, 16, 32, 64] := by
  unfold cvtType at h
  split at h <;> cases h <;> decide

section
variable {rm : Rm} {src dst x : Nat} {f t : Fmt}

theorem cvt_float_float (hs : cvtType src = .flt f) (hd : cvtType dst = .flt t) (hne : src ≠ dst) (hx : x < 2 ^ f.bits) :
    cvt rm false src dst x = cvtFF f t rm x := by
  simp only [cvt, hs, hd, CvtType.width, Nat.mod_eq_of_lt hx, Bool.false_and, rd_of_keep, wr_of_keep, if_neg hne]

theorem cvt_float_int {sg : Bool} {n : Nat} (hs : cvtType src = .flt f) (hd : cvtType dst = .int sg n) (hx : x < 2 ^ f.bits) :
    cvt rm false src dst x = ⟨lowInt n (cvtFI f sg n rm x).1, (cvtFI f sg n rm x).2⟩ := by
  simp only [cvt, hs, hd, CvtType.width, Nat.mod_eq_of_lt hx, Bool.false_and, rd_of_keep]

theorem cvt_int_float {sg : Bool} {n : Nat} (hs : cvtType src = .int sg n) (hd : cvtType dst = .flt t) :
    cvt rm false src dst x = cvtIF t rm (readInt sg n (x % 2 ^ n)) := by
  simp only [cvt, hs, hd, CvtType.width, Bool.false_and, wr_of_keep]

theorem cvt_same (hs : cvtType src = .flt f) (hx : IsNumber f x) : cvt rm false src src x = ⟨x, 0⟩ := by
  have hsig : signalling f x = false := by
    obtain ⟨-, n, m, e, hu⟩ := hx
    rw [signalling, hu]
  simp only [cvt, hs, CvtType.width, Nat.mod_eq_of_lt hx.1, Bool.false_and, rd_of_keep, if_true, hsig, Bool.false_eq_true,
    if_false]

theorem rounded_cvtFF (ht : t.Sound) (hx : IsNumber f x) : Rounded t rm (numberOf f x) (cvtFF f t rm x) := by
  have h (z : Bool) := rounded_roundDyad (rm := rm) ht z (unpack f x).dyad
  rw [cast_numberOf]
  obtain ⟨-, n, m, e, hu⟩ := hx
  rw [cvtFF]
  rw [hu] at h ⊢
  exact h n

theorem rounded_cvtIF (ht : t.Sound) (k : Int) : Rounded t rm k (cvtIF t rm k) := by
  have h := rounded_roundDyad (rm := rm) ht false (Dyad.ofInt k)
  rw [Dyad.val_ofInt, Rat.cast_intCast] at h
  exact h

theorem cvtFF_nan (h : (unpack f x).isNan = true) : cvtFF f t rm x = cvtNan f t x := by
  rw [cvtFF]
  cases hu : unpack f x <;> rw [hu] at h <;> first | rfl | cases h

/-- The end of the range of an integer type. -/
def rangeLo (sg : Bool) (n : Nat) : Int := if sg then -(2 ^ (n - 1)) else 0
def rangeHi (sg : Bool) (n : Nat) : Int := if sg then 2 ^ (n - 1) - 1 else 2 ^ n - 1

theorem sat_eq (sg : Bool) (n : Nat) (k : Int) :
    (if sg then satS n k else satU n k) = max (rangeLo sg n) (min k (rangeHi sg n)) := by
  cases sg <;> rfl

theorem rangeLo_le_rangeHi (sg : Bool) (n : Nat) : rangeLo sg n ≤ rangeHi sg n := by
  have h1 : (0 : Int) < 2 ^ (n - 1) := by positivity
  have h2 : (0 : Int) < 2 ^ n := by positivity
  cases sg <;> simp only [rangeLo, rangeHi, if_true, Bool.false_eq_true, if_false] <;> omega

theorem range_within : ∀ n ∈ [8, 16, 32, 64], ∀ sg : Bool, -(2 ^ 70) ≤ rangeLo sg n ∧ rangeHi sg n ≤ 2 ^ 70 := by decide

theorem cvtFI_nan {sg : Bool} {n : Nat} (h : (unpack f x).isNan = true) : cvtFI f sg n rm x = (0, fNV) := by
  rw [cvtFI]
  cases hu : unpack f x <;> rw [hu] at h <;> first | rfl | cases h

theorem cvtFI_inf {sg neg : Bool} {n : Nat} (hn : n ∈ [8, 16, 32, 64]) (h : unpack f x = .inf neg) :
    cvtFI f sg n rm x = (if neg then rangeLo sg n else rangeHi sg n, fNV) := by
  obtain ⟨h1, h2⟩ := range_within n hn sg
  have h3 := rangeLo_le_rangeHi sg n
  rw [cvtFI, h]
  simp only [sat_eq]
  congr 1
  cases neg
  · rw [if_neg Bool.false_ne_true, if_neg Bool.false_ne_true, min_eq_right h2, max_eq_right h3]
  · rw [if_pos rfl, if_pos rfl, min_eq_left (h1.trans h3), max_eq_left h1]

theorem cvtFI_number {sg : Bool} {n : Nat} (hx : IsNumber f x) : ∃ k : Int, IntRounds rm (numberOf f x) k ∧
    cvtFI f sg n rm x = (max (rangeLo sg n) (min k (rangeHi sg n)),
      if k < rangeLo sg n ∨ rangeHi sg n < k then fNV else if (k : ℚ) = numberOf f x then 0 else fNX) := by
  obtain ⟨-, ng, m, e, hu⟩ := hx
  have hle := rangeLo_le_rangeHi sg n
  obtain ⟨h1, h2⟩ := roundInt_spec (rm := rm) (Val.fin ng m e).dyad
  rw [numberOf, valueOf_eq, cvtFI, hu]
  simp only [sat_eq]
  generalize roundInt rm (Val.fin ng m e).dyad = p at *
  obtain ⟨k, inexact⟩ := p
  refine ⟨k, h1, ?_⟩
  dsimp only at *
  have hout : max (rangeLo sg n) (min k (rangeHi sg n)) ≠ k ↔ k < rangeLo sg n ∨ rangeHi sg n < k := by omega
  simp only [← hout, ← h2]
  split
  next h => rfl
  next h =>
    rw [not_not] at h
    rw [h]
    cases inexact <;> rfl

end

end Sys2Proof.Machine

namespace Sys2Proof

open Machine Machine.Assoc Machine.Bits Machine.Float Claims

/-- Settles O21: numbers are rounded as exact dyads, NaNs keep sign and quiet bit, integers are the magnitude rounded. -/
theorem convertResult : Obligations.ConvertResult := by
  unfold Obligations.ConvertResult
  refine ⟨fun d a rnd src dst nw s g h => ?_, fun d a b s g h => ?_, fun rm dz sg x n m src dst hs => ⟨fun hd => ?_, fun hd => ?_, fun y => rfl⟩,
    fun rm src dst x t hd => ⟨fun f hs hx => ⟨fun hne => ?_, fun heq => ?_⟩, fun f hs hne hx hnan => ?_, fun sg n hs => ?_⟩,
    fun rm src dst x f sg n hs hd hx => ⟨fun hnan => ?_, fun neg hinf => ?_, fun hnum => ?_⟩⟩
  · rw [exec_vcvt, execVcvt]
    exact issue_floatResult h d nw _ rfl
  · rw [exec_vcvtef, execVcvtef]
    exact issue_fp h rfl
  · simp only [cvt, hs, hd, CvtType.width, if_true, satS]
  · simp only [cvt, hs, hd, CvtType.width, Bool.false_eq_true, if_false, satU]
  · rw [cvt_float_float hs hd hne hx.1]
    exact rounded_cvtFF (sound_of_mem (float_of_cvtType hd)) hx
  · rw [← heq]
    exact cvt_same hs hx
  · rw [cvt_float_float hs hd hne hx, cvtFF_nan hnan]
    have hf := float_of_cvtType hs
    refine ⟨fun ht => cvtNan_minifloat hf ht hx hnan, fun ht => ?_, fun ht => cvtNan_wide hf ht hx hnan⟩
    rw [ht]
    rfl
  · rw [cvt_int_float hs hd]
    exact rounded_cvtIF (sound_of_mem (float_of_cvtType hd)) _
  · show cvt rm false src dst x = _
    rw [cvt_float_int hs hd hx, cvtFI_nan hnan]
    simp [lowInt]
  · show cvt rm false src dst x = _
    rw [cvt_float_int hs hd hx, cvtFI_inf (int_of_cvtType hd) hinf]
    rfl
  · obtain ⟨k, hk, hr⟩ := cvtFI_number (rm := rm) (sg := sg) (n := n) hnum
    refine ⟨k, hk, ?_⟩
    show (cvt rm false src dst x).w = _ ∧ (cvt rm false src dst x).fl = _
    rw [cvt_float_int hs hd hx, hr]
    exact ⟨rfl, rfl⟩

end Sys2Proof

/-! Memory in canonical form (O58): what a step does outside the memory, to the dies, the groups, their chains and traps,
keeps it so, and so does a store. -/

namespace Sys2Proof.Machine

open Assoc Bits State

/-- Every state that an effect holds has its memory in canonical form. -/
def Effect.Canonical : Effect → Prop
  | .done s .. | .jump s | .park s | .hold s | .gone s | .thenTrap s .. => s.mem.wf = true
  | .stall | .fault .. => True

/-! ### Machine/Issue -/

theorem Effect.map_canonical {f : State → State} (hf : ∀ s, s.mem.wf = true → (f s).mem.wf = true) {e : Effect}
    (he : e.Canonical) : (e.map f).Canonical := by
  cases e with
  | stall => trivial
  | fault => trivial
  | _ => exact hf _ he

/-! ### Machine/Units -/

theorem freshId_wf (s : State) (hs : s.mem.wf = true) :
    (freshId s).2.mem.wf = true := by
  unfold freshId
  grind

theorem freeIndex_wf (s : State) (hs : s.mem.wf = true) :
    (freeIndex s).2.mem.wf = true := by
  unfold freeIndex
  grind

theorem pitWrite_wf (s : State) (die : Nat) (kind code core slot : Nat) (d0 d1 : DWord) (secure : Bool)
    (hs : s.mem.wf = true) :
    (pitWrite s die kind code core slot d0 d1 secure).mem.wf = true := by
  unfold pitWrite
  grind [setDie_mem]

/-! ### Machine/Place -/

theorem markBad_wf (s : State) (locs : List Nat) (hs : s.mem.wf = true) :
    (markBad s locs).mem.wf = true := by
  unfold markBad
  grind

/-! ### Machine/Caches -/

theorem llcRead_wf (s : State) (line : Nat) (hs : s.mem.wf = true) :
    (llcRead s line).mem.wf = true := by
  unfold llcRead
  grind [llcPut_mem]

theorem dropCopy_wf (s : State) (core line : Nat) (hs : s.mem.wf = true) :
    (dropCopy s core line).mem.wf = true := by
  unfold dropCopy
  grind

theorem forgetCopies_wf (s : State) (hs : s.mem.wf = true) :
    (forgetCopies s).mem.wf = true := by
  unfold forgetCopies
  grind

theorem l1Room_wf (s : State) (core : Nat) (hs : s.mem.wf = true) :
    (l1Room s core).mem.wf = true := by
  unfold l1Room
  grind [dropCopy_wf]

theorem fillCopy_wf (s : State) (core line : Nat) (hs : s.mem.wf = true) :
    (fillCopy s core line).mem.wf = true := by
  unfold fillCopy
  grind [dropCopy_wf, l1Room_wf]

/-! ### Machine/Atoms -/

theorem atomAt_wf (w : Writer) (s : State) (op : AtomOp) (locs : List Nat) (x cmp : Word) (hs : s.mem.wf = true) :
    (atomAt w s op locs x cmp).1.mem.wf = true := by
  unfold atomAt
  grind [storeBy_wf]

/-! ### Machine/Caches -/

theorem hear_wf (s : State) (gid : Nat) (l : PendLoad) (lines : List Nat) (n : Nat) (hs : s.mem.wf = true) :
    (hear s gid l lines n).mem.wf = true := by
  unfold hear
  grind [updGroup_mem]

/-! ### Machine/Atoms -/

theorem atomStep_wf (gid : Nat) (g : Group) (l : PendLoad) (r : AtomRun) (p : LoadPart) (hs : r.s.mem.wf = true) :
    (atomStep gid g l r p).s.mem.wf = true := by
  unfold atomStep
  grind [atomAt_wf, hear_wf]

theorem atomLanes_wf (s : State) (gid : Nat) (g : Group) (l : PendLoad) (hs : s.mem.wf = true) :
    (atomLanes s gid g l).s.mem.wf = true :=
  List.foldlRecOn (motive := fun r : AtomRun => r.s.mem.wf = true) _ _ hs fun r hr p _ => atomStep_wf gid g l r p hr

theorem atomsAct_wf (s : State) (gid : Nat) (p : PendLoad → Bool) (hs : s.mem.wf = true) :
    (atomsAct s gid p).mem.wf = true := by
  unfold atomsAct
  grind [setGroup_mem, atomLanes_wf, foldl_wf]

/-! ### Machine/Translate -/

theorem readMark_wf (s : State) (cp : Option Nat) (h : Hit) (n : Nat) (hs : s.mem.wf = true) :
    (readMark s cp h n).mem.wf = true := by
  unfold readMark
  grind [fillLlc_mem, markHit_wf]

theorem storeHit_wf (s : State) (h : Hit) (n v : Nat) (hs : s.mem.wf = true) :
    (storeHit s h n v).mem.wf = true := by
  unfold storeHit
  grind [storeUnder_wf]

/-! ### Machine/Ops -/

theorem applyWrite_wf (s : State) (gid : Nat) (w : PendStore) (hs : s.mem.wf = true) :
    (applyWrite s gid w).mem.wf = true := by
  unfold applyWrite
  grind [storeBy_wf, updGroup_mem, foldl_wf]

theorem reachHome_wf (s : State) (gid : Nat) (p : PendStore → Bool) (hs : s.mem.wf = true) :
    (reachHome s gid p).mem.wf = true := by
  unfold reachHome
  grind [applyWrite_wf, setGroup_mem, updGroup_mem, foldl_wf]

theorem landAhead_wf (s : State) (gid : Nat) (hs : s.mem.wf = true) :
    (landAhead s gid).mem.wf = true := by
  unfold landAhead
  grind [reachHome_wf, foldl_wf]

theorem settleAccesses_wf (s : State) (gid : Nat) (hs : s.mem.wf = true) :
    (settleAccesses s gid).mem.wf = true := by
  unfold settleAccesses
  grind [landAhead_wf, reachHome_wf, atomsAct_wf]

theorem sendReturn_wf (s : State) (r : Return) (hs : s.mem.wf = true) :
    (sendReturn s r).mem.wf = true := by
  unfold sendReturn
  grind

theorem sendReturns_wf (s : State) (g : Group) (kind : Nat) (lanes : List Nat) (hs : s.mem.wf = true) :
    (sendReturns s g kind lanes).mem.wf = true := by
  unfold sendReturns
  grind [sendReturn_wf, foldl_wf]

theorem killLanes_wf (s : State) (gid : Nat) (lanes : Word) (hs : s.mem.wf = true) :
    (killLanes s gid lanes).mem.wf = true := by
  unfold killLanes
  grind [landAhead_wf, reachHome_wf, atomsAct_wf, updGroup_mem, sendReturns_wf]

theorem ranHere_wf (s : State) (g : Group) (hs : s.mem.wf = true) :
    (ranHere s g).mem.wf = true := by
  unfold ranHere
  grind [updLaunch_mem]

theorem goOn_wf (s : State) (gid : Nat) (g : Group) (hs : s.mem.wf = true) :
    (goOn s gid g).mem.wf = true := by
  unfold goOn
  grind [setGroup_mem, ranHere_wf]

theorem barLeave_wf (b : Nat) (s : State) (gid : Nat) (hs : s.mem.wf = true) :
    (barLeave b s gid).mem.wf = true := by
  unfold barLeave
  grind [goOn_wf, setGroup_mem]

theorem barCheck_wf (s : State) (cl b : Nat) (hs : s.mem.wf = true) :
    (barCheck s cl b).mem.wf = true := by
  unfold barCheck
  grind [barLeave_wf, setCluster_mem, foldl_wf]

theorem barRetire_wf (s : State) (cl gid : Nat) (hs : s.mem.wf = true) :
    (barRetire s cl gid).mem.wf = true := by
  unfold barRetire
  grind [barCheck_wf, setCluster_mem, foldl_wf]

theorem countArrived_wf (s : State) (gid : Nat) (hs : s.mem.wf = true) :
    (countArrived s gid).mem.wf = true := by
  unfold countArrived
  grind [barRetire_wf, settleAccesses_wf]

theorem faultReport_wf (s : State) (g : Group) (c : Cause) (tpc : DWord) (tlanes : Word) (taddr : DWord)
    (hs : s.mem.wf = true) :
    (faultReport s g c tpc tlanes taddr).mem.wf = true := by
  unfold faultReport
  grind [pitWrite_wf, report_mem]

theorem leaveWaits_wf (s : State) (gid : Nat) (hs : s.mem.wf = true) :
    (leaveWaits s gid).mem.wf = true := by
  unfold leaveWaits
  grind

theorem barRecount_wf (s : State) (gid : Nat) (g : Group) (hs : s.mem.wf = true) :
    (barRecount s gid g).mem.wf = true := by
  unfold barRecount
  grind [setCluster_mem]

theorem killWhole_wf (s : State) (gid : Nat) (hs : s.mem.wf = true) :
    (killWhole s gid).mem.wf = true := by
  unfold killWhole
  grind [leaveWaits_wf, killLanes_wf, barRecount_wf, countArrived_wf, updGroup_mem]

theorem takeTrap_wf (s : State) (gid : Nat) (i : TrapInfo) (hs : s.mem.wf = true) :
    (takeTrap s gid i).mem.wf = true := by
  unfold takeTrap
  grind [setGroup_mem, faultReport_wf, report_mem, killWhole_wf]

theorem parkedFault_wf (s : State) (gid : Nat) (g : Group) (c : Cause) (addr : DWord) (hs : s.mem.wf = true) :
    (parkedFault s gid g c addr).mem.wf = true := by
  unfold parkedFault
  grind [takeTrap_wf, setGroup_mem]

theorem raiseCbbad_wf (s : State) (gid : Nat) (hs : s.mem.wf = true) :
    (raiseCbbad s gid).mem.wf = true := by
  unfold raiseCbbad
  grind [setGroup_mem, parkedFault_wf]

theorem goToNext_wf (s : State) (gid : Nat) (g : Group) (hs : s.mem.wf = true) :
    (goToNext s gid g).mem.wf = true := by
  unfold goToNext
  grind [takeTrap_wf, setGroup_mem]

theorem uceKill_wf (s : State) (gid : Nat) (tpc : DWord) (hs : s.mem.wf = true) :
    (uceKill s gid tpc).mem.wf = true := by
  unfold uceKill
  grind [killWhole_wf, faultReport_wf]

theorem uceLanes_wf (s : State) (gid : Nat) (lanes : Word) (addr : DWord) (hs : s.mem.wf = true) :
    (uceLanes s gid lanes addr).mem.wf = true := by
  unfold uceLanes
  grind [pitWrite_wf, killLanes_wf, updGroup_mem]

theorem cbHand_wf (s : State) (gid slot : Nat) (hs : s.mem.wf = true) :
    (cbHand s gid slot).mem.wf = true := by
  unfold cbHand
  grind [goOn_wf]

theorem cbServe_wf (s : State) (cl n : Nat) (prod : Bool) (hs : s.mem.wf = true) :
    (cbServe s cl n prod).mem.wf = true := by
  unfold cbServe
  grind [cbHand_wf, setCluster_mem]

theorem shaftServe_wf (s : State) (core : Nat) (prod : Bool) (hs : s.mem.wf = true) :
    (shaftServe s core prod).mem.wf = true := by
  unfold shaftServe
  grind [raiseCbbad_wf, setCore_mem, cbHand_wf, foldl_wf]

theorem dropRef_wf (s : State) (r : CmdRef) (hs : s.mem.wf = true) :
    (dropRef s r).mem.wf = true := by
  unfold dropRef
  grind

theorem wakeCore_wf (s : State) (core : Nat) (hs : s.mem.wf = true) :
    (wakeCore s core).mem.wf = true := by
  unfold wakeCore
  grind [dropRef_wf, setCore_mem]

theorem wakeGated_wf (s : State) (core : Nat) (hs : s.mem.wf = true) :
    (wakeGated s core).mem.wf = true := by
  unfold wakeGated
  grind [wakeCore_wf, statusWord_wf]

theorem refreshWhere_wf (s : State) (p : Group → Bool) (hs : s.mem.wf = true) :
    (refreshWhere s p).mem.wf = true := by
  unfold refreshWhere
  grind

theorem cbRelease_wf (s : State) (core : Nat) (h : HeldSlot) (hs : s.mem.wf = true) :
    (cbRelease s core h).mem.wf = true := by
  unfold cbRelease
  grind [setCore_mem, wakeGated_wf, shaftServe_wf, refreshWhere_wf, cbServe_wf, setCluster_mem]

theorem cbDisable_wf (s : State) (cl n : Nat) (hs : s.mem.wf = true) :
    (cbDisable s cl n).mem.wf = true := by
  unfold cbDisable
  grind [setCluster_mem, raiseCbbad_wf, foldl_wf]

theorem detachRings_wf (s : State) (bid : Nat) (hs : s.mem.wf = true) :
    (detachRings s bid).mem.wf = true := by
  unfold detachRings
  grind

theorem scrubSlice_wf (s : State) (bid : Nat) (hs : s.mem.wf = true) :
    (scrubSlice s bid).mem.wf = true := by
  unfold scrubSlice
  grind [zeroRange_wf]

theorem blockEnd_wf (s : State) (bid : Nat) (hs : s.mem.wf = true) :
    (blockEnd s bid).mem.wf = true := by
  unfold blockEnd
  grind [cbDisable_wf, scrubSlice_wf, detachRings_wf, foldl_wf]

theorem abandonFrags_wf (s : State) (gid : Nat) (hs : s.mem.wf = true) :
    (abandonFrags s gid).mem.wf = true := by
  unfold abandonFrags
  grind

theorem retire_wf (s : State) (gid : Nat) (hs : s.mem.wf = true) :
    (retire s gid).mem.wf = true := by
  unfold retire
  grind [settleAccesses_wf, cbRelease_wf, leaveWaits_wf, abandonFrags_wf, barRetire_wf, setCore_mem, blockEnd_wf,
    foldl_wf]

theorem endGroup_wf (s : State) (gid : Nat) (hs : s.mem.wf = true) :
    (endGroup s gid).mem.wf = true := by
  unfold endGroup
  grind [barRecount_wf, countArrived_wf, setGroup_mem, retire_wf]

/-! ### Machine/Groups -/

theorem addGroup_wf (s : State) (g : Group) (hs : s.mem.wf = true) :
    (addGroup s g).mem.wf = true := by
  unfold addGroup
  grind [freshId_wf]

/-! ### Machine/Issue -/

theorem Effect.alsoLanes_canonical {e : Effect} (he : e.Canonical) (lanes : Word) : (e.alsoLanes lanes).Canonical := by
  cases e <;> exact he

@[simp] theorem Effect.plain_canonical (s : State) : (Effect.plain s).Canonical ↔ s.mem.wf = true := Iff.rfl

theorem standAside_wf (s : State) (gid : Nat) (lanes : Word) (sp : Map Word) (hs : s.mem.wf = true) :
    (standAside s gid lanes sp).mem.wf = true := by
  unfold standAside
  grind [updGroup_mem]

theorem consume_wf (s : State) (gid : Nat) (ws : List RegId) (lanes : Word) (pc : DWord) (hs : s.mem.wf = true) :
    (consume s gid ws lanes pc).mem.wf = true := by
  unfold consume
  grind [updGroup_mem, uceLanes_wf, foldl_wf]

theorem haltAfter_wf (s : State) (gid : Nat) (g : Group) (hs : s.mem.wf = true) :
    (haltAfter s gid g).mem.wf = true := by
  unfold haltAfter
  grind [report_mem, setGroup_mem]

theorem boundary_wf (s : State) (gid : Nat) (hs : s.mem.wf = true) :
    (boundary s gid).mem.wf = true := by
  unfold boundary
  grind [endGroup_wf, haltAfter_wf]

theorem trapBoundary_wf (s : State) (gid : Nat) (i : TrapInfo) (hs : s.mem.wf = true) :
    (trapBoundary s gid i).mem.wf = true := by
  unfold trapBoundary
  grind [takeTrap_wf, endGroup_wf]

theorem haltTrapped_wf (s : State) (gid : Nat) (hs : s.mem.wf = true) :
    (haltTrapped s gid).mem.wf = true := by
  unfold haltTrapped
  grind [haltAfter_wf]

theorem lanesGone_wf (s : State) (gid : Nat) (hs : s.mem.wf = true) :
    (lanesGone s gid).mem.wf = true := by
  unfold lanesGone
  grind [endGroup_wf, countArrived_wf, leaveWaits_wf]

theorem raise_wf (s : State) (gid : Nat) (g : Group) (inChain : Bool) (c : Cause) (lanes : Word) (addr : DWord)
    (tins : Word) (hs : s.mem.wf = true) :
    (raise s gid g inChain c lanes addr tins).mem.wf = true := by
  unfold raise
  grind [trapBoundary_wf, setGroup_mem]

theorem fpTrap_wf (s : State) (gid : Nat) (c : Chain) (pc : DWord) (hs : s.mem.wf = true) :
    (fpTrap s gid c pc).mem.wf = true := by
  unfold fpTrap
  grind [haltTrapped_wf, trapBoundary_wf]

theorem complete_wf (s : State) (gid : Nat) (i : Instr) (os : List Opr) (c : Chain) (l : Latch) (fp : BitVec 5)
    (lanes : Word) (hs : s.mem.wf = true) :
    (complete s gid i os c l fp lanes).mem.wf = true := by
  unfold complete
  grind [setGroup_mem, boundary_wf, fpTrap_wf]

theorem settle_wf (s : State) (gid : Nat) (g : Group) (i : Instr) (os : List Opr) (c : Chain) (hs : s.mem.wf = true)
    {e : Effect} (he : e.Canonical) : (settle s gid g i os c e).mem.wf = true := by
  cases e <;> simp only [Effect.Canonical] at he <;> unfold settle <;>
    grind [complete_wf, ranHere_wf, updGroup_mem, boundary_wf, fpTrap_wf, raise_wf, haltTrapped_wf, trapBoundary_wf]

theorem readState_wf (s : State) (g : Group) (i : Instr) (hs : s.mem.wf = true) :
    (readState s g i).mem.wf = true := by
  unfold readState
  grind [updGroup_mem]

/-- A next state has its memory in canonical form. -/
def Keeps (o : Outcome) : Prop := ∀ t, o = .next t → t.mem.wf = true

theorem keeps_next {s : State} (hs : s.mem.wf = true) : Keeps (.next s) := by
  rintro t ⟨⟩
  exact hs

theorem keeps_ite {p : Prop} [Decidable p] {a b : Outcome} (ha : Keeps a) (hb : Keeps b) : Keeps (if p then a else b)
    := by
  split
  · exact ha
  · exact hb

/-! ### Machine/Saves -/

/-- An instruction whose effect keeps memory canonical does so with all that follows it. -/
theorem issue_keeps (i : Instr) {body : State → Nat → Group → Effect} (s : State)
    (hb : ∀ s gid g, s.mem.wf = true → (body s gid g).Canonical) (hs : s.mem.wf = true) : Keeps (issue i body s) := by
  unfold issue
  split
  next => exact keeps_next hs
  next g _ =>
    split
    next => exact keeps_next hs
    next =>
      dsimp only
      split
      next => exact keeps_next (raise_wf _ _ _ _ _ _ _ _ (ranHere_wf _ _ hs))
      next =>
        split
        next => exact keeps_next hs
        next =>
          split
          next => exact keeps_next (uceKill_wf _ _ _ (ranHere_wf _ _ hs))
          next =>
            have h1 := standAside_wf (readState s g i) s.cur (consuming s g i (oprsOf g.fmt i))
              (readSpecials s g (oprsOf g.fmt i)) (readState_wf _ _ _ hs)
            split
            next => exact keeps_next h1
            next g1 _ =>
              have he := Effect.map_canonical (fun t ht => consume_wf t s.cur (destinations s g i (oprsOf g.fmt i))
                (consuming s g i (oprsOf g.fmt i)) g.pc ht) (hb _ s.cur g1 h1)
              refine keeps_next (settle_wf _ _ _ _ _ _ hs ?_)
              split
              · exact Effect.alsoLanes_canonical he _
              · exact he

end Sys2Proof.Machine

/-! Memory in canonical form (O58): the shapes that instructions share, and the instructions about buffers, barriers,
surfaces and the matrix engine. -/

namespace Sys2Proof.Machine

open Assoc Bits State Sys2Proof.Machine.Float

/-! ### Machine/VectorInt -/

theorem lane1_wf (d a : Code) (nw : Bool) (f : Word → Word) (s : State) (gid : Nat) (g : Group) (hm : s.mem.wf = true) :
    (lane1 d a nw f s gid g).Canonical := by
  unfold lane1
  grind [setGroup_mem, Effect.Canonical]

theorem lane2_wf (d a b : Code) (nw : Bool) (f : Word → Word → Word) (s : State) (gid : Nat) (g : Group)
    (hm : s.mem.wf = true) :
    (lane2 d a b nw f s gid g).Canonical := by
  unfold lane2
  grind [setGroup_mem, Effect.Canonical]

theorem lanePair_wf (d a b : Code) (nw : Bool) (f : DWord → Word → DWord) (s : State) (gid : Nat) (g : Group)
    (hm : s.mem.wf = true) :
    (lanePair d a b nw f s gid g).Canonical := by
  unfold lanePair
  grind [setGroup_mem, Effect.Canonical]

/-! ### Machine/ScalarAlu -/

theorem scalar2_wf (d a b : Code) (nw : Bool) (f : Word → Word → Word) (s : State) (gid : Nat) (g : Group)
    (hm : s.mem.wf = true) :
    (scalar2 d a b nw f s gid g).Canonical := by
  unfold scalar2
  grind [setGroup_mem, Effect.Canonical]

theorem scalarImm_wf (d a : Code) (f : Word → Word) (s : State) (gid : Nat) (g : Group) (hm : s.mem.wf = true) :
    (scalarImm d a f s gid g).Canonical := by
  unfold scalarImm
  grind [setGroup_mem, Effect.Canonical]

/-! ### Machine/Masks -/

theorem mask2_wf (d a b : Code) (f : Word → Word → Word) (s : State) (gid : Nat) (g : Group) (hm : s.mem.wf = true) :
    (mask2 d a b f s gid g).Canonical := by
  unfold mask2
  grind [Effect.plain_canonical, setGroup_mem, Effect.Canonical]

/-! ### Machine/Control -/

theorem branch_wf (taken : Bool) (off : BitVec 16) (s : State) (gid : Nat) (g : Group) (hm : s.mem.wf = true) :
    (branch taken off s gid g).Canonical := by
  unfold branch
  grind [setGroup_mem, Effect.Canonical]

theorem branchScalar_wf (a : Code) (off : BitVec 16) (p : Int → Bool) (s : State) (gid : Nat) (g : Group)
    (hm : s.mem.wf = true) :
    (branchScalar a off p s gid g).Canonical := by
  unfold branchScalar
  grind [branch_wf, Effect.Canonical]

theorem branchMask_wf (a : Code) (off : BitVec 16) (p : Word → Word → Bool) (s : State) (gid : Nat) (g : Group)
    (hm : s.mem.wf = true) :
    (branchMask a off p s gid g).Canonical := by
  unfold branchMask
  grind [branch_wf, Effect.Canonical]

theorem jumpTo_wf (t : DWord) (s : State) (gid : Nat) (g : Group) (hm : s.mem.wf = true) :
    (jumpTo t s gid g).Canonical := by
  unfold jumpTo
  grind [setGroup_mem, Effect.Canonical]

/-! ### Machine/Buffers -/

theorem cbStore_wf (s : State) (cl bid n off size v : Nat) (hm : s.mem.wf = true) :
    ∀ t, cbStore s cl bid n off size v = some t → t.mem.wf = true := by
  intro t ht
  simp only [cbStore] at ht
  generalize cbMerge _ _ = c at ht
  generalize cbWriteBad _ _ _ _ = bad at ht
  cases bad with
  | true => cases ht
  | false =>
    by_cases he : c.en = true
    · rw [if_neg Bool.false_ne_true, if_pos he] at ht
      cases ht
      exact hm
    · rw [if_neg Bool.false_ne_true, if_neg he] at ht
      cases ht
      exact cbDisable_wf _ _ _ hm

theorem shaftGet_wf (d : Nat) (prod : Bool) (s : State) (gid : Nat) (g : Group) (hm : s.mem.wf = true) :
    (shaftGet d prod s gid g).Canonical := by
  unfold shaftGet
  grind [setCore_mem, setGroup_mem, Effect.plain_canonical, Effect.Canonical]

theorem bufferGet_wf (d n : Nat) (prod : Bool) (s : State) (gid : Nat) (g : Group) (hm : s.mem.wf = true) :
    (bufferGet d n prod s gid g).Canonical := by
  unfold bufferGet
  grind [setCluster_mem, setGroup_mem, Effect.plain_canonical, Effect.Canonical]

/-! ### Machine/Flags -/

theorem laneFlags_wf (s : State) (gid : Nat) (g g' : Group) (l : Latch) (r : Nat → Flags) (hm : s.mem.wf = true) :
    (laneFlags s gid g g' l r).Canonical := by
  unfold laneFlags
  grind [setGroup_mem, Effect.Canonical]

theorem groupFlags_wf (s : State) (gid : Nat) (g g' : Group) (l : Latch) (fl : Flags) (hm : s.mem.wf = true) :
    (groupFlags s gid g g' l fl).Canonical := by
  unfold groupFlags
  grind [setGroup_mem, Effect.Canonical]

theorem floatResult_wf (s : State) (gid : Nat) (g : Group) (d : Code) (nw pair : Bool) (r : Nat → Res)
    (hm : s.mem.wf = true) :
    (floatResult s gid g d nw pair r).Canonical := by
  unfold floatResult
  grind [laneFlags_wf, Effect.Canonical]

/-! ### Machine/Access -/

theorem laneFault_wf (f : AccFault × Word)  :
    (laneFault f).Canonical := by
  unfold laneFault
  grind [Effect.Canonical]

theorem readLine_wf (s : State) (gid core : Nat) (l : PendLoad) (cp : Option Nat) (line : Nat) (hm : s.mem.wf = true) :
    (readLine s gid core l cp line).mem.wf = true := by
  unfold readLine
  grind [llcRead_wf, fillCopy_wf, updGroup_mem]

theorem afterRead_wf (s : State) (gid : Nat) (l : PendLoad) (p : LoadPart) (hm : s.mem.wf = true) :
    (afterRead s gid l p).mem.wf = true := by
  unfold afterRead
  grind [updGroup_mem, readLine_wf, foldl_wf]

theorem returnAtoms_wf (s : State) (gid : Nat) (g : Group) (l : PendLoad) (hm : s.mem.wf = true) :
    (returnAtoms s gid g l).mem.wf = true := by
  unfold returnAtoms
  grind [atomLanes_wf, updGroup_mem, uceLanes_wf, foldl_wf]

theorem returnLoad_wf (s : State) (gid : Nat) (l : PendLoad) (hm : s.mem.wf = true) :
    (returnLoad s gid l).mem.wf = true := by
  unfold returnLoad
  grind [returnAtoms_wf, uceKill_wf, afterRead_wf, updGroup_mem, uceLanes_wf, foldl_wf]

theorem quiesce_wf (s : State) (gid : Nat) (hm : s.mem.wf = true) :
    (quiesce s gid).mem.wf = true := by
  unfold quiesce
  grind [settleAccesses_wf, returnLoad_wf, setGroup_mem, foldl_wf]

theorem issueLoad_wf (s : State) (gid : Nat) (l : PendLoad) (hs : List Hit) (hm : s.mem.wf = true) :
    (issueLoad s gid l hs).mem.wf = true := by
  unfold issueLoad
  grind [markHits_wf, updGroup_mem, returnLoad_wf]

theorem issueStores_wf (s : State) (gid : Nat) (ws : List PendStore) (hs : List Hit) (hm : s.mem.wf = true) :
    (issueStores s gid ws hs).mem.wf = true := by
  unfold issueStores
  grind [markHits_wf, updGroup_mem, applyWrite_wf, foldl_wf]

theorem cbStores_wf (s : State) (g : Group) (size : Nat) (hits : List (Nat × Hit)) (data : Nat → DWord)
    (hm : s.mem.wf = true) : (cbStores s g size hits data).1.mem.wf = true := by
  refine List.foldlRecOn (motive := fun r : State × List Nat => r.1.mem.wf = true) _ _ hm fun r hr e _ => ?_
  grind [cbStore_wf]

theorem cbNoted_wf (gid : Nat) (g : Group) (st : Nat) (rel : Bool) (size : Nat) (s : State) (hs : List Hit)
    (hm : s.mem.wf = true) :
    (cbNoted gid g st rel size s hs).mem.wf = true := by
  unfold cbNoted
  grind [noteWrite_mem, updGroup_mem, foldl_wf]

theorem storeLanes_wf (s : State) (gid : Nat) (g : Group) (st : Nat) (rel : Bool) (size : Nat) (addr : Nat → DWord)
    (hits : List (Nat × Hit)) (data : Nat → DWord) (hm : s.mem.wf = true) :
    (storeLanes s gid g st rel size addr hits data).Canonical := by
  unfold storeLanes
  grind [cbStores_wf, Effect.plain_canonical, issueStores_wf, cbNoted_wf, Effect.Canonical]

/-! ### Machine/Surface -/

theorem touchHandle_wf (s : State) (ctx hn : Nat) (hm : s.mem.wf = true) :
    (touchHandle s ctx hn).mem.wf = true := by
  unfold touchHandle
  grind [touchKey_mem]

/-! ### Machine/Engine -/

theorem engineCycle_wf (s : State) (core : Nat) (hm : s.mem.wf = true) :
    (engineCycle s core).mem.wf = true := by
  unfold engineCycle
  grind [setCore_mem, touchKey_mem, setGroup_mem, foldl_wf]

theorem enqueue_wf (s : State) (gid : Nat) (g : Group) (t left : Nat) (act : MatrixAct) (hm : s.mem.wf = true) :
    (enqueue s gid g t left act).mem.wf = true := by
  unfold enqueue
  grind [setCore_mem, setGroup_mem]

/-! ### Machine/Order -/

theorem fenceIssued_wf (s : State) (gid : Nat) (streams : Word) (scope : Nat) (hm : s.mem.wf = true) :
    (fenceIssued s gid streams scope).mem.wf = true := by
  unfold fenceIssued
  grind [updGroup_mem]

theorem writeBack_wf (s : State) (core : Nat) (lines : List Nat) (hm : s.mem.wf = true) :
    (writeBack s core lines).mem.wf = true := by
  unfold writeBack
  grind [reachHome_wf, foldl_wf]

theorem cleanLlc_wf (s : State) (lines : List Nat) (hm : s.mem.wf = true) :
    (cleanLlc s lines).mem.wf = true := by
  unfold cleanLlc
  grind

theorem invalidateL1_wf (s : State) (core : Nat) (lines : List Nat) (hm : s.mem.wf = true) :
    (invalidateL1 s core lines).mem.wf = true := by
  unfold invalidateL1
  grind [dropCopy_wf, foldl_wf]

theorem zeroPart_wf (s : State) (gid : Nat) (g : Group) (st : Nat) (h : Hit) (n : Nat) (hm : s.mem.wf = true) :
    (zeroPart s gid g st h n).mem.wf = true := by
  unfold zeroPart
  grind [zeroPlaces_wf, foldl_wf]

theorem ownWrites_wf (s : State) (gid st n : Nat) (hm : s.mem.wf = true) :
    (ownWrites s gid st n).mem.wf = true := by
  unfold ownWrites
  grind [updGroup_mem]

theorem rangeEffect_wf (k : RangeKind) (s : State) (gid : Nat) (g : Group) (st : Nat) (hs : List (Hit × Nat))
    (hm : s.mem.wf = true) :
    (rangeEffect k s gid g st hs).mem.wf = true := by
  unfold rangeEffect
  grind [cleanLlc_wf, writeBack_wf, invalidateL1_wf, ownWrites_wf, zeroPart_wf, foldl_wf]

theorem rangeOp_wf (k : RangeKind) (st : BitVec 4) (a b : Code) (s : State) (gid : Nat) (g : Group)
    (hm : s.mem.wf = true) :
    (rangeOp k st a b s gid g).Canonical := by
  unfold rangeOp
  grind [Effect.plain_canonical, markHits_wf, rangeEffect_wf, touchPlace_mem, foldl_wf, Effect.Canonical]

theorem postPage_wf (s : State) (ctx core : Nat) (page : Nat) (hm : s.mem.wf = true) :
    (postPage s ctx core page).mem.wf = true := by
  unfold postPage
  grind

/-! ### Machine/Matrix -/

theorem matrixOp_wf (many : Bool) (d a b : Code) (s : State) (gid : Nat) (g : Group) (hm : s.mem.wf = true) :
    (matrixOp many d a b s gid g).Canonical := by
  unfold matrixOp
  grind [setCluster_mem, Effect.plain_canonical, enqueue_wf, Effect.Canonical]

end Sys2Proof.Machine

/-! Memory in canonical form (O58): groups made, fetches answered, draws, surfaces, handles and their moves. -/

namespace Sys2Proof.Machine

open Assoc Bits State Sys2Proof.Machine.Float

/-! ### Machine/Blocks -/

theorem createOn_wf (s : State) (l : Launch) (lid bid core : Nat) (wid entry : DWord) (f : Group → Group)
    (hm : s.mem.wf = true) :
    (createOn s l lid bid core wid entry f).mem.wf = true := by
  unfold createOn
  grind [addGroup_wf]

/-! ### Machine/Headers -/

theorem ctxRead_wf (s : State) (ag : Agent) (va : DWord) (n : Nat) (hm : s.mem.wf = true) :
    ∀ u y, ctxRead s ag va n = some (u, y) → u.mem.wf = true := by
  intro u y h
  rw [ctxRead, Option.map_eq_some_iff] at h
  obtain ⟨hs, -, hr⟩ := h
  cases hr
  exact foldl_wf (fun s e hm => readMark_wf s e.1.cp e.1 e.2 hm) _ _ hm

theorem ctxStore_wf (s : State) (ag : Agent) (va : DWord) (n v : Nat) (hm : s.mem.wf = true) :
    (ctxStore s ag va n v).mem.wf = true := by
  unfold ctxStore
  grind [store_wf, markHits_wf, storeUnder_wf]

theorem readSave_wf (s : State) (ag : Agent) (h : Header) (hm : s.mem.wf = true) :
    ∀ u y, readSave s ag h = some (u, y) → u.mem.wf = true := by
  unfold readSave
  grind [ctxRead_wf]

/-! ### Machine/Placement -/

theorem createGroups_wf (l : Launch) (lid bid cl : Nat) (bw : DWord) : ∀ (n k : Nat) (s : State), s.mem.wf = true →
    (createGroups l lid bid cl bw n k s).mem.wf = true := by
  intro n
  induction n with
  | zero => exact fun k s hm => hm
  | succ n ih =>
    intro k s hm
    rw [createGroups]
    grind [createOn_wf]

theorem launchStatus_wf (s : State) (lid v : Nat) (hm : s.mem.wf = true) :
    (launchStatus s lid v).mem.wf = true := by
  unfold launchStatus
  grind [statusWord_wf, updLaunch_mem]

theorem placeNew_wf (s : State) (lid : Nat) (l : Launch) (cl : Nat) (hm : s.mem.wf = true) :
    (placeNew s lid l cl).mem.wf = true := by
  unfold placeNew
  grind [freshId_wf, setBlock_mem, updLaunch_mem, createGroups_wf, launchStatus_wf]

theorem resumeGroup_wf (s : State) (gid : Nat) (hm : s.mem.wf = true) :
    (resumeGroup s gid).mem.wf = true := by
  unfold resumeGroup
  grind [setGroup_mem, goToNext_wf, goOn_wf, raiseCbbad_wf]

theorem seatGroup_wf (h : Header) (cl : Nat) (s : State) (gid : Nat) (hm : s.mem.wf = true) :
    (seatGroup h cl s gid).mem.wf = true := by
  unfold seatGroup
  grind [resumeGroup_wf, updGroup_mem]

theorem placeSaved_wf (s : State) (lid : Nat) (l : Launch) (bid : Nat) (b : Block) (cl : Nat) (hm : s.mem.wf = true) :
    (placeSaved s lid l bid b cl).mem.wf = true := by
  unfold placeSaved
  grind [setCluster_mem, setBlock_mem, zeroRange_wf, writeCells_wf, poison_mem, updLaunch_mem, seatGroup_wf,
    launchStatus_wf, foldl_wf]

theorem placeBid_wf (s : State) (b : Bid) (hm : s.mem.wf = true) :
    (placeBid s b).mem.wf = true := by
  unfold placeBid
  grind [placeNew_wf, placeSaved_wf]

theorem clearPassed_wf (s : State) (lid : Nat) (hm : s.mem.wf = true) :
    (clearPassed s lid).mem.wf = true := by
  unfold clearPassed
  grind

/-! ### Machine/Draws -/

theorem checkDraw_wf (s : State) (g : Group) (l : Launch) (va : DWord) (hm : s.mem.wf = true) :
    ∀ u y, checkDraw s g l va = some (u, y) → u.mem.wf = true := by
  intro u y h
  simp only [checkDraw] at h
  split at h
  · cases h
  split at h
  · cases h
  next s1 bs h1 =>
    have m1 := ctxRead_wf _ _ _ _ hm _ _ h1
    split at h
    · cases h
    split at h
    · cases h
    next s2 hb h2 =>
      have m2 := ctxRead_wf _ _ _ _ m1 _ _ h2
      split at h
      · cases h
      next s3 sv h3 =>
        have m3 := readSave_wf _ _ _ m2 _ _ h3
        rw [Option.ite_none_left_eq_some] at h
        cases h.2
        exact m3

theorem bindDraw_wf (s : State) (g : Group) (va : DWord) (hm : s.mem.wf = true) :
    ∀ u y, bindDraw s g va = some (u, y) → u.mem.wf = true := by
  unfold bindDraw
  grind [checkDraw_wf]

theorem writeRecords_wf (s : State) (gid : Nat) (g : Group) (d : Draw) (lnum c : Nat) (hs : List (Nat × Hit))
    (hm : s.mem.wf = true) :
    (writeRecords s gid g d lnum c hs).mem.wf = true := by
  unfold writeRecords
  grind [storeBy_wf, markHits_wf, foldl_wf]

theorem setDraw_wf (s : State) (lid : Nat) (f : Draw → Draw) (hm : s.mem.wf = true) :
    (setDraw s lid f).mem.wf = true := by
  unfold setDraw
  grind [updLaunch_mem]

theorem createPixel_wf (s : State) (lid : Nat) (l : Launch) (d : Draw) (prim : Nat) (rec : List Word) (t : Tri)
    (h : Sfte) (r : Nat × Nat) (hm : s.mem.wf = true) :
    ∀ u, createPixel s lid l d prim rec t h r = some u → u.mem.wf = true := by
  unfold createPixel
  grind [freshId_wf, setBlock_mem, addGroup_wf]

theorem drawWrite_wf (s : State) (l : Launch) (d : Draw) (off n v : Nat) (hm : s.mem.wf = true) :
    (drawWrite s l d off n v).mem.wf = true := by
  unfold drawWrite
  grind [store_wf, markHit_wf, storeHit_wf]

theorem emitted_wf (s : State) (l : Launch) (d : Draw) (p : Nat) (hm : s.mem.wf = true) :
    (emitted s l d p).1.mem.wf = true := by
  unfold emitted
  grind [ctxRead_wf]

theorem endRaster_wf (s : State) (lid : Nat) (l : Launch) (d : Draw) (hm : s.mem.wf = true) :
    (endRaster s lid l d).mem.wf = true := by
  unfold endRaster
  grind [drawWrite_wf, setDraw_wf]

theorem setHand_wf (s : State) (st : Nat) (rs : List RasterNow) (hm : s.mem.wf = true) :
    (setHand s st rs).mem.wf = true := by
  unfold setHand
  grind

theorem giveFronts_wf (s : State) (r : RasterNow) (hm : s.mem.wf = true) :
    (giveFronts s r).mem.wf = true := by
  unfold giveFronts
  grind [setHand_wf, foldl_wf]

theorem nextPrimitive_wf (s : State) (lid : Nat) (l : Launch) (d : Draw) (hm : s.mem.wf = true) :
    (nextPrimitive s lid l d).mem.wf = true := by
  unfold nextPrimitive
  grind [setDraw_wf, drawWrite_wf, endRaster_wf, emitted_wf, giveFronts_wf]

theorem advanceFront_wf (s : State) (lid : Nat) (l : Launch) (d : Draw) (st : Nat) (hm : s.mem.wf = true) :
    ∀ u, advanceFront s lid l d st = some u → u.mem.wf = true := by
  unfold advanceFront
  grind [createPixel_wf, setHand_wf, Option.map_eq_some_iff]

/-! ### Machine/Spills -/

theorem setHandleState_wf (s : State) (key : Nat) (st : HandleState) (hm : s.mem.wf = true) :
    (setHandleState s key st).mem.wf = true := by
  unfold setHandleState
  grind

theorem startRestores_wf (s : State) (hm : s.mem.wf = true) :
    (startRestores s).mem.wf = true := by
  unfold startRestores
  grind [setHandleState_wf, foldl_wf]

theorem writeBase_wf (s : State) (r : AllocReq) (base : Nat) (hm : s.mem.wf = true) :
    (writeBase s r base).mem.wf = true := by
  unfold writeBase
  grind [store_wf, markHit_wf, storeHit_wf]

theorem allocateAt_wf (s : State) (r : AllocReq) (base : Nat) (hm : s.mem.wf = true) :
    (allocateAt s r base).mem.wf = true := by
  unfold allocateAt
  grind [freshId_wf, setHandle_mem, statusWord_wf, writeBase_wf]

/-- Every state that an act of an allocation leaves has its memory in canonical form. -/
def AllocStep.Canonical : AllocStep → Prop
  | .done s | .waits s _ => s.mem.wf = true

theorem allocAct_wf (s : State) (r : AllocReq) (base : Nat) (hm : s.mem.wf = true) : (allocAct s r base).Canonical := by
  unfold allocAct
  grind [statusWord_wf, allocateAt_wf, setHandleState_wf, AllocStep.Canonical]

theorem freeHandle_wf (s : State) (key : Nat) (hm : s.mem.wf = true) :
    (freeHandle s key).mem.wf = true := by
  unfold freeHandle
  grind [zeroRange_wf, startRestores_wf]

theorem clearLlcRows_wf (s : State) (stack : Nat) (hm : s.mem.wf = true) :
    (clearLlcRows s stack).mem.wf = true := by
  unfold clearLlcRows
  grind

theorem writeSmcfg_wf (s : State) (stack : Nat) (v : Word) (hm : s.mem.wf = true) :
    (writeSmcfg s stack v).mem.wf = true := by
  unfold writeSmcfg
  grind [setStack_mem, clearLlcRows_wf]

/-! ### Machine/Completion -/

theorem writeFinal_wf (s : State) (lid : Nat) (hm : s.mem.wf = true) :
    (writeFinal s lid).mem.wf = true := by
  unfold writeFinal
  grind [launchStatus_wf, report_mem]

theorem corePassed_wf (s : State) (core : Nat) (hm : s.mem.wf = true) :
    (corePassed s core).mem.wf = true := by
  unfold corePassed
  grind [complete_wf, writeFinal_wf, foldl_wf]

theorem coreSuspect_wf (s : State) (core : Nat) (hm : s.mem.wf = true) :
    (coreSuspect s core).mem.wf = true := by
  unfold coreSuspect
  grind [complete_wf, writeFinal_wf, foldl_wf]

/-! ### Machine/Hops -/

theorem sendLane_wf (g : Group) (gid : Nat) (s : State) (e : Nat × Word) (hm : s.mem.wf = true) :
    (sendLane g gid s e).mem.wf = true := by
  unfold sendLane
  grind [sendReturn_wf, updGroup_mem]

theorem sendOut_wf (out : List (Nat × Word)) (m7 : Word) (s : State) (gid : Nat) (g : Group) (hm : s.mem.wf = true) :
    (sendOut out m7 s gid g).Canonical := by
  unfold sendOut
  grind [sendLane_wf, updGroup_mem, Effect.plain_canonical, foldl_wf, Effect.Canonical]

theorem sendLanes_wf (os : List (Nat × Word)) (nres : Bool) (s : State) (gid : Nat) (g : Group) (hm : s.mem.wf = true) :
    (sendLanes os nres s gid g).Canonical := by
  unfold sendLanes
  grind [Effect.plain_canonical, setGroup_mem, quiesce_wf, sendOut_wf, Effect.Canonical]

end Sys2Proof.Machine

/-! Memory in canonical form (O58): near-bank units, copy engines, rings and combines. -/

namespace Sys2Proof.Machine

open Assoc Bits State Sys2Proof.Machine.Float

/-! ### Machine/Hops -/

theorem returnValues_wf (s : State) (g : Group) (hm : s.mem.wf = true) :
    (returnValues s g).mem.wf = true := by
  unfold returnValues
  grind [sendReturn_wf, foldl_wf]

/-! ### Machine/EngineOps -/

theorem noteRecord_wf (s : State) (gid st : Nat) (r : RecordRead) (hm : s.mem.wf = true) :
    (noteRecord s gid st r).mem.wf = true := by
  unfold noteRecord
  grind [markHits_wf, updGroup_mem, afterRead_wf, foldl_wf]

theorem finishOp_wf (s : State) (oid : Nat) (w : Word) (hm : s.mem.wf = true) :
    (finishOp s oid w).mem.wf = true := by
  unfold finishOp
  grind [updGroup_mem, dropRef_wf, statusWord_wf]

theorem startOp_wf (s : State) (gid : Nat) (o : EngineOp) (hm : s.mem.wf = true) :
    (startOp s gid o).mem.wf = true := by
  unfold startOp
  grind [freshId_wf, setOp_mem, updGroup_mem]

theorem endAtOnce_wf (s : State) (gid : Nat) (d : Nat) (code count : Nat) (hm : s.mem.wf = true) :
    (endAtOnce s gid d code count).mem.wf = true := by
  unfold endAtOnce
  grind [updGroup_mem]

theorem opRead_wf (o : EngineOp) (s : State) (h : Hit) (n : Nat) (hm : s.mem.wf = true) :
    (opRead o s h n).mem.wf = true := by
  unfold opRead
  grind [readMark_wf]

theorem engineUce_wf (s : State) (o : EngineOp) (loc : Nat) (hm : s.mem.wf = true) :
    (engineUce s o loc).mem.wf = true := by
  unfold engineUce
  grind [pitWrite_wf]

theorem meet_wf (s : State) (o : EngineOp) (seen : Bool) (loc : Option Nat) (hm : s.mem.wf = true) :
    (meet s o seen loc).mem.wf = true := by
  unfold meet
  grind [engineUce_wf]

theorem engineStore_wf (o : EngineOp) (s : State) (h : Hit) (bs : List Byte) (hm : s.mem.wf = true) :
    (engineStore o s h bs).mem.wf = true := by
  unfold engineStore
  grind [updGroup_mem, storeUnder_wf]

/-! ### Machine/NearBank -/

theorem bankIssue_wf (n : Nat) (cmd : List Byte → BankCmd) (d a : Code) (st : BitVec 4) (s : State) (gid : Nat)
    (g : Group) (hm : s.mem.wf = true) :
    (bankIssue n cmd d a st s gid g).Canonical := by
  unfold bankIssue
  grind [uceKill_wf, Effect.plain_canonical, endAtOnce_wf, noteRecord_wf, startOp_wf, Effect.Canonical]

/-- Every state that a command's outcome holds has its memory in canonical form. -/
def BankEnd.Canonical : BankEnd → Prop
  | .ends r => r.s.mem.wf = true
  | .goes s _ => s.mem.wf = true

theorem bankRead_wf (o : EngineOp) : ∀ (k : Nat) (va : DWord) (seen : Bool) (s : State), s.mem.wf = true →
    (bankRead o k va seen s).1.mem.wf = true := by
  intro k
  induction k with
  | zero => exact fun _ _ _ hm => hm
  | succ k ih =>
    intro va seen s hm
    rw [bankRead]
    grind [meet_wf, opRead_wf]

theorem ivsWrite_wf (s : State) (ch off : Nat) (bs : List (Byte × Bool)) (hm : s.mem.wf = true) :
    (ivsWrite s ch off bs).mem.wf = true := by
  unfold ivsWrite
  grind [poison_mem, writeCells_wf]

theorem ivStep_wf (o : EngineOp) (r : List Byte) (s : State) (hm : s.mem.wf = true) : (ivStep o r s).Canonical := by
  have h := bankRead_wf o (ivUnits r) (ivSrc r) o.poisoned s hm
  unfold ivStep
  grind [ivsWrite_wf, BankEnd.Canonical]

theorem bmOld_wf (o : EngineOp) (r : List Byte) (va : DWord) (s : State) (hm : s.mem.wf = true) :
    ∀ u y, bmOld o r va s = .ok (u, y) → u.mem.wf = true := by
  unfold bmOld
  grind [opRead_wf]

theorem bmRun_wf (o : EngineOp) (r : List Byte) : ∀ (n i : Nat) (bad : Bool) (fl : Flags) (s : State), s.mem.wf = true →
    (bmRun o r n i bad fl s).s.mem.wf = true := by
  intro n
  induction n with
  | zero => exact fun _ _ _ _ hm => hm
  | succ n ih =>
    intro i bad fl s hm
    rw [bmRun]
    have hold := bmOld_wf o r (bmOut r + BitVec.ofNat 64 ((if bmObf r then 2 else 4) * i)) s hm
    dsimp only
    split
    · exact hm
    split
    · exact hm
    · next h _ => exact hold _ _ h
    · next h _ => exact ih _ _ _ _ (engineStore_wf _ _ _ _ (markHit_wf _ _ (meet_wf _ _ _ _ (hold _ _ h))))

theorem bmDo_wf (o : EngineOp) (r : List Byte) (s : State) (hm : s.mem.wf = true) : (bmDo o r s).s.mem.wf = true := by
  unfold bmDo
  grind [bmRun_wf, touchHandle_wf]

theorem rowRead_wf (o : EngineOp) (r : List Byte) : ∀ (k : Nat) (va : DWord) (seen : Bool) (s : State), s.mem.wf =
    true →
    (rowRead o r k va seen s).1.mem.wf = true := by
  intro k
  induction k with
  | zero => exact fun _ _ _ hm => hm
  | succ k ih =>
    intro va seen s hm
    rw [rowRead]
    grind [meet_wf, opRead_wf]

theorem emWord_wf (s : State) (o : EngineOp) (va : DWord) (seen : Bool) (hm : s.mem.wf = true) :
    ∀ u y, emWord s o va seen = .ok (u, y) → u.mem.wf = true := by
  unfold emWord
  grind [meet_wf, opRead_wf]

theorem emWeight_wf (s : State) (o : EngineOp) (r : List Byte) (i : Nat) (seen : Bool) (hm : s.mem.wf = true) :
    ∀ u y, emWeight s o r i seen = .ok (u, y) → u.mem.wf = true := by
  unfold emWeight
  grind [emWord_wf]

/-- The state of a walk, whole or stopped. -/
def walkState : Except (Nat × Nat × State) (EmWalk × State) → State
  | .ok (_, s) | .error (_, _, s) => s

theorem emWalk_wf (o : EngineOp) (r : List Byte) : ∀ (n i : Nat) (k : EmWalk) (s : State), s.mem.wf = true →
    (walkState (emWalk o r n i k s)).mem.wf = true := by
  intro n
  induction n with
  | zero => exact fun _ _ _ hm => hm
  | succ n ih =>
    intro i k s hm
    rw [emWalk]
    split
    · exact hm
    next s1 ix ixBad h1 =>
      have m1 := emWord_wf _ _ _ _ hm _ _ h1
      split
      · exact ih _ _ _ m1
      split
      · exact ih _ _ _ m1
      split
      · exact m1
      next s2 w wBad h2 =>
        have m2 := emWeight_wf _ _ _ _ _ m1 _ _ h2
        have m3 := rowRead_wf o r (emRowU r) (emTbl r + BitVec.ofNat 64 (64 * emRowU r * ix))
          (wBad || k.accs.any (·.bad)) s2 m2
        split
        · next h3 => rw [h3] at m3; exact m3
        · next h3 => rw [h3] at m3; exact ih _ _ _ m3

theorem emOutput_wf (o : EngineOp) (r : List Byte) : ∀ (vs : List Res) (e : Nat) (fl : Flags) (s : State),
    s.mem.wf = true → (emOutput o r e vs fl s).1.mem.wf = true := by
  intro vs
  induction vs with
  | nil => exact fun _ _ _ hm => hm
  | cons v vs ih =>
    intro e fl s hm
    rw [emOutput]
    split
    · exact hm
    · exact ih _ _ _ (engineStore_wf _ _ _ _ (markHit_wf _ _ hm))

theorem emDo_wf (o : EngineOp) (r : List Byte) (s : State) (hm : s.mem.wf = true) : (emDo o r s).s.mem.wf = true := by
  have h0 : (if emTv r then touchHandle s o.ctx (emHandle r) else s).mem.wf = true := by
    split
    · exact touchHandle_wf _ _ _ hm
    · exact hm
  have h1 := emWalk_wf o r (emNidx r) 0 ⟨0, false, List.replicate (emElems r) ⟨0, 0, false⟩⟩ _ h0
  unfold emDo
  split
  · exact hm
  dsimp only
  split
  · next h => rw [h] at h1; exact h1
  next k s1 h =>
    rw [h] at h1
    have h2 := emOutput_wf o r (k.accs.map (emFinal r k.used)) 0 0 s1 h1
    split
    · next h => rw [h] at h2; exact h2
    · next h => rw [h] at h2; exact h2

theorem bankDo_wf (o : EngineOp) (s : State) (hm : s.mem.wf = true) : ∀ u, bankDo o s = some u → u.Canonical := by
  unfold bankDo
  grind [ivStep_wf, bmDo_wf, emDo_wf, BankEnd.Canonical]

/-! ### Machine/Copies -/

theorem engineIssue_wf (s : State) (gid : Nat) (g : Group) (r : RecordRead) (o : EngineOp) (bad : Option Nat)
    {begin_ : State → State} (hb : ∀ s, s.mem.wf = true → (begin_ s).mem.wf = true) (hm : s.mem.wf = true) :
    (engineIssue s gid g r o bad begin_).Canonical := by
  have hn := noteRecord_wf s gid o.stream r hm
  have h1 := fun o' => startOp_wf _ gid o' (hb _ hn)
  unfold engineIssue
  grind [Effect.plain_canonical, endAtOnce_wf, Effect.Canonical]

theorem putElem_wf (o : EngineOp) (slot : Bool) (h : Hit) (bs : List Byte) (bad : Bool) (s : State)
    (hm : s.mem.wf = true) :
    (putElem o slot h bs bad s).mem.wf = true := by
  unfold putElem
  grind [poison_mem, storeUnder_wf, store_wf, engineStore_wf]

theorem readElem_wf (o : EngineOp) (size : Nat) (src : Except Nat DWord) (s : State) (hm : s.mem.wf = true) :
    ∀ u y, readElem o size src s = .ok (u, y) → u.mem.wf = true := by
  unfold readElem
  grind [opRead_wf]

theorem sourceRow_wf (o : EngineOp) (size : Nat) (src : Nat → Except Nat DWord) : ∀ (n x : Nat) (seen : Bool)
    (s : State),
    s.mem.wf = true → (sourceRow o size src n x seen s).1.mem.wf = true := by
  intro n
  induction n with
  | zero => exact fun _ _ _ hm => hm
  | succ n ih =>
    intro x seen s hm
    rw [sourceRow]
    split
    · exact hm
    · next h => exact ih _ _ _ (meet_wf _ _ _ _ (readElem_wf _ _ _ _ hm _ _ h))

/-- The state that a moved element leaves, or one whose address failed. -/
def movedState : Except (Nat × State) (State × Bool) → State
  | .ok (s, _) | .error (_, s) => s

theorem moveElem_wf (o : EngineOp) (size : Nat) (seen : Bool) (src : Except Nat DWord) (dst : Except DWord Nat)
    (s : State)
    (hm : s.mem.wf = true) : (movedState (moveElem o size seen src dst s)).mem.wf = true := by
  unfold moveElem
  split
  · exact hm
  next s1 bs bad h =>
    have m1 := meet_wf s1 o seen bad (readElem_wf _ _ _ _ hm _ _ h)
    dsimp only
    split
    · exact putElem_wf _ _ _ _ _ _ m1
    split
    · exact m1
    · exact putElem_wf _ _ _ _ _ _ (markHit_wf _ _ m1)

theorem moveRow_wf (o : EngineOp) (size : Nat) (src : Nat → Except Nat DWord) (dst : Nat → Except DWord Nat) :
    ∀ (n x : Nat) (bad : Bool) (s : State), s.mem.wf = true → (moveRow o size src dst n x bad s).1.mem.wf = true := by
  intro n
  induction n with
  | zero => exact fun _ _ _ hm => hm
  | succ n ih =>
    intro x bad s hm
    rw [moveRow]
    have h := moveElem_wf o size bad (src x) (dst x) s hm
    split
    · next he => rw [he] at h; exact h
    · next he => rw [he] at h; exact ih _ _ _ h

theorem copySlot_wf (s : State) (o : EngineOp) (r : List Byte) (hm : s.mem.wf = true) :
    ∀ u y, copySlot s o r = .ok (some (u, y)) → u.mem.wf = true := by
  unfold copySlot
  grind [setCore_mem, setCluster_mem]

theorem copyRows_wf (o : EngineOp) (r : List Byte) : ∀ (n row : Nat) (bad : Bool) (s : State), s.mem.wf = true →
    (copyRows o r n row bad s).1.mem.wf = true := by
  intro n
  induction n with
  | zero => exact fun _ _ _ hm => hm
  | succ n ih =>
    intro row bad s hm
    rw [copyRows]
    split
    · split
      · exact hm
      · exact hm
      next s1 loc h hs =>
        have m1 := copySlot_wf _ _ _ hm _ _ hs
        have m2 := sourceRow_wf o (cdSize r) (rowSrc r row) (cdNx r) 0 bad s hm
        have m3 := moveRow_wf o (cdSize r) (rowSrc r row) (fun x => .ok (loc + x * cdSize r)) (cdNx r) 0 bad s1 m1
        split
        · next he => rw [he] at m2; exact m2
        split
        · next he => rw [he] at m3; exact m3
        · next he => rw [he] at m3; exact ih _ _ _ (cbRelease_wf _ _ _ m3)
    · have m3 := moveRow_wf o (cdSize r) (rowSrc r row) (fun x => .error (rowDst r row x)) (cdNx r) 0 bad s hm
      split
      · next he => rw [he] at m3; exact m3
      · next he => rw [he] at m3; exact ih _ _ _ m3

theorem endRing_wf (s : State) (oid : Nat) (o : EngineOp) (w : Word) (hm : s.mem.wf = true) :
    (endRing s oid o w).mem.wf = true := by
  unfold endRing
  grind [finishOp_wf, scrubSlice_wf]

theorem ringCopy_wf (o : EngineOp) (e : List Byte) (s : State) (hm : s.mem.wf = true) :
    (ringCopy o e s).1.mem.wf = true := by
  unfold ringCopy
  grind [moveRow_wf]

theorem writeDones_wf (s : State) (loc done : Nat) (n : Nat) (hm : s.mem.wf = true) :
    (writeDones s loc done n).mem.wf = true := by
  unfold writeDones
  grind [storeNat_wf, foldl_wf]

theorem tileRead_wf (o : EngineOp) : ∀ (k : Nat) (va : DWord) (seen : Bool) (s : State), s.mem.wf = true →
    (tileRead o k va seen s).1.mem.wf = true := by
  intro k
  induction k with
  | zero => exact fun _ _ _ hm => hm
  | succ k ih =>
    intro va seen s hm
    rw [tileRead]
    grind [meet_wf, opRead_wf]

theorem writeVals_wf (o : EngineOp) (bf : Bool) : ∀ (vs : List (Word × Bool)) (va : DWord) (s : State), s.mem.wf =
    true →
    (writeVals o bf va vs s).mem.wf = true := by
  intro vs
  induction vs with
  | nil => exact fun _ _ hm => hm
  | cons v vs ih =>
    intro va s hm
    rw [writeVals]
    split
    · exact hm
    · exact ih _ _ (putElem_wf _ _ _ _ _ _ (markHit_wf _ _ hm))

theorem combineWrite_wf (s : State) (p : CombinePart) (done : Nat) (hm : s.mem.wf = true) :
    (combineWrite s p done).mem.wf = true := by
  unfold combineWrite
  grind [writeVals_wf, store_wf, storeHit_wf, markHit_wf]

/-! ### Machine/Queues -/

theorem writeDesc_wf (s : State) (q off v : Nat) (hm : s.mem.wf = true) :
    (writeDesc s q off v).mem.wf = true := by
  unfold writeDesc
  grind [store_wf]

end Sys2Proof.Machine

/-! Memory in canonical form (O58): queues, their commands, launches and what a command reads. -/

namespace Sys2Proof.Machine

open Assoc Bits State Sys2Proof.Machine.Float

/-! ### Machine/Queues -/

theorem fetchCmd_wf (s : State) (q : Nat) (hm : s.mem.wf = true) : ∀ u c, fetchCmd s q = .cmd u c → u.mem.wf = true :=
    by
  unfold fetchCmd
  grind [ctxRead_wf]

theorem updQueue_wf (s : State) (q : Nat) (f : Queue → Queue) (hm : s.mem.wf = true) : (updQueue s q f).mem.wf = true
    := hm

theorem stopQueue_wf (s : State) (q code : Nat) (hm : s.mem.wf = true) :
    (stopQueue s q code).mem.wf = true := by
  unfold stopQueue
  grind [writeDesc_wf, report_mem, updQueue_wf]

theorem setHead_wf (s : State) (q n : Nat) (hm : s.mem.wf = true) :
    (setHead s q n).mem.wf = true := by
  unfold setHead
  grind [updQueue_wf, writeDesc_wf]

theorem nextRecord_wf (s : State) (c : Cmd) (hm : s.mem.wf = true) :
    (nextRecord s c).mem.wf = true := by
  unfold nextRecord
  grind [setHead_wf]

theorem holdCmd_wf (s : State) (c : Cmd) (hm : s.mem.wf = true) :
    (holdCmd s c).mem.wf = true := by
  unfold holdCmd
  grind [updQueue_wf]

theorem addRef_wf (s : State) (q : Nat) (r : CmdRef) (hm : s.mem.wf = true) :
    (addRef s q r).mem.wf = true := by
  unfold addRef
  grind [updQueue_wf]

theorem restartQueue_wf (s : State) (q : Nat) (hm : s.mem.wf = true) :
    (restartQueue s q).mem.wf = true := by
  unfold restartQueue
  grind [updQueue_wf, writeDesc_wf]

theorem restartTouched_wf (s : State) (loc n : Nat) (hm : s.mem.wf = true) :
    (restartTouched s loc n).mem.wf = true := by
  unfold restartTouched
  grind [restartQueue_wf, foldl_wf]

theorem serve_wf (s : State) (q : Nat) (hm : s.mem.wf = true) :
    (serve s q).mem.wf = true := by
  unfold serve
  grind

theorem condWord_wf (s : State) (c : Cmd) (hm : s.mem.wf = true) :
    ∀ u y, condWord s c = some (u, y) → u.mem.wf = true := by
  intro u y h
  rw [condWord, Option.ite_none_left_eq_some, Option.map_eq_some_iff] at h
  obtain ⟨-, r, hr, he⟩ := h
  cases he
  exact ctxRead_wf _ _ _ _ hm _ _ hr

theorem setOpens_wf (s : State) (q : Nat) (os : List CmdOpen) (hm : s.mem.wf = true) :
    (setOpens s q os).mem.wf = true := by
  unfold setOpens
  grind [updQueue_wf]

theorem passOver_wf (s : State) (c : Cmd) (hm : s.mem.wf = true) :
    (passOver s c).mem.wf = true := by
  unfold passOver
  grind [stopQueue_wf, nextRecord_wf, setOpens_wf]

theorem fireSignal_wf (s : State) (c : Cmd) (hm : s.mem.wf = true) :
    (fireSignal s c).mem.wf = true := by
  unfold fireSignal
  grind [store_wf, markHit_wf, storeHit_wf, nextRecord_wf, report_mem, statusWord_wf]

/-! ### Machine/Commands -/

theorem endCmd_wf (s : State) (c : Cmd) (v : Nat) (hm : s.mem.wf = true) :
    (endCmd s c v).mem.wf = true := by
  unfold endCmd
  grind [nextRecord_wf, statusWord_wf]

theorem runCmd_wf (s : State) (c : Cmd) (r : CmdRef) (hm : s.mem.wf = true) :
    (runCmd s c r).mem.wf = true := by
  unfold runCmd
  grind [nextRecord_wf, addRef_wf]

theorem readCounts_wf (ag : Agent) : ∀ (n : Nat) (va : DWord) (s : State), s.mem.wf = true →
    (readCounts ag va n s).1.mem.wf = true := by
  intro n
  induction n with
  | zero => exact fun _ _ hm => hm
  | succ n ih =>
    intro va s hm
    rw [readCounts]
    split
    · exact hm
    split
    · exact hm
    · next h => exact ih _ _ (ctxRead_wf _ _ _ _ hm _ _ h)

theorem readLaunch_wf (s : State) (c : Cmd) (counted : Bool) (hm : s.mem.wf = true) :
    (readLaunch s c counted).1.mem.wf = true := by
  unfold readLaunch
  split
  · exact hm
  split
  · exact hm
  next s1 bs h1 =>
    have m1 := ctxRead_wf _ _ _ _ hm _ _ h1
    dsimp only
    split
    · exact m1
    next s2 sv h2 =>
      have m2 := readSave_wf _ _ _ m1 _ _ h2
      split
      · exact readCounts_wf _ _ _ _ m2
      · exact m2

theorem giveUpSaved_wf (s : State) (c : Cmd) (save : DWord) (hm : s.mem.wf = true) :
    (giveUpSaved s c save).mem.wf = true := by
  unfold giveUpSaved
  grind [dropRef_wf]

theorem startLaunch_wf (s : State) (c : Cmd) (l : Launch) (hm : s.mem.wf = true) :
    (startLaunch s c l).mem.wf = true := by
  unfold startLaunch
  grind [freshId_wf, startRestores_wf, endCmd_wf, setLaunch_mem, complete_wf, runCmd_wf]

theorem clearSaveState_wf (s : State) (c : Cmd) (h : Header) (hm : s.mem.wf = true) :
    (clearSaveState s c h).mem.wf = true := by
  unfold clearSaveState
  grind [ctxStore_wf]

theorem restoreLaunch_wf (s : State) (c : Cmd) (h : Header) (hm : s.mem.wf = true) :
    (restoreLaunch s c h).mem.wf = true := by
  unfold restoreLaunch
  grind [clearSaveState_wf, setLaunch_mem, nextRecord_wf, runCmd_wf, startLaunch_wf]

theorem launchCmd_wf (s : State) (c : Cmd) (counted : Bool) (hm : s.mem.wf = true) :
    (launchCmd s c counted).mem.wf = true := by
  unfold launchCmd
  grind [readLaunch_wf, endCmd_wf, restoreLaunch_wf, giveUpSaved_wf, startLaunch_wf]

theorem launchReads_wf (counted : Bool) (s : State) (c : Cmd) (hm : s.mem.wf = true) :
    (launchReads counted s c).mem.wf = true := by
  unfold launchReads
  grind [readLaunch_wf]

theorem readImage_wf (s : State) (c : Cmd) (hm : s.mem.wf = true) :
    ∀ u y, readImage s c = some (u, y) → u.mem.wf = true := by
  unfold readImage
  grind [ctxRead_wf]

theorem sfallocReads_wf (s : State) (c : Cmd) (hm : s.mem.wf = true) :
    (sfallocReads s c).mem.wf = true := by
  unfold sfallocReads
  grind [readImage_wf]

theorem readCopy_wf (s : State) (c : Cmd) (hm : s.mem.wf = true) :
    ∀ u y, readCopy s c = some (u, y) → u.mem.wf = true := by
  unfold readCopy
  grind [ctxRead_wf]

theorem vfLog_wf (s : State) (die v : Nat) (hm : s.mem.wf = true) :
    (vfLog s die v).mem.wf = true := by
  unfold vfLog
  grind [pitWrite_wf]

theorem askFrequency_wf (id mhz : Nat) (s : State) (die : Nat) (hm : s.mem.wf = true) :
    (askFrequency id mhz s die).mem.wf = true := by
  unfold askFrequency
  grind [vfLog_wf, setDie_mem]

theorem resolveVf_wf (s : State) (id : Nat) (hm : s.mem.wf = true) :
    (resolveVf s id).mem.wf = true := by
  unfold resolveVf
  grind [dropRef_wf, statusWord_wf, foldl_wf]

theorem settleGate_wf (s : State) (core : Nat) (hm : s.mem.wf = true) :
    (settleGate s core).mem.wf = true := by
  unfold settleGate
  grind [statusWord_wf, setCore_mem, dropRef_wf]

/-! ### Machine/Landing -/

theorem recordGone_wf (s : State) (c : Cont) (hm : s.mem.wf = true) :
    (recordGone s c).mem.wf = true := by
  unfold recordGone
  grind [goOn_wf]

theorem returnTo_wf (s : State) (gid j : Nat) (e : RetEntry) (hm : s.mem.wf = true) :
    (returnTo s gid j e).mem.wf = true := by
  unfold returnTo
  grind [updGroup_mem]

/-! ### Machine/Sync -/

theorem spawnGroups_wf (g : Group) (l : Launch) (entry base : DWord) : ∀ (k i : Nat) (s : State), s.mem.wf = true →
    (spawnGroups g l entry base k i s).mem.wf = true := by
  intro k
  induction k with
  | zero => exact fun _ _ hm => hm
  | succ k ih => exact fun i s hm => ih _ _ (createOn_wf _ _ _ _ _ _ _ _ hm)

theorem spawnNow_wf (c : Nat) (d : Code) (entry base : DWord) (s : State) (gid : Nat) (g : Group)
    (hm : s.mem.wf = true) :
    (spawnNow c d entry base s gid g).mem.wf = true := by
  unfold spawnNow
  grind [spawnGroups_wf, updGroup_mem]

end Sys2Proof.Machine

/-! Memory in canonical form (O58): continuations, registers, power, the assay, saves and fragments. -/

namespace Sys2Proof.Machine

open Assoc Bits State Sys2Proof.Machine.Float

/-! ### Machine/SysRegs -/

theorem sysWrite_wf (s : State) (gid : Nat) (g : Group) (priv : Bool) (n : Nat) (v : Word) (hm : s.mem.wf = true) :
    (sysWrite s gid g priv n v).mem.wf = true := by
  unfold sysWrite
  grind [setGroup_mem, setCore_mem, setCluster_mem]

/-! ### Machine/Power -/

theorem endRequest_wf (s : State) (die id : Nat) (hm : s.mem.wf = true) :
    (endRequest s die id).mem.wf = true := by
  unfold endRequest
  grind [setDie_mem, resolveVf_wf]

theorem markLate_wf (s : State) (id : Nat) (hm : s.mem.wf = true) :
    (markLate s id).mem.wf = true := by
  unfold markLate
  grind

theorem goFatal_wf (s : State) (die : Nat) (hm : s.mem.wf = true) :
    (goFatal s die).mem.wf = true := by
  unfold goFatal
  grind [pitWrite_wf, setDie_mem, report_mem, foldl_wf]

/-! ### Machine/Assay -/

theorem powerUp_wf (s : State) (core : Nat) (hm : s.mem.wf = true) :
    (powerUp s core).mem.wf = true := by
  unfold powerUp
  grind [setCore_mem]

theorem gateAgain_wf (s : State) (core : Nat) (hm : s.mem.wf = true) :
    (gateAgain s core).mem.wf = true := by
  unfold gateAgain
  grind [setCore_mem]

theorem assayLog_wf (s : State) (die core code : Nat) (hm : s.mem.wf = true) :
    (assayLog s die core code).mem.wf = true := by
  unfold assayLog
  grind [pitWrite_wf]

theorem catchUp_wf (s : State) (e : Nat × Group) (hm : s.mem.wf = true) :
    (catchUp s e).mem.wf = true := by
  unfold catchUp
  grind [goOn_wf, raiseCbbad_wf]

theorem endSlot_wf (s : State) (die core next : Nat) (hm : s.mem.wf = true) :
    (endSlot s die core next).mem.wf = true := by
  unfold endSlot
  grind [setDie_mem, setCore_mem, settleGate_wf, gateAgain_wf, catchUp_wf, foldl_wf]

theorem killCore_wf (s : State) (core : Nat) (hm : s.mem.wf = true) :
    (killCore s core).mem.wf = true := by
  unfold killCore
  grind [killWhole_wf, faultReport_wf, foldl_wf]

theorem emptyLanding_wf (s : State) (core : Nat) (hm : s.mem.wf = true) :
    (emptyLanding s core).mem.wf = true := by
  unfold emptyLanding
  grind [setCore_mem, sendReturn_wf, foldl_wf]

theorem failCore_wf (s : State) (core : Nat) (hm : s.mem.wf = true) :
    (failCore s core).mem.wf = true := by
  unfold failCore
  grind [setCore_mem, coreSuspect_wf, emptyLanding_wf, killCore_wf]

/-! ### Machine/VectorMem -/

theorem gather_wf (d : Code) (st : BitVec 4) (x : Bool) (size : Nat) (signed pair : Bool) (s : State) (gid : Nat)
    (g : Group) (hits : List (Nat × Hit)) (hm : s.mem.wf = true) :
    (gather d st x size signed pair s gid g hits).Canonical := by
  unfold gather
  grind [Effect.plain_canonical, issueLoad_wf, Effect.Canonical]

theorem vectorLoad_wf (d a b : Code) (st : BitVec 4) (x : Bool) (size : Nat) (signed pair : Bool) (s : State)
    (gid : Nat) (g : Group) (hm : s.mem.wf = true) :
    (vectorLoad d a b st x size signed pair s gid g).Canonical := by
  unfold vectorLoad
  grind [laneFault_wf, gather_wf, Effect.Canonical]

theorem vectorStore_wf (d a b : Code) (st : BitVec 4) (x : Bool) (size : Nat) (pair : Bool) (s : State) (gid : Nat)
    (g : Group) (hm : s.mem.wf = true) :
    (vectorStore d a b st x size pair s gid g).Canonical := by
  unfold vectorStore
  grind [store_wf, laneFault_wf, storeLanes_wf, Effect.Canonical]

/-! ### Machine/Atomics -/

theorem vectorAtomic_wf (op : AtomOp) (d a b : Code) (st : BitVec 4) (s : State) (gid : Nat) (g : Group)
    (hm : s.mem.wf = true) :
    (vectorAtomic op d a b st s gid g).Canonical := by
  unfold vectorAtomic
  grind [laneFault_wf, Effect.plain_canonical, issueLoad_wf, Effect.Canonical]

/-! ### Machine/Compare -/

theorem intCompare_wf (d a b : Code) (f : Word → Word → Bool) (s : State) (gid : Nat) (g : Group)
    (hm : s.mem.wf = true) :
    (intCompare d a b f s gid g).Canonical := by
  unfold intCompare
  grind [Effect.plain_canonical, setGroup_mem, Effect.Canonical]

theorem floatCompare_wf (d a b : Code) (t : FloatTest) (s : State) (gid : Nat) (g : Group) (hm : s.mem.wf = true) :
    (floatCompare d a b t s gid g).Canonical := by
  unfold floatCompare
  grind [laneFlags_wf, Effect.Canonical]

/-! ### Machine/CrossLane -/

theorem crossLane_wf (d : Code) (nw : Bool) (f : Nat → Word) (s : State) (gid : Nat) (g : Group)
    (hm : s.mem.wf = true) :
    (crossLane d nw f s gid g).Canonical := by
  unfold crossLane
  grind [setGroup_mem, Effect.Canonical]

theorem crossScalar_wf (d : Code) (nw : Bool) (w : Word) (s : State) (gid : Nat) (g : Group) (hm : s.mem.wf = true) :
    (crossScalar d nw w s gid g).Canonical := by
  unfold crossScalar
  grind [setGroup_mem, Effect.Canonical]

theorem floatReduction_wf (d a : Code) (nw : Bool) (op : Env → Nat → Nat → Res) (empty : Fmt → Nat) (s : State)
    (gid : Nat) (g : Group) (hm : s.mem.wf = true) :
    (floatReduction d a nw op empty s gid g).Canonical := by
  unfold floatReduction
  grind [groupFlags_wf, Effect.Canonical]

theorem intReduction_wf (d a : Code) (nw : Bool) (op : Word → Word → Word) (empty : Word) (s : State) (gid : Nat)
    (g : Group) (hm : s.mem.wf = true) :
    (intReduction d a nw op empty s gid g).Canonical := by
  unfold intReduction
  grind [crossScalar_wf, foldl_wf, Effect.Canonical]

/-! ### Machine/Saves -/

theorem saveEvent_wf (s : State) (g : Group) (code : Nat) (hm : s.mem.wf = true) :
    (saveEvent s g code).mem.wf = true := by
  unfold saveEvent
  grind [pitWrite_wf]

theorem writeRecord_wf : ∀ (hs : List (Hit × Nat)) (s : State), s.mem.wf = true → (writeRecord s hs).mem.wf = true := by
  intro hs
  induction hs with
  | nil => exact fun _ hm => hm
  | cons h hs ih => exact fun s hm => ih _ (markHit_wf _ _ (store_wf { s with ctr := s.ctr + h.2 } _ hm))

theorem saveRoom_wf (s : State) (l : Launch) (n : Nat) (hm : s.mem.wf = true) :
    (saveRoom s l n).1.mem.wf = true := by
  unfold saveRoom
  grind [ctxRead_wf, store_wf]

theorem appendRecord_wf (s : State) (l : Launch) (n : Nat) (hm : s.mem.wf = true) :
    (appendRecord s l n).1.mem.wf = true := by
  unfold appendRecord
  grind [saveRoom_wf, ctxStore_wf, writeRecord_wf]

theorem saveErrors_wf (s : State) (gid : Nat) (g : Group) (p : SavePlan) (hm : s.mem.wf = true) :
    (saveErrors s gid g p).mem.wf = true := by
  unfold saveErrors
  grind [uceKill_wf, setGroup_mem, uceLanes_wf, foldl_wf]

theorem vacate_wf (s : State) (gid : Nat) (g : Group) (hm : s.mem.wf = true) :
    (vacate s gid g).mem.wf = true := by
  unfold vacate
  grind [cbRelease_wf, leaveWaits_wf, setCore_mem, foldl_wf]

theorem detachSaved_wf (s : State) (bid : Nat) (hm : s.mem.wf = true) :
    (detachSaved s bid).mem.wf = true := by
  unfold detachSaved
  grind [finishOp_wf, foldl_wf]

theorem saveBlock_wf (s : State) (bid : Nat) (b : Block) (hm : s.mem.wf = true) :
    (saveBlock s bid b).mem.wf = true := by
  unfold saveBlock
  grind [detachSaved_wf, setBlock_mem, setCluster_mem, zeroRange_wf, foldl_wf]

theorem failSave_wf (s : State) (gid : Nat) (g : Group) (hm : s.mem.wf = true) :
    (failSave s gid g).mem.wf = true := by
  unfold failSave
  grind [report_mem, saveEvent_wf, updLaunch_mem, goToNext_wf, setGroup_mem]

theorem saveNow_wf (s : State) (gid : Nat) (g : Group) (l : Launch) (b : Block) (p : SavePlan) (last : Bool)
    (hm : s.mem.wf = true) :
    (saveNow s gid g l b p last).mem.wf = true := by
  unfold saveNow
  grind [appendRecord_wf, barRecount_wf, vacate_wf, setGroup_mem, saveBlock_wf]

theorem saveGroup_wf (s : State) (gid : Nat) (g : Group) (l : Launch) (b : Block) (p : SavePlan)
    (hm : s.mem.wf = true) :
    (saveGroup s gid g l b p).mem.wf = true := by
  unfold saveGroup
  grind [saveRoom_wf, failSave_wf, saveErrors_wf, setBlock_mem, endGroup_wf, saveNow_wf]

theorem shutBatch_wf (s : State) (gid : Nat) (g : Group) (hm : s.mem.wf = true) :
    (shutBatch s gid g).mem.wf = true := by
  unfold shutBatch
  grind [setGroup_mem, updLaunch_mem]

theorem parkDraw_wf (s : State) (lid : Nat) (l : Launch) (hm : s.mem.wf = true) :
    (parkDraw s lid l).mem.wf = true := by
  unfold parkDraw
  grind [setDraw_wf, drawWrite_wf]

theorem markSaved_wf (s : State) (l : Launch) (hm : s.mem.wf = true) :
    (markSaved s l).mem.wf = true := by
  unfold markSaved
  grind [store_wf, ctxStore_wf]

theorem blockFails_wf (s : State) (bid : Nat) (hm : s.mem.wf = true) :
    (blockFails s bid).mem.wf = true := by
  unfold blockFails
  grind [report_mem, saveEvent_wf]

theorem saveOrphans_wf (s : State) (l : Launch) (lid : Nat) (hm : s.mem.wf = true) :
    (saveOrphans s l lid).1.mem.wf = true := by
  refine List.foldlRecOn (motive := fun r : State × Bool => r.1.mem.wf = true) _ _ hm fun r hr e _ => ?_
  have h := appendRecord_wf r.1 l (blockRecord (keptBytes e.2).length) hr
  split
  · next he => rw [he] at h; exact saveBlock_wf _ _ _ h
  · next he => rw [he] at h; exact blockFails_wf _ _ h

theorem finishPreempt_wf (s : State) (lid : Nat) (l : Launch) (p : PreemptRun) (hm : s.mem.wf = true) :
    (finishPreempt s lid l p).mem.wf = true := by
  unfold finishPreempt
  grind [saveOrphans_wf, dropRef_wf, statusWord_wf, updLaunch_mem, markSaved_wf, parkDraw_wf, launchStatus_wf]

/-! ### Machine/Package -/

theorem tlbinvClear_wf (s : State) (hm : s.mem.wf = true) :
    (tlbinvClear s).mem.wf = true := by
  unfold tlbinvClear
  grind

theorem writePithead_wf (s : State) (die : Nat) (v : Word) (hm : s.mem.wf = true) :
    (writePithead s die v).mem.wf = true := by
  unfold writePithead
  grind [setDie_mem]

theorem writeControl_wf (s : State) (block off : Nat) (v : DWord) (hm : s.mem.wf = true) :
    (writeControl s block off v).mem.wf = true := by
  unfold writeControl
  grind [writeSmcfg_wf, writePithead_wf]

/-! ### Machine/Rop -/

theorem writeDepths_wf (s : State) (ctx : Nat) (c : PixelCtx) (j scov : Nat) (hm : s.mem.wf = true) :
    (writeDepths s ctx c j scov).mem.wf = true := by
  unfold writeDepths
  grind [store_wf, foldl_wf]

theorem touchDepth_wf (s : State) (ctx : Nat) (d : Draw) (hm : s.mem.wf = true) :
    (touchDepth s ctx d).mem.wf = true := by
  unfold touchDepth
  grind [touchHandle_wf]

theorem testLane_wf (gid ctx : Nat) (r : State × PixelCtx) (j : Nat) (hm : r.1.mem.wf = true) :
    (testLane gid ctx r j).1.mem.wf = true := by
  unfold testLane
  grind [touchDepth_wf, writeDepths_wf]

theorem foldl_testLane_wf (gid ctx : Nat) (js : List Nat) (r : State × PixelCtx) (hm : r.1.mem.wf = true) :
    (js.foldl (testLane gid ctx) r).1.mem.wf = true :=
  List.foldlRecOn (motive := fun r : State × PixelCtx => r.1.mem.wf = true) _ _ hm fun r hr j _ => testLane_wf gid ctx
    r j hr

theorem putInfo_wf (s : State) (gid : Nat) (p : PixelInfo) (hm : s.mem.wf = true) :
    (putInfo s gid p).mem.wf = true := by
  unfold putInfo
  grind [updGroup_mem]

theorem sendColour_wf (gid k : Nat) (rgba : Nat → List Word) (r : State × PixelCtx) (j : Nat) (hm : r.1.mem.wf = true) :
    (sendColour gid k rgba r j).1.mem.wf = true := hm

theorem foldl_sendColour_wf (gid k : Nat) (rgba : Nat → List Word) (js : List Nat) (r : State × PixelCtx)
    (hm : r.1.mem.wf = true) : (js.foldl (sendColour gid k rgba) r).1.mem.wf = true :=
  List.foldlRecOn (motive := fun r : State × PixelCtx => r.1.mem.wf = true) _ _ hm fun r hr j _ =>
    sendColour_wf gid k rgba r j hr

theorem applyFrag_wf (s : State) (f : Frag) (rgba : List Word) (hm : s.mem.wf = true) :
    (applyFrag s f rgba).mem.wf = true := by
  unfold applyFrag
  grind [touchKey_mem, store_wf]

theorem applyDepth_wf (s : State) (f : Frag) (q : DepthReq) (rest : List DepthReq) (hm : s.mem.wf = true) :
    (applyDepth s f q rest).mem.wf = true := by
  unfold applyDepth
  grind [touchKey_mem, updGroup_mem, store_wf]

/-! ### Machine/ScalarMem -/

theorem scalarLoad_wf (d a b : Code) (st : BitVec 4) (x : Bool) (size : Nat) (s : State) (gid : Nat) (g : Group)
    (hm : s.mem.wf = true) :
    (scalarLoad d a b st x size s gid g).Canonical := by
  unfold scalarLoad
  grind [Effect.plain_canonical, issueLoad_wf, Effect.Canonical]

theorem scalarStore_wf (d a b : Code) (st : BitVec 4) (x : Bool) (size : Nat) (s : State) (gid : Nat) (g : Group)
    (hm : s.mem.wf = true) :
    (scalarStore d a b st x size s gid g).Canonical := by
  unfold scalarStore
  grind [store_wf, cbStore_wf, Effect.plain_canonical, cbNoted_wf, issueStores_wf, Effect.Canonical]

/-! ### Machine/VectorFloat -/

theorem floatLanes_wf (d : Code) (nw : Bool) (cs : List Code) (op : Env → List Nat → Res) (s : State) (gid : Nat)
    (g : Group) (hm : s.mem.wf = true) :
    (floatLanes d nw cs op s gid g).Canonical := by
  unfold floatLanes
  grind [floatResult_wf, Effect.Canonical]

end Sys2Proof.Machine

/-! Every instruction whose effect is its own keeps the memory canonical (O58). -/

namespace Sys2Proof.Machine

open Assoc Bits State Sys2Proof.Machine.Float

/-! ### Machine/VectorInt -/

theorem execVbfi_keeps (d a b : Code) (s : State) (hm : s.mem.wf = true) :
    Keeps (execVbfi d a b s) := by
  refine issue_keeps _ _ (fun s gid g hm => ?_) hm
  grind [setGroup_mem, Effect.Canonical]

theorem execVmulw_keeps (d a b : Code) (nw : Bool) (s : State) (hm : s.mem.wf = true) :
    Keeps (execVmulw d a b nw s) := by
  refine issue_keeps _ _ (fun s gid g hm => ?_) hm
  grind [setGroup_mem, Effect.Canonical]

/-! ### Machine/ScalarAlu -/

theorem execSaddx_keeps (d a b : Code) (nw : Bool) (s : State) (hm : s.mem.wf = true) :
    Keeps (execSaddx d a b nw s) := by
  refine issue_keeps _ _ (fun s gid g hm => ?_) hm
  grind [setGroup_mem, Effect.Canonical]

theorem execSli_keeps (d : Code) (imm : BitVec 19) (s : State) (hm : s.mem.wf = true) :
    Keeps (execSli d imm s) := by
  refine issue_keeps _ _ (fun s gid g hm => ?_) hm
  grind [setGroup_mem, Effect.Canonical]

theorem execSlui_keeps (d : Code) (imm : BitVec 19) (s : State) (hm : s.mem.wf = true) :
    Keeps (execSlui d imm s) := by
  refine issue_keeps _ _ (fun s gid g hm => ?_) hm
  grind [setGroup_mem, Effect.Canonical]

/-! ### Machine/Masks -/

theorem execMnot_keeps (d a : Code) (s : State) (hm : s.mem.wf = true) :
    Keeps (execMnot d a s) := by
  refine issue_keeps _ _ (fun s gid g hm => ?_) hm
  grind [Effect.plain_canonical, setGroup_mem, Effect.Canonical]

theorem execMset_keeps (d a : Code) (s : State) (hm : s.mem.wf = true) :
    Keeps (execMset d a s) := by
  refine issue_keeps _ _ (fun s gid g hm => ?_) hm
  grind [Effect.plain_canonical, setGroup_mem, Effect.Canonical]

theorem execMclr_keeps (d : Code) (s : State) (hm : s.mem.wf = true) :
    Keeps (execMclr d s) := by
  refine issue_keeps _ _ (fun s gid g hm => ?_) hm
  grind [Effect.plain_canonical, setGroup_mem, Effect.Canonical]

theorem execMget_keeps (d a : Code) (nw : Bool) (s : State) (hm : s.mem.wf = true) :
    Keeps (execMget d a nw s) := by
  refine issue_keeps _ _ (fun s gid g hm => ?_) hm
  grind [setGroup_mem, Effect.Canonical]

theorem execMcnt_keeps (d a : Code) (nw : Bool) (s : State) (hm : s.mem.wf = true) :
    Keeps (execMcnt d a nw s) := by
  refine issue_keeps _ _ (fun s gid g hm => ?_) hm
  grind [setGroup_mem, Effect.Canonical]

/-! ### Machine/Control -/

theorem execJ_keeps (off : BitVec 26) (s : State) (hm : s.mem.wf = true) :
    Keeps (execJ off s) := by
  refine issue_keeps _ _ (fun s gid g hm => ?_) hm
  grind [setGroup_mem, Effect.Canonical]

theorem execCall_keeps (off : BitVec 26) (s : State) (hm : s.mem.wf = true) :
    Keeps (execCall off s) := by
  refine issue_keeps _ _ (fun s gid g hm => ?_) hm
  grind [setGroup_mem, Effect.Canonical]

theorem execJr_keeps (a : Code) (s : State) (hm : s.mem.wf = true) :
    Keeps (execJr a s) := by
  refine issue_keeps _ _ (fun s gid g hm => ?_) hm
  grind [jumpTo_wf, Effect.Canonical]

theorem execRet_keeps (s : State) (hm : s.mem.wf = true) :
    Keeps (execRet s) := by
  refine issue_keeps _ _ (fun s gid g hm => ?_) hm
  grind [jumpTo_wf, Effect.Canonical]

theorem execLoop_keeps (a : Code) (end12 : BitVec 12) (s : State) (hm : s.mem.wf = true) :
    Keeps (execLoop a end12 s) := by
  refine issue_keeps _ _ (fun s gid g hm => ?_) hm
  grind [setGroup_mem, Effect.Canonical]

theorem execVif_keeps (a : Code) (s : State) (hm : s.mem.wf = true) :
    Keeps (execVif a s) := by
  refine issue_keeps _ _ (fun s gid g hm => ?_) hm
  grind [Effect.plain_canonical, setGroup_mem, Effect.Canonical]

theorem execVelse_keeps (s : State) (hm : s.mem.wf = true) :
    Keeps (execVelse s) := by
  refine issue_keeps _ _ (fun s gid g hm => ?_) hm
  grind [Effect.plain_canonical, setGroup_mem, Effect.Canonical]

theorem execVendif_keeps (s : State) (hm : s.mem.wf = true) :
    Keeps (execVendif s) := by
  refine issue_keeps _ _ (fun s gid g hm => ?_) hm
  grind [Effect.plain_canonical, setGroup_mem, Effect.Canonical]

theorem execVkill_keeps (a : Code) (s : State) (hm : s.mem.wf = true) :
    Keeps (execVkill a s) := by
  refine issue_keeps _ _ (fun s gid g hm => ?_) hm
  grind [Effect.plain_canonical, killLanes_wf, Effect.Canonical]

theorem execFmt_keeps (a : Code) (s : State) (hm : s.mem.wf = true) :
    Keeps (execFmt a s) := by
  refine issue_keeps _ _ (fun s gid g hm => ?_) hm
  grind [Effect.plain_canonical, setGroup_mem, Effect.Canonical]

theorem execWinb_keeps (a : Code) (s : State) (hm : s.mem.wf = true) :
    Keeps (execWinb a s) := by
  refine issue_keeps _ _ (fun s gid g hm => ?_) hm
  grind [Effect.plain_canonical, setGroup_mem, Effect.Canonical]

theorem execTrap_keeps (imm : BitVec 7) (s : State) (hm : s.mem.wf = true) :
    Keeps (execTrap imm s) := by
  refine issue_keeps _ _ (fun s gid g hm => ?_) hm
  grind [Effect.Canonical]

theorem execRett_keeps (s : State) (hm : s.mem.wf = true) :
    Keeps (execRett s) := by
  refine issue_keeps _ _ (fun s gid g hm => ?_) hm
  grind [setGroup_mem, Effect.Canonical]

theorem execBrk_keeps (imm : BitVec 7) (s : State) (hm : s.mem.wf = true) :
    Keeps (execBrk imm s) := by
  refine issue_keeps _ _ (fun s gid g hm => ?_) hm
  grind [report_mem, setGroup_mem, Effect.Canonical]

theorem execNop_keeps (s : State) (hm : s.mem.wf = true) :
    Keeps (execNop s) := by
  refine issue_keeps _ _ (fun s gid g hm => ?_) hm
  grind [Effect.plain_canonical, Effect.Canonical]

theorem execExit_keeps (s : State) (hm : s.mem.wf = true) :
    Keeps (execExit s) := by
  refine issue_keeps _ _ (fun s gid g hm => ?_) hm
  grind [retire_wf, sendReturns_wf, endGroup_wf, setGroup_mem, Effect.Canonical]

theorem execPpt_keeps (imm : BitVec 19) (s : State) (hm : s.mem.wf = true) :
    Keeps (execPpt imm s) := by
  refine issue_keeps _ _ (fun s gid g hm => ?_) hm
  grind [Effect.plain_canonical, setGroup_mem, Effect.Canonical]

/-! ### Machine/Buffers -/

theorem execCbget_keeps (d a : Code) (s : State) (hm : s.mem.wf = true) :
    Keeps (execCbget d a s) := by
  refine issue_keeps _ _ (fun s gid g hm => ?_) hm
  grind [shaftGet_wf, bufferGet_wf, Effect.Canonical]

theorem execCbput_keeps (a : Code) (s : State) (hm : s.mem.wf = true) :
    Keeps (execCbput a s) := by
  refine issue_keeps _ _ (fun s gid g hm => ?_) hm
  grind [Effect.plain_canonical, cbRelease_wf, setGroup_mem, Effect.Canonical]

/-! ### Machine/Order -/

theorem execFence_keeps (st : BitVec 4) (scope : BitVec 3) (s : State) (hm : s.mem.wf = true) :
    Keeps (execFence st scope s) := by
  refine issue_keeps _ _ (fun s gid g hm => ?_) hm
  grind [Effect.plain_canonical, fenceIssued_wf, Effect.Canonical]

theorem execXfence_keeps (scope : BitVec 3) (a : Code) (s : State) (hm : s.mem.wf = true) :
    Keeps (execXfence scope a s) := by
  refine issue_keeps _ _ (fun s gid g hm => ?_) hm
  grind [Effect.plain_canonical, fenceIssued_wf, Effect.Canonical]

theorem execSattr_keeps (st : BitVec 4) (a : Code) (s : State) (hm : s.mem.wf = true) :
    Keeps (execSattr st a s) := by
  refine issue_keeps _ _ (fun s gid g hm => ?_) hm
  grind [Effect.plain_canonical, setGroup_mem, Effect.Canonical]

theorem execVpreq_keeps (d a b : Code) (s : State) (hm : s.mem.wf = true) :
    Keeps (execVpreq d a b s) := by
  refine issue_keeps _ _ (fun s gid g hm => ?_) hm
  grind [postPage_wf, Effect.plain_canonical, uceLanes_wf, updGroup_mem, foldl_wf, Effect.Canonical]

/-! ### Machine/Matrix -/

theorem execTshape_keeps (d a : Code) (s : State) (hm : s.mem.wf = true) :
    Keeps (execTshape d a s) := by
  refine issue_keeps _ _ (fun s gid g hm => ?_) hm
  grind [Effect.plain_canonical, setGroup_mem, Effect.Canonical]

theorem execMzero_keeps (d : Code) (s : State) (hm : s.mem.wf = true) :
    Keeps (execMzero d s) := by
  refine issue_keeps _ _ (fun s gid g hm => ?_) hm
  grind [Effect.plain_canonical, enqueue_wf, Effect.Canonical]

theorem execMwr_keeps (d a b : Code) (s : State) (hm : s.mem.wf = true) :
    Keeps (execMwr d a b s) := by
  refine issue_keeps _ _ (fun s gid g hm => ?_) hm
  grind [uceLanes_wf, Effect.plain_canonical, enqueue_wf, Effect.Canonical]

theorem execMrd_keeps (d a b : Code) (s : State) (hm : s.mem.wf = true) :
    Keeps (execMrd d a b s) := by
  refine issue_keeps _ _ (fun s gid g hm => ?_) hm
  grind [setGroup_mem, Effect.plain_canonical, uceLanes_wf, Effect.Canonical]

theorem execMfence_keeps (d : Code) (s : State) (hm : s.mem.wf = true) :
    Keeps (execMfence d s) := by
  refine issue_keeps _ _ (fun s gid g hm => ?_) hm
  grind [Effect.plain_canonical, setGroup_mem, Effect.Canonical]

theorem execMwait_keeps (a : Code) (s : State) (hm : s.mem.wf = true) :
    Keeps (execMwait a s) := by
  refine issue_keeps _ _ (fun s gid g hm => ?_) hm
  grind [Effect.plain_canonical, setGroup_mem, Effect.Canonical]

theorem execMsurf_keeps (d a b : Code) (s : State) (hm : s.mem.wf = true) :
    Keeps (execMsurf d a b s) := by
  refine issue_keeps _ _ (fun s gid g hm => ?_) hm
  grind [Effect.plain_canonical, setGroup_mem, Effect.Canonical]

/-! ### Machine/Pixels -/

theorem execSfld_keeps (d a b : Code) (s : State) (hm : s.mem.wf = true) :
    Keeps (execSfld d a b s) := by
  refine issue_keeps _ _ (fun s gid g hm => ?_) hm
  grind [laneFault_wf, Effect.plain_canonical, issueLoad_wf, Effect.Canonical]

theorem execSfst_keeps (d a b : Code) (s : State) (hm : s.mem.wf = true) :
    Keeps (execSfst d a b s) := by
  refine issue_keeps _ _ (fun s gid g hm => ?_) hm
  grind [laneFault_wf, Effect.plain_canonical, uceLanes_wf, issueStores_wf, Effect.Canonical]

theorem execTsmp_keeps (d a b : Code) (s : State) (hm : s.mem.wf = true) :
    Keeps (execTsmp d a b s) := by
  refine issue_keeps _ _ (fun s gid g hm => ?_) hm
  grind [laneFault_wf, Effect.plain_canonical, issueLoad_wf, Effect.Canonical]

/-! ### Machine/Draws -/

theorem execVtxout_keeps (d a b : Code) (s : State) (hm : s.mem.wf = true) :
    Keeps (execVtxout d a b s) := by
  refine issue_keeps _ _ (fun s gid g hm => ?_) hm
  grind [bindDraw_wf, laneFault_wf, writeRecords_wf, updLaunch_mem, Effect.plain_canonical, uceLanes_wf,
    Effect.Canonical]

/-! ### Machine/Hops -/

theorem execOwner_keeps (d a : Code) (nw : Bool) (s : State) (hm : s.mem.wf = true) :
    Keeps (execOwner d a nw s) := by
  refine issue_keeps _ _ (fun s gid g hm => ?_) hm
  grind [setGroup_mem, Effect.Canonical]

theorem execHop_keeps (a : Code) (s : State) (hm : s.mem.wf = true) :
    Keeps (execHop a s) := by
  refine issue_keeps _ _ (fun s gid g hm => ?_) hm
  grind [sendLanes_wf, Effect.Canonical]

theorem execHopx_keeps (a : Code) (s : State) (hm : s.mem.wf = true) :
    Keeps (execHopx a s) := by
  refine issue_keeps _ _ (fun s gid g hm => ?_) hm
  grind [sendLanes_wf, Effect.Canonical]

theorem execHopcfg_keeps (a : Code) (s : State) (hm : s.mem.wf = true) :
    Keeps (execHopcfg a s) := by
  refine issue_keeps _ _ (fun s gid g hm => ?_) hm
  grind [Effect.plain_canonical, setGroup_mem, Effect.Canonical]

theorem execHopback_keeps (s : State) (hm : s.mem.wf = true) :
    Keeps (execHopback s) := by
  refine issue_keeps _ _ (fun s gid g hm => ?_) hm
  grind [Effect.plain_canonical, retire_wf, returnValues_wf, Effect.Canonical]

theorem execRejoin_keeps (s : State) (hm : s.mem.wf = true) :
    Keeps (execRejoin s) := by
  refine issue_keeps _ _ (fun s gid g hm => ?_) hm
  grind [Effect.plain_canonical, setGroup_mem, Effect.Canonical]

/-! ### Machine/Copies -/

theorem execCpa_keeps (d a : Code) (st : BitVec 4) (s : State) (hm : s.mem.wf = true) :
    Keeps (execCpa d a st s) := by
  refine issue_keeps _ _ (fun s gid g hm => ?_) hm
  grind [uceKill_wf, engineIssue_wf, Effect.Canonical]

/-- A ring begins with a word written at its header. -/
theorem engineIssue_storeNat_wf (s : State) (gid : Nat) (g : Group) (r : RecordRead) (o : EngineOp) (bad : Option Nat)
    (loc n : Nat) (hm : s.mem.wf = true) :
    (engineIssue s gid g r o bad fun s => storeNat s loc 4 n).Canonical :=
  engineIssue_wf s gid g r o bad (begin_ := fun s => storeNat s loc 4 n) (fun s hs => storeNat_wf s loc 4 n hs) hm

theorem execCpaRing_keeps (d a : Code) (st : BitVec 4) (s : State) (hm : s.mem.wf = true) :
    Keeps (execCpaRing d a st s) := by
  refine issue_keeps _ _ (fun s gid g hm => ?_) hm
  have hissue := fun r loc n o bad => engineIssue_storeNat_wf s gid g r o bad loc n hm
  dsimp only
  split
  · trivial
  split
  · trivial
  split
  · trivial
  split
  · exact uceKill_wf _ _ _ hm
  split
  · trivial
  · apply hissue

theorem execCpred_keeps (d a : Code) (st : BitVec 4) (s : State) (hm : s.mem.wf = true) :
    Keeps (execCpred d a st s) := by
  refine issue_keeps _ _ (fun s gid g hm => ?_) hm
  grind [uceKill_wf, engineIssue_wf, Effect.Canonical]

/-! ### Machine/Sync -/

theorem execBar_keeps (a : Code) (s : State) (hm : s.mem.wf = true) :
    Keeps (execBar a s) := by
  refine issue_keeps _ _ (fun s gid g hm => ?_) hm
  grind [setGroup_mem, setCluster_mem, barCheck_wf, Effect.plain_canonical, updGroup_mem, Effect.Canonical]

theorem execEvbind_keeps (d a b : Code) (s : State) (hm : s.mem.wf = true) :
    Keeps (execEvbind d a b s) := by
  refine issue_keeps _ _ (fun s gid g hm => ?_) hm
  grind [Effect.plain_canonical, setGroup_mem, Effect.Canonical]

theorem execEvmask_keeps (a : Code) (s : State) (hm : s.mem.wf = true) :
    Keeps (execEvmask a s) := by
  refine issue_keeps _ _ (fun s gid g hm => ?_) hm
  grind [Effect.plain_canonical, setGroup_mem, Effect.Canonical]

theorem execEvclr_keeps (a : Code) (s : State) (hm : s.mem.wf = true) :
    Keeps (execEvclr a s) := by
  refine issue_keeps _ _ (fun s gid g hm => ?_) hm
  grind [Effect.plain_canonical, setGroup_mem, Effect.Canonical]

theorem execEvpend_keeps (d : Code) (s : State) (hm : s.mem.wf = true) :
    Keeps (execEvpend d s) := by
  refine issue_keeps _ _ (fun s gid g hm => ?_) hm
  grind [setGroup_mem, Effect.Canonical]

theorem execWaitany_keeps (a : Code) (s : State) (hm : s.mem.wf = true) :
    Keeps (execWaitany a s) := by
  refine issue_keeps _ _ (fun s gid g hm => ?_) hm
  grind [setGroup_mem, raise_wf, Effect.Canonical]

theorem execFetchw_keeps (a : Code) (s : State) (hm : s.mem.wf = true) :
    Keeps (execFetchw a s) := by
  refine issue_keeps _ _ (fun s gid g hm => ?_) hm
  grind [setGroup_mem, Effect.plain_canonical, Effect.Canonical]

theorem execSpawn_keeps (d a b : Code) (s : State) (hm : s.mem.wf = true) :
    Keeps (execSpawn d a b s) := by
  refine issue_keeps _ _ (fun s gid g hm => ?_) hm
  grind [Effect.plain_canonical, setGroup_mem, quiesce_wf, spawnNow_wf, Effect.Canonical]

/-! ### Machine/SysRegs -/

theorem execCsrr_keeps (d b : Code) (nw : Bool) (s : State) (hm : s.mem.wf = true) :
    Keeps (execCsrr d b nw s) := by
  refine issue_keeps _ _ (fun s gid g hm => ?_) hm
  grind [setGroup_mem, Effect.Canonical]

theorem execCsrw_keeps (a b : Code) (s : State) (hm : s.mem.wf = true) :
    Keeps (execCsrw a b s) := by
  refine issue_keeps _ _ (fun s gid g hm => ?_) hm
  grind [Effect.plain_canonical, sysWrite_wf, Effect.Canonical]

/-! ### Machine/VectorMem -/

theorem execVldc_keeps (d a b : Code) (st : BitVec 4) (x : Bool) (s : State) (hm : s.mem.wf = true) :
    Keeps (execVldc d a b st x s) := by
  refine issue_keeps _ _ (fun s gid g hm => ?_) hm
  grind [laneFault_wf, gather_wf, Effect.Canonical]

theorem execVstc_keeps (d a b : Code) (st : BitVec 4) (x : Bool) (s : State) (hm : s.mem.wf = true) :
    Keeps (execVstc d a b st x s) := by
  refine issue_keeps _ _ (fun s gid g hm => ?_) hm
  grind [store_wf, laneFault_wf, storeLanes_wf, Effect.Canonical]

/-! ### Machine/Compare -/

theorem execVfclass_keeps (d a : Code) (imm : BitVec 7) (s : State) (hm : s.mem.wf = true) :
    Keeps (execVfclass d a imm s) := by
  refine issue_keeps _ _ (fun s gid g hm => ?_) hm
  grind [Effect.plain_canonical, setGroup_mem, Effect.Canonical]

/-! ### Machine/Convert -/

theorem execVcvt_keeps (d a : Code) (rnd : BitVec 3) (src : BitVec 4) (nw : Bool) (dst : BitVec 4) (s : State)
    (hm : s.mem.wf = true) :
    Keeps (execVcvt d a rnd src nw dst s) := by
  refine issue_keeps _ _ (fun s gid g hm => ?_) hm
  grind [floatResult_wf, Effect.Canonical]

theorem execVcvtef_keeps (d a b : Code) (s : State) (hm : s.mem.wf = true) :
    Keeps (execVcvtef d a b s) := by
  refine issue_keeps _ _ (fun s gid g hm => ?_) hm
  grind [laneFlags_wf, Effect.Canonical]

/-! ### Machine/CrossLane -/

theorem execVplane_keeps (d a : Code) (nw : Bool) (s : State) (hm : s.mem.wf = true) :
    Keeps (execVplane d a nw s) := by
  refine issue_keeps _ _ (fun s gid g hm => ?_) hm
  grind [crossLane_wf, Effect.Canonical]

theorem execVunpl_keeps (d a : Code) (nw : Bool) (s : State) (hm : s.mem.wf = true) :
    Keeps (execVunpl d a nw s) := by
  refine issue_keeps _ _ (fun s gid g hm => ?_) hm
  grind [crossLane_wf, Effect.Canonical]

theorem execVshfl_keeps (d a b : Code) (nw : Bool) (s : State) (hm : s.mem.wf = true) :
    Keeps (execVshfl d a b nw s) := by
  refine issue_keeps _ _ (fun s gid g hm => ?_) hm
  grind [crossLane_wf, Effect.Canonical]

theorem execVshfx_keeps (d a b : Code) (nw : Bool) (s : State) (hm : s.mem.wf = true) :
    Keeps (execVshfx d a b nw s) := by
  refine issue_keeps _ _ (fun s gid g hm => ?_) hm
  grind [crossLane_wf, Effect.Canonical]

theorem execVbcl_keeps (d a b : Code) (nw : Bool) (s : State) (hm : s.mem.wf = true) :
    Keeps (execVbcl d a b nw s) := by
  refine issue_keeps _ _ (fun s gid g hm => ?_) hm
  grind [crossLane_wf, Effect.Canonical]

theorem execVmov_keeps (d a : Code) (nw : Bool) (s : State) (hm : s.mem.wf = true) :
    Keeps (execVmov d a nw s) := by
  refine issue_keeps _ _ (fun s gid g hm => ?_) hm
  grind [crossLane_wf, Effect.Canonical]

theorem execVfirst_keeps (d a : Code) (nw : Bool) (s : State) (hm : s.mem.wf = true) :
    Keeps (execVfirst d a nw s) := by
  refine issue_keeps _ _ (fun s gid g hm => ?_) hm
  grind [crossScalar_wf, uceLanes_wf, setGroup_mem, Effect.Canonical]

theorem execVballot_keeps (d a : Code) (nw : Bool) (s : State) (hm : s.mem.wf = true) :
    Keeps (execVballot d a nw s) := by
  refine issue_keeps _ _ (fun s gid g hm => ?_) hm
  grind [crossScalar_wf, Effect.Canonical]

theorem execVscanI_keeps (d a : Code) (nw : Bool) (s : State) (hm : s.mem.wf = true) :
    Keeps (execVscanI d a nw s) := by
  refine issue_keeps _ _ (fun s gid g hm => ?_) hm
  grind [crossLane_wf, Effect.Canonical]

theorem execVscanF_keeps (d a : Code) (nw : Bool) (s : State) (hm : s.mem.wf = true) :
    Keeps (execVscanF d a nw s) := by
  refine issue_keeps _ _ (fun s gid g hm => ?_) hm
  grind [groupFlags_wf, Effect.Canonical]

theorem execVsel_keeps (d a b : Code) (nw : Bool) (m : BitVec 3) (s : State) (hm : s.mem.wf = true) :
    Keeps (execVsel d a b nw m s) := by
  refine issue_keeps _ _ (fun s gid g hm => ?_) hm
  grind [crossLane_wf, Effect.Canonical]

/-! ### Machine/Rop -/

theorem execVinterp_keeps (d a : Code) (nw : Bool) (s : State) (hm : s.mem.wf = true) :
    Keeps (execVinterp d a nw s) := by
  refine issue_keeps _ _ (fun s gid g hm => ?_) hm
  grind [setGroup_mem, Effect.Canonical]

theorem execZt_keeps (d : Code) (s : State) (hm : s.mem.wf = true) :
    Keeps (execZt d s) := by
  refine issue_keeps _ _ (fun s gid g hm => ?_) hm
  grind [laneFault_wf, foldl_testLane_wf, putInfo_wf, updGroup_mem, Effect.plain_canonical, Effect.Canonical]

theorem execPxout_keeps (a b : Code) (s : State) (hm : s.mem.wf = true) :
    Keeps (execPxout a b s) := by
  refine issue_keeps _ _ (fun s gid g hm => ?_) hm
  grind [laneFault_wf, foldl_sendColour_wf, putInfo_wf, Effect.plain_canonical, Effect.Canonical]

/-! ### Machine/VectorFloat -/

theorem execVfdot2_keeps (d a b : Code) (nw : Bool) (s : State) (hm : s.mem.wf = true) :
    Keeps (execVfdot2 d a b nw s) := by
  refine issue_keeps _ _ (fun s gid g hm => ?_) hm
  grind [floatResult_wf, Effect.Canonical]

end Sys2Proof.Machine

/-! Every device step keeps the memory canonical (O58). -/

namespace Sys2Proof.Machine

open Assoc Bits State Sys2Proof.Machine.Float

/-! ### Machine/Buffers -/

theorem execCbDescriptorWrite_keeps (n off size : Nat) (v : DWord) (s : State) (hm : s.mem.wf = true) :
    Keeps (execCbDescriptorWrite n off size v s) := by
  unfold execCbDescriptorWrite
  grind [cbStore_wf, raise_wf, Keeps]

/-! ### Machine/Order -/

theorem execResidencyRequestForward_keeps (s : State) (hm : s.mem.wf = true) :
    Keeps (execResidencyRequestForward s) := by
  unfold execResidencyRequestForward
  grind [report_mem, Keeps]

theorem execLoadReturn_keeps (gid k : Nat) (s : State) (hm : s.mem.wf = true) :
    Keeps (execLoadReturn gid k s) := by
  unfold execLoadReturn
  grind [lanesGone_wf, returnLoad_wf, setGroup_mem, updGroup_mem, Keeps]

theorem execWriteReachesHome_keeps (gid k : Nat) (s : State) (hm : s.mem.wf = true) :
    Keeps (execWriteReachesHome gid k s) := by
  unfold execWriteReachesHome
  grind [applyWrite_wf, setGroup_mem, updGroup_mem, Keeps]

/-! ### Machine/Matrix -/

theorem execMatrixBatchComplete_keeps (gid : Nat) (s : State) (hm : s.mem.wf = true) :
    Keeps (execMatrixBatchComplete gid s) := by
  unfold execMatrixBatchComplete
  grind [lanesGone_wf, uceLanes_wf, ranHere_wf, setGroup_mem, Keeps]

/-! ### Machine/Placement -/

theorem execBlockPlacement_keeps (die : Nat) (s : State) (hm : s.mem.wf = true) :
    Keeps (execBlockPlacement die s) := by
  unfold execBlockPlacement
  grind [placeBid_wf, clearPassed_wf, setDie_mem, foldl_wf, Keeps]

/-! ### Machine/Draws -/

theorem execDrawStart_keeps (s : State) (hm : s.mem.wf = true) :
    Keeps (execDrawStart s) := by
  unfold execDrawStart
  grind [setDraw_wf, Keeps]

theorem execPrimitiveRasterise_keeps (s : State) (hm : s.mem.wf = true) :
    Keeps (execPrimitiveRasterise s) := by
  unfold execPrimitiveRasterise
  grind [advanceFront_wf, nextPrimitive_wf, Keeps]

/-! ### Machine/Spills -/

theorem execSpillFlip_keeps (ctx hn : Nat) (s : State) (hm : s.mem.wf = true) :
    Keeps (execSpillFlip ctx hn s) := by
  unfold execSpillFlip
  grind [setHandleState_wf, forgetCopies_wf, toCompressor_wf, Keeps]

theorem execRestoreFlip_keeps (ctx hn : Nat) (s : State) (hm : s.mem.wf = true) :
    Keeps (execRestoreFlip ctx hn s) := by
  unfold execRestoreFlip
  grind [setHandleState_wf, forgetCopies_wf, toBanks_wf, Keeps]

theorem execLlcszWrite_keeps (stack : Nat) (v : Word) (s : State) (hm : s.mem.wf = true) :
    Keeps (execLlcszWrite stack v s) := by
  unfold execLlcszWrite
  grind [writeSmcfg_wf, Keeps]

theorem execLlcResizeComplete_keeps (stack : Nat) (s : State) (hm : s.mem.wf = true) :
    Keeps (execLlcResizeComplete stack s) := by
  unfold execLlcResizeComplete
  grind [clearLlcRows_wf, setStack_mem, Keeps]

theorem execFrameMigration_keeps (src dst : Nat) (s : State) (hm : s.mem.wf = true) :
    Keeps (execFrameMigration src dst s) := by
  unfold execFrameMigration
  grind [copyRange_wf, Keeps]

theorem execFrameMigrationFlip_keeps (src : Nat) (s : State) (hm : s.mem.wf = true) :
    Keeps (execFrameMigrationFlip src s) := by
  unfold execFrameMigrationFlip
  grind [forgetCopies_wf, Keeps]

/-! ### Machine/Completion -/

theorem execLaunchComplete_keeps (lid : Nat) (s : State) (hm : s.mem.wf = true) :
    Keeps (execLaunchComplete lid s) := by
  unfold execLaunchComplete
  grind [dropRef_wf, statusWord_wf, setLaunch_mem, complete_wf, startRestores_wf, writeFinal_wf, Keeps]

theorem execDeadlinePassed_keeps (lid : Nat) (s : State) (hm : s.mem.wf = true) :
    Keeps (execDeadlinePassed lid s) := by
  unfold execDeadlinePassed
  grind [launchStatus_wf, updLaunch_mem, Keeps]

/-! ### Machine/Hops -/

theorem execRejoinApply_keeps (gid : Nat) (s : State) (hm : s.mem.wf = true) :
    Keeps (execRejoinApply gid s) := by
  unfold execRejoinApply
  grind [parkedFault_wf, ranHere_wf, boundary_wf, setGroup_mem, haltTrapped_wf, trapBoundary_wf, Keeps]

theorem execExitAwayRetire_keeps (gid : Nat) (s : State) (hm : s.mem.wf = true) :
    Keeps (execExitAwayRetire gid s) := by
  unfold execExitAwayRetire
  grind [retire_wf, Keeps]

/-! ### Machine/NearBank -/

theorem execNearbankComplete_keeps (oid : Nat) (s : State) (hm : s.mem.wf = true) :
    Keeps (execNearbankComplete oid s) := by
  unfold execNearbankComplete
  split
  · exact keeps_next hm
  next o _ =>
    split
    · exact keeps_next hm
    have hdone := bankDo_wf o s hm
    split
    · exact keeps_next hm
    next r hr => exact keeps_next (finishOp_wf _ _ _ (hdone _ hr))
    next t o' hr => exact keeps_next (hdone _ hr)

/-! ### Machine/Copies -/

theorem execCopyComplete_keeps (oid : Nat) (s : State) (hm : s.mem.wf = true) :
    Keeps (execCopyComplete oid s) := by
  unfold execCopyComplete
  split
  · exact keeps_next hm
  next o _ =>
    split
    next r _ =>
      split
      · exact keeps_next (finishOp_wf _ _ _ hm)
      have hrows := copyRows_wf o r (cdNy r * cdNz r - o.rows) o.rows o.poisoned s hm
      split
      next h => exact keeps_next (finishOp_wf _ _ _ (by rw [h] at hrows; exact hrows))
      next h => exact keeps_next (by rw [h] at hrows; exact hrows)
    next r _ =>
      refine keeps_next ?_
      split
      · exact endRing_wf _ _ _ _ hm
      · exact hm
    all_goals exact keeps_next hm

theorem execRingNotifyRead_keeps (oid : Nat) (s : State) (hm : s.mem.wf = true) :
    Keeps (execRingNotifyRead oid s) := by
  unfold execRingNotifyRead
  split
  · exact keeps_next hm
  next o _ =>
    split
    next r _ =>
      split
      · exact keeps_next hm
      dsimp only
      split
      · exact keeps_next (endRing_wf _ _ _ _ hm)
      · exact keeps_next hm
    all_goals exact keeps_next hm

theorem execRingEntryComplete_keeps (oid idx : Nat) (s : State) (hm : s.mem.wf = true) :
    Keeps (execRingEntryComplete oid idx s) := by
  unfold execRingEntryComplete
  split
  · exact keeps_next hm
  next o _ =>
    split
    next r _ =>
      dsimp only
      split
      · exact keeps_next hm
      split
      · exact keeps_next hm
      have hcopy := ringCopy_wf o (ringEntry s o r idx) s hm
      split
      next h =>
        rw [h] at hcopy
        split
        · exact keeps_next hm
        · exact keeps_next (endRing_wf _ _ _ _ (storeNat_wf _ _ _ _ hcopy))
      next h => rw [h] at hcopy; exact keeps_next (writeDones_wf _ _ _ _ hcopy)
    all_goals exact keeps_next hm

theorem execCpredSendComplete_keeps (oid : Nat) (s : State) (hm : s.mem.wf = true) :
    Keeps (execCpredSendComplete oid s) := by
  unfold execCpredSendComplete
  grind [tileRead_wf, finishOp_wf, Keeps]

theorem execCombineArrival_keeps (p : CombinePart) (s : State) (hm : s.mem.wf = true) :
    Keeps (execCombineArrival p s) := by
  unfold execCombineArrival
  grind [combineWrite_wf, Keeps]

theorem execCombineTimeout_keeps (k : Nat) (s : State) (hm : s.mem.wf = true) :
    Keeps (execCombineTimeout k s) := by
  unfold execCombineTimeout
  grind [combineWrite_wf, Keeps]

/-! ### Machine/Queues -/

theorem execQueueTailWrite_keeps (q : Nat) (tail : Word) (s : State) (hm : s.mem.wf = true) :
    Keeps (execQueueTailWrite q tail s) := by
  unfold execQueueTailWrite
  grind [restartQueue_wf, writeDesc_wf, Keeps]

theorem withCmd_keeps (s : State) (q : Nat) (p : Cmd → Bool) (errs : State → Cmd → List (Nat × Bool))
    {body reads : State → Cmd → State} (hb : ∀ s c, s.mem.wf = true → (body s c).mem.wf = true)
    (hr : ∀ s c, s.mem.wf = true → (reads s c).mem.wf = true) (hm : s.mem.wf = true) :
    Keeps (withCmd s q p errs body reads) := by
  have hf := fetchCmd_wf s q hm
  unfold withCmd
  grind [serve_wf, passOver_wf, stopQueue_wf, Keeps]

theorem execUndefinedCommand_keeps (q : Nat) (s : State) (hm : s.mem.wf = true) :
    Keeps (execUndefinedCommand q s) := by
  unfold execUndefinedCommand
  grind [fetchCmd_wf, stopQueue_wf, serve_wf, passOver_wf, Keeps]

theorem execLoopCounted_keeps (q : Nat) (s : State) (hm : s.mem.wf = true) :
    Keeps (execLoopCounted q s) := by
  refine withCmd_keeps _ _ _ _ (fun s c hm => ?_) (fun s c hm => ?_) hm
  · grind [nextRecord_wf, setOpens_wf]
  · exact hm

theorem execLoopConditional_keeps (q : Nat) (s : State) (hm : s.mem.wf = true) :
    Keeps (execLoopConditional q s) := by
  refine withCmd_keeps _ _ _ _ (fun s c hm => ?_) (fun s c hm => ?_) hm
  · grind [condWord_wf, nextRecord_wf, setOpens_wf]
  · exact hm

theorem execEndloop_keeps (q : Nat) (s : State) (hm : s.mem.wf = true) :
    Keeps (execEndloop q s) := by
  refine withCmd_keeps _ _ _ _ (fun s c hm => ?_) (fun s c hm => ?_) hm
  · grind [setHead_wf, setOpens_wf, nextRecord_wf]
  · exact hm

theorem execCmdIf_keeps (q : Nat) (s : State) (hm : s.mem.wf = true) :
    Keeps (execCmdIf q s) := by
  refine withCmd_keeps _ _ _ _ (fun s c hm => ?_) (fun s c hm => ?_) hm
  · grind [condWord_wf, nextRecord_wf, setOpens_wf]
  · exact hm

theorem execCmdElse_keeps (q : Nat) (s : State) (hm : s.mem.wf = true) :
    Keeps (execCmdElse q s) := by
  refine withCmd_keeps _ _ _ _ (fun s c hm => ?_) (fun s c hm => ?_) hm
  · grind [nextRecord_wf, setOpens_wf]
  · exact hm

theorem execCmdEndif_keeps (q : Nat) (s : State) (hm : s.mem.wf = true) :
    Keeps (execCmdEndif q s) := by
  refine withCmd_keeps _ _ _ _ (fun s c hm => ?_) (fun s c hm => ?_) hm
  · grind [nextRecord_wf, setOpens_wf]
  · exact hm

theorem execWaitmem_keeps (q : Nat) (s : State) (hm : s.mem.wf = true) :
    Keeps (execWaitmem q s) := by
  refine withCmd_keeps _ _ _ _ (fun s c hm => ?_) (fun s c hm => ?_) hm
  · grind [condWord_wf, nextRecord_wf, statusWord_wf, holdCmd_wf]
  · exact hm

theorem execWaitmemTimeout_keeps (q : Nat) (s : State) (hm : s.mem.wf = true) :
    Keeps (execWaitmemTimeout q s) := by
  unfold execWaitmemTimeout
  grind [fetchCmd_wf, condWord_wf, stopQueue_wf, Keeps]

theorem execSignal_keeps (q : Nat) (s : State) (hm : s.mem.wf = true) :
    Keeps (execSignal q s) := by
  refine withCmd_keeps _ _ _ _ (fun s c hm => ?_) (fun s c hm => ?_) hm
  · grind [holdCmd_wf, fireSignal_wf]
  · exact hm

theorem execSignalConfirmed_keeps (q : Nat) (s : State) (hm : s.mem.wf = true) :
    Keeps (execSignalConfirmed q s) := by
  refine withCmd_keeps _ _ _ _ (fun s c hm => ?_) (fun s c hm => ?_) hm
  · grind [holdCmd_wf, fireSignal_wf]
  · exact hm

theorem execFenceCmd_keeps (q : Nat) (s : State) (hm : s.mem.wf = true) :
    Keeps (execFenceCmd q s) := by
  refine withCmd_keeps _ _ _ _ (fun s c hm => ?_) (fun s c hm => ?_) hm
  · grind [nextRecord_wf, holdCmd_wf]
  · exact hm

/-! ### Machine/Commands -/

theorem execLaunch_keeps (q : Nat) (s : State) (hm : s.mem.wf = true) :
    Keeps (execLaunch q s) :=
  withCmd_keeps _ _ _ _ (fun s c hm => launchCmd_wf s c false hm) (fun s c hm => launchReads_wf false s c hm) hm

theorem execLaunchi_keeps (q : Nat) (s : State) (hm : s.mem.wf = true) :
    Keeps (execLaunchi q s) :=
  withCmd_keeps _ _ _ _ (fun s c hm => launchCmd_wf s c true hm) (fun s c hm => launchReads_wf true s c hm) hm

theorem sfallocHead_keeps (q base : Nat) (s : State) (hm : s.mem.wf = true) :
    Keeps (sfallocHead q base s) := by
  refine withCmd_keeps _ _ _ _ (fun s c hm => ?_) (fun s c hm => sfallocReads_wf s c hm) hm
  have hread := readImage_wf s c hm
  split
  · exact hm
  next t bs ht =>
    have halloc := allocAct_wf t (allocOf c bs) base (hread _ _ ht)
    split
    next h => rw [h] at halloc; exact nextRecord_wf _ _ halloc
    next h => rw [h] at halloc; exact runCmd_wf _ _ _ halloc

theorem execSfalloc_keeps (q base : Nat) (s : State) (hm : s.mem.wf = true) :
    Keeps (execSfalloc q base s) := by
  unfold execSfalloc
  split
  · exact sfallocHead_keeps q base s hm
  next r _ =>
    have halloc := allocAct_wf s r base hm
    split
    next h => rw [h] at halloc; exact keeps_next (dropRef_wf _ _ halloc)
    next h =>
      rw [h] at halloc
      split
      · exact sfallocHead_keeps q base s hm
      · exact keeps_next halloc

theorem sffreeHead_keeps (q : Nat) (s : State) (hm : s.mem.wf = true) :
    Keeps (sffreeHead q s) := by
  refine withCmd_keeps _ _ _ _ (fun s c hm => ?_) (fun s c hm => ?_) hm
  · grind [endCmd_wf, freeHandle_wf, runCmd_wf]
  · exact hm

theorem execSffree_keeps (q : Nat) (s : State) (hm : s.mem.wf = true) :
    Keeps (execSffree q s) := by
  unfold execSffree
  grind [dropRef_wf, statusWord_wf, freeHandle_wf, sffreeHead_keeps, Keeps]

theorem execCopy_keeps (q : Nat) (s : State) (hm : s.mem.wf = true) :
    Keeps (execCopy q s) := by
  refine withCmd_keeps _ _ _ _ (fun s c hm => ?_) (fun s c hm => ?_) hm
  · grind [readCopy_wf, endCmd_wf, holdCmd_wf, freshId_wf, runCmd_wf, setOp_mem]
  · exact hm

theorem execVfset_keeps (q : Nat) (s : State) (hm : s.mem.wf = true) :
    Keeps (execVfset q s) := by
  refine withCmd_keeps _ _ _ _ (fun s c hm => ?_) (fun s c hm => ?_) hm
  · grind [endCmd_wf, freshId_wf, askFrequency_wf, runCmd_wf, statusWord_wf, foldl_wf]
  · exact hm

theorem execCpgateGate_keeps (q : Nat) (s : State) (hm : s.mem.wf = true) :
    Keeps (execCpgateGate q s) := by
  refine withCmd_keeps _ _ _ _ (fun s c hm => ?_) (fun s c hm => ?_) hm
  · grind [endCmd_wf, dropRef_wf, setCore_mem, settleGate_wf, runCmd_wf]
  · exact hm

theorem execCpgateUngate_keeps (q : Nat) (s : State) (hm : s.mem.wf = true) :
    Keeps (execCpgateUngate q s) := by
  refine withCmd_keeps _ _ _ _ (fun s c hm => ?_) (fun s c hm => ?_) hm
  · grind [endCmd_wf, wakeCore_wf]
  · exact hm

/-! ### Machine/Landing -/

theorem execContinuationArrival_keeps (k : Nat) (s : State) (hm : s.mem.wf = true) :
    Keeps (execContinuationArrival k s) := by
  unfold execContinuationArrival
  grind [recordGone_wf, sendReturn_wf, wakeGated_wf, setCore_mem, Keeps]

theorem execPoolDue_keeps (core k : Nat) (s : State) (hm : s.mem.wf = true) :
    Keeps (execPoolDue core k s) := by
  unfold execPoolDue
  grind [setCore_mem, Keeps]

theorem execMigrantLaunch_keeps (core : Nat) (s : State) (hm : s.mem.wf = true) :
    Keeps (execMigrantLaunch core s) := by
  unfold execMigrantLaunch
  grind [addGroup_wf, setCore_mem, Keeps]

theorem execReturnArrival_keeps (k : Nat) (s : State) (hm : s.mem.wf = true) :
    Keeps (execReturnArrival k s) := by
  unfold execReturnArrival
  grind [returnTo_wf, Keeps]

theorem execSiteNotice_keeps (k : Nat) (s : State) (hm : s.mem.wf = true) :
    Keeps (execSiteNotice k s) := by
  unfold execSiteNotice
  grind [updGroup_mem, returnTo_wf, Keeps]

theorem execPackageFenced_keeps (pkg : Nat) (s : State) (hm : s.mem.wf = true) :
    Keeps (execPackageFenced pkg s) := by
  unfold execPackageFenced
  grind [returnTo_wf, foldl_wf, Keeps]

/-! ### Machine/Sync -/

theorem execBarrierStall_keeps (cluster b : Nat) (s : State) (hm : s.mem.wf = true) :
    Keeps (execBarrierStall cluster b s) := by
  unfold execBarrierStall
  grind [setCluster_mem, report_mem, pitWrite_wf, Keeps]

theorem execEvpendWrite_keeps (v : Word) (s : State) (hm : s.mem.wf = true) :
    Keeps (execEvpendWrite v s) := by
  unfold execEvpendWrite
  grind [updGroup_mem, Keeps]

theorem execGroupTimerMatch_keeps (gid : Nat) (s : State) (hm : s.mem.wf = true) :
    Keeps (execGroupTimerMatch gid s) := by
  unfold execGroupTimerMatch
  grind [setGroup_mem, Keeps]

theorem execWaitanyWake_keeps (gid : Nat) (s : State) (hm : s.mem.wf = true) :
    Keeps (execWaitanyWake gid s) := by
  unfold execWaitanyWake
  grind [parkedFault_wf, ranHere_wf, setGroup_mem, Keeps]

theorem execFetchwDelivery_keeps (gid : Nat) (s : State) (hm : s.mem.wf = true) :
    Keeps (execFetchwDelivery gid s) := by
  unfold execFetchwDelivery
  grind [setGroup_mem, setLaunch_mem, storeNat_wf, Keeps]

/-! ### Machine/SysRegs -/

theorem byCurrent_keeps (s : State) {f : Nat → Group → State} (hf : ∀ gid g, (f gid g).mem.wf = true)
    (hm : s.mem.wf = true) : Keeps (byCurrent s f) := by
  unfold byCurrent
  grind [Keeps]

theorem execMtcapWrite_keeps (v : Word) (s : State) (hm : s.mem.wf = true) :
    Keeps (execMtcapWrite v s) := by
  refine byCurrent_keeps _ (fun gid g => ?_) hm
  grind [sysWrite_wf]

theorem execLdtmoWrite_keeps (v : Word) (s : State) (hm : s.mem.wf = true) :
    Keeps (execLdtmoWrite v s) := by
  refine byCurrent_keeps _ (fun gid g => ?_) hm
  grind [sysWrite_wf]

theorem execTstatWrite_keeps (v : Word) (s : State) (hm : s.mem.wf = true) :
    Keeps (execTstatWrite v s) := by
  refine byCurrent_keeps _ (fun gid g => ?_) hm
  grind [setGroup_mem]

theorem execFstrWrite_keeps (v : Word) (s : State) (hm : s.mem.wf = true) :
    Keeps (execFstrWrite v s) := by
  refine byCurrent_keeps _ (fun gid g => ?_) hm
  grind [setGroup_mem]

/-! ### Machine/Power -/

theorem execTokenRefill_keeps (cluster : Nat) (s : State) (hm : s.mem.wf = true) :
    Keeps (execTokenRefill cluster s) := by
  unfold execTokenRefill
  grind [setCore_mem, setCluster_mem, engineCycle_wf, refreshWhere_wf, foldl_wf, Keeps]

theorem execFrequencyChange_keeps (die : Nat) (s : State) (hm : s.mem.wf = true) :
    Keeps (execFrequencyChange die s) := by
  unfold execFrequencyChange
  grind [endRequest_wf, vfLog_wf, setDie_mem, Keeps]

theorem execVfsetTimeout_keeps (die : Nat) (s : State) (hm : s.mem.wf = true) :
    Keeps (execVfsetTimeout die s) := by
  unfold execVfsetTimeout
  grind [endRequest_wf, vfLog_wf, markLate_wf, Keeps]

theorem execCoreGate_keeps (core : Nat) (s : State) (hm : s.mem.wf = true) :
    Keeps (execCoreGate core s) := by
  unfold execCoreGate
  grind [settleGate_wf, Keeps]

theorem execFatalError_keeps (s : State) (hm : s.mem.wf = true) :
    Keeps (execFatalError s) := by
  unfold execFatalError
  grind [goFatal_wf, Keeps]

theorem execCanaryWarning_keeps (dom : Nat) (s : State) (hm : s.mem.wf = true) :
    Keeps (execCanaryWarning dom s) := by
  unfold execCanaryWarning
  grind [setDomain_mem, freeIndex_wf, pitWrite_wf, Keeps]

theorem execVoltageStepDown_keeps (dom : Nat) (s : State) (hm : s.mem.wf = true) :
    Keeps (execVoltageStepDown dom s) := by
  unfold execVoltageStepDown
  grind [setDomain_mem, Keeps]

theorem execCanaryFatal_keeps (dom : Nat) (s : State) (hm : s.mem.wf = true) :
    Keeps (execCanaryFatal dom s) := by
  unfold execCanaryFatal
  grind [goFatal_wf, Keeps]

theorem execDroopTrip_keeps (cluster : Nat) (s : State) (hm : s.mem.wf = true) :
    Keeps (execDroopTrip cluster s) := by
  unfold execDroopTrip
  grind [setCluster_mem, pitWrite_wf, Keeps]

theorem execDroopEnd_keeps (cluster : Nat) (s : State) (hm : s.mem.wf = true) :
    Keeps (execDroopEnd cluster s) := by
  unfold execDroopEnd
  grind [setCluster_mem, Keeps]

theorem execTallowUpdate_keeps (die : Nat) (temp : Int) (s : State) (hm : s.mem.wf = true) :
    Keeps (execTallowUpdate die temp s) := by
  unfold execTallowUpdate
  grind [setDie_mem, Keeps]

theorem execGddrOverheat_keeps (ctrl : Nat) (temp : Int) (s : State) (hm : s.mem.wf = true) :
    Keeps (execGddrOverheat ctrl temp s) := by
  unfold execGddrOverheat
  grind [setGddr_mem, freeIndex_wf, pitWrite_wf, Keeps]

/-! ### Machine/Assay -/

theorem execAssaySlotOpen_keeps (die : Nat) (s : State) (hm : s.mem.wf = true) :
    Keeps (execAssaySlotOpen die s) := by
  unfold execAssaySlotOpen
  grind [powerUp_wf, setDie_mem, Keeps]

theorem execAssayScanStart_keeps (die : Nat) (s : State) (hm : s.mem.wf = true) :
    Keeps (execAssayScanStart die s) := by
  unfold execAssayScanStart
  grind [setDie_mem, setCore_mem, Keeps]

theorem execAssayScanEnd_keeps (die : Nat) (pass : Bool) (s : State) (hm : s.mem.wf = true) :
    Keeps (execAssayScanEnd die pass s) := by
  unfold execAssayScanEnd
  grind [assayLog_wf, setCore_mem, corePassed_wf, failCore_wf, endSlot_wf, Keeps]

theorem execAssaySkip_keeps (die : Nat) (s : State) (hm : s.mem.wf = true) :
    Keeps (execAssaySkip die s) := by
  unfold execAssaySkip
  grind [setCore_mem, endSlot_wf, assayLog_wf, Keeps]

theorem execForcedSave_keeps (gid : Nat) (s : State) (hm : s.mem.wf = true) :
    Keeps (execForcedSave gid s) := by
  unfold execForcedSave
  split
  · exact keeps_next hm
  next g _ =>
    split
    · exact keeps_next hm
    next l _ =>
      split
      · exact keeps_next hm
      next r _ =>
        have hforced (r' : PreemptRun) : Keeps (.next (s.setLaunch g.launch { l with preempt := some r' })) :=
          keeps_next ((setLaunch_mem ..).symm ▸ hm)
        refine keeps_ite (keeps_next hm) ?_
        cases g.status with
        | ready => exact keeps_ite (keeps_next hm) (keeps_next ((setGroup_mem ..).symm ▸ hm))
        | parked p =>
          cases p with
          | cbget | mwait | transition | stalled => exact keeps_ite (keeps_next hm) (hforced _)
          | _ => exact keeps_next hm
        | halted _ => exact keeps_next hm
        | saved => exact keeps_next hm

theorem planOf_wf (s : State) (g : Group) (l : Launch) (spad : Nat) (hm : s.mem.wf = true) :
    ∀ t p, planOf s g l spad = .plan t p → t.mem.wf = true := by
  have hlive := ctxRead_wf s (ctxAgent l.root g.priv g.secure)
  unfold planOf
  grind [saveEvent_wf, updLaunch_mem]

theorem execGroupSave_keeps (gid : Nat) (s : State) (hm : s.mem.wf = true) :
    Keeps (execGroupSave gid s) := by
  unfold execGroupSave
  grind [planOf_wf, shutBatch_wf, failSave_wf, saveGroup_wf, Keeps]

theorem execPreempt_keeps (q : Nat) (s : State) (hm : s.mem.wf = true) :
    Keeps (execPreempt q s) := by
  unfold execPreempt
  split
  · exact keeps_next (finishPreempt_wf _ _ _ _ hm)
  · refine withCmd_keeps _ _ _ _ (fun s c hm => ?_) (fun s c hm => hm) hm
    grind [endCmd_wf, holdCmd_wf, setLaunch_mem, runCmd_wf, statusWord_wf]

/-! ### Machine/Package -/

theorem execTlbinvWrite_keeps (v : DWord) (s : State) (hm : s.mem.wf = true) :
    Keeps (execTlbinvWrite v s) := by
  unfold execTlbinvWrite
  grind [Keeps]

theorem execTlbinvDone_keeps (s : State) (hm : s.mem.wf = true) :
    Keeps (execTlbinvDone s) := by
  unfold execTlbinvDone
  grind [tlbinvClear_wf, Keeps]

theorem execFrozenClear_keeps (die : Nat) (v : Word) (s : State) (hm : s.mem.wf = true) :
    Keeps (execFrozenClear die v s) := by
  unfold execFrozenClear
  grind [writePithead_wf, Keeps]

theorem execRegisterWrite_keeps (r : RegTarget) (v : DWord) (s : State) (hm : s.mem.wf = true) :
    Keeps (execRegisterWrite r v s) := by
  unfold execRegisterWrite
  grind [writeControl_wf, sysWrite_wf, setCore_mem, Keeps]

theorem execFabricBringUp_keeps (pkg key : Nat) (s : State) (hm : s.mem.wf = true) :
    Keeps (execFabricBringUp pkg key s) := by
  unfold execFabricBringUp
  grind [Keeps]

theorem execRemoteAccessArrival_keeps (a : RemoteAccess) (s : State) (hm : s.mem.wf = true) :
    Keeps (execRemoteAccessArrival a s) := by
  unfold execRemoteAccessArrival
  grind [touchPlace_mem, store_wf, atomAt_wf, Keeps]

theorem execAttestationQuote_keeps (nonce : BitVec 256) (s : State) (hm : s.mem.wf = true) :
    Keeps (execAttestationQuote nonce s) := by
  unfold execAttestationQuote
  grind [Keeps]

theorem execPackageReset_keeps (boot : BootChoice) (s : State) : Keeps (execPackageReset boot s) := by
  unfold execPackageReset
  exact keeps_next (foldl_wf (fun s d hm => (setDie_mem s d _).symm ▸ hm) _ _ (by decide : State.reset.mem.wf = true))

/-! ### Machine/Rop -/

theorem execFragmentApply_keeps (k : Nat) (s : State) (hm : s.mem.wf = true) :
    Keeps (execFragmentApply k s) := by
  unfold execFragmentApply
  grind [applyFrag_wf, applyDepth_wf, Keeps]

/-! ### Machine/TrapSteps -/

theorem execUndefinedWord_keeps (w : Word) (s : State) (hm : s.mem.wf = true) :
    Keeps (execUndefinedWord w s) := by
  unfold execUndefinedWord
  grind [raise_wf, ranHere_wf, Keeps]

theorem execFetchFault_keeps (s : State) (hm : s.mem.wf = true) :
    Keeps (execFetchFault s) := by
  unfold execFetchFault
  grind [raise_wf, uceKill_wf, Keeps]

theorem execTrapTimer_keeps (gid : Nat) (s : State) (hm : s.mem.wf = true) :
    Keeps (execTrapTimer gid s) := by
  unfold execTrapTimer
  grind [trapBoundary_wf, setGroup_mem, Keeps]

theorem execBreakpointHalt_keeps (gid : Nat) (s : State) (hm : s.mem.wf = true) :
    Keeps (execBreakpointHalt gid s) := by
  unfold execBreakpointHalt
  grind [setCore_mem, report_mem, setGroup_mem, Keeps]

theorem execDebugRelease_keeps (gid : Nat) (s : State) (hm : s.mem.wf = true) :
    Keeps (execDebugRelease gid s) := by
  unfold execDebugRelease
  grind [barRecount_wf, setGroup_mem, goToNext_wf, updGroup_mem, Keeps]

theorem execDebuggerAttach_keeps (lid : Nat) (on : Bool) (s : State) (hm : s.mem.wf = true) :
    Keeps (execDebuggerAttach lid on s) := by
  unfold execDebuggerAttach
  grind [updLaunch_mem, Keeps]

end Sys2Proof.Machine

/-! Every instruction, turn and action keeps the memory canonical (O58). -/

namespace Sys2Proof.Machine

open Assoc Bits State Sys2Proof.Machine.Float

/-! ### Every instruction keeps the memory canonical -/

theorem exec_keeps (i : Instr) (s : State) (hm : s.mem.wf = true) : Keeps (exec i s) := by
  cases i with
  | vadd | vsub | vmul | vmulh | vmulhu | vand | vor | vxor | vandn | vshl | vshr | vsra | vmin | vmax | vminu
    | vmaxu | vadds | vaddus | vsubs | vsubus | vabsd | vbfx =>
    exact issue_keeps _ _ (fun _ _ _ hm => lane2_wf (hm := hm) ..) hm
  | vpopc | vclz | vbrev | vaddi => exact issue_keeps _ _ (fun _ _ _ hm => lane1_wf (hm := hm) ..) hm
  | vadd64 | vsub64 | vshl64 => exact issue_keeps _ _ (fun _ _ _ hm => lanePair_wf (hm := hm) ..) hm
  | vfadd | vfsub | vfmul | vfmin | vfmax | vfabs | vfneg | vfdiv | vfsqrt | vfrcp | vfrsq | vfex2 | vflg2 | vfsin
    | vfcos | vfma | vfnma => exact issue_keeps _ _ (fun _ _ _ hm => floatLanes_wf (hm := hm) ..) hm
  | vcmp_eq | vcmp_ne | vcmp_lt | vcmp_le | vcmp_ltu | vcmp_leu =>
    exact issue_keeps _ _ (fun _ _ _ hm => intCompare_wf (hm := hm) ..) hm
  | vfcmp_eq | vfcmp_ne | vfcmp_lt | vfcmp_le | vfcmp_un =>
    exact issue_keeps _ _ (fun _ _ _ hm => floatCompare_wf (hm := hm) ..) hm
  | vredadd_i | vredmin_s | vredmin_u | vredmax_s | vredmax_u =>
    exact issue_keeps _ _ (fun _ _ _ hm => intReduction_wf (hm := hm) ..) hm
  | vredadd_f | vredmin_f | vredmax_f => exact issue_keeps _ _ (fun _ _ _ hm => floatReduction_wf (hm := hm) ..) hm
  | mand | mor | mxor | mandn => exact issue_keeps _ _ (fun _ _ _ hm => mask2_wf (hm := hm) ..) hm
  | sadd | ssub | smul | smulh | sand | sor | sxor | sshl | sshr | ssra | smin | smax | sslt | ssltu =>
    exact issue_keeps _ _ (fun _ _ _ hm => scalar2_wf (hm := hm) ..) hm
  | saddi | sandi | sori | sxori | sshli | sshri | ssrai | sslti =>
    exact issue_keeps _ _ (fun _ _ _ hm => scalarImm_wf (hm := hm) ..) hm
  | b_eq | b_ne | b_lt | b_ge | b_gt | b_le => exact issue_keeps _ _ (fun _ _ _ hm => branchScalar_wf (hm := hm) ..) hm
  | bm_any | bm_none | bm_all => exact issue_keeps _ _ (fun _ _ _ hm => branchMask_wf (hm := hm) ..) hm
  | vld_s8 | vld_z8 | vld_s16 | vld_z16 | vld_w | vld_d =>
    exact issue_keeps _ _ (fun _ _ _ hm => vectorLoad_wf (hm := hm) ..) hm
  | vst_b | vst_h | vst_w | vst_d => exact issue_keeps _ _ (fun _ _ _ hm => vectorStore_wf (hm := hm) ..) hm
  | sld_w | sld_d => exact issue_keeps _ _ (fun _ _ _ hm => scalarLoad_wf (hm := hm) ..) hm
  | sst_w | sst_d => exact issue_keeps _ _ (fun _ _ _ hm => scalarStore_wf (hm := hm) ..) hm
  | vatom_iadd | vatom_fadd | vatom_and | vatom_or | vatom_smin | vatom_smax | vatom_xchg | vatom_cas =>
    exact issue_keeps _ _ (fun _ _ _ hm => vectorAtomic_wf (hm := hm) ..) hm
  | cflush | cinv | czero => exact issue_keeps _ _ (fun _ _ _ hm => rangeOp_wf (hm := hm) ..) hm
  | mma | mmab => exact issue_keeps _ _ (fun _ _ _ hm => matrixOp_wf (hm := hm) ..) hm
  | ivsld | bmac | embw => exact issue_keeps _ _ (fun _ _ _ hm => bankIssue_wf (hm := hm) ..) hm
  | vbfi => exact execVbfi_keeps _ _ _ s hm
  | vmulw => exact execVmulw_keeps _ _ _ _ s hm
  | vfdot2 => exact execVfdot2_keeps _ _ _ _ s hm
  | vfclass => exact execVfclass_keeps _ _ _ s hm
  | vcvt => exact execVcvt_keeps _ _ _ _ _ _ s hm
  | vcvtef => exact execVcvtef_keeps _ _ _ s hm
  | vplane => exact execVplane_keeps _ _ _ s hm
  | vunpl => exact execVunpl_keeps _ _ _ s hm
  | vshfl => exact execVshfl_keeps _ _ _ _ s hm
  | vshfx => exact execVshfx_keeps _ _ _ _ s hm
  | vbcl => exact execVbcl_keeps _ _ _ _ s hm
  | vfirst => exact execVfirst_keeps _ _ _ s hm
  | vscan_i => exact execVscanI_keeps _ _ _ s hm
  | vscan_f => exact execVscanF_keeps _ _ _ s hm
  | vballot => exact execVballot_keeps _ _ _ s hm
  | vmov => exact execVmov_keeps _ _ _ s hm
  | vsel => exact execVsel_keeps _ _ _ _ _ s hm
  | mnot => exact execMnot_keeps _ _ s hm
  | mset => exact execMset_keeps _ _ s hm
  | mget => exact execMget_keeps _ _ _ s hm
  | mclr => exact execMclr_keeps _ s hm
  | mcnt => exact execMcnt_keeps _ _ _ s hm
  | saddx => exact execSaddx_keeps _ _ _ _ s hm
  | sli => exact execSli_keeps _ _ s hm
  | slui => exact execSlui_keeps _ _ s hm
  | j => exact execJ_keeps _ s hm
  | call => exact execCall_keeps _ s hm
  | jr => exact execJr_keeps _ s hm
  | ret => exact execRet_keeps s hm
  | exit => exact execExit_keeps s hm
  | vif => exact execVif_keeps _ s hm
  | velse => exact execVelse_keeps s hm
  | vendif => exact execVendif_keeps s hm
  | vkill => exact execVkill_keeps _ s hm
  | fmt => exact execFmt_keeps _ s hm
  | winb => exact execWinb_keeps _ s hm
  | trap => exact execTrap_keeps _ s hm
  | rett => exact execRett_keeps s hm
  | brk => exact execBrk_keeps _ s hm
  | nop => exact execNop_keeps s hm
  | loop => exact execLoop_keeps _ _ s hm
  | ppt => exact execPpt_keeps _ s hm
  | vldc => exact execVldc_keeps _ _ _ _ _ s hm
  | vstc => exact execVstc_keeps _ _ _ _ _ s hm
  | fence => exact execFence_keeps _ _ s hm
  | xfence => exact execXfence_keeps _ _ s hm
  | sattr => exact execSattr_keeps _ _ s hm
  | bar => exact execBar_keeps _ s hm
  | vpreq => exact execVpreq_keeps _ _ _ s hm
  | cbget => exact execCbget_keeps _ _ s hm
  | cbput => exact execCbput_keeps _ s hm
  | evbind => exact execEvbind_keeps _ _ _ s hm
  | evmask => exact execEvmask_keeps _ s hm
  | evclr => exact execEvclr_keeps _ s hm
  | evpend => exact execEvpend_keeps _ s hm
  | waitany => exact execWaitany_keeps _ s hm
  | fetchw => exact execFetchw_keeps _ s hm
  | spawn => exact execSpawn_keeps _ _ _ s hm
  | hop => exact execHop_keeps _ s hm
  | hopback => exact execHopback_keeps s hm
  | rejoin => exact execRejoin_keeps s hm
  | owner => exact execOwner_keeps _ _ _ s hm
  | hopcfg => exact execHopcfg_keeps _ s hm
  | hopx => exact execHopx_keeps _ s hm
  | tshape => exact execTshape_keeps _ _ s hm
  | mzero => exact execMzero_keeps _ s hm
  | mrd => exact execMrd_keeps _ _ _ s hm
  | mwr => exact execMwr_keeps _ _ _ s hm
  | mfence => exact execMfence_keeps _ s hm
  | mwait => exact execMwait_keeps _ s hm
  | msurf => exact execMsurf_keeps _ _ _ s hm
  | cpa => exact execCpa_keeps _ _ _ s hm
  | cpa_ring => exact execCpaRing_keeps _ _ _ s hm
  | cpred => exact execCpred_keeps _ _ _ s hm
  | sfld => exact execSfld_keeps _ _ _ s hm
  | sfst => exact execSfst_keeps _ _ _ s hm
  | zt => exact execZt_keeps _ s hm
  | pxout => exact execPxout_keeps _ _ s hm
  | vtxout => exact execVtxout_keeps _ _ _ s hm
  | vinterp => exact execVinterp_keeps _ _ _ s hm
  | tsmp => exact execTsmp_keeps _ _ _ s hm
  | csrr => exact execCsrr_keeps _ _ _ s hm
  | csrw => exact execCsrw_keeps _ _ s hm
  | launch => exact execLaunch_keeps _ s hm
  | launchi => exact execLaunchi_keeps _ s hm
  | loop_counted => exact execLoopCounted_keeps _ s hm
  | loop_conditional => exact execLoopConditional_keeps _ s hm
  | endloop => exact execEndloop_keeps _ s hm
  | cmd_if => exact execCmdIf_keeps _ s hm
  | cmd_else => exact execCmdElse_keeps _ s hm
  | cmd_endif => exact execCmdEndif_keeps _ s hm
  | waitmem => exact execWaitmem_keeps _ s hm
  | signal => exact execSignal_keeps _ s hm
  | signal_confirmed => exact execSignalConfirmed_keeps _ s hm
  | sfalloc => exact execSfalloc_keeps _ _ s hm
  | sffree => exact execSffree_keeps _ s hm
  | copy => exact execCopy_keeps _ s hm
  | preempt => exact execPreempt_keeps _ s hm
  | vfset => exact execVfset_keeps _ s hm
  | cpgate_gate => exact execCpgateGate_keeps _ s hm
  | cpgate_ungate => exact execCpgateUngate_keeps _ s hm
  | fence_cmd => exact execFenceCmd_keeps _ s hm
  | llcsz_write => exact execLlcszWrite_keeps _ _ s hm
  | tlbinv_write => exact execTlbinvWrite_keeps _ s hm
  | frozen_clear => exact execFrozenClear_keeps _ _ s hm
  | queue_tail_write => exact execQueueTailWrite_keeps _ _ s hm
  | cb_descriptor_write => exact execCbDescriptorWrite_keeps _ _ _ _ s hm
  | mtcap_write => exact execMtcapWrite_keeps _ s hm
  | evpend_write => exact execEvpendWrite_keeps _ s hm
  | ldtmo_write => exact execLdtmoWrite_keeps _ s hm
  | tstat_write => exact execTstatWrite_keeps _ s hm
  | fstr_write => exact execFstrWrite_keeps _ s hm
  | register_write => exact execRegisterWrite_keeps _ _ s hm
  | attestation_quote => exact execAttestationQuote_keeps _ s hm
  | package_reset => exact execPackageReset_keeps _ _
  | llc_resize_complete => exact execLlcResizeComplete_keeps _ s hm
  | tlbinv_done => exact execTlbinvDone_keeps s hm
  | block_placement => exact execBlockPlacement_keeps _ s hm
  | fetchw_delivery => exact execFetchwDelivery_keeps _ s hm
  | launch_complete => exact execLaunchComplete_keeps _ s hm
  | deadline_passed => exact execDeadlinePassed_keeps _ s hm
  | waitmem_timeout => exact execWaitmemTimeout_keeps _ s hm
  | token_refill => exact execTokenRefill_keeps _ s hm
  | frequency_change => exact execFrequencyChange_keeps _ s hm
  | vfset_timeout => exact execVfsetTimeout_keeps _ s hm
  | core_gate => exact execCoreGate_keeps _ s hm
  | forced_save => exact execForcedSave_keeps _ s hm
  | group_save => exact execGroupSave_keeps _ s hm
  | continuation_arrival => exact execContinuationArrival_keeps _ s hm
  | pool_due => exact execPoolDue_keeps _ _ s hm
  | migrant_launch => exact execMigrantLaunch_keeps _ s hm
  | return_arrival => exact execReturnArrival_keeps _ s hm
  | rejoin_apply => exact execRejoinApply_keeps _ s hm
  | exit_away_retire => exact execExitAwayRetire_keeps _ s hm
  | site_notice => exact execSiteNotice_keeps _ s hm
  | package_fenced => exact execPackageFenced_keeps _ s hm
  | waitany_wake => exact execWaitanyWake_keeps _ s hm
  | barrier_stall => exact execBarrierStall_keeps _ _ s hm
  | matrix_batch_complete => exact execMatrixBatchComplete_keeps _ s hm
  | nearbank_complete => exact execNearbankComplete_keeps _ s hm
  | copy_complete => exact execCopyComplete_keeps _ s hm
  | ring_notify_read => exact execRingNotifyRead_keeps _ s hm
  | ring_entry_complete => exact execRingEntryComplete_keeps _ _ s hm
  | cpred_send_complete => exact execCpredSendComplete_keeps _ s hm
  | combine_arrival => exact execCombineArrival_keeps _ s hm
  | combine_timeout => exact execCombineTimeout_keeps _ s hm
  | spill_flip => exact execSpillFlip_keeps _ _ s hm
  | restore_flip => exact execRestoreFlip_keeps _ _ s hm
  | frame_migration => exact execFrameMigration_keeps _ _ s hm
  | frame_migration_flip => exact execFrameMigrationFlip_keeps _ s hm
  | draw_start => exact execDrawStart_keeps s hm
  | primitive_rasterise => exact execPrimitiveRasterise_keeps s hm
  | fragment_apply => exact execFragmentApply_keeps _ s hm
  | assay_slot_open => exact execAssaySlotOpen_keeps _ s hm
  | assay_scan_start => exact execAssayScanStart_keeps _ s hm
  | assay_scan_end => exact execAssayScanEnd_keeps _ _ s hm
  | assay_skip => exact execAssaySkip_keeps _ s hm
  | canary_warning => exact execCanaryWarning_keeps _ s hm
  | voltage_step_down => exact execVoltageStepDown_keeps _ s hm
  | canary_fatal => exact execCanaryFatal_keeps _ s hm
  | fatal_error => exact execFatalError_keeps s hm
  | droop_trip => exact execDroopTrip_keeps _ s hm
  | tallow_update => exact execTallowUpdate_keeps _ _ s hm
  | gddr_overheat => exact execGddrOverheat_keeps _ _ s hm
  | trap_timer => exact execTrapTimer_keeps _ s hm
  | breakpoint_halt => exact execBreakpointHalt_keeps _ s hm
  | debug_release => exact execDebugRelease_keeps _ s hm
  | residency_request_forward => exact execResidencyRequestForward_keeps s hm
  | undefined_word => exact execUndefinedWord_keeps _ s hm
  | fetch_fault => exact execFetchFault_keeps s hm
  | undefined_command => exact execUndefinedCommand_keeps _ s hm
  | load_return => exact execLoadReturn_keeps _ _ s hm
  | write_reaches_home => exact execWriteReachesHome_keeps _ _ s hm
  | group_timer_match => exact execGroupTimerMatch_keeps _ s hm
  | droop_end => exact execDroopEnd_keeps _ s hm
  | remote_access_arrival => exact execRemoteAccessArrival_keeps _ s hm
  | fabric_bring_up => exact execFabricBringUp_keeps _ _ s hm
  | debugger_attach => exact execDebuggerAttach_keeps _ _ s hm

/-! ### What the machine does of itself -/

theorem roundOver_wf (s : State) (hm : s.mem.wf = true) : (roundOver s).mem.wf = true := by
  unfold roundOver
  refine foldl_wf (fun s cl hm => ?_) _ _ hm
  have hcycle := execTokenRefill_keeps cl s hm
  split
  next h => exact hcycle _ h
  all_goals exact hm

/-- A list of device steps each of which keeps the memory canonical. -/
def AllKeep (l : List DeviceStep) : Prop := ∀ d ∈ l, ∀ s : State, s.mem.wf = true → Keeps (d s)

theorem allKeep_nil : AllKeep [] := fun _ h => absurd h List.not_mem_nil

theorem allKeep_cons {d : DeviceStep} {l : List DeviceStep} (hd : ∀ s : State, s.mem.wf = true → Keeps (d s))
    (hl : AllKeep l) : AllKeep (d :: l) :=
  List.forall_mem_cons.2 ⟨hd, hl⟩

theorem allKeep_one {d : DeviceStep} (hd : ∀ s : State, s.mem.wf = true → Keeps (d s)) : AllKeep [d] :=
  allKeep_cons hd allKeep_nil

theorem allKeep_append {l m : List DeviceStep} (hl : AllKeep l) (hm : AllKeep m) : AllKeep (l ++ m) :=
  List.forall_mem_append.2 ⟨hl, hm⟩

theorem allKeep_map {α : Type} (as : List α) {f : α → DeviceStep}
    (hf : ∀ a, ∀ s : State, s.mem.wf = true → Keeps (f a s)) : AllKeep (as.map f) :=
  List.forall_mem_map.2 fun a _ => hf a

theorem allKeep_flatMap {α : Type} (as : List α) {f : α → List DeviceStep} (hf : ∀ a, AllKeep (f a)) :
    AllKeep (as.flatMap f) := by
  intro d hd
  obtain ⟨a, -, ha⟩ := List.mem_flatMap.1 hd
  exact hf a d ha

theorem allKeep_ite {p : Prop} [Decidable p] {l m : List DeviceStep} (hl : AllKeep l) (hm : AllKeep m) :
    AllKeep (if p then l else m) := by
  split
  · exact hl
  · exact hm

theorem groupSteps_keep (gid : Nat) (g : Group) : AllKeep (groupSteps gid g) := by
  unfold groupSteps
  refine allKeep_append (allKeep_append (allKeep_append (allKeep_append ?_ ?_) ?_) ?_) ?_
  · exact allKeep_map _ fun k => execLoadReturn_keeps gid k
  · exact allKeep_map _ fun k => execWriteReachesHome_keeps gid k
  · exact allKeep_ite allKeep_nil (allKeep_one (execMatrixBatchComplete_keeps gid))
  · exact allKeep_ite allKeep_nil (allKeep_one (execFetchwDelivery_keeps gid))
  · split
    · exact allKeep_one (execRejoinApply_keeps gid)
    · exact allKeep_one (execExitAwayRetire_keeps gid)
    · exact allKeep_one (execWaitanyWake_keeps gid)
    · exact allKeep_nil

theorem saveSteps_keep (s : State) (e : Nat × Group) : AllKeep (saveSteps s e) :=
  allKeep_ite (allKeep_cons (execGroupSave_keeps e.1) (allKeep_one (execForcedSave_keeps e.1))) allKeep_nil

theorem opSteps_keep (oid : Nat) (o : EngineOp) : AllKeep (opSteps oid o) := by
  unfold opSteps
  split
  · exact allKeep_one (execCopyComplete_keeps oid)
  · exact allKeep_one (execCpredSendComplete_keeps oid)
  · exact allKeep_one (execNearbankComplete_keeps oid)
  · exact allKeep_one (execNearbankComplete_keeps oid)
  · exact allKeep_one (execNearbankComplete_keeps oid)
  · exact allKeep_append (allKeep_append (allKeep_one (execRingNotifyRead_keeps oid))
      (allKeep_map _ (fun k => execRingEntryComplete_keeps oid _))) (allKeep_one (execCopyComplete_keeps oid))

theorem networkSteps_keep (s : State) : AllKeep (networkSteps s) := by
  unfold networkSteps
  refine allKeep_append (allKeep_append (allKeep_append (allKeep_append (allKeep_append (allKeep_append ?_ ?_) ?_)
    ?_) ?_)
    ?_) ?_
  · exact allKeep_map _ execContinuationArrival_keeps
  · exact allKeep_map _ execReturnArrival_keeps
  · exact allKeep_map _ execSiteNotice_keeps
  · exact allKeep_flatMap _ fun e => allKeep_append (allKeep_map _ fun k => execPoolDue_keeps e.1 k)
      (allKeep_ite allKeep_nil (allKeep_one (execMigrantLaunch_keeps e.1)))
  · exact allKeep_map _ fun p => execCombineArrival_keeps p.2
  · exact allKeep_map _ execCombineTimeout_keeps
  · exact allKeep_ite allKeep_nil (allKeep_one execResidencyRequestForward_keeps)

theorem surfaceSteps_keep (s : State) : AllKeep (surfaceSteps s) := by
  unfold surfaceSteps
  refine allKeep_append (allKeep_append (allKeep_append (allKeep_append (allKeep_append ?_ ?_) ?_) ?_) ?_) ?_
  · refine allKeep_flatMap _ fun e => ?_
    cases e.2.state with
    | spilling => exact allKeep_one (execSpillFlip_keeps _ _)
    | restoring => exact allKeep_one (execRestoreFlip_keeps _ _)
    | resident => exact allKeep_nil
    | spilled => exact allKeep_nil
  · exact allKeep_map _ fun m => execFrameMigrationFlip_keeps m.1
  · exact allKeep_map _ execLlcResizeComplete_keeps
  · exact allKeep_ite allKeep_nil (allKeep_one execTlbinvDone_keeps)
  · exact allKeep_map _ execFragmentApply_keeps
  · exact allKeep_ite (allKeep_cons execDrawStart_keeps (allKeep_one execPrimitiveRasterise_keeps)) allKeep_nil

theorem launchSteps_keep (s : State) : AllKeep (launchSteps s) := by
  unfold launchSteps
  refine allKeep_append (allKeep_append (allKeep_append (allKeep_append ?_ ?_) ?_) ?_) ?_
  · refine allKeep_flatMap _ fun e => ?_
    have hends := allKeep_cons (execLaunchComplete_keeps e.1) (allKeep_one (execDeadlinePassed_keeps e.1))
    cases e.2.phase with
    | running => exact hends
    | preempting => exact hends
    | saved => exact allKeep_nil
    | complete => exact allKeep_nil
  · exact allKeep_ite (allKeep_map _ execBlockPlacement_keeps) allKeep_nil
  · exact allKeep_flatMap _ (fun e => allKeep_ite allKeep_nil
      (allKeep_cons (execFrequencyChange_keeps e.1) (allKeep_one (execVfsetTimeout_keeps e.1))))
  · exact allKeep_flatMap _ fun e => allKeep_ite (allKeep_one (execCoreGate_keeps e.1)) allKeep_nil
  · exact allKeep_flatMap _ fun e => allKeep_map _ (fun b => execBarrierStall_keeps e.1 b.1)

theorem queueSteps_keep (s : State) (q : Nat) : AllKeep (queueSteps s q) := by
  unfold queueSteps
  refine allKeep_append (allKeep_flatMap _ fun r => ?_) ?_
  · cases r with
    | alloc _ => exact allKeep_one (execSfalloc_keeps q 0)
    | free => exact allKeep_one (execSffree_keeps q)
    | preempt _ => exact allKeep_one (execPreempt_keeps q)
    | _ => exact allKeep_nil
  · split
    · exact allKeep_nil
    · exact allKeep_one (execUndefinedCommand_keeps q)
    next c _ =>
      split
      · exact allKeep_one (execLaunch_keeps q)
      · exact allKeep_one (execLaunchi_keeps q)
      · refine allKeep_one ?_
        split
        · exact execLoopCounted_keeps q
        · exact execLoopConditional_keeps q
      · exact allKeep_one (execEndloop_keeps q)
      · exact allKeep_one (execCmdIf_keeps q)
      · exact allKeep_one (execCmdElse_keeps q)
      · exact allKeep_one (execCmdEndif_keeps q)
      · exact allKeep_cons (execWaitmem_keeps q) (allKeep_one (execWaitmemTimeout_keeps q))
      · refine allKeep_one ?_
        split
        · exact execSignal_keeps q
        · exact execSignalConfirmed_keeps q
      · exact allKeep_one (execSfalloc_keeps q 0)
      · exact allKeep_one (execSffree_keeps q)
      · exact allKeep_one (execCopy_keeps q)
      · exact allKeep_one (execPreempt_keeps q)
      · exact allKeep_one (execVfset_keeps q)
      · refine allKeep_one ?_
        split
        · exact execCpgateGate_keeps q
        · exact execCpgateUngate_keeps q
      · exact allKeep_one (execFenceCmd_keeps q)
      · exact allKeep_one (execUndefinedCommand_keeps q)

theorem commandSteps_keep (s : State) : AllKeep (commandSteps s) :=
  allKeep_ite allKeep_nil (allKeep_flatMap _ (queueSteps_keep s))

theorem deviceSteps_keep (s : State) : AllKeep (deviceSteps s) := by
  unfold deviceSteps
  refine allKeep_append (allKeep_append (allKeep_append (allKeep_append (allKeep_append (allKeep_append ?_ ?_) ?_)
    ?_) ?_)
    ?_) ?_
  · exact allKeep_flatMap _ fun e => groupSteps_keep e.1 e.2
  · exact networkSteps_keep s
  · exact allKeep_flatMap _ fun e => opSteps_keep e.1 e.2
  · exact surfaceSteps_keep s
  · exact allKeep_flatMap _ (saveSteps_keep s)
  · exact launchSteps_keep s
  · exact commandSteps_keep s

theorem firstThatMoves_wf (s : State) (hm : s.mem.wf = true) (l : List DeviceStep) (hl : AllKeep l) :
    ∀ t, firstThatMoves s l = some t → t.mem.wf = true := by
  induction l with
  | nil => intro t h; cases h
  | cons d l ih =>
    obtain ⟨hd, hl⟩ := List.forall_mem_cons.1 hl
    intro t h
    rw [firstThatMoves] at h
    split at h
    next u hu =>
      split at h
      · exact ih hl t h
      · cases h; exact hd s hm _ hu
    all_goals exact ih hl t h

/-! ### Turns, actions and the step -/

theorem runAgain_keeps (s : State) (gid : Nat) (g : Group) (hm : s.mem.wf = true) : Keeps (runAgain s gid g) := by
  unfold runAgain
  split
  · exact keeps_next hm
  next i _ =>
    have hexec := exec_keeps i (s.setGroup gid { g with status := .ready }) ((setGroup_mem ..).symm ▸ hm)
    refine keeps_ite (keeps_next hm) ?_
    split
    next t ht =>
      refine keeps_next ?_
      split
      · exact hm
      · exact hexec t ht
    · exact hexec

theorem runReady_keeps (s : State) (gid : Nat) (g : Group) (hm : s.mem.wf = true) : Keeps (runReady s gid g) := by
  unfold runReady
  refine keeps_ite (keeps_next (endGroup_wf s gid hm)) ?_
  refine keeps_ite (keeps_next (fpTrap_wf s gid g.chain g.chain.last hm)) ?_
  refine keeps_ite (keeps_next (haltAfter_wf s gid g hm)) ?_
  refine keeps_ite (execTrapTimer_keeps gid s hm) ?_
  refine keeps_ite (execBreakpointHalt_keeps gid s hm) ?_
  split
  · exact execFetchFault_keeps s hm
  next w h _ =>
    have hmark := markHit_wf s h hm
    refine keeps_ite (execFetchFault_keeps s hm) ?_
    dsimp only
    split
    · exact execUndefinedWord_keeps w _ hmark
    next i _ => exact keeps_ite (keeps_next hmark) (exec_keeps i _ hmark)

theorem runGroup_keeps (s : State) (gid : Nat) (late old : Bool) (hm : s.mem.wf = true) :
    Keeps (runGroup s gid late old) := by
  unfold runGroup
  dsimp only
  split
  · exact keeps_next hm
  next g _ =>
    refine keeps_ite (keeps_next hm) ?_
    split
    · exact runReady_keeps _ gid g hm
    · exact runAgain_keeps _ gid g hm
    · exact runAgain_keeps _ gid g hm
    all_goals exact keeps_next hm

theorem firstToIssue_keeps (s : State) (hm : s.mem.wf = true) (n : Nat) :
    ∀ t o, firstToIssue s n t = some o → Keeps o := by
  induction n with
  | zero => intro t o h; cases h
  | succ n ih =>
    intro t o h
    rw [firstToIssue] at h
    split at h
    · cases h
    next p _ =>
      have hrun := runGroup_keeps s p.2 false false hm
      split at h
      next u hu =>
        split at h
        · exact ih p o h
        · cases h; exact keeps_next (hrun u hu)
      · cases h; exact hrun

theorem idle_keeps (s : State) (hm : s.mem.wf = true) : Keeps (idle s) := by
  unfold idle
  split
  next t ht => exact keeps_next (firstThatMoves_wf s hm _ (deviceSteps_keep s) t ht)
  · split
    next o ho => exact firstToIssue_keeps s hm _ _ o ho
    · exact keeps_next (roundOver_wf s hm)

theorem act_keeps (a : Action) (s : State) (hm : s.mem.wf = true) : Keeps (act a s) := by
  cases a with
  | issue gid late => exact runGroup_keeps s gid late false hm
  | issueOld gid => exact runGroup_keeps s gid false true hm
  | device i => exact exec_keeps i _ hm
  | deviceLate i => exact exec_keeps i _ hm
  | evictL1 core line => exact keeps_next (writeBack_wf s core [line] hm)
  | upsetMem loc => exact keeps_next (markBad_wf s [loc] hm)
  | upsetV | upsetS | upsetSpecial | upsetLatch | upsetRow => exact keeps_next ((updGroup_mem ..).symm ▸ hm)
  | upsetControl gid =>
    refine keeps_next ?_
    split
    · split
      · exact hm
      · exact uceKill_wf _ _ _ hm
    · exact hm
  | hostWrite loc bs => exact keeps_next (restartTouched_wf _ _ _ (store_wf _ _ hm))
  | blowFuse cls =>
    refine keeps_next ?_
    split
    · exact hm
    · exact hm
  | _ => exact keeps_next hm

theorem oneStep_keeps (s : State) (hm : s.mem.wf = true) : Keeps (oneStep s) := by
  unfold oneStep
  split
  · exact keeps_ite (fun _ h => nomatch h) (act_keeps _ _ hm)
  · exact keeps_ite (fun _ h => nomatch h) (keeps_ite (fun _ h => nomatch h) (idle_keeps _ hm))

end Sys2Proof.Machine

namespace Sys2Proof

open Machine Claims

/-- Settles O58: every instruction, device step, turn and action keeps the memory canonical. -/
theorem memCanonicalKept : Obligations.MemCanonicalKept := by
  unfold Obligations.MemCanonicalKept
  exact fun s t hm hstep => oneStep_keeps s hm t hstep

end Sys2Proof
